-- ==== Sys2Proof/Word.lean ====
section
/-! DEFINITION. The word type, the byte and line types, and their plainest arithmetic (00 R5, R6). -/

namespace Sys2Proof

/-- A register or scalar of 64 bits (00 "Registers", 05 R129). -/
abbrev Word := BitVec 64

/-- A byte. -/
abbrev Byte := BitVec 8

/-- A device line or a granule of 64 bytes, byte 0 in the low bits (00 R6, 07 R206, 06 R177). -/
abbrev Line := BitVec 512

/-- The Nat in bits `lo` to `lo + n - 1` of `x`. -/
def nbits (x lo n : Nat) : Nat := (x / 2 ^ lo) % 2 ^ n

/-- The Nat in bits `lo` to `lo + n - 1` of a word: the field `[lo+n-1:lo]` (00 R5). -/
def Word.fld (w : Word) (lo n : Nat) : Nat := nbits w.toNat lo n

/-- Bit `i` of a word. -/
def Word.bit (w : Word) (i : Nat) : Bool := w.toNat.testBit i

/-- `w` with bits `lo` to `lo + n - 1` replaced by `v` (its low `n` bits). -/
def Word.setFld (w : Word) (lo n v : Nat) : Word :=
  BitVec.ofNat 64 (w.toNat - nbits w.toNat lo n * 2 ^ lo + (v % 2 ^ n) * 2 ^ lo)

/-- A word from a Nat, modulo 2^64. -/
abbrev Word.ofNat (n : Nat) : Word := BitVec.ofNat 64 n

/-- 1 for true, 0 for false. -/
def b2n (b : Bool) : Nat := if b then 1 else 0

/-- The two's complement integer of the low `n` bits of `x`. -/
def signedNat (x n : Nat) : Int :=
  let y := x % 2 ^ n
  if y < 2 ^ (n - 1) then (y : Int) else (y : Int) - (2 ^ n : Int)

/-- The low `n` bits of an integer, as a Nat. -/
def wrapNat (n : Nat) (x : Int) : Nat := (x % (2 ^ n : Int)).toNat

/-- Saturating addition with ceiling `m`. -/
def satAdd (m a b : Nat) : Nat := min m (a + b)

end Sys2Proof
end

