-- ==== Sys2Proof/Machine/Args.lean ====
section
/-! DEFINITION. The types of the commands' operands: what the outside names or supplies when it makes a step happen. -/

namespace Sys2Proof

/-- A cell of an engine: core, engine number, cell index (01 R16, 02 R36). -/
structure CellRef where
  core : Nat
  eng : Nat
  idx : Nat
  deriving DecidableEq, Repr

/-- The queues of a cell that hold asynchronous operations (04 R105, 06 R191). -/
inductive OpQueue where
  | tensor | move | relief
  deriving DecidableEq, Repr

/-- Who sent a request to a BAR, and on which host port: a root port of the host, or an agent with another requester identifier (11 R339, R346). -/
inductive Requester where
  | rootPort (port : Nat)
  | other (id port : Nat)
  deriving DecidableEq, Repr

/-- The host port that carried a request (11 R339). -/
def Requester.port : Requester → Nat
  | .rootPort p => p % 4
  | .other _ p => p % 4

/-- Who makes an access to a BAR: its requester on the host link, and the source it is taken for, 0 to 16 a function, 17 a management processor, 18 the root of trust, 20 the sideband (00 R8, 11 R346). -/
structure Sender where
  rq : Requester
  src : Nat
  deriving DecidableEq, Repr

/-- A BAR of a function and an offset in it (11 R342). -/
structure BarAddr where
  bar : Nat
  off : Nat
  deriving DecidableEq, Repr

/-- Corrected errors newly found in a physical cell (02 R27, R55). -/
structure CellErrors where
  cell : Nat
  n : Nat
  deriving DecidableEq, Repr

/-- A host access of a Chisel engine: its host virtual address and whether it writes (10 R323). -/
structure ChAccess where
  va : Nat
  write : Bool
  deriving DecidableEq, Repr

/-- What host memory answers to the reads of one step, by host physical line number (address / 64): the data of each line that has returned, the lines that came with the poisoned-data indication, and the lines whose read failed (18 R531). A line in none of them has not returned yet. -/
structure HostAnswer where
  lines : List (Nat × Line)
  poisoned : List Nat
  failed : List Nat
  deriving DecidableEq, Repr

/-- Why a cell traps by itself, apart from an instruction's own trap (05 R171): the word it fetched is illegal, it fetched outside the code section, it fetched from a poisoned line, or an asynchronous operation failed. -/
inductive TrapCause where
  | illegalWord (w : Word)
  | fetchOutside
  | fetchPoison
  | asyncFailed
  deriving DecidableEq, Repr

/-- What a read of a stack or bank found (14 R437, 06 R199): nothing wrong, an uncorrectable error in a data word, a tag that does not verify, or an uncorrectable error in the carve word. -/
inductive MemErr where
  | ok | corrected | data | tag | carve
  deriving DecidableEq, Repr

/-- CXL.cache snoops (11 R340). -/
inductive SnoopKind where
  | snpData | snpInv | snpCur
  deriving DecidableEq, Repr

/-- An ATS translation completion (10 R318): whether a translation is present, its size as a power of two, the host physical address, and the read and write grants. -/
structure AtsReply where
  present : Bool
  log2 : Nat
  hpa : Nat
  r : Bool
  w : Bool
  deriving DecidableEq, Repr

/-- A page request group response (10 R324). -/
inductive PrgCode where
  | success | invalid | failure
  deriving DecidableEq, Repr

/-- Why a fabric port goes down (13 R398). -/
inductive PortCause where
  | replays | lock | silent | disabled
  deriving DecidableEq, Repr

/-- A fabric packet: the fields of its header, its payload and its 16-byte tag (13 R408, R414). A packet on a link carries its payload encrypted. -/
structure Packet where
  typ : Nat
  vl : Nat
  keyIdx : Nat
  dst : Nat
  ttl : Nat
  src : Nat
  job : Nat
  oparg : Nat
  psn : Nat
  addr : Nat
  srank : Nat
  ref : Nat
  payload : List Byte
  tag : Nat
  deriving DecidableEq, Repr

/-- What a received flit of a fabric port says of the link: its sequence number, the number below which the neighbour has accepted every flit of ours, and the credits it gives, by 8 × traffic class + virtual lane (13 R397, R404; log 95). -/
structure LinkHdr where
  seq : Nat
  ack : Nat
  credits : List (Nat × Nat)
  deriving DecidableEq, Repr

/-- What reaches a fabric port beside a packet: the port, and what the flit says of the link (13 R397). -/
structure LinkRx where
  port : Nat
  hdr : LinkHdr
  deriving DecidableEq, Repr

/-- A fabric port, and the credits that its neighbour gives at the end of training, by 8 × traffic class + virtual lane (13 R398, R404). -/
structure PortCredits where
  port : Nat
  credits : List (Nat × Nat)
  deriving DecidableEq, Repr

/-- Who asks for a job key to be loaded (16 R477): the SHA-384 digests of the requester's identity key and firmware, whether it is a Jenmaene complex, its job partition's CONFIDENTIAL bit, and the key. -/
structure JobKeyRequester where
  conv : Nat
  job : Nat
  identity : BitVec 384
  fwDigest : BitVec 384
  jenmaene : Bool
  confidential : Bool
  key : Nat
  deriving DecidableEq, Repr

/-- Where an SPDM conversation runs (16 R475): a function's DOE, MCTP on the sideband, or a relayed conversation. -/
inductive SpdmChannel where
  | doe (f : Nat)
  | mctp
  | relay (conv : Nat)
  deriving DecidableEq, Repr

/-- An SPDM message as the complex sees it after its own checks (16 R475): an ordinary message, the completion of a key exchange (with the peer's identity key digest, when mutual), the end of a session, or IDE_KM keys for the link or for a function's stream. -/
inductive SpdmMsg where
  | plain (bytes : List Byte)
  | keyExchange (mutualAuth : Bool) (peer : BitVec 384)
  | endSession
  | ideKmCache
  | ideKmStream
  deriving DecidableEq, Repr

/-- A clock island (17 R498): a cell island, a core island, or a home island. -/
inductive Island where
  | cell (core cell : Nat)
  | core (c : Nat)
  | home (h : Nat)
  deriving DecidableEq, Repr

/-- What a start-up step found (18 R534, R539): an inter-die link that failed training, the cells that failed self-test (core, physical cell, whether its Relief bank), a shared failure, lanes that failed training (64 × stack + pseudo-channel, failed lanes), a stack failure, the host ports trained, and the milliseconds since reset. -/
structure StepReport where
  linkFail : Option Nat
  cells : List (Nat × Nat × Bool)
  shared : Option Nat
  lanes : List (Nat × List Nat)
  stackFail : Option Nat
  ports : Nat
  ms : Nat
  deriving DecidableEq, Repr

/-- What a function's capability structures say of a feature of the host-link standards (11 R340): whether it is offered, or its option or limit. -/
inductive CapItem where
  | cxlType | cxlMem | flit256 | flit68 | vfs | vfMigration
  | ats | atsPageAligned | atsQueueDepth | pri | priOutstanding | priPasidRequired
  | pasid | pasidWidth | pasidExecute | pasidPrivileged
  | msix | msixVectors | msi | intx | aer | doe | ide | tdisp
  | atomicOps | ptm | p2pRedirect | expansionRom | ioBar | resizableBar
  | maxPayload | relaxedOrdering | idOrdering
  deriving DecidableEq, Repr

/-- A configuration request's effect (11 R339, R340, R342, 15 R454, 10 R324, R326): an enable, the host's page request allocation, a BAR written or read, or what a capability structure offers. -/
inductive CfgReq where
  | msixEnable (on : Bool)
  | functionMask (on : Bool)
  | sriovEnable (on : Bool)
  | atsEnable (on : Bool)
  | priEnable (on : Bool)
  | clearPriFailure
  | priAllocation (n : Nat)
  | barWrite (bar : Nat) (v : Nat)
  | barRead (bar : Nat)
  | capRead (c : CapItem)
  | other
  deriving DecidableEq, Repr

end Sys2Proof
end

