-- ==== Sys2Proof/Syntax.lean ====
section
/-! DEFINITION. The commands: one constructor per row of spec/opcode_table.json, in the table's order, with the row's rule. -/

namespace Sys2Proof

/-- The commands of the complex: every operation and event of the table. A register-triggered command carries who wrote (`src`: 0 to 16 a function, 17 a management processor, 18 the root of trust, 20 the sideband) and the value written; an access to a BAR of a row of its own (REGISTER_WRITE, the reads, the window, the doorbells) also carries its requester (`Sender`); an instruction carries the cell and the 64-bit Karnov word it fetched. -/
inductive Instr where
  /-- REGISTER_WRITE (R9): A BAR0 register write whose target has no row of its own is performed by the field's access code, or refused by R8, and the Patina log records it. -/
  | registerWrite (x : Sender) (off : Nat) (size : Nat) (v : Word)
  /-- REGISTER_READ_CLEAR (R9): A read of an RC register field returns its value and clears it to zero, atomically with the read. -/
  | registerReadClear (x : Sender) (a : BarAddr)
  /-- INTER_DIE_LINK_FAILURE (R15): An inter-die link fails beyond its replay, which is a fatal cause. -/
  | interDieLinkFailure (link : Nat)
  /-- FORM (R40): ARM_REQ_CTL GO with MODE 0 starts an all-or-nothing formation of the image's engines. -/
  | form (src : Nat) (core : Nat) (v : Word)
  /-- MAQUETTE (R46): ARM_REQ_CTL GO with MODE 1 runs steps 1 to 4 of formation and commits nothing. -/
  | maquette (src : Nat) (core : Nat) (v : Word)
  /-- RELEASE (R43): ARM_REQ_CTL GO with MODE 2 releases the engines named in the mask, or none of them. -/
  | release (src : Nat) (core : Nat) (v : Word)
  /-- ARM_QUEUED_REQUEST_START (R38): A queued or deferred Armature request starts once Armature of its core is free. -/
  | armQueuedRequestStart (core : Nat)
  /-- ARM_IMAGE_READ_DONE (R48): A read of one part of the image completes, and the checks that need it run in the order of the status table. -/
  | armImageReadDone (core : Nat)
  /-- ARM_CELLS_CLEARED (R41): Clearing of every cell of the new engines completes and preloading begins. -/
  | armCellsCleared (core : Nat)
  /-- ARM_PRELOAD_DONE (R44): The preload copies complete, and the engine map is committed and the result record written. -/
  | armPreloadDone (core : Nat)
  /-- SOFT_QUARANTINE_TRIGGER (R55): A cell's corrected errors reach CE_THRESHOLD within CE_WINDOW, which starts a migration or is only counted. `e`: a cell and how many corrected errors were newly found in it (R27). -/
  | softQuarantineTrigger (core : Nat) (e : CellErrors)
  /-- MIGRATION_DRAINED (R56): The migrating engine has stopped at an instruction boundary, and the copy of state and bank to the spare begins. -/
  | migrationDrained (core : Nat)
  /-- MIGRATION_COMPLETE (R56): The copies end, the position is remapped, the old cell is quarantined and the engine resumes. -/
  | migrationComplete (core : Nat)
  /-- HARD_QUARANTINE_TRIGGER (R57): An uncorrectable cell error, handshake timeout, droop self-check failure or parity fault stops the engine at once. -/
  | hardQuarantineTrigger (core : Nat) (cell : Nat) (trigger : Nat)
  /-- ENGINE_FAULTED (R57): Every cell of the failed engine has stopped, so the engine is faulted, its commands complete with the trigger's code and a spare is substituted. -/
  | engineFaulted (core : Nat) (eng : Nat)
  /-- QUARANTINE_DEFERRED_START (R60): A quarantine deferred behind an Armature request performs its copy, remapping and substitution once the request ends. -/
  | quarantineDeferredStart (core : Nat)
  /-- TMMA (R114): Issues a dense multiply-accumulate into the tensor queue. -/
  | tmma (c : CellRef) (w : Word)
  /-- TMMS (R114): Issues a multiply-accumulate with a 2:4-sparse operand B into the tensor queue. -/
  | tmms (c : CellRef) (w : Word)
  /-- TACR (R118): Issues an accumulator read-out with conversion. -/
  | tacr (c : CellRef) (w : Word)
  /-- TACW (R119): Issues an accumulator write, broadcast or zeroing, as its mode selects. -/
  | tacw (c : CellRef) (w : Word)
  /-- TTRN (R121): Issues a tile transpose with conversion. -/
  | ttrn (c : CellRef) (w : Word)
  /-- TACX (R120): Issues an accumulator copy or add. -/
  | tacx (c : CellRef) (w : Word)
  /-- TKOP_WAIT (R122): Blocks until every masked token has PENDING zero. -/
  | tkopWait (c : CellRef) (w : Word)
  /-- TKOP_WAITN (R122): Blocks until one token's PENDING is at most N. -/
  | tkopWaitn (c : CellRef) (w : Word)
  /-- TKOP_READ (R122): Copies a token's value to a scalar register. -/
  | tkopRead (c : CellRef) (w : Word)
  /-- TKOP_TEST (R122): Sets a predicate from whether a token's PENDING is zero. -/
  | tkopTest (c : CellRef) (w : Word)
  /-- TKOP_WAIT_END (R122): A blocked token wait ends because its condition holds. -/
  | tkopWaitEnd (c : CellRef)
  /-- TDSC_LD (R123): Loads a descriptor from the operand store. -/
  | tdscLd (c : CellRef) (w : Word)
  /-- TDSC_ST (R123): Stores a descriptor to the operand store. -/
  | tdscSt (c : CellRef) (w : Word)
  /-- TDSC_SETW0 (R123): Sets word 0 of a descriptor from a scalar register. -/
  | tdscSetw0 (c : CellRef) (w : Word)
  /-- TDSC_SETW1 (R123): Sets word 1 of a descriptor from a scalar register. -/
  | tdscSetw1 (c : CellRef) (w : Word)
  /-- TDSC_GETW0 (R123): Copies word 0 of a descriptor to a scalar register. -/
  | tdscGetw0 (c : CellRef) (w : Word)
  /-- TDSC_GETW1 (R123): Copies word 1 of a descriptor to a scalar register. -/
  | tdscGetw1 (c : CellRef) (w : Word)
  /-- TDSC_ADDI (R123): Adds an immediate to bits [51:0] of a descriptor. -/
  | tdscAddi (c : CellRef) (w : Word)
  /-- TDSC_ADDS (R123): Adds a scalar register to bits [51:0] of a descriptor. -/
  | tdscAdds (c : CellRef) (w : Word)
  /-- MVRL (R124): Issues a move between the operand store and the cell's own Relief bank. -/
  | mvrl (c : CellRef) (w : Word)
  /-- MVDM (R125): Issues a load or store move between the operand store and device memory. -/
  | mvdm (c : CellRef) (w : Word)
  /-- MVBC (R127): Issues one instance of a broadcast collective between the cells of an engine. -/
  | mvbc (c : CellRef) (w : Word)
  /-- QUEUED_OP_START (R107): A queued asynchronous operation starts once its queue, its predecessor and its token wait allow it. -/
  | queuedOpStart (c : CellRef) (q : OpQueue) (i : Nat)
  /-- TENSOR_OP_COMPLETE (R108): A tensor-queue operation writes its last result, sets its flags and advances its token. -/
  | tensorOpComplete (c : CellRef)
  /-- MVRL_COMPLETE (R108): An MVRL has written every byte at its destination and advances its token. -/
  | mvrlComplete (c : CellRef) (i : Nat) (bad : List Nat)
  /-- MVDM_COMPLETE (R108): An MVDM load has been written to the operand store, or its store accepted by the core cache or Plinth, and its token advances. -/
  | mvdmComplete (c : CellRef) (i : Nat) (h : HostAnswer)
  /-- MVBC_COMPLETE (R128): A broadcast copy is delivered to a destination or fails there, and the source completes once every destination is served. -/
  | mvbcComplete (c : CellRef) (i : Nat)
  /-- SOP (R134): Scalar register-register arithmetic. -/
  | sop (c : CellRef) (w : Word)
  /-- SOPI (R134): Scalar register-immediate arithmetic. -/
  | sopi (c : CellRef) (w : Word)
  /-- SMD (R135): Scalar multiply, divide or bit count. -/
  | smd (c : CellRef) (w : Word)
  /-- MOVI (R136): Writes a sign-extended 48-bit constant. -/
  | movi (c : CellRef) (w : Word)
  /-- MOVHI (R136): Writes the top 16 bits of a register. -/
  | movhi (c : CellRef) (w : Word)
  /-- BCC (R137): Branches on a comparison of two registers. -/
  | bcc (c : CellRef) (w : Word)
  /-- BCCI (R137): Branches on a comparison with an immediate. -/
  | bcci (c : CellRef) (w : Word)
  /-- JAL (R137): Jumps by an offset and links. -/
  | jal (c : CellRef) (w : Word)
  /-- JALR (R137): Jumps to a register plus an immediate and links. -/
  | jalr (c : CellRef) (w : Word)
  /-- NOP (R137): Does nothing. -/
  | nopInstr (c : CellRef) (w : Word)
  /-- LD (R140): Scalar load from the operand store, own bank or device memory. -/
  | ld (c : CellRef) (w : Word)
  /-- ST (R140): Scalar store, entering the store buffer for device memory. -/
  | st (c : CellRef) (w : Word)
  /-- AMO (R142): Indivisible atomic read-modify-write. -/
  | amo (c : CellRef) (w : Word)
  /-- CAS (R143): Compare and swap. -/
  | cas (c : CellRef) (w : Word)
  /-- LR (R144): Load reserved, setting the cell's reservation. -/
  | lr (c : CellRef) (w : Word)
  /-- SC (R144): Store conditional on the cell's reservation. -/
  | sc (c : CellRef) (w : Word)
  /-- ACVT (R146): Converts between host and device addresses through the loaded apertures. -/
  | acvt (c : CellRef) (w : Word)
  /-- MEMORY_ACCESS_RETURN (R132): A device-memory load, atomic, LR or SC returns its value or its failure to the cell. -/
  | memoryAccessReturn (c : CellRef) (i : Nat) (h : HostAnswer)
  /-- STORE_BUFFER_DRAIN (R208): A buffered scalar store leaves the store buffer for the core cache, in program order within its tag. -/
  | storeBufferDrain (c : CellRef) (i : Nat)
  /-- STORE_POISON_RETURN (R145): A scalar store or SC that met poison returns its failure, and the cell traps with ECC_UNCORR. -/
  | storePoisonReturn (c : CellRef)
  /-- FENCE (R215): Issues a fence of a given scope and kind, which stalls issue. -/
  | fence (c : CellRef) (w : Word)
  /-- FENCE_COMPLETE (R216): A fence's conditions hold at its scope, and the cell resumes issue. -/
  | fenceComplete (c : CellRef)
  /-- SIG_ADD (R243): Adds an amount to a signal counter, saturating. -/
  | sigAdd (c : CellRef) (w : Word)
  /-- SIG_WAIT (R244): Blocks until a counter reaches a target or saturates. -/
  | sigWait (c : CellRef) (w : Word)
  /-- SIG_READ (R244): Reads a counter's whole word. -/
  | sigRead (c : CellRef) (w : Word)
  /-- SIG_ADDB (R245): A bounded add that blocks while it would exceed the buffer depth linked to the counter. -/
  | sigAddb (c : CellRef) (w : Word)
  /-- SIG_WAIT_SATISFIED (R244): A blocked counter wait is satisfied after its counter changes. -/
  | sigWaitSatisfied (c : CellRef)
  /-- ADDB_ADMITTED (R245): A blocked ADDB is admitted and advances its counter in the same step. -/
  | addbAdmitted (c : CellRef)
  /-- BAR_SYNC (R260): Arrives at a barrier and blocks until the round completes. -/
  | barSync (c : CellRef) (w : Word)
  /-- BAR_ARRIVE (R260): Arrives at a barrier and returns a round ticket. -/
  | barArrive (c : CellRef) (w : Word)
  /-- BAR_WAIT (R261): Blocks until the round named by a ticket completes. -/
  | barWait (c : CellRef) (w : Word)
  /-- BARRIER_ARRIVAL (R260): An engine's gathered instance reaches the barrier unit, possibly opening a round or stalling. -/
  | barrierArrival (core : Nat) (eng : Nat) (bid : Nat)
  /-- FSIG (R151): A cell signals a fence word. -/
  | fsig (c : CellRef) (w : Word)
  /-- FWAIT (R152): Waits on a fence word by polling or through a monitor slot. -/
  | fwait (c : CellRef) (w : Word) (h : HostAnswer)
  /-- FWAIT_POLL (R255): A polling wait re-reads its word every 128 ic. -/
  | fwaitPoll (c : CellRef) (h : HostAnswer)
  /-- FWAIT_TIMEOUT (R152): An FWAIT's timeout expires, and the value last read is returned. -/
  | fwaitTimeout (c : CellRef) (h : HostAnswer)
  /-- MONITOR_WAKE (R256): A write to a monitored word wakes every waiter of its slot to re-read it. -/
  | monitorWake (slot : Nat) (h : HostAnswer)
  /-- VAR (R155): Floating vector arithmetic. -/
  | varOp (c : CellRef) (w : Word)
  /-- VINT (R157): Integer vector arithmetic. -/
  | vint (c : CellRef) (w : Word)
  /-- VCMP (R158): Vector compare into a predicate. -/
  | vcmp (c : CellRef) (w : Word)
  /-- VCVT (R159): Vector lane conversion. -/
  | vcvt (c : CellRef) (w : Word)
  /-- VLD (R161): Vector load from the operand store with conversion. -/
  | vld (c : CellRef) (w : Word)
  /-- VST (R161): Vector store with conversion and scale computation. -/
  | vst (c : CellRef) (w : Word)
  /-- VRED (R162): Vector reduction into a scalar register. -/
  | vred (c : CellRef) (w : Word)
  /-- VPERM (R163): Vector broadcast, extract, insert, permute or rotate. -/
  | vperm (c : CellRef) (w : Word)
  /-- VACC (R164): Copies between a vector register and accumulator rows. -/
  | vacc (c : CellRef) (w : Word)
  /-- VPRED (R165): Predicate logic. -/
  | vpred (c : CellRef) (w : Word)
  /-- VSEL (R166): Vector select under a predicate. -/
  | vsel (c : CellRef) (w : Word)
  /-- SYSR (R168): Reads a system register. -/
  | sysr (c : CellRef) (w : Word)
  /-- SYSW (R168): Writes AFLAGS, RMODE or TRAPREC. -/
  | sysw (c : CellRef) (w : Word)
  /-- END (R170): The cell ends its part of the command and waits for its tokens. -/
  | endCmd (c : CellRef) (w : Word)
  /-- TRAP (R167): The cell traps with USER_TRAP. -/
  | trap (c : CellRef) (w : Word)
  /-- BRK (R167): A breakpoint that stops the engine only with debug enabled. -/
  | brk (c : CellRef) (w : Word)
  /-- ENGINE_COMMAND_COMPLETE (R170): Every cell has ended, so a device-scope release is made and completion is reported to the Plinth. -/
  | engineCommandComplete (core : Nat) (eng : Nat)
  /-- CELL_TRAP (R172): A cell traps, writes TRAPREC, and the engine's other cells stop and drain. -/
  | cellTrap (c : CellRef) (cause : TrapCause)
  /-- TRAP_DRAIN_DONE (R172): The trapping engine's drain ends, and the command completes with the trap's code. -/
  | trapDrainDone (core : Nat) (eng : Nat)
  /-- EW (R186): Relief elementwise operation. -/
  | ew (c : CellRef) (w : Word)
  /-- CAST (R185): Relief format conversion. -/
  | castOp (c : CellRef) (w : Word)
  /-- RED (R185): Relief row reduction. -/
  | red (c : CellRef) (w : Word)
  /-- RECIPE (R192): Relief optimizer recipe applied in place. -/
  | recipe (c : CellRef) (w : Word)
  /-- FLAGRD (R185): Reads, and optionally clears, the bank's Relief flag word. -/
  | flagrd (c : CellRef) (w : Word)
  /-- FILL (R185): Fills a Relief tile with a constant. -/
  | fill (c : CellRef) (w : Word)
  /-- RELIEF_CMD_COMPLETE (R191): A Relief command has written every granule and advances its token. -/
  | reliefCmdComplete (c : CellRef) (bad : List Nat)
  /-- RACC (R194): Remote accumulation of a tile into a Relief page. -/
  | racc (c : CellRef) (w : Word)
  /-- RACC_APPLY (R195): A destination bank applies a contribution indivisibly per granule. -/
  | raccApply (c : CellRef) (i : Nat) (granule : Nat) (err : MemErr)
  /-- RACC_COMPLETE (R196): Every destination granule of a RACC has been applied, and its token advances. -/
  | raccComplete (c : CellRef) (i : Nat)
  /-- READ_SHARED (R220): A caching agent's load miss is served at the home. -/
  | readShared (agent : Nat) (line : Nat) (err : MemErr)
  /-- READ_OWN (R220): A caching agent asks the home for ownership for a store, LR or upgrade. -/
  | readOwn (agent : Nat) (line : Nat)
  /-- OWNERSHIP_GRANT (R209): The home grants ownership, making a core's early-visible stores visible outside it. -/
  | ownershipGrant (agent : Nat) (line : Nat)
  /-- WRITE_BACK (R220): An evicted modified line is written back to its home. -/
  | writeBack (agent : Nat) (line : Nat)
  /-- NONALLOC_READ (R220): A non-allocating snooping read is served at the home or bank. -/
  | nonallocRead (line : Nat) (err : MemErr)
  /-- NONALLOC_WRITE (R220): A non-allocating write invalidates holders and merges the bytes at the home or bank. -/
  | nonallocWrite (line : Nat) (mask : Word) (data : Line)
  /-- ATOMIC_AT_HOME (R224): An atomic recalls the line and executes at its home, bank or the host-line cache. -/
  | atomicAtHome (c : CellRef) (i : Nat) (h : HostAnswer)
  /-- FENCE_SIGNAL (R250): A signal takes the maximum into a fence word, counting anomalies and saturations. -/
  | fenceSignal (i : Nat) (h : HostAnswer)
  /-- FENCE_ERROR_WRITE (R252): An error word is written into a fence word unless one is already there. -/
  | fenceErrorWrite (i : Nat) (h : HostAnswer)
  /-- HOLD_EXPIRY (R222): A line's minimum hold ends, and a deferred snoop is answered. -/
  | holdExpiry (agent : Nat) (line : Nat)
  /-- DIRECTORY_RECLAIM (R219): The home reclaims a directory entry, invalidating the named agents. -/
  | directoryReclaim (line : Nat)
  /-- CACHE_UNCORRECTABLE_ERROR (R226): An uncorrectable cache error refetches a clean line or writes a modified line back poisoned. -/
  | cacheUncorrectableError (agent : Nat) (line : Nat)
  /-- HOST_SNOOP (R340): The host snoops a line held in the host-line cache. -/
  | hostSnoop (line : Nat) (kind : SnoopKind)
  /-- HOST_ORDERED_ACK (R227): The host acknowledges an outbound write as globally ordered, releasing later writes of the stream. -/
  | hostOrderedAck (f : Nat)
  /-- SYNC_MAPINV (R241): Drops a context's cached map entries on the core. -/
  | syncMapinv (src : Nat) (core : Nat) (v : Word)
  /-- SIG_DATA_WRITE (R244): Sets a counter's value and flag, and blocked waits re-evaluate. -/
  | sigDataWrite (src : Nat) (core : Nat) (v : Word)
  /-- BAR_CTL_RESET (R566): Discards both rounds of a barrier unit and restarts its numbering at 0. -/
  | barCtlReset (src : Nat) (core : Nat) (v : Word)
  /-- MON_ARM (R258): MON_ARM_CTL GO arms a monitor slot for the host. -/
  | monArm (src : Nat) (v : Word) (h : HostAnswer)
  /-- ENGINE_WATCHDOG (R263): A cell blocked too long makes its engine trap with WATCHDOG. -/
  | engineWatchdog (c : CellRef)
  /-- BARRIER_WATCHDOG (R264): A round open too long discards both rounds and traps their blocked engines. -/
  | barrierWatchdog (core : Nat) (unit : Nat)
  /-- CREATE_CONTEXT (R272): OBJ_CMD OP 0 creates a context from a staging record. -/
  | createContext (src : Nat) (v : Word)
  /-- DESTROY_CONTEXT (R291): OBJ_CMD OP 1 destroys a context by forced abort and teardown. -/
  | destroyContext (src : Nat) (v : Word)
  /-- CREATE_QUEUE (R281): OBJ_CMD OP 2 creates a queue from a staging record. -/
  | createQueue (src : Nat) (v : Word)
  /-- DESTROY_QUEUE (R281): OBJ_CMD OP 3 aborts a queue's commands and frees it. -/
  | destroyQueue (src : Nat) (v : Word)
  /-- RESTART_QUEUE (R281): OBJ_CMD OP 4 restarts a stopped queue. -/
  | restartQueue (src : Nat) (v : Word)
  /-- SET_ARENA_LIMIT (R278): OBJ_CMD OP 5 sets an arena's limit and re-arms LOW. -/
  | setArenaLimit (src : Nat) (v : Word)
  /-- RESET_ARENA (R278): OBJ_CMD OP 6 resets an arena's cursor and flags. -/
  | resetArena (src : Nat) (v : Word)
  /-- STAGING_RECORD_READ_DONE (R272): The staging-record read completes or fails, and the create request finishes. -/
  | stagingRecordReadDone (f : Nat) (h : HostAnswer)
  /-- ARENA_CURSOR_READ (R277): A cell's load of the arena window returns the cursor. -/
  | arenaCursorRead (c : CellRef) (i : Nat)
  /-- ARENA_ALLOC (R277): A cell's AMO ADD on the arena window allocates from the arena or returns 0. -/
  | arenaAlloc (c : CellRef) (i : Nat)
  /-- DB_OWNER_WRITE (R279): Assigns, binds or unbinds a doorbell page as its rules allow. -/
  | dbOwnerWrite (src : Nat) (v : Word)
  /-- FRAME_DATA_WRITE (R274): Changes a frame's owner and starts its scrub. -/
  | frameDataWrite (src : Nat) (v : Word)
  /-- DOORBELL_TAIL (R282): A TAIL write advances a queue's producer index. -/
  | doorbellTail (x : Sender) (off : Nat) (size : Nat) (v : Word)
  /-- QUEUE_FETCH (R353): The Plinth reads and checks command entries below the tail. -/
  | queueFetch (q : Nat) (h : HostAnswer)
  /-- COMMAND_START (R354): A fetched command starts once order, its wait and SERIAL allow it. -/
  | commandStart (q : Nat) (seq : Nat)
  /-- WAIT_CONDITION_MET (R355): A watched wait word reaches its target or becomes an error word. -/
  | waitConditionMet (q : Nat) (seq : Nat) (h : HostAnswer)
  /-- WATCHER_POLL (R355): A command without a watcher re-reads its wait word every 1 µs. -/
  | watcherPoll (q : Nat) (seq : Nat) (h : HostAnswer)
  /-- NOP_COMMAND (R352): A command that only waits and signals. -/
  | nopCommand (q : Nat) (seq : Nat)
  /-- COPY (R365): Runs Chisel descriptors on an engine of the command's class. -/
  | copyCmd (q : Nat) (seq : Nat)
  /-- INLINE (R357): Writes inline payload bytes to device memory. -/
  | inlineCmd (q : Nat) (seq : Nat)
  /-- ENGINE (R358): Starts the named engines of a core with arguments. -/
  | engineCmd (q : Nat) (seq : Nat)
  /-- ARMATURE (R359): Submits an Armature request through a queue. -/
  | armatureCmd (q : Nat) (seq : Nat)
  /-- COMPLETION_REPORT (R284): An agent reports a command's outcome to its queue's retirement point. -/
  | completionReport (q : Nat) (seq : Nat)
  /-- ABORT_COMMAND (R287): ABT_REQ GO with WHOLE clear aborts one command. -/
  | abortCommand (src : Nat) (v : Word) (h : HostAnswer)
  /-- ABORT_QUEUE (R287): ABT_REQ GO with WHOLE set aborts every command below the tail and stops the queue. -/
  | abortQueue (src : Nat) (v : Word)
  /-- ABORT_STOP_DONE (R288): The affected engines and Chisel streams have stopped. -/
  | abortStopDone (i : Nat) (h : HostAnswer)
  /-- ABORT_QUIESCED (R288): Issued accesses are performed, and the error writes and completion of the abort follow. -/
  | abortQuiesced (i : Nat) (h : HostAnswer)
  /-- PAGE_WALK (R302): A device page-table walk reads its entries and installs or refuses a translation. -/
  | pageWalk (unit : Nat) (ctx : Nat) (va : Nat)
  /-- DEVICE_INVALIDATE (R310): XL_INV_CTL GO drops a context's device translations. -/
  | deviceInvalidate (src : Nat) (v : Word)
  /-- DEVICE_INVALIDATE_DONE (R310): Accesses issued with the dropped translations are performed, and DONE is set. -/
  | deviceInvalidateDone (f : Nat)
  /-- LOAD_APERTURE (R313): XL_APT_CTL OP 0 translates and locks a host aperture. -/
  | loadAperture (src : Nat) (v : Word)
  /-- UNLOAD_APERTURE (R313): XL_APT_CTL OP 1 unloads a host aperture. -/
  | unloadAperture (src : Nat) (v : Word)
  /-- ATS_COMPLETION (R318): An ATS translation completion arrives and is cached or discarded. -/
  | atsCompletion (f : Nat) (pasid : Nat) (va : Nat) (r : AtsReply)
  /-- ATS_INVALIDATION (R320): The host invalidates translations, and the ATU completes after outstanding uses. -/
  | atsInvalidation (f : Nat) (pasid : Nat) (va : Nat) (len : Nat)
  /-- CHISEL_FAULT (R323): A Chisel host access without a translation sends or joins a page request. -/
  | chiselFault (n : Nat) (stream : Nat) (x : ChAccess) (h : HostAnswer)
  /-- PRG_RESPONSE (R324): A page request group response resumes or fails every waiter of the group. -/
  | prgResponse (f : Nat) (tag : Nat) (code : PrgCode)
  /-- PRI_TIMEOUT (R324): A page request unanswered within PRI_TIMEOUT fails its group. -/
  | priTimeout (f : Nat) (tag : Nat)
  /-- PRETRANSLATION_DONE (R328): A pre-translating command's translations are present, so it may start. -/
  | pretranslationDone (q : Nat) (seq : Nat) (h : HostAnswer)
  /-- HOST_DISABLES_ATS_PRI (R333): The host disables ATS or PRI for a function, dropping its state. -/
  | hostDisablesAtsPri (f : Nat)
  /-- WINDOW_READ (R348): A host read through a function's window. -/
  | windowRead (x : Sender) (off : Nat) (len : Nat)
  /-- WINDOW_WRITE (R348): A host write through a function's window. -/
  | windowWrite (x : Sender) (off : Nat) (data : List Byte)
  /-- CHISEL_STREAM_START (R365): A descriptor's stream starts on a free stream of its engine. -/
  | chiselStreamStart (n : Nat) (h : HostAnswer)
  /-- CHISEL_DESCRIPTOR_COMPLETE (R366): Every write of a descriptor is performed, and the command reports when all are done. -/
  | chiselDescriptorComplete (n : Nat) (stream : Nat) (h : HostAnswer)
  /-- HOST_REQUEST_FAILURE (R531): A host-link request fails or times out, and its command retires with LINK_LOST. -/
  | hostRequestFailure (q : Nat) (seq : Nat)
  /-- QUANTUM_EXPIRY (R380): A resident context's quantum expires. -/
  | quantumExpiry (core : Nat) (ctx : Nat)
  /-- SWITCH_DECIDED (R382): A waiting context is chosen, and the outgoing engines start to drain. -/
  | switchDecided (core : Nat) (ctx : Nat)
  /-- SWITCH_DRAINED (R382): Outgoing engines have stopped, and state saving and Relief swapping begin. -/
  | switchDrained (core : Nat)
  /-- SWITCH_COMPLETE (R382): Incoming state is loaded, and the incoming engines resume. -/
  | switchComplete (core : Nat)
  /-- CHISEL_STREAM_PREEMPT (R388): A long-running stream is pre-empted at a tile boundary for a waiting command. -/
  | chiselStreamPreempt (n : Nat) (stream : Nat) (tiles : Nat) (h : HostAnswer)
  /-- CHISEL_STREAM_RESUME (R389): A ready saved stream takes a free stream and resumes at its next tile. -/
  | chiselStreamResume (n : Nat)
  /-- PORT_DOWN (R398): A fabric port goes down and begins training again. -/
  | portDown (port : Nat) (cause : PortCause)
  /-- PORT_UP (R398): A fabric port completes training. -/
  | portUp (x : PortCredits)
  /-- PACKET_FORWARD (R400): A packet for another complex is routed or dropped. -/
  | packetForward (rx : LinkRx) (p : Packet)
  /-- PUT_PACKET (R415): An accepted PUT writes its payload and is acknowledged. -/
  | putPacket (p : Packet)
  /-- ACC_PACKET (R415): An accepted ACC accumulates into memory and is acknowledged. -/
  | accPacket (p : Packet)
  /-- SIG_PACKET (R415): An accepted SIG signals a fence word. -/
  | sigPacket (p : Packet)
  /-- GET_PACKET (R415): An accepted GET reads memory and sends GETRESP packets. -/
  | getPacket (p : Packet)
  /-- GETRESP_PACKET (R415): A GETRESP writes its data at the requester. -/
  | getrespPacket (p : Packet)
  /-- ACK_PACKET (R415): An ACK marks a packet acknowledged. -/
  | ackPacket (p : Packet)
  /-- NAK_PACKET (R415): A NAK fails its descriptor with the code it carries. -/
  | nakPacket (p : Packet)
  /-- RING_TAIL_ADVANCE (R410): The transport sees a send ring's tail advance and reads descriptors. -/
  | ringTailAdvance (ring : Nat)
  /-- PUT_DESCRIPTOR (R413): Starts sending a PUT. -/
  | putDescriptor (ring : Nat) (idx : Nat)
  /-- ACC_DESCRIPTOR (R413): Starts sending an ACC. -/
  | accDescriptor (ring : Nat) (idx : Nat)
  /-- SIG_DESCRIPTOR (R413): Starts sending a SIG. -/
  | sigDescriptor (ring : Nat) (idx : Nat)
  /-- GET_DESCRIPTOR (R413): Starts a GET. -/
  | getDescriptor (ring : Nat) (idx : Nat)
  /-- BARRIER_DESCRIPTOR (R413): Orders earlier descriptors of the ring before later ones. -/
  | barrierDescriptor (ring : Nat) (idx : Nat)
  /-- DESCRIPTOR_RETIRE (R413): A fabric descriptor retires, writes its fence and advances HEAD. -/
  | descriptorRetire (ring : Nat) (idx : Nat)
  /-- RETRANSMIT (R414): A packet unacknowledged for RETX_US is sent again. -/
  | retransmit (slot : Nat) (rank : Nat) (psn : Nat)
  /-- STORE_WATCHDOG (R416): A packet unacknowledged for STORE_WD_MS declares its peer dead. -/
  | storeWatchdog (slot : Nat) (rank : Nat) (psn : Nat)
  /-- UNREACHABLE_TIMEOUT (R416): A peer unreachable for UNREACH_MS is declared dead. -/
  | unreachableTimeout (slot : Nat) (rank : Nat)
  /-- JOB_BIND (R405): Setting FJ_CTL.BOUND binds a job slot. -/
  | jobBind (src : Nat) (v : Word)
  /-- JOB_UNBIND (R406): Clearing BOUND writes back the peer entries and unbinds the slot. -/
  | jobUnbind (src : Nat) (v : Word)
  /-- RING_ENABLE (R410): FR_CTL.EN enables or disables a send ring. -/
  | ringEnable (src : Nat) (v : Word)
  /-- SCRUB_DONE (R441): A frame's scrub ends, and the frame takes its new state. -/
  | scrubDone (frame : Nat)
  /-- IC_RAISE (R448): A register write raises an event source once. -/
  | icRaise (src : Nat) (v : Word)
  /-- FIXED_CONDITION_CHANGE (R450): A fixed source's condition becomes present or absent. -/
  | fixedConditionChange (source : Nat)
  /-- IC_ACK (R452): Serves a source by reducing COUNT and clearing its in-service flag. -/
  | icAck (src : Nat) (v : Word)
  /-- IC_SRC_CTL_WRITE (R451): Enables, masks, coalesces or reassigns a source. -/
  | icSrcCtlWrite (src : Nat) (v : Word)
  /-- IC_SRC_TGT_WRITE (R454): Sets a source's targets and clears LAST_VALID. -/
  | icSrcTgtWrite (src : Nat) (v : Word)
  /-- COALESCE_TIMER_EXPIRY (R453): A source's coalescing time passes, making it deliverable. -/
  | coalesceTimerExpiry (source : Nat)
  /-- MSIX_VECTOR_UNMASK (R455): A vector's mask clears, and its pending message is sent. -/
  | msixVectorUnmask (f : Nat) (vec : Nat) (v : Word)
  /-- IC_CLAIM (R456): A hart's read removes its oldest queued delivery. -/
  | icClaim (hart : Nat)
  /-- GET_REPORT (R474): Returns a signed attestation report. -/
  | getReport (f : Nat) (v : Word)
  /-- GET_CERTS (R471): Returns part of the slot 0 certificate chain. -/
  | getCerts (f : Nat) (v : Word)
  /-- PATINA_SEAL (R492): Returns a signed seal of the Patina head. -/
  | patinaSeal (f : Nat) (v : Word)
  /-- PART_SET (R465): Changes the partition layout. -/
  | partSet (f : Nat) (v : Word)
  /-- PART_POLICY (R466): Sets a partition's policy. -/
  | partPolicy (f : Nat) (v : Word)
  /-- CAST_LOAD (R480): Loads a sealed Cast into a slot and its frames. -/
  | castLoad (f : Nat) (v : Word) (h : HostAnswer)
  /-- CAST_ADMIT (R481): Replaces a Cast's admission mask. -/
  | castAdmit (f : Nat) (v : Word)
  /-- CAST_UNLOAD (R482): Unloads a Cast and scrubs its frames. -/
  | castUnload (f : Nat) (v : Word)
  /-- CAST_RESUPPLY (R485): Records a new image address and queues poisoned chunks. -/
  | castResupply (f : Nat) (v : Word)
  /-- SPDM_RELAY (R471): Relays an SPDM message to or from the root of trust. -/
  | spdmRelay (f : Nat) (v : Word)
  /-- JOB_KEYGEN (R477): Generates a fabric job key into a key slot. -/
  | jobKeygen (f : Nat) (v : Word)
  /-- JOB_KEY (R477): A member receives a job key inside an SPDM session and loads it or refuses it. -/
  | jobKey (slot : Nat) (keySlot : Nat) (req : JobKeyRequester)
  /-- SPDM_MESSAGE (R475): An SPDM message arrives on a DOE or over MCTP. -/
  | spdmMessage (chan : SpdmChannel) (msg : SpdmMsg)
  /-- RECAST (R484): The root of trust reads a queued damaged chunk from the image and restores it. -/
  | recast (h : HostAnswer)
  /-- RECAST_COMPLETE (R484): A chunk's rewrite completes, or its read fails. -/
  | recastComplete (ok : Bool)
  /-- LOCK_INTERFACE (R476): TDISP locks a virtual function's interface. -/
  | lockInterface (f : Nat)
  /-- STOP_INTERFACE (R476): TDISP returns a function to CONFIG_UNLOCKED. -/
  | stopInterface (f : Nat)
  /-- IDE_INTEGRITY_FAILURE (R476): An IDE stream fails an integrity check, and the function enters ERROR. -/
  | ideIntegrityFailure (f : Nat)
  /-- FW_INFO (R538): Returns firmware version and digest. -/
  | fwInfo (f : Nat) (v : Word)
  /-- FW_STAGE (R538): Reads and verifies a firmware image into staging. -/
  | fwStage (f : Nat) (v : Word) (h : HostAnswer)
  /-- FW_COMMIT (R538): Writes the staged image to flash. -/
  | fwCommit (f : Nat) (v : Word)
  /-- FW_ACTIVATE (R538): Commits any staged image and resets with cause 6. -/
  | fwActivate (f : Nat) (v : Word)
  /-- BIST_RUN (R538): Requests the extended self-test and resets. -/
  | bistRun (f : Nat) (v : Word)
  /-- HEALTH_GET (R538): Returns health, fatal, self-test and reset status. -/
  | healthGet (f : Nat) (v : Word)
  /-- QUAR_CLEAR (R538): Clears quarantine-record entries for the next start. -/
  | quarClear (f : Nat) (v : Word)
  /-- FATAL_READ (R538): Returns the newest fatal records. -/
  | fatalRead (f : Nat) (v : Word)
  /-- FLASH_WRITE_COMPLETE (R529): A flash write finishes, releasing a reset waiting for it. -/
  | flashWriteComplete
  /-- QUERY_DEVICE_IDENTIFIERS (R537): PLDM firmware update command. -/
  | queryDeviceIdentifiers
  /-- GET_FIRMWARE_PARAMETERS (R537): PLDM firmware update command. -/
  | getFirmwareParameters
  /-- REQUEST_UPDATE (R537): PLDM firmware update command. -/
  | requestUpdate (len : Nat)
  /-- PASS_COMPONENT_TABLE (R537): PLDM firmware update command. -/
  | passComponentTable
  /-- UPDATE_COMPONENT (R537): PLDM firmware update command. -/
  | updateComponent
  /-- REQUEST_FIRMWARE_DATA (R537): PLDM 4 KiB firmware data transfer. -/
  | requestFirmwareData (off : Nat) (data : List Byte)
  /-- TRANSFER_COMPLETE (R537): PLDM firmware update command. -/
  | transferComplete
  /-- VERIFY_COMPLETE (R537): PLDM firmware update command. -/
  | verifyComplete
  /-- APPLY_COMPLETE (R537): PLDM firmware update command. -/
  | applyComplete
  /-- ACTIVATE_FIRMWARE (R537): PLDM activation, performed as FW_ACTIVATE. -/
  | activateFirmware
  /-- GET_STATUS (R537): PLDM firmware update command. -/
  | getStatus
  /-- CANCEL_UPDATE_COMPONENT (R537): PLDM firmware update command. -/
  | cancelUpdateComponent
  /-- CANCEL_UPDATE (R537): PLDM firmware update command. -/
  | cancelUpdate
  /-- THROTTLE_REQ_RISE (R504): THROTTLE_REQ_n rises, and the arrays of the die stop new cycles, then ACK rises. -/
  | throttleReqRise (die : Nat)
  /-- THROTTLE_REQ_FALL (R505): THROTTLE_REQ_n falls, ACK falls and the arrays resume in groups. -/
  | throttleReqFall (die : Nat)
  /-- THROTTLE_LONG (R506): REQ asserted for more than 10 ms sets PAGE_ERR bit 0 of the power page. -/
  | throttleLong (die : Nat)
  /-- DROOP_TRIP (R501): A droop detector trips and stretches island edges. -/
  | droopTrip (island : Island)
  /-- DROOP_SELF_TEST (R503): Each detector tests itself every millisecond. -/
  | droopSelfTest (island : Island) (pass : Bool)
  /-- HANDSHAKE_TIMEOUT (R500): A handshake unanswered for 1 µs is charged to a cell or is fatal. -/
  | handshakeTimeout (island : Island) (partner : Island)
  /-- POWER_CONTROL_STEP (R510): Every 100 µs the cap is divided among the domains and settings chosen. -/
  | powerControlStep (demand : List Nat)
  /-- THERMAL_SAMPLE (R512): Sensors are read every 100 µs. -/
  | thermalSample (readings : List Nat)
  /-- THERMAL_THROTTLE_STEP (R513): Each millisecond a hot sensor lowers or restores the operating point or pacing. -/
  | thermalThrottleStep
  /-- ENERGY_SAMPLE (R516): Every 10 µs rail telemetry is added to PWR_ENERGY and to the resident contexts' records. -/
  | energySample (rails : List (Option Nat))
  /-- STANDBY_ENTER (R517): Setting PWR_CTL.STANDBY enters standby. -/
  | standbyEnter (src : Nat) (v : Word)
  /-- STANDBY_EXIT (R517): Clearing STANDBY, or an OBJ_CMD GO, resumes the complex. -/
  | standbyExit (src : Nat) (v : Word)
  /-- FATAL_CAUSE (R525): A fatal cause stops the complex and records it. -/
  | fatalCause (code : Nat) (detail : Nat)
  /-- SUPERVISION_WATCHDOG (R527): An agent wedged for LIMIT_MS is a fatal supervision failure. -/
  | supervisionWatchdog (agent : Nat)
  /-- PWR_GOOD_RISE (R528): Power-on reset. -/
  | pwrGoodRise
  /-- PWR_GOOD_FALL (R550): Loss of power holds the complex in reset. -/
  | pwrGoodFall
  /-- RESET_N_PULSE (R528): A low pulse of RESET_N causes a full reset. -/
  | resetNPulse
  /-- SOFTWARE_RESET (R528): RST_CTL with FULL and KEY 0xA5 causes a full reset. -/
  | softwareReset (src : Nat) (v : Word)
  /-- PF_FLR (R528): A function level reset of the physical function causes a full reset. -/
  | pfFlr
  /-- VF_FLR (R529): A function level reset of a virtual function resets it and destroys its partition's contexts. -/
  | vfFlr (f : Nat)
  /-- REFCLK_LOSS (R548): Loss of lock on a reference clock acts as RESET_N. -/
  | refclkLoss (clk : Nat)
  /-- START_UP_STEP_DONE (R534): One step of the start-up sequence completes, and the next begins or the failure is recorded. -/
  | startUpStepDone (r : StepReport)
  /-- LINK_DOWN (R530): The host link loses training. -/
  | linkDown (ports : Nat)
  /-- LINK_UP (R530): The host link trains again, and held traffic resumes. -/
  | linkUp
  /-- LINK_LOSS_TIMEOUT (R530): The link down for more than 10 ms records link loss and resets with cause 5. -/
  | linkLossTimeout
  /-- TAP_UNLOCK (R557): A signed unlock token opens test access beyond boundary scan. -/
  | tapUnlock (tokenOk : Bool)
  /-- CONFIGURATION_REQUEST (R339): A host configuration request reaches a function on HP0, or is refused on HP1 to HP3, and may change MSI-X Enable or Function Mask, SR-IOV enable, ATS or PRI settings, or clear PRI Response Failure status. -/
  | configurationRequest (port : Nat) (f : Nat) (req : CfgReq)
  /-- START_INTERFACE (R476): A TDISP START_INTERFACE request moves a locked virtual function from CONFIG_LOCKED to RUN. -/
  | startInterface (f : Nat)
  /-- FLIT_REPLAY (R397): A received fabric flit fails its CRC after forward error correction, is not used, and the link replays from it; failed replays count toward a port going down or being noisy. -/
  | flitReplay (rx : LinkRx) (failed : Bool) (frequent : Bool)
  /-- DROOP_RECOVERY (R501): An island's supply recovers above its droop threshold, the detector untrips, and the next edge runs at the normal period. -/
  | droopRecovery (island : Island)
  /-- HOST_LINE_OWNERSHIP_GRANT (R217): The host grants exclusive ownership of a host line that the host-line cache accepted a store into, making it visible to host agents and releasing fence writes and system-scope releases that wait on it. -/
  | hostLineOwnershipGrant (line : Nat) (data : Line)
  /-- REFCLK_RELOCK (R548): A reference clock whose loss held the complex in reset regains lock, releasing the reset so that start-up begins. -/
  | refclkRelock (clk : Nat)
  /-- REGISTER_READ_REFUSED (R8): A BAR0 or doorbell read of the wrong width or alignment is not performed, returns zero and sets PAGE_ERR[63] of the page concerned or of the function page. -/
  | registerReadRefused (x : Sender) (bar : Nat) (off : Nat) (size : Nat)
  /-- DYNAMIC_ADDRESS_ASSIGNMENT (R554): The I3C sideband target takes a dynamic address by ENTDAA with its 48-bit provisional identifier. -/
  | dynamicAddressAssignment (addr : Nat)
  deriving DecidableEq, Repr

end Sys2Proof
end

