-- ==== Sys2Proof/WellFormed.lean ====
section
/-! DEFINITION. When a command's operands name parts that the complex has. -/

namespace Sys2Proof

/-- A writer: a function, a management processor, the root of trust, or the sideband (16 R489 ORIGIN). -/
def okSrc (x : Nat) : Bool := decide (x ≤ 18) || x == 20
/-- A core (01 R16). -/
def okCore (x : Nat) : Bool := decide (x < 16)
/-- A cell of an engine (01 R16, R17). -/
def okCell (c : CellRef) : Bool := decide (c.core < 16) && decide (c.eng < 64) && decide (c.idx < 64)
/-- A function: 0 physical, 1 to 16 virtual (11 R343). -/
def okFunction (x : Nat) : Bool := decide (x ≤ 16)
/-- A queue (09 R280). -/
def okQueue (x : Nat) : Bool := decide (x < 16384)
/-- Credits of a fabric port name one of its 24 buffer sets (13 R404). -/
def okCredits (l : List (Nat × Nat)) : Bool := l.all fun c => decide (c.1 < 24)
/-- A caching agent: a core cache or the device-line agent (07 R217). -/
def okAgent (x : Nat) : Bool := decide (x ≤ 16)
/-- An engine number (01 R17). -/
def okEngine (x : Nat) : Bool := decide (x < 64)
/-- A physical cell of a core (02 R26). -/
def okPhysCell (x : Nat) : Bool := decide (x < 272)
/-- A Chisel engine (11 R361). -/
def okChisel (x : Nat) : Bool := decide (x < 20)
/-- A stream of a Chisel engine (11 R365). -/
def okStream (x : Nat) : Bool := decide (x < 16)
/-- A send ring (13 R410). -/
def okRing (x : Nat) : Bool := decide (x < 1024)
/-- An interrupt source (15 R447). -/
def okSource (x : Nat) : Bool := decide (x < 2048)
/-- A management-processor hart (15 R456). -/
def okHart (x : Nat) : Bool := decide (x < 16)
/-- A core die (17 R504). -/
def okDie (x : Nat) : Bool := decide (x < 4)
/-- A reference clock (19 R548). -/
def okClock (x : Nat) : Bool := decide (x < 6)
/-- A frame of the usable device memory (09 R274). -/
def okFrame (x : Nat) : Bool := decide (x < 23040)
/-- A context identifier (09 R271). -/
def okContext (x : Nat) : Bool := decide (x < 4096)
/-- A PASID (10 R317). -/
def okPasid (x : Nat) : Bool := decide (x < 2 ^ 20)
/-- A virtual address. -/
def okVa (x : Nat) : Bool := decide (x < 2 ^ 64)
/-- A clock island (17 R498). -/
def okIsland : Island → Bool
  | .cell c p => decide (c < 16) && decide (p < 272)
  | .core c => decide (c < 16)
  | .home h => decide (h < 12)

/-- A command is well-formed when the parts it names exist. The meanings are total all the same: an ill-formed command finds nothing to act on. -/
def Instr.wellFormed : Instr → Bool
  | .registerWrite x _ _ _ => okSrc x.src
  | .registerReadClear x _ => okSrc x.src
  | .interDieLinkFailure _ => true
  | .form a k _ => okSrc a && okCore k
  | .maquette a k _ => okSrc a && okCore k
  | .release a k _ => okSrc a && okCore k
  | .armQueuedRequestStart k => okCore k
  | .armImageReadDone k => okCore k
  | .armCellsCleared k => okCore k
  | .armPreloadDone k => okCore k
  | .softQuarantineTrigger k e => okCore k && okPhysCell e.cell
  | .migrationDrained k => okCore k
  | .migrationComplete k => okCore k
  | .hardQuarantineTrigger k x _ => okCore k && okPhysCell x
  | .engineFaulted k e => okCore k && okEngine e
  | .quarantineDeferredStart k => okCore k
  | .tmma c _ => okCell c
  | .tmms c _ => okCell c
  | .tacr c _ => okCell c
  | .tacw c _ => okCell c
  | .ttrn c _ => okCell c
  | .tacx c _ => okCell c
  | .tkopWait c _ => okCell c
  | .tkopWaitn c _ => okCell c
  | .tkopRead c _ => okCell c
  | .tkopTest c _ => okCell c
  | .tkopWaitEnd c => okCell c
  | .tdscLd c _ => okCell c
  | .tdscSt c _ => okCell c
  | .tdscSetw0 c _ => okCell c
  | .tdscSetw1 c _ => okCell c
  | .tdscGetw0 c _ => okCell c
  | .tdscGetw1 c _ => okCell c
  | .tdscAddi c _ => okCell c
  | .tdscAdds c _ => okCell c
  | .mvrl c _ => okCell c
  | .mvdm c _ => okCell c
  | .mvbc c _ => okCell c
  | .queuedOpStart c _ _ => okCell c
  | .tensorOpComplete c => okCell c
  | .mvrlComplete c _ _ => okCell c
  | .mvdmComplete c _ _ => okCell c
  | .mvbcComplete c _ => okCell c
  | .sop c _ => okCell c
  | .sopi c _ => okCell c
  | .smd c _ => okCell c
  | .movi c _ => okCell c
  | .movhi c _ => okCell c
  | .bcc c _ => okCell c
  | .bcci c _ => okCell c
  | .jal c _ => okCell c
  | .jalr c _ => okCell c
  | .nopInstr c _ => okCell c
  | .ld c _ => okCell c
  | .st c _ => okCell c
  | .amo c _ => okCell c
  | .cas c _ => okCell c
  | .lr c _ => okCell c
  | .sc c _ => okCell c
  | .acvt c _ => okCell c
  | .memoryAccessReturn c _ _ => okCell c
  | .storeBufferDrain c _ => okCell c
  | .storePoisonReturn c => okCell c
  | .fence c _ => okCell c
  | .fenceComplete c => okCell c
  | .sigAdd c _ => okCell c
  | .sigWait c _ => okCell c
  | .sigRead c _ => okCell c
  | .sigAddb c _ => okCell c
  | .sigWaitSatisfied c => okCell c
  | .addbAdmitted c => okCell c
  | .barSync c _ => okCell c
  | .barArrive c _ => okCell c
  | .barWait c _ => okCell c
  | .barrierArrival k e _ => okCore k && okEngine e
  | .fsig c _ => okCell c
  | .fwait c _ _ => okCell c
  | .fwaitPoll c _ => okCell c
  | .fwaitTimeout c _ => okCell c
  | .monitorWake _ _ => true
  | .varOp c _ => okCell c
  | .vint c _ => okCell c
  | .vcmp c _ => okCell c
  | .vcvt c _ => okCell c
  | .vld c _ => okCell c
  | .vst c _ => okCell c
  | .vred c _ => okCell c
  | .vperm c _ => okCell c
  | .vacc c _ => okCell c
  | .vpred c _ => okCell c
  | .vsel c _ => okCell c
  | .sysr c _ => okCell c
  | .sysw c _ => okCell c
  | .endCmd c _ => okCell c
  | .trap c _ => okCell c
  | .brk c _ => okCell c
  | .engineCommandComplete k e => okCore k && okEngine e
  | .cellTrap c _ => okCell c
  | .trapDrainDone k e => okCore k && okEngine e
  | .ew c _ => okCell c
  | .castOp c _ => okCell c
  | .red c _ => okCell c
  | .recipe c _ => okCell c
  | .flagrd c _ => okCell c
  | .fill c _ => okCell c
  | .reliefCmdComplete c _ => okCell c
  | .racc c _ => okCell c
  | .raccApply c _ _ _ => okCell c
  | .raccComplete c _ => okCell c
  | .readShared a _ _ => okAgent a
  | .readOwn a _ => okAgent a
  | .ownershipGrant a _ => okAgent a
  | .writeBack a _ => okAgent a
  | .nonallocRead _ _ => true
  | .nonallocWrite _ _ _ => true
  | .atomicAtHome c _ _ => okCell c
  | .fenceSignal _ _ => true
  | .fenceErrorWrite _ _ => true
  | .holdExpiry a _ => okAgent a
  | .directoryReclaim _ => true
  | .cacheUncorrectableError a _ => okAgent a
  | .hostSnoop _ _ => true
  | .hostOrderedAck f => okFunction f
  | .syncMapinv a k _ => okSrc a && okCore k
  | .sigDataWrite a k _ => okSrc a && okCore k
  | .barCtlReset a k _ => okSrc a && okCore k
  | .monArm a _ _ => okSrc a
  | .engineWatchdog c => okCell c
  | .barrierWatchdog k u => okCore k && decide (u < 32)
  | .createContext a _ => okSrc a
  | .destroyContext a _ => okSrc a
  | .createQueue a _ => okSrc a
  | .destroyQueue a _ => okSrc a
  | .restartQueue a _ => okSrc a
  | .setArenaLimit a _ => okSrc a
  | .resetArena a _ => okSrc a
  | .stagingRecordReadDone f _ => okFunction f
  | .arenaCursorRead c _ => okCell c
  | .arenaAlloc c _ => okCell c
  | .dbOwnerWrite a _ => okSrc a
  | .frameDataWrite a _ => okSrc a
  | .doorbellTail x _ _ _ => okFunction x.src
  | .queueFetch q _ => okQueue q
  | .commandStart q _ => okQueue q
  | .waitConditionMet q _ _ => okQueue q
  | .watcherPoll q _ _ => okQueue q
  | .nopCommand q _ => okQueue q
  | .copyCmd q _ => okQueue q
  | .inlineCmd q _ => okQueue q
  | .engineCmd q _ => okQueue q
  | .armatureCmd q _ => okQueue q
  | .completionReport q _ => okQueue q
  | .abortCommand a _ _ => okSrc a
  | .abortQueue a _ => okSrc a
  | .abortStopDone _ _ => true
  | .abortQuiesced _ _ => true
  | .pageWalk u x va => decide (u < 32) && okContext x && okVa va
  | .deviceInvalidate a _ => okSrc a
  | .deviceInvalidateDone f => okFunction f
  | .loadAperture a _ => okSrc a
  | .unloadAperture a _ => okSrc a
  | .atsCompletion f pa va _ => okFunction f && okPasid pa && okVa va
  | .atsInvalidation f pa va _ => okFunction f && okPasid pa && okVa va
  | .chiselFault n t x _ => okChisel n && okStream t && okVa x.va
  | .prgResponse f _ _ => okFunction f
  | .priTimeout f _ => okFunction f
  | .pretranslationDone q _ _ => okQueue q
  | .hostDisablesAtsPri f => okFunction f
  | .windowRead x _ _ => okFunction x.src
  | .windowWrite x _ _ => okFunction x.src
  | .chiselStreamStart n _ => okChisel n
  | .chiselDescriptorComplete n t _ => okChisel n && okStream t
  | .hostRequestFailure q _ => okQueue q
  | .quantumExpiry k x => okCore k && okContext x
  | .switchDecided k x => okCore k && okContext x
  | .switchDrained k => okCore k
  | .switchComplete k => okCore k
  | .chiselStreamPreempt n t _ _ => okChisel n && okStream t
  | .chiselStreamResume n => okChisel n
  | .portDown p _ => decide (p < 16)
  | .portUp x => decide (x.port < 16) && okCredits x.credits
  | .packetForward rx _ => decide (rx.port < 16) && okCredits rx.hdr.credits
  | .putPacket _ => true
  | .accPacket _ => true
  | .sigPacket _ => true
  | .getPacket _ => true
  | .getrespPacket _ => true
  | .ackPacket _ => true
  | .nakPacket _ => true
  | .ringTailAdvance x => okRing x
  | .putDescriptor x _ => okRing x
  | .accDescriptor x _ => okRing x
  | .sigDescriptor x _ => okRing x
  | .getDescriptor x _ => okRing x
  | .barrierDescriptor x _ => okRing x
  | .descriptorRetire x _ => okRing x
  | .retransmit _ _ _ => true
  | .storeWatchdog _ _ _ => true
  | .unreachableTimeout _ _ => true
  | .jobBind a _ => okSrc a
  | .jobUnbind a _ => okSrc a
  | .ringEnable a _ => okSrc a
  | .scrubDone x => okFrame x
  | .icRaise a _ => okSrc a
  | .fixedConditionChange o => okSource o
  | .icAck a _ => okSrc a
  | .icSrcCtlWrite a _ => okSrc a
  | .icSrcTgtWrite a _ => okSrc a
  | .coalesceTimerExpiry o => okSource o
  | .msixVectorUnmask f _ _ => okFunction f
  | .icClaim x => okHart x
  | .getReport f _ => okFunction f
  | .getCerts f _ => okFunction f
  | .patinaSeal f _ => okFunction f
  | .partSet f _ => okFunction f
  | .partPolicy f _ => okFunction f
  | .castLoad f _ _ => okFunction f
  | .castAdmit f _ => okFunction f
  | .castUnload f _ => okFunction f
  | .castResupply f _ => okFunction f
  | .spdmRelay f _ => okFunction f
  | .jobKeygen f _ => okFunction f
  | .jobKey _ _ _ => true
  | .spdmMessage _ _ => true
  | .recast _ => true
  | .recastComplete _ => true
  | .lockInterface f => okFunction f
  | .stopInterface f => okFunction f
  | .ideIntegrityFailure f => okFunction f
  | .fwInfo f _ => okFunction f
  | .fwStage f _ _ => okFunction f
  | .fwCommit f _ => okFunction f
  | .fwActivate f _ => okFunction f
  | .bistRun f _ => okFunction f
  | .healthGet f _ => okFunction f
  | .quarClear f _ => okFunction f
  | .fatalRead f _ => okFunction f
  | .flashWriteComplete => true
  | .queryDeviceIdentifiers => true
  | .getFirmwareParameters => true
  | .requestUpdate _ => true
  | .passComponentTable => true
  | .updateComponent => true
  | .requestFirmwareData _ _ => true
  | .transferComplete => true
  | .verifyComplete => true
  | .applyComplete => true
  | .activateFirmware => true
  | .getStatus => true
  | .cancelUpdateComponent => true
  | .cancelUpdate => true
  | .throttleReqRise d => okDie d
  | .throttleReqFall d => okDie d
  | .throttleLong d => okDie d
  | .droopTrip d => okIsland d
  | .droopSelfTest d _ => okIsland d
  | .handshakeTimeout d r => okIsland d && okIsland r
  | .powerControlStep _ => true
  | .thermalSample _ => true
  | .thermalThrottleStep => true
  | .energySample _ => true
  | .standbyEnter a _ => okSrc a
  | .standbyExit a _ => okSrc a
  | .fatalCause _ _ => true
  | .supervisionWatchdog a => okAgent a
  | .pwrGoodRise => true
  | .pwrGoodFall => true
  | .resetNPulse => true
  | .softwareReset a _ => okSrc a
  | .pfFlr => true
  | .vfFlr f => okFunction f
  | .refclkLoss k => okClock k
  | .startUpStepDone _ => true
  | .linkDown _ => true
  | .linkUp => true
  | .linkLossTimeout => true
  | .tapUnlock _ => true
  | .configurationRequest p f _ => decide (p < 4) && okFunction f
  | .startInterface f => okFunction f
  | .flitReplay rx _ _ => decide (rx.port < 16) && okCredits rx.hdr.credits
  | .droopRecovery d => okIsland d
  | .hostLineOwnershipGrant _ _ => true
  | .refclkRelock k => okClock k
  | .registerReadRefused x _ _ _ => okSrc x.src
  | .dynamicAddressAssignment _ => true

end Sys2Proof
end

