-- ==== Sys2Proof/Decode.lean ====
section
/-! DEFINITION. Reading a command from the bits of the opcode table: the table of this hardware gives no row any bits. -/

namespace Sys2Proof

/-- The command that a word spells by the bits of spec/opcode_table.json: no row of it has fields, so none. -/
def decodeTableWord (_nbits _w : Nat) : Option Instr := none

end Sys2Proof
end

