-- ==== Sys2Proof/Config.lean ====
section
/-! DEFINITION. What an implementation fixes and the spec leaves open: free values and the algorithms of named standards, as constants with no body. -/

namespace Sys2Proof

/-- The free values: `freeNat n` is the n-th draw (log 2). Stochastic rounding's 12-bit draws (03 R86), the choices of the unspecified summation trees (03 R80, R87) and other unstated values come from it. -/
opaque Config.freeNat : Nat → Nat

/-- SHA-384 of a byte string (byte 0 of the digest in the low bits), the named standard (log 14). -/
opaque Config.sha384 : List Byte → BitVec 384

/-- ECDSA P-384 verification of a signature (r, s) of a digest under a public key (x, y) (log 14). -/
opaque Config.ecdsaVerify : (key : Nat) → (digest : BitVec 384) → (r s : Nat) → Bool

/-- ECDSA P-384 signature (r, then s, 96 bytes as a Nat) of a digest under the attestation key of a firmware digest (16 R473, R474; log 14). -/
opaque Config.ecdsaSign : (fwDigest : BitVec 384) → (digest : BitVec 384) → Nat

/-- The public key a firmware image's KEY_ID names, when a Jenmaene key of that identifier is fused (18 R535; log 14). -/
opaque Config.fusedKey : (keyId : Nat) → Option Nat

/-- Whether the AES key wrap of a Cast recipient entry opens under this complex's sealing key, and the content key's identity (16 R479; log 14). -/
opaque Config.castUnwrap : (recipient : List Byte) → (ephemeral : Nat) → (castId : Nat) → Option Nat

/-- Decryption of a Cast chunk by AES-256-GCM: the content, or none where the tag does not verify (16 R478, R480; log 14). -/
opaque Config.castOpen : (key : Nat) → (chunk : Nat) → (cipher : List Byte) → (tag : Nat) → Option (List Byte)

/-- The certificate chain of slot 0 for a firmware digest (16 R471 GET_CERTS; log 14). -/
opaque Config.certChain : (fwDigest : BitVec 384) → List Byte

/-- The bytes of the root of trust's reply to an SPDM message in a conversation (DSP0274; log 14): the conversation key, how many messages it has answered, and the message. -/
opaque Config.spdmReply : (conv : Nat) → (count : Nat) → (msg : List Byte) → List Byte

/-- The tag of AES-256-GCM over a packet: the key, the initialisation vector, the authenticated bytes and the encrypted ones (13 R408; log 14). -/
opaque Config.gcmTag : (key iv : Nat) → (aad cipher : List Byte) → Nat

/-- Byte `i` of the AES-256-GCM key stream of a key and an initialisation vector (13 R408; log 14). -/
opaque Config.gcmStream : (key iv i : Nat) → Byte

/-- A fabric job key generated by the root of trust (16 R477; log 14). -/
opaque Config.jobKey : Nat → Nat

/-- The silicon stepping of the set (19 R563 ID_PART; log 12). -/
opaque Config.stepping : BitVec 8

/-- The serial number, 16 bytes, byte 0 in the low bits (19 R563 ID_SERIAL; log 12). -/
opaque Config.serial : BitVec 128

/-- SHA-384 of the device identity public key (16 R474 IDKEY; log 12). -/
opaque Config.idKeyDigest : BitVec 384

/-- SHA-384 of the root-of-trust ROM (16 R474 ROM_DIGEST; log 12). -/
opaque Config.romDigest : BitVec 384

/-- The firmware image that package flash holds at power-on (19 R555; log 11). -/
opaque Config.factoryImage : List Byte

/-- Jenmaene's MIPI manufacturer identifier, in the provisional identifier (19 R554; log 12). -/
opaque Config.mipiId : BitVec 16

/-- The estimated power in watts of a domain at a setting, from the calibrated activity counters (17 R509, R510; log 15): domain (0 links, 1 memory, 2 compute), setting, demand. -/
opaque Config.powerEstimate : (domain setting demand : Nat) → Nat

/-- The set of the host-line cache that holds a host line: the spec gives 16 ways and no index function (11 R341; log 93). -/
opaque Config.hlcSet : (line : Nat) → Nat

end Sys2Proof
end

