-- ==== Sys2Proof/Machine/SMap.lean ====
section
/-! DEFINITION. Sparse maps: lists of (key, value) pairs with strictly rising keys and no entry equal to what an unlisted key reads as. Byte memories are such maps over bytes. -/

namespace Sys2Proof.Machine

/-- A sparse map in canonical form: keys strictly rising. -/
abbrev SMap (α : Type) := List (Nat × α)

/-- The value listed for a key. -/
def SMap.find? {α : Type} : SMap α → Nat → Option α
  | [], _ => none
  | (k, v) :: m, a => if a = k then some v else SMap.find? m a

/-- The map with a key listed (replaced where it is listed). -/
def SMap.insert {α : Type} : SMap α → Nat → α → SMap α
  | [], a, x => [(a, x)]
  | (k, v) :: m, a, x =>
    if a = k then (a, x) :: m
    else if a < k then (a, x) :: (k, v) :: m
    else (k, v) :: SMap.insert m a x

/-- The map without a key. -/
def SMap.erase {α : Type} (m : SMap α) (a : Nat) : SMap α := m.filter fun e => e.1 ≠ a

/-- What a key reads as: its listed value, else the default of the key. -/
def SMap.get {α : Type} (d : Nat → α) (m : SMap α) (a : Nat) : α := (m.find? a).getD (d a)

/-- Writing a key: a value equal to the key's default removes the entry. -/
def SMap.set {α : Type} [DecidableEq α] (d : Nat → α) (m : SMap α) (a : Nat) (x : α) : SMap α :=
  if x = d a then m.erase a else m.insert a x

/-- Updating a key by a function of its value. -/
def SMap.upd {α : Type} [DecidableEq α] (d : Nat → α) (m : SMap α) (a : Nat) (f : α → α) : SMap α :=
  m.set d a (f (m.get d a))

/-- The canonical form: keys strictly rising, and no entry equal to its key's default. -/
abbrev SMap.Wf {α : Type} (d : Nat → α) (m : SMap α) : Prop :=
  m.Pairwise (fun a b => a.1 < b.1) ∧ ∀ e ∈ m, e.2 ≠ d e.1

/-- The map with every entry whose key fails `p` taken out. -/
def SMap.keep {α : Type} (p : Nat → Bool) (m : SMap α) : SMap α := m.filter fun e => p e.1

/-- A byte memory: an unlisted address reads 0 (18 R534 step 9; log 21). -/
abbrev Mem := SMap Byte

/-- What an unlisted byte reads as. -/
def Mem.default : Nat → Byte := fun _ => 0

/-- The byte at an address. -/
def Mem.read (m : Mem) (a : Nat) : Byte := m.get Mem.default a

/-- Writing a byte. -/
def Mem.write (m : Mem) (a : Nat) (b : Byte) : Mem := m.set Mem.default a b

/-- The canonical form of a byte memory. -/
abbrev Mem.Wf (m : Mem) : Prop := SMap.Wf Mem.default m

/-- `n` bytes from `a`, as a little-endian Nat (00 R6). -/
def Mem.readLE (m : Mem) (a : Nat) : Nat → Nat
  | 0 => 0
  | n + 1 => (m.read a).toNat + 256 * Mem.readLE m (a + 1) n

/-- Writing the low `n` bytes of `v` from `a`, little-endian (00 R6). -/
def Mem.writeLE (m : Mem) (a : Nat) : Nat → Nat → Mem
  | 0, _ => m
  | n + 1, v => Mem.writeLE (m.write a (BitVec.ofNat 8 v)) (a + 1) n (v / 256)

/-- `n` bytes from `a`. -/
def Mem.readBytes (m : Mem) (a n : Nat) : List Byte := (List.range n).map fun i => m.read (a + i)

/-- Writing bytes from `a`. -/
def Mem.writeBytes (m : Mem) (a : Nat) : List Byte → Mem
  | [] => m
  | b :: bs => Mem.writeBytes (m.write a b) (a + 1) bs

/-- Every byte of `[a, a+n)` set to 0. -/
def Mem.clear (m : Mem) (a n : Nat) : Mem := m.keep fun k => !(decide (a ≤ k) && decide (k < a + n))

/-- The bytes of a line or granule at an aligned address as one value. -/
def Mem.readLine (m : Mem) (a : Nat) : Line := BitVec.ofNat 512 (m.readLE a 64)

/-- Writing the bytes of a line whose mask bit is set. -/
def Mem.writeMasked (m : Mem) (a : Nat) (mask : Nat) (data : Nat) : Mem :=
  (List.range 64).foldl
    (fun m i => if mask.testBit i then m.write (a + i) (BitVec.ofNat 8 (data / 256 ^ i)) else m) m

/-- The bytes of `n` as a list of `k` bytes, little-endian. -/
def bytesOf : Nat → Nat → List Byte
  | 0, _ => []
  | k + 1, n => BitVec.ofNat 8 n :: bytesOf k (n / 256)

/-- The little-endian Nat of a list of bytes. -/
def ofBytes : List Byte → Nat
  | [] => 0
  | b :: bs => b.toNat + 256 * ofBytes bs

/-- Bytes `off` to `off + n - 1` of a list, zeros past its end. -/
def byteSlice (l : List Byte) (off n : Nat) : List Byte :=
  (List.range n).map fun i => (l[off + i]?).getD 0

/-- The little-endian field of `n` bytes at `off` of a list. -/
def leAt (l : List Byte) (off n : Nat) : Nat := ofBytes (byteSlice l off n)

end Sys2Proof.Machine
end

