-- ==== Sys2Proof/Machine/Arith.lean ====
section
/-! DEFINITION. Number formats and arithmetic (03): exact values, decoding, rounding, conversion, block scales, the correctly rounded functions of the vector unit, and every flag they raise. -/

namespace Sys2Proof.Machine

/-- An exact number: a NaN, an infinity, or `± m × 2^e`. A zero keeps its sign (03 R67). -/
inductive Num where
  | nan
  | inf (neg : Bool)
  | fin (neg : Bool) (m : Nat) (e : Int)
  deriving DecidableEq, Repr

/-- The rounding modes (03 R85). -/
inductive Rnd where
  | rne | rz | rup | rdn | sr
  deriving DecidableEq, Repr

/-- The mode of a rounding field: `d` is the cell's default mode for DYN; none for the reserved codes (03 R85). -/
def Rnd.ofCode (d : Nat) : Nat → Option Rnd
  | 0 => some .rne
  | 1 => some .rz
  | 2 => some .rup
  | 3 => some .rdn
  | 4 => some .sr
  | 7 => match d with
    | 1 => some .rz
    | 2 => some .rup
    | 3 => some .rdn
    | 4 => some .sr
    | _ => some .rne
  | _ => none

/-- AFLAGS bits (03 R93). -/
def flagInvalid : Nat := 1
/-- DIVZERO (03 R93). -/
def flagDivZero : Nat := 2
/-- OVERFLOW (03 R93). -/
def flagOverflow : Nat := 4
/-- UNDERFLOW (03 R93). -/
def flagUnderflow : Nat := 8
/-- INEXACT (03 R93). -/
def flagInexact : Nat := 16
/-- SATURATE (03 R93). -/
def flagSaturate : Nat := 32
/-- SCALE_NAN (03 R93). -/
def flagScaleNan : Nat := 64
/-- KQ2_CODE (03 R93). -/
def flagKq2Code : Nat := 128
/-- SPARSE_META (03 R93). -/
def flagSparseMeta : Nat := 256

/-- A flag mask when a condition holds. -/
def flagIf (b : Bool) (f : Nat) : Nat := if b then f else 0

/-- A binary floating-point encoding (03 R65): exponent and mantissa bits, bias, the largest finite value `topM × 2^topE`, and which special values it has. -/
structure FloatFmt where
  ebits : Nat
  mbits : Nat
  bias : Nat
  topM : Nat
  topE : Int
  /-- Infinities and NaNs as in IEEE 754. -/
  ieee : Bool
  /-- NaN only, as the all-ones pattern (E4M3). -/
  nanOnly : Bool
  deriving DecidableEq, Repr

/-- FP32 (03 R65). -/
def fp32 : FloatFmt := ⟨8, 23, 127, 16777215, 104, true, false⟩
/-- BF16 (03 R65). -/
def bf16 : FloatFmt := ⟨8, 7, 127, 255, 120, true, false⟩
/-- FP16 (03 R65). -/
def fp16 : FloatFmt := ⟨5, 10, 15, 2047, 5, true, false⟩
/-- FP8 E4M3 (03 R65). -/
def e4m3 : FloatFmt := ⟨4, 3, 7, 14, 5, false, true⟩
/-- FP8 E5M2 (03 R65). -/
def e5m2 : FloatFmt := ⟨5, 2, 15, 7, 13, true, false⟩
/-- FP6 E3M2 (03 R65). -/
def e3m2 : FloatFmt := ⟨3, 2, 3, 7, 2, false, false⟩
/-- FP6 E2M3 (03 R65). -/
def e2m3 : FloatFmt := ⟨2, 3, 1, 15, -1, false, false⟩
/-- FP4 E2M1 (03 R65). -/
def e2m1 : FloatFmt := ⟨2, 1, 1, 3, 1, false, false⟩

/-- The float encoding of a format code, none for the integer and KQ2 codes and the reserved codes (03 R65). -/
def FloatFmt.ofCode : Nat → Option FloatFmt
  | 0x0 => some fp32
  | 0x1 => some bf16
  | 0x2 => some fp16
  | 0x3 => some e4m3
  | 0x4 => some e5m2
  | 0x5 => some e4m3
  | 0x6 => some e5m2
  | 0x7 => some e3m2
  | 0x8 => some e2m3
  | 0x9 => some e2m1
  | _ => none

/-- The width of an element in bits (03 R65, R66); 0 for the reserved codes. -/
def fmtBits : Nat → Nat
  | 0x0 => 32
  | 0x1 => 16
  | 0x2 => 16
  | 0x3 => 8
  | 0x4 => 8
  | 0x5 => 8
  | 0x6 => 8
  | 0x7 => 6
  | 0x8 => 6
  | 0x9 => 4
  | 0xA => 8
  | 0xB => 2
  | 0xC => 8
  | _ => 0

/-- The elements of a scale block, 0 for an unscaled format (03 R69). -/
def fmtBlock (f : Nat) : Nat := if 5 ≤ f ∧ f ≤ 0xA then 32 else if f = 0xB then 64 else 0

/-- The value of a float encoding (03 R65, R89). -/
def FloatFmt.decode (f : FloatFmt) (x : Nat) : Num :=
  let neg := x.testBit (f.ebits + f.mbits)
  let ex := nbits x f.mbits f.ebits
  let ma := nbits x 0 f.mbits
  let ones := 2 ^ f.ebits - 1
  if f.ieee && ex == ones then (if ma = 0 then .inf neg else .nan)
  else if f.nanOnly && ex == ones && ma == 2 ^ f.mbits - 1 then .nan
  else if ex = 0 then .fin neg ma (1 - (f.bias : Int) - f.mbits)
  else .fin neg (2 ^ f.mbits + ma) ((ex : Int) - f.bias - f.mbits)

/-- The value of an element of any format code, before a block scale (03 R65, R70), and the flags of reading it. -/
def elemValue (fmt : Nat) (tern : Bool) (x : Nat) : Num × Nat :=
  match FloatFmt.ofCode fmt with
  | some f => (f.decode x, 0)
  | none =>
    if fmt = 0xA then
      let v := signedNat x 8
      (.fin (decide (v < 0)) v.natAbs (-6), 0)
    else if fmt = 0xC then
      let v := signedNat x 8
      (.fin (decide (v < 0)) v.natAbs 0, 0)
    else if tern then
      match x % 4 with
      | 1 => (.fin false 1 0, 0)
      | 3 => (.fin true 1 0, 0)
      | 2 => (.fin false 0 0, flagKq2Code)
      | _ => (.fin false 0 0, 0)
    else
      match x % 4 with
      | 0 => (.fin false 1 (-1), 0)
      | 1 => (.fin false 3 (-1), 0)
      | 2 => (.fin true 1 (-1), 0)
      | _ => (.fin true 3 (-1), 0)

/-- A value times a block scale (03 R68): scale 0xFF makes every element NaN. -/
def scaleValue (scale : Nat) : Num → Num
  | .nan => .nan
  | .inf n => if scale = 0xFF then .nan else .inf n
  | .fin n m e => if scale = 0xFF then .nan else .fin n m (e + (scale : Int) - 127)

/-- The exact sum of two finite dyadics, as a signed mantissa and exponent. -/
def addDyadic (a b : Int × Int) : Int × Int :=
  let e := min a.2 b.2
  (a.1 * (2 ^ (a.2 - e).toNat : Int) + b.1 * (2 ^ (b.2 - e).toNat : Int), e)

/-- A sign and magnitude as a signed integer. -/
def signedOf (neg : Bool) (m : Nat) : Int := if neg then -(m : Int) else m

/-- The exact sum of two values (03 R81: opposite infinities are invalid); an exact zero is +0 unless both are -0 (03 R67). -/
def Num.add : Num → Num → Num × Nat
  | .nan, _ => (.nan, 0)
  | _, .nan => (.nan, 0)
  | .inf a, .inf b => if a = b then (.inf a, 0) else (.nan, flagInvalid)
  | .inf a, .fin _ _ _ => (.inf a, 0)
  | .fin _ _ _, .inf b => (.inf b, 0)
  | .fin na ma ea, .fin nb mb eb =>
    let s := addDyadic (signedOf na ma, ea) (signedOf nb mb, eb)
    if s.1 = 0 then (.fin false 0 0, 0)
    else (.fin (decide (s.1 < 0)) s.1.natAbs s.2, 0)

/-- The negation of a value. -/
def Num.neg : Num → Num
  | .nan => .nan
  | .inf a => .inf (!a)
  | .fin n m e => .fin (!n) m e

/-- The exact product of two values (03 R81: infinity times zero is invalid). -/
def Num.mul : Num → Num → Num × Nat
  | .nan, _ => (.nan, 0)
  | _, .nan => (.nan, 0)
  | .inf a, .inf b => (.inf (a != b), 0)
  | .inf a, .fin n m _ => if m = 0 then (.nan, flagInvalid) else (.inf (a != n), 0)
  | .fin n m _, .inf b => if m = 0 then (.nan, flagInvalid) else (.inf (b != n), 0)
  | .fin na ma ea, .fin nb mb eb => (.fin (na != nb) (ma * mb) (ea + eb), 0)

/-- ⌊log₂⌋ of the magnitude `m × 2^e`, m not 0. -/
def ilog2 (m : Nat) (e : Int) : Int := (Nat.log2 m : Int) + e

/-- The magnitude `m × 2^e` rounded to a whole number of units `2^q` (03 R85, R86): the units, and whether rounding changed the value. `u` is the 12-bit draw of stochastic rounding. -/
def roundUnits (r : Rnd) (neg : Bool) (m : Nat) (e q : Int) (u : Nat) : Nat × Bool :=
  if q ≤ e then (m * 2 ^ (e - q).toNat, false)
  else
    let k := (q - e).toNat
    let n := m / 2 ^ k
    let rem := m % 2 ^ k
    let half := 2 ^ (k - 1)
    let up : Bool :=
      match r with
      | .rne => decide (half < rem) || (rem == half && n % 2 == 1)
      | .rz => false
      | .rup => !neg && rem != 0
      | .rdn => neg && rem != 0
      | .sr => decide (4096 ≤ (rem * 4096) / 2 ^ k + u % 4096)
    (n + b2n up, rem != 0)

/-- The pattern of a finite magnitude `n × 2^q` that the encoding holds exactly (q is the exponent of its last place). -/
def FloatFmt.pack (f : FloatFmt) (neg : Bool) (n : Nat) (q : Int) : Nat :=
  let emin : Int := 1 - (f.bias : Int) - f.mbits
  let sign := b2n neg * 2 ^ (f.ebits + f.mbits)
  if n < 2 ^ f.mbits then sign + n
  else if n < 2 ^ (f.mbits + 1) then sign + (q - emin + 1).toNat * 2 ^ f.mbits + (n - 2 ^ f.mbits)
  else sign + (q - emin + 2).toNat * 2 ^ f.mbits + (n / 2 - 2 ^ f.mbits)

/-- The canonical NaN of an encoding (03 R67); 0 where it has none. -/
def FloatFmt.qnan (f : FloatFmt) : Nat :=
  if f.ieee then (2 ^ f.ebits - 1) * 2 ^ f.mbits + 2 ^ (f.mbits - 1)
  else if f.nanOnly then 2 ^ (f.ebits + f.mbits) - 1 else 0

/-- The pattern of an infinity. -/
def FloatFmt.infPat (f : FloatFmt) (neg : Bool) : Nat :=
  b2n neg * 2 ^ (f.ebits + f.mbits) + (2 ^ f.ebits - 1) * 2 ^ f.mbits

/-- The pattern of the largest finite value. -/
def FloatFmt.topPat (f : FloatFmt) (neg : Bool) : Nat :=
  b2n neg * 2 ^ (f.ebits + f.mbits)
    + (if f.ieee then (2 ^ f.ebits - 1) * 2 ^ f.mbits - 1
       else if f.nanOnly then 2 ^ (f.ebits + f.mbits) - 2 else 2 ^ (f.ebits + f.mbits) - 1)

/-- Whether `n × 2^q` exceeds `m × 2^e`. -/
def gtDyadic (n : Nat) (q : Int) (m : Nat) (e : Int) : Bool :=
  let l := min q e
  decide (m * 2 ^ (e - l).toNat < n * 2 ^ (q - l).toNat)

/-- Conversion of an exact value to an unscaled float encoding (03 R88, R89, R67): the pattern and the flags. -/
def FloatFmt.encode (f : FloatFmt) (r : Rnd) (u : Nat) : Num → Nat × Nat
  | .nan => (f.qnan, 0)
  | .inf neg => if f.ieee then (f.infPat neg, 0) else (f.topPat neg, flagOverflow)
  | .fin neg 0 _ => (b2n neg * 2 ^ (f.ebits + f.mbits), 0)
  | .fin neg m e =>
    let emin : Int := 1 - (f.bias : Int)
    let l := ilog2 m e
    let q := max l emin - f.mbits
    let (n, inex) := roundUnits r neg m e q u
    if gtDyadic n q f.topM f.topE then
      let toInf : Bool := f.ieee && (match r with
        | .rne => true
        | .sr => true
        | .rz => false
        | .rup => !neg
        | .rdn => neg)
      (if toInf then f.infPat neg else f.topPat neg, flagOverflow + flagInexact)
    else (f.pack neg n q, flagIf inex flagInexact + flagIf (inex && decide (l < emin)) flagUnderflow)

/-- Conversion to INT8 (03 R88). A value that saturates flags INEXACT beside SATURATE, even where it is a whole number (log 86). -/
def encodeInt8 (r : Rnd) (u : Nat) : Num → Nat × Nat
  | .nan => (0, flagInvalid)
  | .inf neg => (if neg then 0x81 else 0x7F, flagSaturate)
  | .fin neg m e =>
    let (n, inex) := roundUnits r neg m e 0 u
    if 127 < n then (if neg then 0x81 else 0x7F, flagSaturate + flagInexact)
    else (wrapNat 8 (signedOf neg n), flagIf inex flagInexact)

/-- Conversion to an unscaled target: codes 0x0 to 0x4 and 0xC (03 R72, R88). -/
def encodeUnscaled (fmt : Nat) (r : Rnd) (u : Nat) (x : Num) : Nat × Nat :=
  match FloatFmt.ofCode fmt with
  | some f => f.encode r u x
  | none => encodeInt8 r u x

/-- The largest finite element magnitude of a block-scaled target, `top`, as mantissa and exponent (03 R90). -/
def blockTop (fmt : Nat) (tern : Bool) : Nat × Int :=
  match FloatFmt.ofCode fmt with
  | some f => (f.topM, f.topE)
  | none => if fmt = 0xA then (127, -6) else if tern then (1, 0) else (3, -1)

/-- emax of a block-scaled target (03 R90). -/
def blockEmax (fmt : Nat) : Int :=
  match fmt with
  | 0x5 => 8
  | 0x6 => 15
  | 0x7 => 4
  | 0x8 => 2
  | 0x9 => 2
  | _ => 0

/-- An element quotient of a block-scaled float format, clipped at top (03 R89, R90); `clip` is the flag of clipping. A clipped element flags INEXACT too, also where its quotient lies on the element grid (log 86). -/
def encodeBlockFloat (f : FloatFmt) (r : Rnd) (u clip : Nat) (neg : Bool) (m : Nat) (e : Int) : Nat × Nat :=
  if m = 0 then (b2n neg * 2 ^ (f.ebits + f.mbits), 0)
  else
    let q := max (ilog2 m e) (1 - (f.bias : Int)) - f.mbits
    let (n, inex) := roundUnits r neg m e q u
    if gtDyadic n q f.topM f.topE then
      (b2n neg * 2 ^ (f.ebits + f.mbits) + (f.pack false f.topM f.topE), clip ||| flagInexact)
    else (f.pack neg n q, flagIf inex flagInexact)

/-- An MXINT8 element quotient (03 R71, R90). -/
def encodeMxInt8 (r : Rnd) (u clip : Nat) (neg : Bool) (m : Nat) (e : Int) : Nat × Nat :=
  let (n, inex) := roundUnits r neg m e (-6) u
  if neg && n == 128 then (0x81, flagSaturate + flagInexact)
  else if 127 < n then (wrapNat 8 (signedOf neg 127), clip ||| flagInexact)
  else (wrapNat 8 (signedOf neg n), flagIf inex flagInexact)

/-- A KQ2 element quotient (03 R565, R71). -/
def encodeKq2 (tern : Bool) (r : Rnd) (u clip : Nat) (neg : Bool) (m : Nat) (e : Int) : Nat × Nat :=
  if tern then
    if gtDyadic m e 1 0 then (if neg then 3 else 1, clip ||| flagInexact)
    else
      let (n, inex) := roundUnits r neg m e 0 u
      (if n = 0 then 0 else if neg then 3 else 1, flagIf inex flagInexact)
  else
    let s := b2n neg * 2
    if gtDyadic m e 3 (-1) then (s + 1, clip ||| flagInexact)
    else if gtDyadic m e 1 (-1) then
      -- magnitude minus 0.5, in units of 1.0
      let d := addDyadic ((m : Int), e) (-1, -1)
      let (n, inex) := roundUnits r neg d.1.natAbs d.2 0 u
      (s + n, flagIf inex flagInexact)
    else (s, flagIf (gtDyadic 1 (-1) m e) flagInexact)

/-- An element quotient of a block-scaled target (03 R90, R565). -/
def encodeBlockElem (fmt : Nat) (tern : Bool) (r : Rnd) (u clip : Nat) (neg : Bool) (m : Nat) (e : Int) : Nat × Nat :=
  match FloatFmt.ofCode fmt with
  | some f => encodeBlockFloat f r u clip neg m e
  | none => if fmt = 0xA then encodeMxInt8 r u clip neg m e else encodeKq2 tern r u clip neg m e

/-- Whether a value is a NaN or an infinity. -/
def Num.nonFinite : Num → Bool
  | .fin _ _ _ => false
  | _ => true

/-- The larger of two finite magnitudes (mantissa, exponent). -/
def maxMag (a b : Nat × Int) : Nat × Int := if gtDyadic b.1 b.2 a.1 a.2 then b else a

/-- The magnitude of a value; 0 for the non-finite ones. -/
def Num.mag : Num → Nat × Int
  | .fin _ m e => (m, e)
  | _ => (0, 0)

/-- Conversion of one block to a block-scaled target (03 R90, R91, R565): the scale byte, the element codes and the flags. `us` are the elements' draws. Where rule 1 lowers x to 127, OVERFLOW is flagged, and SATURATE for elements at top is flagged under rule 0 alone (log 86). -/
def encodeBlock (fmt : Nat) (tern : Bool) (r : Rnd) (rule : Nat) (us : List Nat) (xs : List Num) : Nat × List Nat × Nat :=
  if xs.any Num.nonFinite then (0xFF, xs.map fun _ => 0, flagInvalid)
  else
    let amax := (xs.map Num.mag).foldl maxMag (0, 0)
    if amax.1 = 0 then
      if fmt = 0xB ∧ ¬ tern then
        (0x00, xs.map fun x => match x with
          | .fin true _ _ => 2
          | _ => 0, flagInexact)
      else (0x7F, xs.map fun _ => 0, 0)
    else
      let top := blockTop fmt tern
      let x0 := ilog2 amax.1 amax.2 - blockEmax fmt
      let x1 := if rule = 0 then x0 else if gtDyadic amax.1 (amax.2 - x0) top.1 top.2 then x0 + 1 else x0
      let raised := decide (x1 < -127)
      let lowered := decide (127 < x1)
      let x : Int := if raised then -127 else if lowered then 127 else x1
      let clip := if rule = 0 then flagSaturate else 0
      let es := (xs.zip us).map fun p =>
        match p.1 with
        | .fin neg m e => encodeBlockElem fmt tern r p.2 clip neg m (e - x)
        | _ => (0, 0)
      let fl := es.foldl (fun a p => a ||| p.2) 0
      ((x + 127).toNat, es.map Prod.fst,
        fl ||| flagIf lowered flagOverflow ||| flagIf (raised && fl.testBit 4) flagUnderflow)

/-! ## FP32 operations (03 R80, R81, R87; 05 R155, R156) -/

/-- The value of an FP32 pattern. -/
def f32 (x : Nat) : Num := fp32.decode x

/-- The FP32 pattern of an exact value rounded under a mode, with its flags. -/
def toF32 (r : Rnd) (u : Nat) (x : Num) : Nat × Nat := fp32.encode r u x

/-- An FP32 addition rounded to nearest even, as a node of a summation tree; the tensor array never flags INEXACT, so callers mask it (03 R80, R81). -/
def f32AddRne (a b : Nat) : Nat × Nat :=
  let s := (f32 a).add (f32 b)
  let z := toF32 .rne 0 s.1
  (z.1, z.2 ||| s.2)

/-- Integer square root, from bit `k` down. -/
def isqrtFrom (n : Nat) : Nat → Nat → Nat
  | 0, r => r
  | k + 1, r => let r' := r + 2 ^ k; isqrtFrom n k (if r' * r' ≤ n then r' else r)

/-- ⌊√n⌋. -/
def isqrt (n : Nat) : Nat := isqrtFrom n (Nat.log2 n / 2 + 1) 0

/-- A magnitude `q × 2^e` that is exact, or has a part below `2^e` left over: the part is kept as one sticky bit, which no rounding can tell from the exact value. -/
def stickyNum (neg : Bool) (q : Nat) (e : Int) (exact : Bool) : Num := .fin neg (2 * q + b2n (!exact)) (e - 1)

/-- The quotient of two values to 96 bits below the operands, with a sticky bit (05 R156). -/
def Num.div : Num → Num → Num × Nat
  | .nan, _ => (.nan, 0)
  | _, .nan => (.nan, 0)
  | .inf _, .inf _ => (.nan, flagInvalid)
  | .inf a, .fin n _ _ => (.inf (a != n), 0)
  | .fin _ _ _, .inf _ => (.fin false 0 0, 0)
  | .fin na ma ea, .fin nb mb eb =>
    if mb = 0 then (if ma = 0 then (.nan, flagInvalid) else (.inf (na != nb), flagDivZero))
    else if ma = 0 then (.fin false 0 0, 0)
    else
      let n := ma * 2 ^ 96
      (stickyNum (na != nb) (n / mb) (ea - eb - 96) (n % mb == 0), 0)

/-- The square root (05 R156). -/
def Num.sqrt : Num → Num × Nat
  | .nan => (.nan, 0)
  | .inf neg => if neg then (.nan, flagInvalid) else (.inf false, 0)
  | .fin neg m e =>
    if m = 0 then (.fin neg 0 0, 0)
    else if neg then (.nan, flagInvalid)
    else
      let odd := e % 2 ≠ 0
      let m' := (if odd then 2 * m else m) * 2 ^ 128
      let e' := (if odd then e - 1 else e) - 128
      let q := isqrt m'
      (stickyNum false q (e' / 2) (q * q == m'), 0)

/-- The reciprocal square root (05 R156). -/
def Num.rsqrt : Num → Num × Nat
  | .nan => (.nan, 0)
  | .inf neg => if neg then (.nan, flagInvalid) else (.fin false 0 0, 0)
  | .fin neg m e =>
    if m = 0 then (.inf neg, flagDivZero)
    else if neg then (.nan, flagInvalid)
    else
      let odd := e % 2 ≠ 0
      let m' := if odd then 2 * m else m
      let e' := if odd then e - 1 else e
      let q := isqrt (2 ^ 256 / m')
      (stickyNum false q (-(e' / 2) - 128) (q * q * m' == 2 ^ 256), 0)

/-- ln 2 × 2^256 by the series of 2·artanh(1/3), `n` terms from term `i`. -/
def ln2Terms : Nat → Nat → Nat → Nat
  | 0, _, _ => 0
  | n + 1, i, p => p / (2 * i + 1) + ln2Terms n (i + 1) (p / 9)

/-- ln 2 as a fraction of 2^256 (UNVERIFIED: the working precision of EXP2, log 16). -/
def ln2Fix : Nat := ln2Terms 96 0 (2 * 2 ^ 256 / 3)

/-- The exponential series Σ t^k / k! in fractions of 2^256, `n` terms from term `k`. -/
def expTerms (t : Nat) : Nat → Nat → Nat → Nat
  | 0, _, _ => 0
  | n + 1, k, p => p + expTerms t n (k + 1) (p * t / (2 ^ 256 * (k + 1)))

/-- 2 to the power of a value, to about 240 bits with a sticky bit (05 R155, R156; log 16). -/
def Num.exp2 : Num → Num × Nat
  | .nan => (.nan, 0)
  | .inf neg => if neg then (.fin false 0 0, 0) else (.inf false, 0)
  | .fin neg m e =>
    if m = 0 then (.fin false 1 0, 0)
    else if 16 < ilog2 m e then (if neg then (.fin false 1 (-70000), 0) else (.fin false 1 70000, 0))
    else
      let s := signedOf neg m
      if 0 ≤ e then (.fin false 1 (s * 2 ^ e.toNat), 0)
      else
        let d : Int := 2 ^ (-e).toNat
        let k := s / d
        let f := (s % d).toNat
        if f = 0 then (.fin false 1 k, 0)
        else
          let t := f * ln2Fix / 2 ^ (-e).toNat
          (stickyNum false (expTerms t 80 0 (2 ^ 256)) (k - 256) false, 0)

/-- `n` binary digits of log₂ y, y in [1, 2) as a fraction of 2^512. -/
def log2Digits : Nat → Nat → Nat → Nat
  | 0, _, acc => acc
  | n + 1, y, acc =>
    let y2 := y * y / 2 ^ 512
    if 2 ^ 513 ≤ y2 then log2Digits n (y2 / 2) (2 * acc + 1) else log2Digits n y2 (2 * acc)

/-- The base-2 logarithm, to 200 fraction bits with a sticky bit (05 R155, R156; log 16). -/
def Num.log2 : Num → Num × Nat
  | .nan => (.nan, 0)
  | .inf neg => if neg then (.nan, flagInvalid) else (.inf false, 0)
  | .fin neg m e =>
    if m = 0 then (.inf true, flagDivZero)
    else if neg then (.nan, flagInvalid)
    else
      let k := ilog2 m e
      let y := m * 2 ^ (512 - Nat.log2 m)
      if y = 2 ^ 512 then (.fin (decide (k < 0)) k.natAbs 0, 0)
      else
        let v : Int := k * 2 ^ 200 + (log2Digits 200 y 0 : Nat)
        if 0 ≤ v then (.fin false (2 * v.natAbs + 1) (-201), 0)
        else (.fin true (2 * v.natAbs - 1) (-201), 0)

/-- MIN of two values by 05 R156: -0 below +0, a single NaN yields the other operand. -/
def Num.lt : Num → Num → Bool
  | .nan, _ => false
  | _, .nan => false
  | .inf a, .inf b => a && !b
  | .inf a, .fin _ _ _ => a
  | .fin _ _ _, .inf b => !b
  | .fin na ma ea, .fin nb mb eb =>
    let d := addDyadic (signedOf na ma, ea) (-(signedOf nb mb), eb)
    decide (d.1 < 0)

/-- Whether a value is a NaN. -/
def Num.isNan : Num → Bool
  | .nan => true
  | _ => false

/-- Whether two values are equal as numbers (zeros of either sign are equal). -/
def Num.eqv (a b : Num) : Bool := !a.isNan && !b.isNan && !a.lt b && !b.lt a

/-- The sign of a value. -/
def Num.isNeg : Num → Bool
  | .nan => false
  | .inf n => n
  | .fin n _ _ => n

/-- Ordering below with -0 below +0 (05 R156). -/
def Num.ltZ (a b : Num) : Bool := a.lt b || (a.eqv b && a.isNeg && !b.isNeg)

/-- MIN (05 R156). -/
def Num.min (a b : Num) : Num := if a.isNan then b else if b.isNan then a else if b.ltZ a then b else a

/-- MAX (05 R156). -/
def Num.max (a b : Num) : Num := if a.isNan then b else if b.isNan then a else if a.ltZ b then b else a

/-- The magnitude of a value. -/
def Num.abs : Num → Num
  | .nan => .nan
  | .inf _ => .inf false
  | .fin _ m e => .fin false m e

/-- Fused a × b + c before its one rounding (03 R87). -/
def Num.fma (a b c : Num) : Num × Nat :=
  let p := a.mul b
  if p.2 ≠ 0 ∧ c.isNan then (.nan, 0)
  else
    let s := p.1.add c
    (s.1, p.2 ||| s.2)

/-! ## Summation trees (03 R80, R84, R87; log 2) -/

/-- The list without its element at an index. -/
def dropAt {α : Type} (l : List α) (i : Nat) : List α := l.take i ++ l.drop (i + 1)

/-- One value from combining a list pairwise until one is left, the pairs chosen by free values: any binary tree over the leaves may result. `f` is given the number of the combination; `n` bounds the combinations. -/
def treeFold (free : Nat → Nat) (f : Nat → Nat → Nat → Nat × Nat) : Nat → Nat → List Nat → Nat → Nat × Nat
  | 0, _, l, fl => ((l[0]?).getD 0, fl)
  | n + 1, d, l, fl =>
    if l.length ≤ 1 then ((l[0]?).getD 0, fl)
    else
      let i := free d % l.length
      let a := (l[i]?).getD 0
      let l1 := dropAt l i
      let j := free (d + 1) % l1.length
      let b := (l1[j]?).getD 0
      let z := f d a b
      treeFold free f n (d + 2) (z.1 :: dropAt l1 j) (fl ||| z.2)

/-- How many free values an operation that needs many sets aside. -/
def drawSpan : Nat := 2 ^ 30

/-- The draws of roundings, apart from the choices of trees. -/
def roundDraw (free : Nat → Nat) (i : Nat) : Nat := free (2 ^ 27 + i)

/-- Conversion to a 32-bit integer, saturating to ±(2^31 - 1); NaN gives 0 with INVALID (05 R159). -/
def encodeInt32 (r : Rnd) (u : Nat) : Num → Nat × Nat
  | .nan => (0, flagInvalid)
  | .inf neg => (if neg then 0x80000001 else 0x7FFFFFFF, flagSaturate)
  | .fin neg m e =>
    let (n, inex) := roundUnits r neg m e 0 u
    if 2 ^ 31 - 1 < n then (if neg then 0x80000001 else 0x7FFFFFFF, flagSaturate + flagInexact)
    else (wrapNat 32 (signedOf neg n), flagIf inex flagInexact)

/-- The value of an INT32 pattern. -/
def int32Num (x : Nat) : Num :=
  let v := signedNat x 32
  .fin (decide (v < 0)) v.natAbs 0

end Sys2Proof.Machine
end

