-- ==== Sys2Proof/Machine/RegTable.lean ====
section
/-! DEFINITION. The register pages of BAR0 (19 R559), and every register with its offset, fields, access codes and reset values: the register tables of the spec, one definition per field. -/

namespace Sys2Proof.Machine

/-- The access codes of register fields (00 "Registers"). -/
inductive Access where
  | rw | ro | wo | w1c | rc | rwl | rsv
  deriving DecidableEq, Repr

/-- A field of a register: lowest bit, width, access code and reset value. -/
structure Fld where
  lo : Nat
  width : Nat
  acc : Access
  reset : Nat
  deriving DecidableEq, Repr

/-- The value of a field in a register word. -/
def Fld.get (f : Fld) (w : Word) : Nat := w.fld f.lo f.width

/-- A register word with a field replaced. -/
def Fld.put (f : Fld) (w : Word) (v : Nat) : Word := w.setFld f.lo f.width v

/-- The field's contribution to a register word. -/
def Fld.at (f : Fld) (v : Nat) : Nat := (v % 2 ^ f.width) * 2 ^ f.lo

/-- The kinds of register page (19 R559, R562). -/
inductive PageKind where
  | identity | reset | plinth | function | atu | chisel | objects | abort | xlat | queueFetch | chiselSlicing
  | monitor | ic | security | patina | cast | mailbox | power | thermal | ctxEnergy | fabric | jobs
  | extMem | home | armature | relief | coreCache | sync | tlb | slicing | islands | engine | msix
  deriving DecidableEq, Repr

/-- The block type of a page kind (19 R562); the MSI-X pages have no header. -/
def PageKind.blockType : PageKind → Nat
  | .identity => 0x1
  | .reset => 0x2
  | .plinth => 0x10
  | .function => 0x11
  | .atu => 0x20
  | .chisel => 0x30
  | .objects => 0x40
  | .abort => 0x41
  | .xlat => 0x42
  | .queueFetch => 0x43
  | .chiselSlicing => 0x44
  | .monitor => 0x45
  | .ic => 0x50
  | .security => 0x60
  | .patina => 0x62
  | .cast => 0x63
  | .mailbox => 0x64
  | .power => 0x70
  | .thermal => 0x71
  | .ctxEnergy => 0x72
  | .fabric => 0x80
  | .jobs => 0x81
  | .extMem => 0x90
  | .home => 0x91
  | .armature => 0x100
  | .relief => 0x101
  | .coreCache => 0x102
  | .sync => 0x103
  | .tlb => 0x104
  | .slicing => 0x105
  | .islands => 0x106
  | .engine => 0x107
  | .msix => 0

/-- The kind and instance of a page number (19 R559, R562); none where BAR0 has no page. -/
def pageOf (p : Nat) : Option (PageKind × Nat) :=
  if p = 0x0000 then some (.identity, 0)
  else if p = 0x0010 then some (.reset, 0)
  else if p = 0x0100 then some (.plinth, 0)
  else if 0x0110 ≤ p ∧ p ≤ 0x0120 then some (.function, p - 0x0110)
  else if p = 0x0200 then some (.atu, 0)
  else if 0x0300 ≤ p ∧ p ≤ 0x0313 then some (.chisel, p - 0x0300)
  else if p = 0x0400 then some (.objects, 0)
  else if p = 0x0401 then some (.abort, 0)
  else if p = 0x0402 then some (.xlat, 0)
  else if p = 0x0403 then some (.queueFetch, 0)
  else if p = 0x0404 then some (.chiselSlicing, 0)
  else if p = 0x04F0 then some (.monitor, 0)
  else if p = 0x0500 then some (.ic, 0)
  else if 0x0510 ≤ p ∧ p ≤ 0x0518 then some (.msix, p - 0x0510)
  else if p = 0x0600 then some (.security, 0)
  else if p = 0x0602 then some (.patina, 0)
  else if p = 0x0603 then some (.cast, 0)
  else if 0x0610 ≤ p ∧ p ≤ 0x0620 then some (.mailbox, p - 0x0610)
  else if p = 0x0700 then some (.power, 0)
  else if p = 0x0701 then some (.thermal, 0)
  else if p = 0x0702 then some (.ctxEnergy, 0)
  else if p = 0x0800 then some (.fabric, 0)
  else if p = 0x0801 then some (.jobs, 0)
  else if p = 0x0900 then some (.extMem, 0)
  else if 0x0901 ≤ p ∧ p ≤ 0x090C then some (.home, p - 0x0901)
  else if 0x1000 ≤ p ∧ p < 0x2000 then
    let c := (p - 0x1000) / 0x100
    let r := p % 0x100
    if r = 0 then some (.armature, c)
    else if r = 1 then some (.relief, c)
    else if r = 2 then some (.coreCache, c)
    else if r = 3 then some (.sync, c)
    else if r = 4 then some (.tlb, c)
    else if r = 5 then some (.slicing, c)
    else if r = 6 then some (.islands, c)
    else if 0x40 ≤ r ∧ r < 0x80 then some (.engine, 64 * c + (r - 0x40))
    else none
  else none

/-- ARM_CAP.PHYS (R63). -/
def Fld.armCap_phys : Fld := ⟨0, 16, .ro, 272⟩
/-- ARM_CAP.POSITIONS (R63). -/
def Fld.armCap_positions : Fld := ⟨16, 16, .ro, 256⟩
/-- ARM_CAP.MAX_ENGINES (R63). -/
def Fld.armCap_maxEngines : Fld := ⟨32, 8, .ro, 64⟩
/-- ARM_STAT.HEALTHY (R63). -/
def Fld.armStat_healthy : Fld := ⟨0, 9, .ro, 0⟩
/-- ARM_STAT.MAPPED (R63). -/
def Fld.armStat_mapped : Fld := ⟨9, 9, .ro, 0⟩
/-- ARM_STAT.SPARES (R63). -/
def Fld.armStat_spares : Fld := ⟨18, 5, .ro, 0⟩
/-- ARM_STAT.ENGINES (R63). -/
def Fld.armStat_engines : Fld := ⟨24, 7, .ro, 0⟩
/-- ARM_STAT.STATE (R63). -/
def Fld.armStat_state : Fld := ⟨32, 4, .ro, 0⟩
/-- ARM_STAT.SHORT (R63). -/
def Fld.armStat_short : Fld := ⟨36, 1, .ro, 0⟩
/-- ARM_FREE.FREE (R63). -/
def Fld.armFree_free : Fld := ⟨0, 9, .ro, 0⟩
/-- ARM_FREE.LARGEST (R63). -/
def Fld.armFree_largest : Fld := ⟨16, 3, .ro, 7⟩
/-- ARM_ENGINES.FORMED (R63). -/
def Fld.armEngines_formed : Fld := ⟨0, 64, .ro, 0⟩
/-- ARM_REQ_ADDR.IMAGE (R63). -/
def Fld.armReqAddr_image : Fld := ⟨0, 52, .rw, 0⟩
/-- ARM_REQ_CTL.CONTEXT (R63). -/
def Fld.armReqCtl_context : Fld := ⟨0, 12, .rw, 0⟩
/-- ARM_REQ_CTL.MODE (R63). -/
def Fld.armReqCtl_mode : Fld := ⟨12, 2, .rw, 0⟩
/-- ARM_REQ_CTL.FULL (R63). -/
def Fld.armReqCtl_full : Fld := ⟨14, 1, .rw, 0⟩
/-- ARM_REQ_CTL.GO (R63). -/
def Fld.armReqCtl_go : Fld := ⟨63, 1, .wo, 0⟩
/-- ARM_REQ_MASK.ENGINES (R63). -/
def Fld.armReqMask_engines : Fld := ⟨0, 64, .rw, 0⟩
/-- ARM_RES_ADDR.RECORD (R63). -/
def Fld.armResAddr_record : Fld := ⟨0, 52, .rw, 0⟩
/-- ARM_REQ_STAT.BUSY (R63). -/
def Fld.armReqStat_busy : Fld := ⟨0, 1, .ro, 0⟩
/-- ARM_REQ_STAT.DONE (R63). -/
def Fld.armReqStat_done : Fld := ⟨1, 1, .w1c, 0⟩
/-- ARM_REQ_STAT.STATUS (R63). -/
def Fld.armReqStat_status : Fld := ⟨8, 8, .ro, 0⟩
/-- ARM_REQ_STAT.INDEX (R63). -/
def Fld.armReqStat_index : Fld := ⟨16, 16, .ro, 0⟩
/-- ARM_QPOL.CE_THRESHOLD (R63). -/
def Fld.armQpol_ceThreshold : Fld := ⟨0, 16, .rwl, 64⟩
/-- ARM_QPOL.CE_WINDOW (R63). -/
def Fld.armQpol_ceWindow : Fld := ⟨16, 16, .rwl, 1000⟩
/-- ARM_QPOL.MIGRATE (R63). -/
def Fld.armQpol_migrate : Fld := ⟨32, 1, .rwl, 1⟩
/-- ARM_QCOUNT.QUARANTINED (R63). -/
def Fld.armQcount_quarantined : Fld := ⟨0, 16, .ro, 0⟩
/-- ARM_QCOUNT.MIGRATIONS (R63). -/
def Fld.armQcount_migrations : Fld := ⟨16, 16, .ro, 0⟩
/-- ARM_QCOUNT.HARD (R63). -/
def Fld.armQcount_hard : Fld := ⟨32, 16, .ro, 0⟩
/-- ARM_QLOG.CELL (R63). -/
def Fld.armQlog_cell : Fld := ⟨0, 9, .ro, 0⟩
/-- ARM_QLOG.TRIGGER (R63). -/
def Fld.armQlog_trigger : Fld := ⟨12, 4, .ro, 0⟩
/-- ARM_QLOG.ENGINE (R63). -/
def Fld.armQlog_engine : Fld := ⟨16, 6, .ro, 0⟩
/-- ARM_QLOG.MIGRATED (R63). -/
def Fld.armQlog_migrated : Fld := ⟨24, 1, .ro, 0⟩
/-- ARM_QLOG.TIME (R63). -/
def Fld.armQlog_time : Fld := ⟨32, 32, .ro, 0⟩
/-- ARM_MAP_IDX.POSITION (R63). -/
def Fld.armMapIdx_position : Fld := ⟨0, 8, .rw, 0⟩
/-- ARM_MAP_DATA.CELL (R63). -/
def Fld.armMapData_cell : Fld := ⟨0, 9, .ro, 0⟩
/-- ARM_MAP_DATA.MAPPED (R63). -/
def Fld.armMapData_mapped : Fld := ⟨9, 1, .ro, 0⟩
/-- ARM_MAP_DATA.ENGINE (R63). -/
def Fld.armMapData_engine : Fld := ⟨16, 6, .ro, 0⟩
/-- ARM_MAP_DATA.OCCUPIED (R63). -/
def Fld.armMapData_occupied : Fld := ⟨22, 1, .ro, 0⟩
/-- REL_CAP.BANK_KIB (R203). -/
def Fld.relCap_bankKib : Fld := ⟨0, 16, .ro, 2048⟩
/-- REL_CAP.BLOCKS (R203). -/
def Fld.relCap_blocks : Fld := ⟨16, 8, .ro, 16⟩
/-- REL_CAP.LANES (R203). -/
def Fld.relCap_lanes : Fld := ⟨24, 8, .ro, 64⟩
/-- REL_CAP.RECIPES (R203). -/
def Fld.relCap_recipes : Fld := ⟨32, 8, .ro, 15⟩
/-- REL_STAT.IN_SERVICE (R203). -/
def Fld.relStat_inService : Fld := ⟨0, 9, .ro, 0⟩
/-- REL_STAT.POISONED (R203). -/
def Fld.relStat_poisoned : Fld := ⟨16, 16, .ro, 0⟩
/-- REL_STAT.LOST (R203). -/
def Fld.relStat_lost : Fld := ⟨32, 1, .ro, 0⟩
/-- REL_ERRCNT.CORRECTED (R203). -/
def Fld.relErrcnt_corrected : Fld := ⟨0, 32, .rc, 0⟩
/-- REL_ERRCNT.UNCORR (R203). -/
def Fld.relErrcnt_uncorr : Fld := ⟨32, 16, .rc, 0⟩
/-- REL_PLOG.POSITION (R203). -/
def Fld.relPlog_position : Fld := ⟨0, 8, .ro, 0⟩
/-- REL_PLOG.GRANULE (R203). -/
def Fld.relPlog_granule : Fld := ⟨8, 15, .ro, 0⟩
/-- REL_PLOG.CAUSE (R203). -/
def Fld.relPlog_cause : Fld := ⟨24, 2, .ro, 0⟩
/-- REL_PLOG.TIME (R203). -/
def Fld.relPlog_time : Fld := ⟨32, 32, .ro, 0⟩
/-- REL_BLK_IDX.BLOCK (R203). -/
def Fld.relBlkIdx_block : Fld := ⟨0, 4, .rw, 0⟩
/-- REL_BLK_DATA.CONTEXT (R203). -/
def Fld.relBlkData_context : Fld := ⟨0, 12, .ro, 0⟩
/-- REL_BLK_DATA.CLAIMED (R203). -/
def Fld.relBlkData_claimed : Fld := ⟨12, 1, .ro, 0⟩
/-- REL_BLK_DATA.RESIDENT (R203). -/
def Fld.relBlkData_resident : Fld := ⟨13, 1, .ro, 0⟩
/-- CC_CAP.SIZE_KIB (R236). -/
def Fld.ccCap_sizeKib : Fld := ⟨0, 16, .ro, 16384⟩
/-- CC_CAP.WAYS (R236). -/
def Fld.ccCap_ways : Fld := ⟨16, 8, .ro, 16⟩
/-- CC_CAP.LINE (R236). -/
def Fld.ccCap_line : Fld := ⟨24, 8, .ro, 64⟩
/-- CC_CAP.STOREBUF (R236). -/
def Fld.ccCap_storebuf : Fld := ⟨32, 8, .ro, 16⟩
/-- CC_CTL.HOLD_MIN (R236). -/
def Fld.ccCtl_holdMin : Fld := ⟨0, 9, .rwl, 48⟩
/-- CC_STAT.UPGRADES (R236). -/
def Fld.ccStat_upgrades : Fld := ⟨0, 16, .ro, 0⟩
/-- CC_STAT.HELD (R236). -/
def Fld.ccStat_held : Fld := ⟨16, 16, .ro, 0⟩
/-- CC_STAT.DEFERRED (R236). -/
def Fld.ccStat_deferred : Fld := ⟨32, 16, .ro, 0⟩
/-- CC_CNT_SNOOP.SNOOPS (R236). -/
def Fld.ccCntSnoop_snoops : Fld := ⟨0, 32, .rc, 0⟩
/-- CC_CNT_SNOOP.DELAYED (R236). -/
def Fld.ccCntSnoop_delayed : Fld := ⟨32, 32, .rc, 0⟩
/-- CC_CNT_STALE.MISSES (R236). -/
def Fld.ccCntStale_misses : Fld := ⟨0, 32, .rc, 0⟩
/-- CC_CNT_STALE.RECLAIMS (R236). -/
def Fld.ccCntStale_reclaims : Fld := ⟨32, 32, .rc, 0⟩
/-- CC_CNT_RSV.SC_OK (R236). -/
def Fld.ccCntRsv_scOk : Fld := ⟨0, 32, .rc, 0⟩
/-- CC_CNT_RSV.SC_FAIL (R236). -/
def Fld.ccCntRsv_scFail : Fld := ⟨32, 32, .rc, 0⟩
/-- CC_ERR.CORRECTED (R236). -/
def Fld.ccErr_corrected : Fld := ⟨0, 32, .rc, 0⟩
/-- CC_ERR.UNCORR_CLEAN (R236). -/
def Fld.ccErr_uncorrClean : Fld := ⟨32, 16, .rc, 0⟩
/-- CC_ERR.UNCORR_DIRTY (R236). -/
def Fld.ccErr_uncorrDirty : Fld := ⟨48, 16, .rc, 0⟩
/-- SYNC_CAP.COUNTERS (R267). -/
def Fld.syncCap_counters : Fld := ⟨0, 16, .ro, 1024⟩
/-- SYNC_CAP.BARRIERS (R267). -/
def Fld.syncCap_barriers : Fld := ⟨16, 8, .ro, 32⟩
/-- SYNC_CAP.ROUNDS (R267). -/
def Fld.syncCap_rounds : Fld := ⟨24, 4, .ro, 2⟩
/-- SYNC_WD.ENG_MS (R267). -/
def Fld.syncWd_engMs : Fld := ⟨0, 32, .rwl, 2000⟩
/-- SYNC_WD.BAR_MS (R267). -/
def Fld.syncWd_barMs : Fld := ⟨32, 16, .rwl, 100⟩
/-- SYNC_MAPINV.CONTEXT (R267). -/
def Fld.syncMapinv_context : Fld := ⟨0, 12, .rw, 0⟩
/-- SYNC_MAPINV.GO (R267). -/
def Fld.syncMapinv_go : Fld := ⟨63, 1, .wo, 0⟩
/-- SIG_IDX.COUNTER (R267). -/
def Fld.sigIdx_counter : Fld := ⟨0, 10, .rw, 0⟩
/-- SIG_DATA.VALUE (R267). -/
def Fld.sigData_value : Fld := ⟨0, 63, .rw, 0⟩
/-- SIG_DATA.SAT (R267). -/
def Fld.sigData_sat : Fld := ⟨63, 1, .rw, 0⟩
/-- BAR_IDX.UNIT (R267). -/
def Fld.barIdx_unit : Fld := ⟨0, 5, .rw, 0⟩
/-- BAR_MASK.MASK (R267). -/
def Fld.barMask_mask : Fld := ⟨0, 64, .ro, 0⟩
/-- BAR_STAT.ROUND (R267). -/
def Fld.barStat_round : Fld := ⟨0, 32, .ro, 0⟩
/-- BAR_STAT.OPEN (R267). -/
def Fld.barStat_open : Fld := ⟨32, 2, .ro, 0⟩
/-- BAR_STAT.ARRIVED (R267). -/
def Fld.barStat_arrived : Fld := ⟨34, 7, .ro, 0⟩
/-- BAR_STAT.STALLED (R267). -/
def Fld.barStat_stalled : Fld := ⟨41, 7, .ro, 0⟩
/-- BAR_STAT.LOST (R267). -/
def Fld.barStat_lost : Fld := ⟨48, 16, .ro, 0⟩
/-- BAR_CTL.RESET (R267). -/
def Fld.barCtl_reset : Fld := ⟨0, 1, .wo, 0⟩
/-- SYNC_CNT.SAT_EVENTS (R267). -/
def Fld.syncCnt_satEvents : Fld := ⟨0, 16, .rc, 0⟩
/-- SYNC_CNT.ENG_WD (R267). -/
def Fld.syncCnt_engWd : Fld := ⟨16, 16, .rc, 0⟩
/-- SYNC_CNT.BAR_WD (R267). -/
def Fld.syncCnt_barWd : Fld := ⟨32, 16, .rc, 0⟩
/-- MON_CAP.SLOTS (R268). -/
def Fld.monCap_slots : Fld := ⟨0, 17, .ro, 65536⟩
/-- MON_IDX.SLOT (R268). -/
def Fld.monIdx_slot : Fld := ⟨0, 16, .rw, 0⟩
/-- MON_OWNER.PARTITION (R268). -/
def Fld.monOwner_partition : Fld := ⟨0, 4, .rw, 0⟩
/-- MON_OWNER.ASSIGNED (R268). -/
def Fld.monOwner_assigned : Fld := ⟨4, 1, .rw, 0⟩
/-- MON_DATA.BOUND (R268). -/
def Fld.monData_bound : Fld := ⟨0, 1, .ro, 0⟩
/-- MON_DATA.HOST (R268). -/
def Fld.monData_host : Fld := ⟨1, 1, .ro, 0⟩
/-- MON_DATA.ARMED (R268). -/
def Fld.monData_armed : Fld := ⟨2, 1, .ro, 0⟩
/-- MON_DATA.WAITERS (R268). -/
def Fld.monData_waiters : Fld := ⟨3, 13, .ro, 0⟩
/-- MON_DATA.CONTEXT (R268). -/
def Fld.monData_context : Fld := ⟨16, 12, .ro, 0⟩
/-- MON_ADDR.ADDR (R268). -/
def Fld.monAddr_addr : Fld := ⟨0, 52, .ro, 0⟩
/-- MON_ARM_ADDR.ADDR (R268). -/
def Fld.monArmAddr_addr : Fld := ⟨0, 52, .rw, 0⟩
/-- MON_ARM_TARGET.TARGET (R268). -/
def Fld.monArmTarget_target : Fld := ⟨0, 63, .rw, 0⟩
/-- MON_ARM_CTL.SLOT (R268). -/
def Fld.monArmCtl_slot : Fld := ⟨0, 16, .rw, 0⟩
/-- MON_ARM_CTL.CONTEXT (R268). -/
def Fld.monArmCtl_context : Fld := ⟨16, 12, .rw, 0⟩
/-- MON_ARM_CTL.SOURCE (R268). -/
def Fld.monArmCtl_source : Fld := ⟨28, 11, .rw, 0⟩
/-- MON_ARM_CTL.GO (R268). -/
def Fld.monArmCtl_go : Fld := ⟨63, 1, .wo, 0⟩
/-- FS_ANOM.ANOMALIES (R268). -/
def Fld.fsAnom_anomalies : Fld := ⟨0, 32, .rc, 0⟩
/-- FS_ANOM.SATURATIONS (R268). -/
def Fld.fsAnom_saturations : Fld := ⟨32, 16, .rc, 0⟩
/-- FS_ANOM.CONFLICTS (R268). -/
def Fld.fsAnom_conflicts : Fld := ⟨48, 16, .rc, 0⟩
/-- FS_ANOMREC.CONTEXT (R268). -/
def Fld.fsAnomrec_context : Fld := ⟨0, 12, .ro, 0⟩
/-- FS_ANOMREC.ORIGIN (R268). -/
def Fld.fsAnomrec_origin : Fld := ⟨12, 3, .ro, 0⟩
/-- FS_ANOMREC.TIME (R268). -/
def Fld.fsAnomrec_time : Fld := ⟨32, 32, .ro, 0⟩
/-- FS_ANOMADDR.ADDR (R268). -/
def Fld.fsAnomaddr_addr : Fld := ⟨0, 52, .ro, 0⟩
/-- OBJ_CMD.ID (R296). -/
def Fld.objCmd_id : Fld := ⟨0, 16, .rw, 0⟩
/-- OBJ_CMD.ARENA (R296). -/
def Fld.objCmd_arena : Fld := ⟨16, 3, .rw, 0⟩
/-- OBJ_CMD.OP (R296). -/
def Fld.objCmd_op : Fld := ⟨20, 4, .rw, 0⟩
/-- OBJ_CMD.GO (R296). -/
def Fld.objCmd_go : Fld := ⟨63, 1, .wo, 0⟩
/-- OBJ_ARG.ARG (R296). -/
def Fld.objArg_arg : Fld := ⟨0, 64, .rw, 0⟩
/-- OBJ_STAT.BUSY (R296). -/
def Fld.objStat_busy : Fld := ⟨0, 1, .ro, 0⟩
/-- OBJ_STAT.DONE (R296). -/
def Fld.objStat_done : Fld := ⟨1, 1, .w1c, 0⟩
/-- OBJ_STAT.STATUS (R296). -/
def Fld.objStat_status : Fld := ⟨8, 8, .ro, 0⟩
/-- OBJ_STAT.STEP (R296). -/
def Fld.objStat_step : Fld := ⟨16, 4, .ro, 0⟩
/-- OBJ_IDX.CONTEXT (R296). -/
def Fld.objIdx_context : Fld := ⟨0, 12, .rw, 0⟩
/-- OBJ_IDX.ARENA (R296). -/
def Fld.objIdx_arena : Fld := ⟨12, 3, .rw, 0⟩
/-- OBJ_IDX.QUEUE (R296). -/
def Fld.objIdx_queue : Fld := ⟨16, 14, .rw, 0⟩
/-- OBJ_IDX.DBPAGE (R296). -/
def Fld.objIdx_dbpage : Fld := ⟨32, 8, .rw, 0⟩
/-- OBJ_IDX.FRAME (R296). -/
def Fld.objIdx_frame : Fld := ⟨48, 15, .rw, 0⟩
/-- CTX_STAT.STATE (R296). -/
def Fld.ctxStat_state : Fld := ⟨0, 2, .ro, 0⟩
/-- CTX_STAT.PARTITION (R296). -/
def Fld.ctxStat_partition : Fld := ⟨4, 4, .ro, 0⟩
/-- CTX_STAT.QUEUES (R296). -/
def Fld.ctxStat_queues : Fld := ⟨8, 13, .ro, 0⟩
/-- CTX_STAT.RING_ENTRIES (R296). -/
def Fld.ctxStat_ringEntries : Fld := ⟨21, 19, .ro, 0⟩
/-- CTX_STAT.ENGINES (R296). -/
def Fld.ctxStat_engines : Fld := ⟨40, 11, .ro, 0⟩
/-- Q_STAT.STATE (R296). -/
def Fld.qStat_state : Fld := ⟨0, 2, .ro, 0⟩
/-- Q_STAT.OVERRUN (R296). -/
def Fld.qStat_overrun : Fld := ⟨2, 1, .w1c, 0⟩
/-- Q_STAT.CONTEXT (R296). -/
def Fld.qStat_context : Fld := ⟨16, 12, .ro, 0⟩
/-- Q_STAT.PENDING (R296). -/
def Fld.qStat_pending : Fld := ⟨32, 32, .ro, 0⟩
/-- DB_OWNER.CONTEXT (R296). -/
def Fld.dbOwner_context : Fld := ⟨0, 12, .rw, 0⟩
/-- DB_OWNER.BOUND (R296). -/
def Fld.dbOwner_bound : Fld := ⟨12, 1, .rw, 0⟩
/-- DB_OWNER.PARTITION (R296). -/
def Fld.dbOwner_partition : Fld := ⟨16, 4, .rw, 0⟩
/-- DB_OWNER.ASSIGNED (R296). -/
def Fld.dbOwner_assigned : Fld := ⟨20, 1, .rw, 0⟩
/-- ARN_STAT.CURSOR (R296). -/
def Fld.arnStat_cursor : Fld := ⟨0, 48, .ro, 0⟩
/-- ARN_STAT.FULL (R296). -/
def Fld.arnStat_full : Fld := ⟨48, 1, .ro, 0⟩
/-- ARN_STAT.LOWHIT (R296). -/
def Fld.arnStat_lowhit : Fld := ⟨49, 1, .ro, 0⟩
/-- FRAME_DATA.PARTITION (R296). -/
def Fld.frameData_partition : Fld := ⟨0, 4, .rw, 0⟩
/-- FRAME_DATA.OWNED (R296). -/
def Fld.frameData_owned : Fld := ⟨4, 1, .rw, 0⟩
/-- FRAME_DATA.STATE (R296). -/
def Fld.frameData_state : Fld := ⟨8, 3, .ro, 0⟩
/-- ABT_REQ.QUEUE (R297). -/
def Fld.abtReq_queue : Fld := ⟨0, 14, .rw, 0⟩
/-- ABT_REQ.WHOLE (R297). -/
def Fld.abtReq_whole : Fld := ⟨14, 1, .rw, 0⟩
/-- ABT_REQ.GO (R297). -/
def Fld.abtReq_go : Fld := ⟨63, 1, .wo, 0⟩
/-- ABT_SEQ.SEQ (R297). -/
def Fld.abtSeq_seq : Fld := ⟨0, 64, .rw, 0⟩
/-- ABT_STAT.BUSY (R297). -/
def Fld.abtStat_busy : Fld := ⟨0, 1, .ro, 0⟩
/-- ABT_STAT.DONE (R297). -/
def Fld.abtStat_done : Fld := ⟨1, 1, .w1c, 0⟩
/-- ABT_STAT.RESULT (R297). -/
def Fld.abtStat_result : Fld := ⟨8, 4, .ro, 0⟩
/-- ABT_STAT.ABORTED (R297). -/
def Fld.abtStat_aborted : Fld := ⟨16, 24, .ro, 0⟩
/-- ATU_CAP.ATC (R335). -/
def Fld.atuCap_atc : Fld := ⟨0, 16, .ro, 16384⟩
/-- ATU_CAP.DTLB (R335). -/
def Fld.atuCap_dtlb : Fld := ⟨16, 16, .ro, 4096⟩
/-- ATU_CAP.PRG_TAGS (R335). -/
def Fld.atuCap_prgTags : Fld := ⟨32, 10, .ro, 512⟩
/-- ATU_CAP.MIN_LOG2 (R335). -/
def Fld.atuCap_minLog2 : Fld := ⟨48, 5, .ro, 21⟩
/-- ATU_CAP.PREFETCH (R335). -/
def Fld.atuCap_prefetch : Fld := ⟨53, 5, .ro, 16⟩
/-- ATU_CTL.PRI_TIMEOUT_MS (R335). -/
def Fld.atuCtl_priTimeoutMs : Fld := ⟨0, 16, .rwl, 1000⟩
/-- ATU_CTL.SOURCE (R335). -/
def Fld.atuCtl_source : Fld := ⟨16, 11, .rwl, 0⟩
/-- ATU_CTL.SOURCE_EN (R335). -/
def Fld.atuCtl_sourceEn : Fld := ⟨27, 1, .rwl, 0⟩
/-- ATU_STAT.ATC_VALID (R335). -/
def Fld.atuStat_atcValid : Fld := ⟨0, 15, .ro, 0⟩
/-- ATU_STAT.LOCKED (R335). -/
def Fld.atuStat_locked : Fld := ⟨16, 14, .ro, 0⟩
/-- ATU_STAT.PRG_OUT (R335). -/
def Fld.atuStat_prgOut : Fld := ⟨32, 14, .ro, 0⟩
/-- ATU_FLT_ADDR.ADDR (R335). -/
def Fld.atuFltAddr_addr : Fld := ⟨0, 64, .ro, 0⟩
/-- ATU_FLT_INFO.CONTEXT (R335). -/
def Fld.atuFltInfo_context : Fld := ⟨0, 12, .ro, 0⟩
/-- ATU_FLT_INFO.AGENT (R335). -/
def Fld.atuFltInfo_agent : Fld := ⟨12, 5, .ro, 0⟩
/-- ATU_FLT_INFO.OUTCOME (R335). -/
def Fld.atuFltInfo_outcome : Fld := ⟨20, 4, .ro, 0⟩
/-- ATU_FLT_INFO.TIME (R335). -/
def Fld.atuFltInfo_time : Fld := ⟨32, 32, .ro, 0⟩
/-- ATU_CNT_ATS.REQUESTS (R335). -/
def Fld.atuCntAts_requests : Fld := ⟨0, 32, .rc, 0⟩
/-- ATU_CNT_ATS.PREFETCH (R335). -/
def Fld.atuCntAts_prefetch : Fld := ⟨32, 32, .rc, 0⟩
/-- ATU_CNT_PRI.GROUPS (R335). -/
def Fld.atuCntPri_groups : Fld := ⟨0, 32, .rc, 0⟩
/-- ATU_CNT_PRI.COALESCED (R335). -/
def Fld.atuCntPri_coalesced : Fld := ⟨32, 32, .rc, 0⟩
/-- ATU_CNT_INV.HOST (R335). -/
def Fld.atuCntInv_host : Fld := ⟨0, 32, .rc, 0⟩
/-- ATU_CNT_INV.DEVICE (R335). -/
def Fld.atuCntInv_device : Fld := ⟨32, 32, .rc, 0⟩
/-- ATU_ERR_CNT.SMALL (R335). -/
def Fld.atuErrCnt_small : Fld := ⟨0, 16, .rc, 0⟩
/-- ATU_ERR_CNT.FAILED (R335). -/
def Fld.atuErrCnt_failed : Fld := ⟨16, 16, .rc, 0⟩
/-- ATU_ERR_CNT.TIMEOUT (R335). -/
def Fld.atuErrCnt_timeout : Fld := ⟨32, 16, .rc, 0⟩
/-- ATU_ERR_CNT.QUEUE (R335). -/
def Fld.atuErrCnt_queue : Fld := ⟨48, 16, .rc, 0⟩
/-- XL_INV_ADDR.ADDR (R336). -/
def Fld.xlInvAddr_addr : Fld := ⟨0, 52, .rw, 0⟩
/-- XL_INV_CTL.CONTEXT (R336). -/
def Fld.xlInvCtl_context : Fld := ⟨0, 12, .rw, 0⟩
/-- XL_INV_CTL.ALL (R336). -/
def Fld.xlInvCtl_all : Fld := ⟨12, 1, .rw, 0⟩
/-- XL_INV_CTL.COUNT_M1 (R336). -/
def Fld.xlInvCtl_countM1 : Fld := ⟨16, 26, .rw, 0⟩
/-- XL_INV_CTL.GO (R336). -/
def Fld.xlInvCtl_go : Fld := ⟨63, 1, .wo, 0⟩
/-- XL_INV_STAT.BUSY (R336). -/
def Fld.xlInvStat_busy : Fld := ⟨0, 1, .ro, 0⟩
/-- XL_INV_STAT.DONE (R336). -/
def Fld.xlInvStat_done : Fld := ⟨1, 1, .w1c, 0⟩
/-- XL_APT_CTL.CONTEXT (R336). -/
def Fld.xlAptCtl_context : Fld := ⟨0, 12, .rw, 0⟩
/-- XL_APT_CTL.INDEX (R336). -/
def Fld.xlAptCtl_index : Fld := ⟨12, 6, .rw, 0⟩
/-- XL_APT_CTL.OP (R336). -/
def Fld.xlAptCtl_op : Fld := ⟨18, 2, .rw, 0⟩
/-- XL_APT_CTL.GO (R336). -/
def Fld.xlAptCtl_go : Fld := ⟨63, 1, .wo, 0⟩
/-- XL_APT_STAT.BUSY (R336). -/
def Fld.xlAptStat_busy : Fld := ⟨0, 1, .ro, 0⟩
/-- XL_APT_STAT.DONE (R336). -/
def Fld.xlAptStat_done : Fld := ⟨1, 1, .w1c, 0⟩
/-- XL_APT_STAT.STATUS (R336). -/
def Fld.xlAptStat_status : Fld := ⟨8, 8, .ro, 0⟩
/-- XL_APT_STAT.LOCKED (R336). -/
def Fld.xlAptStat_locked : Fld := ⟨16, 14, .ro, 0⟩
/-- XL_APT_STAT.STATE (R336). -/
def Fld.xlAptStat_state : Fld := ⟨30, 2, .ro, 0⟩
/-- TLB_CAP.ENTRIES (R337). -/
def Fld.tlbCap_entries : Fld := ⟨0, 16, .ro, 2048⟩
/-- TLB_CAP.WALKCACHE (R337). -/
def Fld.tlbCap_walkcache : Fld := ⟨16, 8, .ro, 64⟩
/-- TLB_CNT.MISSES (R337). -/
def Fld.tlbCnt_misses : Fld := ⟨0, 32, .rc, 0⟩
/-- TLB_CNT.WALKS (R337). -/
def Fld.tlbCnt_walks : Fld := ⟨32, 32, .rc, 0⟩
/-- TLB_ERR.MISSING (R337). -/
def Fld.tlbErr_missing : Fld := ⟨0, 32, .rc, 0⟩
/-- TLB_ERR.BAD_ENTRY (R337). -/
def Fld.tlbErr_badEntry : Fld := ⟨32, 16, .rc, 0⟩
/-- TLB_ERR.POISON (R337). -/
def Fld.tlbErr_poison : Fld := ⟨48, 16, .rc, 0⟩
/-- PL_CAP.PORTS (R371). -/
def Fld.plCap_ports : Fld := ⟨0, 8, .ro, 4⟩
/-- PL_CAP.VFS (R371). -/
def Fld.plCap_vfs : Fld := ⟨8, 8, .ro, 16⟩
/-- PL_CAP.HLC_KIB (R371). -/
def Fld.plCap_hlcKib : Fld := ⟨16, 16, .ro, 8192⟩
/-- PL_CAP.CHISEL (R371). -/
def Fld.plCap_chisel : Fld := ⟨32, 8, .ro, 20⟩
/-- PL_CAP.WATCHERS (R371). -/
def Fld.plCap_watchers : Fld := ⟨40, 11, .ro, 1024⟩
/-- PL_CTL.DLA_HOLD_MIN (R371). -/
def Fld.plCtl_dlaHoldMin : Fld := ⟨0, 9, .rwl, 48⟩
/-- PL_CTL.ROUTE_SHIFT (R371). -/
def Fld.plCtl_routeShift : Fld := ⟨16, 6, .rwl, 12⟩
/-- PL_STAT.PORT_UP (R371). -/
def Fld.plStat_portUp : Fld := ⟨0, 4, .ro, 0⟩
/-- PL_STAT.LINK_UP (R371). -/
def Fld.plStat_linkUp : Fld := ⟨4, 1, .ro, 0⟩
/-- PL_STAT.OUTBOUND (R371). -/
def Fld.plStat_outbound : Fld := ⟨16, 16, .ro, 0⟩
/-- PL_STAT.WATCHING (R371). -/
def Fld.plStat_watching : Fld := ⟨32, 16, .ro, 0⟩
/-- HP_ERR.REPLAYS (R371). -/
def Fld.hpErr_replays : Fld := ⟨0, 32, .rc, 0⟩
/-- HP_ERR.RETRAINS (R371). -/
def Fld.hpErr_retrains : Fld := ⟨32, 16, .rc, 0⟩
/-- HP_ERR.POISON_RX (R371). -/
def Fld.hpErr_poisonRx : Fld := ⟨48, 8, .rc, 0⟩
/-- HP_ERR.REFUSED (R371). -/
def Fld.hpErr_refused : Fld := ⟨56, 8, .rc, 0⟩
/-- PL_CNT_HLC.HITS (R371). -/
def Fld.plCntHlc_hits : Fld := ⟨0, 32, .rc, 0⟩
/-- PL_CNT_HLC.MISSES (R371). -/
def Fld.plCntHlc_misses : Fld := ⟨32, 32, .rc, 0⟩
/-- WIN_CTL.CONTEXT (R372). -/
def Fld.winCtl_context : Fld := ⟨0, 12, .rw, 0⟩
/-- WIN_CTL.EN (R372). -/
def Fld.winCtl_en : Fld := ⟨12, 1, .rw, 0⟩
/-- WIN_BASE.BASE (R372). -/
def Fld.winBase_base : Fld := ⟨30, 22, .rw, 0⟩
/-- WIN_STAT.ACTIVE (R372). -/
def Fld.winStat_active : Fld := ⟨0, 1, .ro, 0⟩
/-- WIN_STAT.ERR (R372). -/
def Fld.winStat_err : Fld := ⟨1, 1, .w1c, 0⟩
/-- WIN_STAT.CAUSE (R372). -/
def Fld.winStat_cause : Fld := ⟨2, 2, .ro, 0⟩
/-- WIN_ERRADDR.OFFSET (R372). -/
def Fld.winErraddr_offset : Fld := ⟨0, 32, .ro, 0⟩
/-- WIN_ERRADDR.TIME (R372). -/
def Fld.winErraddr_time : Fld := ⟨32, 32, .ro, 0⟩
/-- WIN_CNT.READS (R372). -/
def Fld.winCnt_reads : Fld := ⟨0, 32, .rc, 0⟩
/-- WIN_CNT.WRITES (R372). -/
def Fld.winCnt_writes : Fld := ⟨32, 32, .rc, 0⟩
/-- QF_ERRINFO.QUEUE (R373). -/
def Fld.qfErrinfo_queue : Fld := ⟨0, 14, .ro, 0⟩
/-- QF_ERRINFO.CAUSE (R373). -/
def Fld.qfErrinfo_cause : Fld := ⟨16, 4, .ro, 0⟩
/-- QF_ERRINFO.TIME (R373). -/
def Fld.qfErrinfo_time : Fld := ⟨32, 32, .ro, 0⟩
/-- QF_ERRSEQ.SEQ (R373). -/
def Fld.qfErrseq_seq : Fld := ⟨0, 64, .ro, 0⟩
/-- QF_CNT.COMMANDS (R373). -/
def Fld.qfCnt_commands : Fld := ⟨0, 32, .rc, 0⟩
/-- QF_CNT.BAD (R373). -/
def Fld.qfCnt_bad : Fld := ⟨32, 16, .rc, 0⟩
/-- CH_CAP.CLASS (R374). -/
def Fld.chCap_class : Fld := ⟨0, 2, .ro, 0⟩
/-- CH_CAP.STREAMS (R374). -/
def Fld.chCap_streams : Fld := ⟨8, 8, .ro, 16⟩
/-- CH_CAP.RATE_GBPS (R374). -/
def Fld.chCap_rateGbps : Fld := ⟨16, 16, .ro, 0⟩
/-- CH_STAT.ACTIVE (R374). -/
def Fld.chStat_active : Fld := ⟨0, 5, .ro, 0⟩
/-- CH_STAT.FAULTED (R374). -/
def Fld.chStat_faulted : Fld := ⟨5, 5, .ro, 0⟩
/-- CH_SIDX.STREAM (R374). -/
def Fld.chSidx_stream : Fld := ⟨0, 4, .rw, 0⟩
/-- CH_SCMD.QUEUE (R374). -/
def Fld.chScmd_queue : Fld := ⟨0, 14, .ro, 0⟩
/-- CH_SCMD.CONTEXT (R374). -/
def Fld.chScmd_context : Fld := ⟨16, 12, .ro, 0⟩
/-- CH_SCMD.VALID (R374). -/
def Fld.chScmd_valid : Fld := ⟨28, 1, .ro, 0⟩
/-- CH_SSEQ.SEQ (R374). -/
def Fld.chSseq_seq : Fld := ⟨0, 64, .ro, 0⟩
/-- CH_SPROG.PROGRESS (R374). -/
def Fld.chSprog_progress : Fld := ⟨0, 64, .ro, 0⟩
/-- CH_CNT.BYTES (R374). -/
def Fld.chCnt_bytes : Fld := ⟨0, 64, .rc, 0⟩
/-- CH_ERR.POISON (R374). -/
def Fld.chErr_poison : Fld := ⟨0, 16, .rc, 0⟩
/-- CH_ERR.PROT (R374). -/
def Fld.chErr_prot : Fld := ⟨16, 16, .rc, 0⟩
/-- CH_ERR.UNRESOLVED (R374). -/
def Fld.chErr_unresolved : Fld := ⟨32, 16, .rc, 0⟩
/-- TS_CAP.ROTATION (R393). -/
def Fld.tsCap_rotation : Fld := ⟨0, 8, .ro, 64⟩
/-- TS_CTL.QUANTUM_US (R393). -/
def Fld.tsCtl_quantumUs : Fld := ⟨0, 17, .rwl, 2000⟩
/-- TS_STAT.RESIDENT (R393). -/
def Fld.tsStat_resident : Fld := ⟨0, 7, .ro, 0⟩
/-- TS_STAT.WAITING (R393). -/
def Fld.tsStat_waiting : Fld := ⟨8, 7, .ro, 0⟩
/-- TS_STAT.SWITCHING (R393). -/
def Fld.tsStat_switching : Fld := ⟨16, 1, .ro, 0⟩
/-- TS_IDX.CONTEXT (R393). -/
def Fld.tsIdx_context : Fld := ⟨0, 12, .rw, 0⟩
/-- TS_CTX.STATE (R393). -/
def Fld.tsCtx_state : Fld := ⟨0, 2, .ro, 0⟩
/-- TS_CTX.WORK (R393). -/
def Fld.tsCtx_work : Fld := ⟨2, 1, .ro, 0⟩
/-- TS_CTX.UNSLICED (R393). -/
def Fld.tsCtx_unsliced : Fld := ⟨3, 1, .ro, 0⟩
/-- TS_CTX.RUNS (R393). -/
def Fld.tsCtx_runs : Fld := ⟨32, 32, .ro, 0⟩
/-- TS_CTXENG.ENGINES (R393). -/
def Fld.tsCtxeng_engines : Fld := ⟨0, 64, .ro, 0⟩
/-- TS_CNT.SWITCHES (R393). -/
def Fld.tsCnt_switches : Fld := ⟨0, 32, .rc, 0⟩
/-- TS_CNT.PREEMPTS (R393). -/
def Fld.tsCnt_preempts : Fld := ⟨32, 32, .rc, 0⟩
/-- TS_LAST.DURATION_NS (R393). -/
def Fld.tsLast_durationNs : Fld := ⟨0, 32, .ro, 0⟩
/-- TS_LAST.TIME (R393). -/
def Fld.tsLast_time : Fld := ⟨32, 32, .ro, 0⟩
/-- CS_CTL.QUANTUM_US (R394). -/
def Fld.csCtl_quantumUs : Fld := ⟨0, 17, .rwl, 1000⟩
/-- CS_STAT.SAVED (R394). -/
def Fld.csStat_saved : Fld := ⟨0, 15, .ro, 0⟩
/-- CS_STAT.READY (R394). -/
def Fld.csStat_ready : Fld := ⟨16, 15, .ro, 0⟩
/-- CS_STAT.FAULTED (R394). -/
def Fld.csStat_faulted : Fld := ⟨32, 15, .ro, 0⟩
/-- CS_CNT.PREEMPTS (R394). -/
def Fld.csCnt_preempts : Fld := ⟨0, 32, .rc, 0⟩
/-- CS_CNT.RESUMES (R394). -/
def Fld.csCnt_resumes : Fld := ⟨32, 32, .rc, 0⟩
/-- FAB_CAP.PORTS (R421). -/
def Fld.fabCap_ports : Fld := ⟨0, 8, .ro, 16⟩
/-- FAB_CAP.LANES (R421). -/
def Fld.fabCap_lanes : Fld := ⟨8, 8, .ro, 4⟩
/-- FAB_CAP.VLS (R421). -/
def Fld.fabCap_vls : Fld := ⟨16, 8, .ro, 8⟩
/-- FAB_CAP.JOBS (R421). -/
def Fld.fabCap_jobs : Fld := ⟨24, 8, .ro, 255⟩
/-- FAB_CAP.RINGS (R421). -/
def Fld.fabCap_rings : Fld := ⟨32, 16, .ro, 1024⟩
/-- FAB_ID.DEVID (R421). -/
def Fld.fabId_devid : Fld := ⟨0, 17, .rwl, 0⟩
/-- FAB_CTL.STORE_WD_MS (R421). -/
def Fld.fabCtl_storeWdMs : Fld := ⟨0, 14, .rwl, 50⟩
/-- FAB_CTL.RETX_US (R421). -/
def Fld.fabCtl_retxUs : Fld := ⟨14, 14, .rwl, 100⟩
/-- FAB_CTL.UNREACH_MS (R421). -/
def Fld.fabCtl_unreachMs : Fld := ⟨28, 14, .rwl, 10⟩
/-- FAB_CTL.EN (R421). -/
def Fld.fabCtl_en : Fld := ⟨63, 1, .rwl, 0⟩
/-- FAB_STAT.PORT_UP (R421). -/
def Fld.fabStat_portUp : Fld := ⟨0, 16, .ro, 0⟩
/-- FAB_STAT.UNACKED (R421). -/
def Fld.fabStat_unacked : Fld := ⟨16, 16, .ro, 0⟩
/-- FAB_CNT.TX (R421). -/
def Fld.fabCnt_tx : Fld := ⟨0, 32, .rc, 0⟩
/-- FAB_CNT.RX (R421). -/
def Fld.fabCnt_rx : Fld := ⟨32, 32, .rc, 0⟩
/-- FAB_ERR.RESENT (R421). -/
def Fld.fabErr_resent : Fld := ⟨0, 16, .rc, 0⟩
/-- FAB_ERR.AUTH (R421). -/
def Fld.fabErr_auth : Fld := ⟨16, 16, .rc, 0⟩
/-- FAB_ERR.DROPPED (R421). -/
def Fld.fabErr_dropped : Fld := ⟨32, 16, .rc, 0⟩
/-- FAB_ERR.DEAD (R421). -/
def Fld.fabErr_dead : Fld := ⟨48, 16, .rc, 0⟩
/-- FAB_PORT_IDX.PORT (R421). -/
def Fld.fabPortIdx_port : Fld := ⟨0, 4, .rw, 0⟩
/-- FAB_PORT_CTL.EN (R421). -/
def Fld.fabPortCtl_en : Fld := ⟨0, 1, .rw, 0⟩
/-- FAB_PORT_CTL.DATELINE (R421). -/
def Fld.fabPortCtl_dateline : Fld := ⟨1, 1, .rwl, 0⟩
/-- FAB_PORT_STAT.STATE (R421). -/
def Fld.fabPortStat_state : Fld := ⟨0, 2, .ro, 0⟩
/-- FAB_PORT_STAT.NOISY (R421). -/
def Fld.fabPortStat_noisy : Fld := ⟨2, 1, .ro, 0⟩
/-- FAB_PORT_STAT.REPLAYS (R421). -/
def Fld.fabPortStat_replays : Fld := ⟨16, 16, .rc, 0⟩
/-- FAB_PORT_STAT.DOWNS (R421). -/
def Fld.fabPortStat_downs : Fld := ⟨32, 16, .rc, 0⟩
/-- FAB_RT_IDX.ENTRY (R421). -/
def Fld.fabRtIdx_entry : Fld := ⟨0, 9, .rw, 0⟩
/-- FAB_RT_IDX.LOW (R421). -/
def Fld.fabRtIdx_low : Fld := ⟨9, 1, .rw, 0⟩
/-- FAB_RT_DATA.PORTS (R421). -/
def Fld.fabRtData_ports : Fld := ⟨0, 16, .rw, 0⟩
/-- FAB_RT_DATA.PAIR (R421). -/
def Fld.fabRtData_pair : Fld := ⟨16, 2, .rw, 0⟩
/-- FJ_IDX.SLOT (R422). -/
def Fld.fjIdx_slot : Fld := ⟨0, 8, .rw, 0⟩
/-- FJ_CTL.JOBID (R422). -/
def Fld.fjCtl_jobid : Fld := ⟨0, 16, .rw, 0⟩
/-- FJ_CTL.CONTEXT (R422). -/
def Fld.fjCtl_context : Fld := ⟨16, 12, .rw, 0⟩
/-- FJ_CTL.RANK (R422). -/
def Fld.fjCtl_rank : Fld := ⟨28, 17, .rw, 0⟩
/-- FJ_CTL.TXKEY (R422). -/
def Fld.fjCtl_txkey : Fld := ⟨45, 1, .rw, 0⟩
/-- FJ_CTL.BOUND (R422). -/
def Fld.fjCtl_bound : Fld := ⟨63, 1, .rw, 0⟩
/-- FJ_PEERS.BASE (R422). -/
def Fld.fjPeers_base : Fld := ⟨0, 40, .rw, 0⟩
/-- FJ_PEERS.COUNT (R422). -/
def Fld.fjPeers_count : Fld := ⟨40, 18, .rw, 0⟩
/-- FJ_STAT.KEYS (R422). -/
def Fld.fjStat_keys : Fld := ⟨0, 2, .ro, 0⟩
/-- FJ_STAT.DEAD (R422). -/
def Fld.fjStat_dead : Fld := ⟨16, 18, .ro, 0⟩
/-- FR_IDX.RING (R422). -/
def Fld.frIdx_ring : Fld := ⟨0, 10, .rw, 0⟩
/-- FR_CTL.SLOT (R422). -/
def Fld.frCtl_slot : Fld := ⟨0, 8, .rw, 0⟩
/-- FR_CTL.LOG2_ENTRIES (R422). -/
def Fld.frCtl_log2Entries : Fld := ⟨8, 5, .rw, 0⟩
/-- FR_CTL.EN (R422). -/
def Fld.frCtl_en : Fld := ⟨63, 1, .rw, 0⟩
/-- FR_BASE.ADDR (R422). -/
def Fld.frBase_addr : Fld := ⟨0, 52, .rw, 0⟩
/-- FR_TAIL.ADDR (R422). -/
def Fld.frTail_addr : Fld := ⟨0, 52, .rw, 0⟩
/-- FR_HEAD.ADDR (R422). -/
def Fld.frHead_addr : Fld := ⟨0, 52, .rw, 0⟩
/-- FR_STAT.STATE (R422). -/
def Fld.frStat_state : Fld := ⟨0, 2, .ro, 0⟩
/-- FR_STAT.INFLIGHT (R422). -/
def Fld.frStat_inflight : Fld := ⟨2, 7, .ro, 0⟩
/-- MEM_CAP.STACKS (R445). -/
def Fld.memCap_stacks : Fld := ⟨0, 8, .ro, 12⟩
/-- MEM_CAP.PCH (R445). -/
def Fld.memCap_pch : Fld := ⟨8, 8, .ro, 64⟩
/-- MEM_CAP.STACK_GIB (R445). -/
def Fld.memCap_stackGib : Fld := ⟨16, 8, .ro, 64⟩
/-- MEM_CAP.USABLE_GIB (R445). -/
def Fld.memCap_usableGib : Fld := ⟨24, 16, .ro, 720⟩
/-- MEM_CAP.TCACHE_KIB (R445). -/
def Fld.memCap_tcacheKib : Fld := ⟨40, 16, .ro, 2048⟩
/-- MEM_CTL.WIDE (R445). -/
def Fld.memCtl_wide : Fld := ⟨0, 11, .rwl, 960⟩
/-- MEM_CTL.SCRUB_GBPS (R445). -/
def Fld.memCtl_scrubGbps : Fld := ⟨16, 9, .rwl, 100⟩
/-- MEM_STAT.TRAINED (R445). -/
def Fld.memStat_trained : Fld := ⟨0, 12, .ro, 0⟩
/-- MEM_STAT.READY (R445). -/
def Fld.memStat_ready : Fld := ⟨12, 1, .ro, 0⟩
/-- MEM_STAT.SCRUBBING (R445). -/
def Fld.memStat_scrubbing : Fld := ⟨16, 15, .ro, 0⟩
/-- MEM_SCRUB_CNT.FRAMES (R445). -/
def Fld.memScrubCnt_frames : Fld := ⟨0, 32, .rc, 0⟩
/-- MEM_SCRUB_CNT.LAST_US (R445). -/
def Fld.memScrubCnt_lastUs : Fld := ⟨32, 32, .ro, 0⟩
/-- HM_CAP.PCH (R446). -/
def Fld.hmCap_pch : Fld := ⟨0, 8, .ro, 64⟩
/-- HM_CAP.SPARES (R446). -/
def Fld.hmCap_spares : Fld := ⟨8, 8, .ro, 2⟩
/-- HM_CAP.TCACHE_KIB (R446). -/
def Fld.hmCap_tcacheKib : Fld := ⟨16, 16, .ro, 2048⟩
/-- HM_CAP.KEYSLOTS (R446). -/
def Fld.hmCap_keyslots : Fld := ⟨32, 8, .ro, 32⟩
/-- HM_STAT.TRAINED (R446). -/
def Fld.hmStat_trained : Fld := ⟨0, 1, .ro, 0⟩
/-- HM_STAT.FAILED (R446). -/
def Fld.hmStat_failed : Fld := ⟨1, 1, .ro, 0⟩
/-- HM_STAT.SPARED (R446). -/
def Fld.hmStat_spared : Fld := ⟨2, 7, .ro, 0⟩
/-- HM_STAT.SPARES_USED (R446). -/
def Fld.hmStat_sparesUsed : Fld := ⟨9, 8, .ro, 0⟩
/-- HM_STAT.TEMP_C (R446). -/
def Fld.hmStat_tempC : Fld := ⟨24, 8, .ro, 0⟩
/-- HM_STAT.KEYS (R446). -/
def Fld.hmStat_keys : Fld := ⟨32, 16, .ro, 0⟩
/-- HM_ERRCNT.CORRECTED (R446). -/
def Fld.hmErrcnt_corrected : Fld := ⟨0, 32, .rc, 0⟩
/-- HM_ERRCNT.UNCORR (R446). -/
def Fld.hmErrcnt_uncorr : Fld := ⟨32, 16, .rc, 0⟩
/-- HM_ERRCNT.TAGFAIL (R446). -/
def Fld.hmErrcnt_tagfail : Fld := ⟨48, 16, .rc, 0⟩
/-- HM_PLOG.LINE (R446). -/
def Fld.hmPlog_line : Fld := ⟨0, 30, .ro, 0⟩
/-- HM_PLOG.CAUSE (R446). -/
def Fld.hmPlog_cause : Fld := ⟨30, 2, .ro, 0⟩
/-- HM_PLOG.TIME (R446). -/
def Fld.hmPlog_time : Fld := ⟨32, 32, .ro, 0⟩
/-- HM_POISONED.COUNT (R446). -/
def Fld.hmPoisoned_count : Fld := ⟨0, 32, .ro, 0⟩
/-- HM_TC_CNT.HITS (R446). -/
def Fld.hmTcCnt_hits : Fld := ⟨0, 32, .rc, 0⟩
/-- HM_TC_CNT.MISSES (R446). -/
def Fld.hmTcCnt_misses : Fld := ⟨32, 32, .rc, 0⟩
/-- HM_DIR_CNT.RECLAIMS (R446). -/
def Fld.hmDirCnt_reclaims : Fld := ⟨0, 32, .rc, 0⟩
/-- HM_DIR_CNT.BLOCKED (R446). -/
def Fld.hmDirCnt_blocked : Fld := ⟨32, 32, .rc, 0⟩
/-- HM_LANE_IDX.PCH (R446). -/
def Fld.hmLaneIdx_pch : Fld := ⟨0, 6, .rw, 0⟩
/-- HM_LANE_DATA.SPARE0 (R446). -/
def Fld.hmLaneData_spare0 : Fld := ⟨0, 6, .ro, 0⟩
/-- HM_LANE_DATA.SPARE0_USED (R446). -/
def Fld.hmLaneData_spare0Used : Fld := ⟨6, 1, .ro, 0⟩
/-- HM_LANE_DATA.SPARE1 (R446). -/
def Fld.hmLaneData_spare1 : Fld := ⟨8, 6, .ro, 0⟩
/-- HM_LANE_DATA.SPARE1_USED (R446). -/
def Fld.hmLaneData_spare1Used : Fld := ⟨14, 1, .ro, 0⟩
/-- HM_LANE_DATA.WORST_LANE (R446). -/
def Fld.hmLaneData_worstLane : Fld := ⟨16, 6, .ro, 0⟩
/-- HM_LANE_DATA.WORST_CE (R446). -/
def Fld.hmLaneData_worstCe : Fld := ⟨24, 24, .ro, 0⟩
/-- IC_CAP.SOURCES (R461). -/
def Fld.icCap_sources : Fld := ⟨0, 12, .ro, 2048⟩
/-- IC_CAP.HARTS (R461). -/
def Fld.icCap_harts : Fld := ⟨12, 5, .ro, 16⟩
/-- IC_CAP.PF_VECTORS (R461). -/
def Fld.icCap_pfVectors : Fld := ⟨32, 12, .ro, 2048⟩
/-- IC_CAP.VF_VECTORS (R461). -/
def Fld.icCap_vfVectors : Fld := ⟨44, 8, .ro, 128⟩
/-- IC_STAT.MISROUTE (R461). -/
def Fld.icStat_misroute : Fld := ⟨0, 16, .rc, 0⟩
/-- IC_STAT.NOTARGET (R461). -/
def Fld.icStat_notarget : Fld := ⟨16, 16, .rc, 0⟩
/-- IC_SRC_IDX.SOURCE (R461). -/
def Fld.icSrcIdx_source : Fld := ⟨0, 11, .rw, 0⟩
/-- IC_SRC_CTL.EN (R461). -/
def Fld.icSrcCtl_en : Fld := ⟨0, 1, .rw, 0⟩
/-- IC_SRC_CTL.MASK (R461). -/
def Fld.icSrcCtl_mask : Fld := ⟨1, 1, .rw, 0⟩
/-- IC_SRC_CTL.COAL_N (R461). -/
def Fld.icSrcCtl_coalN : Fld := ⟨8, 8, .rw, 0⟩
/-- IC_SRC_CTL.COAL_T_US (R461). -/
def Fld.icSrcCtl_coalTUs : Fld := ⟨16, 10, .rw, 0⟩
/-- IC_SRC_CTL.FUNC (R461). -/
def Fld.icSrcCtl_func : Fld := ⟨32, 5, .rw, 0⟩
/-- IC_SRC_TGT.HARTS (R461). -/
def Fld.icSrcTgt_harts : Fld := ⟨0, 16, .rw, 0⟩
/-- IC_SRC_TGT.VEC_BASE (R461). -/
def Fld.icSrcTgt_vecBase : Fld := ⟨16, 12, .rw, 0⟩
/-- IC_SRC_TGT.VEC_N (R461). -/
def Fld.icSrcTgt_vecN : Fld := ⟨28, 4, .rw, 0⟩
/-- IC_SRC_TGT.LAST (R461). -/
def Fld.icSrcTgt_last : Fld := ⟨32, 5, .ro, 0⟩
/-- IC_SRC_TGT.LAST_VALID (R461). -/
def Fld.icSrcTgt_lastValid : Fld := ⟨37, 1, .ro, 0⟩
/-- IC_SRC_STAT.COUNT (R461). -/
def Fld.icSrcStat_count : Fld := ⟨0, 8, .ro, 0⟩
/-- IC_SRC_STAT.OVF (R461). -/
def Fld.icSrcStat_ovf : Fld := ⟨8, 1, .w1c, 0⟩
/-- IC_SRC_STAT.ASSERTED (R461). -/
def Fld.icSrcStat_asserted : Fld := ⟨9, 1, .ro, 0⟩
/-- IC_SRC_STAT.INSERVICE (R461). -/
def Fld.icSrcStat_inservice : Fld := ⟨10, 1, .ro, 0⟩
/-- IC_SRC_STAT.MASKED (R461). -/
def Fld.icSrcStat_masked : Fld := ⟨11, 1, .ro, 0⟩
/-- IC_SRC_STAT.CONDITION (R461). -/
def Fld.icSrcStat_condition : Fld := ⟨12, 1, .ro, 0⟩
/-- IC_ACK.SOURCE (R461). -/
def Fld.icAck_source : Fld := ⟨0, 11, .wo, 0⟩
/-- IC_ACK.N (R461). -/
def Fld.icAck_n : Fld := ⟨16, 8, .wo, 0⟩
/-- IC_RAISE.SOURCE (R461). -/
def Fld.icRaise_source : Fld := ⟨0, 11, .wo, 0⟩
/-- IC_HART_IDX.HART (R461). -/
def Fld.icHartIdx_hart : Fld := ⟨0, 4, .rw, 0⟩
/-- IC_HART_CTL.EN (R461). -/
def Fld.icHartCtl_en : Fld := ⟨0, 1, .rw, 0⟩
/-- IC_HART_CTL.MASK (R461). -/
def Fld.icHartCtl_mask : Fld := ⟨1, 1, .rw, 0⟩
/-- IC_HART_CTL.SLEEP (R461). -/
def Fld.icHartCtl_sleep : Fld := ⟨2, 1, .ro, 0⟩
/-- IC_HART_CTL.QUEUED (R461). -/
def Fld.icHartCtl_queued : Fld := ⟨4, 12, .ro, 0⟩
/-- IC_CLAIM.SOURCE (R461). -/
def Fld.icClaim_source : Fld := ⟨0, 11, .rc, 0⟩
/-- IC_CLAIM.VALID (R461). -/
def Fld.icClaim_valid : Fld := ⟨15, 1, .rc, 0⟩
/-- SEC_CAP.PARTITIONS (R494). -/
def Fld.secCap_partitions : Fld := ⟨0, 8, .ro, 16⟩
/-- SEC_CAP.CAST_SLOTS (R494). -/
def Fld.secCap_castSlots : Fld := ⟨8, 8, .ro, 15⟩
/-- SEC_CAP.MAILBOXES (R494). -/
def Fld.secCap_mailboxes : Fld := ⟨16, 8, .ro, 17⟩
/-- SEC_STAT.RUN (R494). -/
def Fld.secStat_run : Fld := ⟨0, 1, .ro, 0⟩
/-- SEC_STAT.RECOVERY (R494). -/
def Fld.secStat_recovery : Fld := ⟨1, 1, .ro, 0⟩
/-- SEC_STAT.PRODUCTION (R494). -/
def Fld.secStat_production : Fld := ⟨2, 1, .ro, 0⟩
/-- SEC_STAT.DEBUG_FUSED (R494). -/
def Fld.secStat_debugFused : Fld := ⟨3, 1, .ro, 0⟩
/-- SEC_STAT.IDE_CACHE (R494). -/
def Fld.secStat_ideCache : Fld := ⟨4, 1, .ro, 0⟩
/-- SEC_STAT.FW_VERSION (R494). -/
def Fld.secStat_fwVersion : Fld := ⟨32, 32, .ro, 0⟩
/-- PART_IDX.PARTITION (R494). -/
def Fld.partIdx_partition : Fld := ⟨0, 4, .rw, 0⟩
/-- PART_DATA.CORES (R494). -/
def Fld.partData_cores : Fld := ⟨0, 16, .ro, 0⟩
/-- PART_DATA.EXISTS (R494). -/
def Fld.partData_exists : Fld := ⟨16, 1, .ro, 0⟩
/-- PART_DATA.CONFIDENTIAL (R494). -/
def Fld.partData_confidential : Fld := ⟨17, 1, .ro, 0⟩
/-- PART_DATA.DEBUG (R494). -/
def Fld.partData_debug : Fld := ⟨18, 1, .ro, 0⟩
/-- PART_DATA.REQUIRE_SIGNED (R494). -/
def Fld.partData_requireSigned : Fld := ⟨19, 1, .ro, 0⟩
/-- PART_DATA.TDISP (R494). -/
def Fld.partData_tdisp : Fld := ⟨20, 3, .ro, 0⟩
/-- PART_DATA.IDE_IO (R494). -/
def Fld.partData_ideIo : Fld := ⟨23, 1, .ro, 0⟩
/-- PART_DATA.KEYS (R494). -/
def Fld.partData_keys : Fld := ⟨24, 3, .ro, 0⟩
/-- PART_DATA.ANCHORS (R494). -/
def Fld.partData_anchors : Fld := ⟨27, 3, .ro, 0⟩
/-- PART_DATA.CASTS (R494). -/
def Fld.partData_casts : Fld := ⟨32, 15, .ro, 0⟩
/-- MB_CMD.OP (R495). -/
def Fld.mbCmd_op : Fld := ⟨0, 8, .rw, 0⟩
/-- MB_CMD.LEN (R495). -/
def Fld.mbCmd_len : Fld := ⟨8, 12, .rw, 0⟩
/-- MB_CMD.GO (R495). -/
def Fld.mbCmd_go : Fld := ⟨63, 1, .wo, 0⟩
/-- MB_STAT.BUSY (R495). -/
def Fld.mbStat_busy : Fld := ⟨0, 1, .ro, 0⟩
/-- MB_STAT.DONE (R495). -/
def Fld.mbStat_done : Fld := ⟨1, 1, .w1c, 0⟩
/-- MB_STAT.STATUS (R495). -/
def Fld.mbStat_status : Fld := ⟨8, 8, .ro, 0⟩
/-- MB_STAT.RLEN (R495). -/
def Fld.mbStat_rlen : Fld := ⟨16, 12, .ro, 0⟩
/-- MB_BUF.DATA (R495). -/
def Fld.mbBuf_data : Fld := ⟨0, 64, .rw, 0⟩
/-- PAT_CTL.MIRROR (R496). -/
def Fld.patCtl_mirror : Fld := ⟨0, 1, .rw, 0⟩
/-- PAT_MBASE.BASE (R496). -/
def Fld.patMbase_base : Fld := ⟨22, 30, .rw, 0⟩
/-- PAT_SEQ.SEQ (R496). -/
def Fld.patSeq_seq : Fld := ⟨0, 64, .ro, 0⟩
/-- PAT_MSEQ.MIRRORED (R496). -/
def Fld.patMseq_mirrored : Fld := ⟨0, 64, .ro, 0⟩
/-- PAT_LOST.LOST (R496). -/
def Fld.patLost_lost : Fld := ⟨0, 32, .rc, 0⟩
/-- PAT_CHAIN_LO.CHAIN (R496). -/
def Fld.patChainLo_chain : Fld := ⟨0, 64, .ro, 0⟩
/-- PAT_CHAIN_HI.CHAIN (R496). -/
def Fld.patChainHi_chain : Fld := ⟨0, 64, .ro, 0⟩
/-- PAT_RDIDX.INDEX (R496). -/
def Fld.patRdidx_index : Fld := ⟨0, 16, .rw, 0⟩
/-- PAT_RDWIN.ENTRY (R496). -/
def Fld.patRdwin_entry : Fld := ⟨0, 64, .ro, 0⟩
/-- CAST_IDX.SLOT (R497). -/
def Fld.castIdx_slot : Fld := ⟨0, 4, .rw, 0⟩
/-- CAST_STAT.STATE (R497). -/
def Fld.castStat_state : Fld := ⟨0, 2, .ro, 0⟩
/-- CAST_STAT.FIRST (R497). -/
def Fld.castStat_first : Fld := ⟨2, 15, .ro, 0⟩
/-- CAST_STAT.FRAMES (R497). -/
def Fld.castStat_frames : Fld := ⟨17, 15, .ro, 0⟩
/-- CAST_STAT.ADMIT (R497). -/
def Fld.castStat_admit : Fld := ⟨32, 16, .ro, 0⟩
/-- CAST_STAT.FAILED (R497). -/
def Fld.castStat_failed : Fld := ⟨48, 1, .ro, 0⟩
/-- CAST_STAT.OVERFLOW (R497). -/
def Fld.castStat_overflow : Fld := ⟨49, 1, .ro, 0⟩
/-- CAST_ID_LO.ID (R497). -/
def Fld.castIdLo_id : Fld := ⟨0, 64, .ro, 0⟩
/-- CAST_ID_HI.ID (R497). -/
def Fld.castIdHi_id : Fld := ⟨0, 64, .ro, 0⟩
/-- CAST_RCNT.RECASTS (R497). -/
def Fld.castRcnt_recasts : Fld := ⟨0, 32, .rc, 0⟩
/-- CAST_RCNT.FAILS (R497). -/
def Fld.castRcnt_fails : Fld := ⟨32, 16, .rc, 0⟩
/-- CAST_RCNT.PENDING (R497). -/
def Fld.castRcnt_pending : Fld := ⟨48, 9, .ro, 0⟩
/-- PWR_CAP.CAP_W (R520). -/
def Fld.pwrCap_capW : Fld := ⟨0, 12, .rwl, 2000⟩
/-- PWR_CAP.PRIO0 (R520). -/
def Fld.pwrCap_prio0 : Fld := ⟨16, 2, .rwl, 0⟩
/-- PWR_CAP.PRIO1 (R520). -/
def Fld.pwrCap_prio1 : Fld := ⟨18, 2, .rwl, 1⟩
/-- PWR_CAP.PRIO2 (R520). -/
def Fld.pwrCap_prio2 : Fld := ⟨20, 2, .rwl, 2⟩
/-- PWR_STAT.POWER_W (R520). -/
def Fld.pwrStat_powerW : Fld := ⟨0, 12, .ro, 0⟩
/-- PWR_STAT.POINT (R520). -/
def Fld.pwrStat_point : Fld := ⟨12, 3, .ro, 0⟩
/-- PWR_STAT.DUTY (R520). -/
def Fld.pwrStat_duty : Fld := ⟨15, 4, .ro, 8⟩
/-- PWR_STAT.THROTTLE (R520). -/
def Fld.pwrStat_throttle : Fld := ⟨19, 4, .ro, 0⟩
/-- PWR_STAT.TRIPPED (R520). -/
def Fld.pwrStat_tripped : Fld := ⟨23, 1, .ro, 0⟩
/-- PWR_STAT.STANDBY (R520). -/
def Fld.pwrStat_standby : Fld := ⟨24, 1, .ro, 0⟩
/-- PWR_ALLOC.LINKS_W (R520). -/
def Fld.pwrAlloc_linksW : Fld := ⟨0, 12, .ro, 0⟩
/-- PWR_ALLOC.MEMORY_W (R520). -/
def Fld.pwrAlloc_memoryW : Fld := ⟨16, 12, .ro, 0⟩
/-- PWR_ALLOC.COMPUTE_W (R520). -/
def Fld.pwrAlloc_computeW : Fld := ⟨32, 12, .ro, 0⟩
/-- PWR_ENERGY.ENERGY_UJ (R520). -/
def Fld.pwrEnergy_energyUj : Fld := ⟨0, 64, .ro, 0⟩
/-- PWR_THR.EVENTS (R520). -/
def Fld.pwrThr_events : Fld := ⟨0, 32, .rc, 0⟩
/-- PWR_THR.TIME_US (R520). -/
def Fld.pwrThr_timeUs : Fld := ⟨32, 32, .rc, 0⟩
/-- PWR_CTL.STANDBY (R520). -/
def Fld.pwrCtl_standby : Fld := ⟨0, 1, .rw, 0⟩
/-- TH_LIMITS.DIE_THR (R521). -/
def Fld.thLimits_dieThr : Fld := ⟨0, 8, .rwl, 100⟩
/-- TH_LIMITS.DIE_TRIP (R521). -/
def Fld.thLimits_dieTrip : Fld := ⟨8, 8, .rwl, 110⟩
/-- TH_LIMITS.STK_THR (R521). -/
def Fld.thLimits_stkThr : Fld := ⟨16, 8, .rwl, 95⟩
/-- TH_LIMITS.STK_TRIP (R521). -/
def Fld.thLimits_stkTrip : Fld := ⟨24, 8, .rwl, 105⟩
/-- TH_IDX.SENSOR (R521). -/
def Fld.thIdx_sensor : Fld := ⟨0, 8, .rw, 0⟩
/-- TH_DATA.TEMP_C (R521). -/
def Fld.thData_tempC : Fld := ⟨0, 8, .ro, 0⟩
/-- TH_DATA.MAX_C (R521). -/
def Fld.thData_maxC : Fld := ⟨8, 8, .ro, 0⟩
/-- TH_STAT.HOTTEST_C (R521). -/
def Fld.thStat_hottestC : Fld := ⟨0, 8, .ro, 0⟩
/-- TH_STAT.HOTTEST_IDX (R521). -/
def Fld.thStat_hottestIdx : Fld := ⟨8, 8, .ro, 0⟩
/-- TH_STAT.DIE_THROTTLING (R521). -/
def Fld.thStat_dieThrottling : Fld := ⟨16, 1, .ro, 0⟩
/-- TH_STAT.STK_THROTTLING (R521). -/
def Fld.thStat_stkThrottling : Fld := ⟨17, 1, .ro, 0⟩
/-- TH_STAT.TRIP_IDX (R521). -/
def Fld.thStat_tripIdx : Fld := ⟨18, 8, .ro, 0⟩
/-- PWR_CTX_IDX.CONTEXT (R522). -/
def Fld.pwrCtxIdx_context : Fld := ⟨0, 12, .rw, 0⟩
/-- PWR_CTX_EN.ENERGY_UJ (R522). -/
def Fld.pwrCtxEn_energyUj : Fld := ⟨0, 63, .ro, 0⟩
/-- PWR_CTX_EN.SHARED_SEEN (R522). -/
def Fld.pwrCtxEn_sharedSeen : Fld := ⟨63, 1, .ro, 0⟩
/-- PWR_CTX_SH.SHARED_UJ (R522). -/
def Fld.pwrCtxSh_sharedUj : Fld := ⟨0, 63, .ro, 0⟩
/-- ISL_CTL.DROOP_PCT (R523). -/
def Fld.islCtl_droopPct : Fld := ⟨0, 4, .rwl, 5⟩
/-- ISL_DROOP.TRIPS (R523). -/
def Fld.islDroop_trips : Fld := ⟨0, 32, .rc, 0⟩
/-- ISL_DROOP.STRETCHED (R523). -/
def Fld.islDroop_stretched : Fld := ⟨32, 32, .rc, 0⟩
/-- ISL_FAULT.TIMEOUTS (R523). -/
def Fld.islFault_timeouts : Fld := ⟨0, 16, .rc, 0⟩
/-- ISL_FAULT.SELFCHECK (R523). -/
def Fld.islFault_selfcheck : Fld := ⟨16, 16, .rc, 0⟩
/-- RST_CTL.FULL (R542). -/
def Fld.rstCtl_full : Fld := ⟨0, 1, .wo, 0⟩
/-- RST_CTL.KEY (R542). -/
def Fld.rstCtl_key : Fld := ⟨8, 8, .wo, 0⟩
/-- RST_CAUSE.CAUSE (R542). -/
def Fld.rstCause_cause : Fld := ⟨0, 4, .ro, 0⟩
/-- RST_CAUSE.STARTS (R542). -/
def Fld.rstCause_starts : Fld := ⟨16, 32, .ro, 0⟩
/-- START_STAT.STEP (R542). -/
def Fld.startStat_step : Fld := ⟨0, 4, .ro, 0⟩
/-- START_STAT.READY (R542). -/
def Fld.startStat_ready : Fld := ⟨4, 1, .ro, 0⟩
/-- START_STAT.RECOVERY (R542). -/
def Fld.startStat_recovery : Fld := ⟨5, 1, .ro, 0⟩
/-- START_STAT.FAIL_STEP (R542). -/
def Fld.startStat_failStep : Fld := ⟨8, 4, .ro, 0⟩
/-- START_STAT.DURATION_MS (R542). -/
def Fld.startStat_durationMs : Fld := ⟨32, 32, .ro, 0⟩
/-- HL_CTL.CPL_TIMEOUT_MS (R542). -/
def Fld.hlCtl_cplTimeoutMs : Fld := ⟨0, 10, .rwl, 50⟩
/-- HL_STAT.DOWN (R542). -/
def Fld.hlStat_down : Fld := ⟨0, 1, .ro, 0⟩
/-- HL_STAT.LOST_CMDS (R542). -/
def Fld.hlStat_lostCmds : Fld := ⟨16, 16, .rc, 0⟩
/-- HL_STAT.LAST_DOWN_US (R542). -/
def Fld.hlStat_lastDownUs : Fld := ⟨32, 32, .ro, 0⟩
/-- SUP_CTL.LIMIT_MS (R542). -/
def Fld.supCtl_limitMs : Fld := ⟨0, 16, .rwl, 1000⟩
/-- FATAL_STAT.FATAL (R542). -/
def Fld.fatalStat_fatal : Fld := ⟨0, 1, .ro, 0⟩
/-- FATAL_STAT.CAUSE (R542). -/
def Fld.fatalStat_cause : Fld := ⟨4, 4, .ro, 0⟩
/-- FATAL_STAT.DETAIL (R542). -/
def Fld.fatalStat_detail : Fld := ⟨8, 16, .ro, 0⟩
/-- FATAL_STAT.TIME (R542). -/
def Fld.fatalStat_time : Fld := ⟨32, 32, .ro, 0⟩
/-- HEALTH.STATE (R542). -/
def Fld.health_state : Fld := ⟨0, 2, .ro, 0⟩
/-- HEALTH.SHORT (R542). -/
def Fld.health_short : Fld := ⟨2, 1, .ro, 0⟩
/-- HEALTH.NO_SPARES (R542). -/
def Fld.health_noSpares : Fld := ⟨3, 1, .ro, 0⟩
/-- HEALTH.LANES (R542). -/
def Fld.health_lanes : Fld := ⟨4, 1, .ro, 0⟩
/-- HEALTH.NOISY (R542). -/
def Fld.health_noisy : Fld := ⟨5, 1, .ro, 0⟩
/-- HEALTH.REPEAT (R542). -/
def Fld.health_repeat : Fld := ⟨6, 1, .ro, 0⟩
/-- BIST_STAT.CELLS (R542). -/
def Fld.bistStat_cells : Fld := ⟨0, 16, .ro, 0⟩
/-- BIST_STAT.BANKS (R542). -/
def Fld.bistStat_banks : Fld := ⟨16, 16, .ro, 0⟩
/-- BIST_STAT.EXTENDED (R542). -/
def Fld.bistStat_extended : Fld := ⟨32, 1, .ro, 0⟩
/-- BIST_STAT.SHARED (R542). -/
def Fld.bistStat_shared : Fld := ⟨33, 1, .ro, 0⟩
/-- ID_PART.PART (R563). -/
def Fld.idPart_part : Fld := ⟨0, 16, .ro, 128⟩
/-- ID_PART.STEPPING (R563). -/
def Fld.idPart_stepping : Fld := ⟨16, 8, .ro, 0⟩
/-- ID_SERIAL_LO.SERIAL (R563). -/
def Fld.idSerialLo_serial : Fld := ⟨0, 64, .ro, 0⟩
/-- ID_SERIAL_HI.SERIAL (R563). -/
def Fld.idSerialHi_serial : Fld := ⟨0, 64, .ro, 0⟩
/-- ID_CAP.CORES (R563). -/
def Fld.idCap_cores : Fld := ⟨0, 8, .ro, 16⟩
/-- ID_CAP.ENGINES (R563). -/
def Fld.idCap_engines : Fld := ⟨8, 8, .ro, 64⟩
/-- ID_CAP.CELLS (R563). -/
def Fld.idCap_cells : Fld := ⟨16, 16, .ro, 4096⟩
/-- ID_CAP.STACKS (R563). -/
def Fld.idCap_stacks : Fld := ⟨32, 8, .ro, 12⟩
/-- ID_CAP.HOST_PORTS (R563). -/
def Fld.idCap_hostPorts : Fld := ⟨40, 8, .ro, 4⟩
/-- ID_CAP.FAB_PORTS (R563). -/
def Fld.idCap_fabPorts : Fld := ⟨48, 8, .ro, 16⟩
/-- TIME.COUNT (R563). -/
def Fld.time_count : Fld := ⟨0, 64, .ro, 0⟩
/-- CLK_STAT.KP_LOCK (R563). -/
def Fld.clkStat_kpLock : Fld := ⟨0, 1, .ro, 0⟩
/-- CLK_STAT.KC_LOCK (R563). -/
def Fld.clkStat_kcLock : Fld := ⟨1, 4, .ro, 0⟩
/-- CLK_STAT.FAB_LOCK (R563). -/
def Fld.clkStat_fabLock : Fld := ⟨5, 1, .ro, 0⟩
/-- ENG_STAT.FORMED (R564). -/
def Fld.engStat_formed : Fld := ⟨0, 1, .ro, 0⟩
/-- ENG_STAT.STATE (R564). -/
def Fld.engStat_state : Fld := ⟨1, 3, .ro, 0⟩
/-- ENG_STAT.SIZE_LOG2 (R564). -/
def Fld.engStat_sizeLog2 : Fld := ⟨4, 3, .ro, 0⟩
/-- ENG_STAT.ORIGIN (R564). -/
def Fld.engStat_origin : Fld := ⟨8, 8, .ro, 0⟩
/-- ENG_STAT.CONTEXT (R564). -/
def Fld.engStat_context : Fld := ⟨16, 12, .ro, 0⟩
/-- ENG_CMD.QUEUE (R564). -/
def Fld.engCmd_queue : Fld := ⟨0, 14, .ro, 0⟩
/-- ENG_CMD.VALID (R564). -/
def Fld.engCmd_valid : Fld := ⟨14, 1, .ro, 0⟩
/-- ENG_SEQ.SEQ (R564). -/
def Fld.engSeq_seq : Fld := ⟨0, 64, .ro, 0⟩
/-- ENG_TRAP.CODE (R564). -/
def Fld.engTrap_code : Fld := ⟨0, 15, .ro, 0⟩
/-- ENG_TRAP.CELL (R564). -/
def Fld.engTrap_cell : Fld := ⟨16, 6, .ro, 0⟩
/-- ENG_TRAP.PC (R564). -/
def Fld.engTrap_pc : Fld := ⟨32, 32, .ro, 0⟩

/-- The registers of BAR0, but for the common page header (19 R561) and the MSI-X tables (15 R459). -/
inductive Reg where
  | armCap | armStat | armFree | armEngines | armReqAddr | armReqCtl | armReqMask | armResAddr
  | armReqStat | armQpol | armQcount | armQlog | armMapIdx | armMapData | relCap | relStat
  | relErrcnt | relPlog | relBlkIdx | relBlkData | ccCap | ccCtl | ccStat | ccCntSnoop
  | ccCntStale | ccCntRsv | ccErr | syncCap | syncWd | syncMapinv | sigIdx | sigData
  | barIdx | barMask | barStat | barCtl | syncCnt | monCap | monIdx | monOwner
  | monData | monAddr | monArmAddr | monArmTarget | monArmCtl | fsAnom | fsAnomrec | fsAnomaddr
  | objCmd | objArg | objStat | objIdx | ctxStat | qStat | dbOwner | arnStat
  | frameData | abtReq | abtSeq | abtStat | atuCap | atuCtl | atuStat | atuFltAddr
  | atuFltInfo | atuCntAts | atuCntPri | atuCntInv | atuErrCnt | xlInvAddr | xlInvCtl | xlInvStat
  | xlAptCtl | xlAptStat | tlbCap | tlbCnt | tlbErr | plCap | plCtl | plStat
  | hpErr | plCntHlc | winCtl | winBase | winStat | winErraddr | winCnt | qfErrinfo
  | qfErrseq | qfCnt | chCap | chStat | chSidx | chScmd | chSseq | chSprog
  | chCnt | chErr | tsCap | tsCtl | tsStat | tsIdx | tsCtx | tsCtxeng
  | tsCnt | tsLast | csCtl | csStat | csCnt | fabCap | fabId | fabCtl
  | fabStat | fabCnt | fabErr | fabPortIdx | fabPortCtl | fabPortStat | fabRtIdx | fabRtData
  | fjIdx | fjCtl | fjPeers | fjStat | frIdx | frCtl | frBase | frTail
  | frHead | frStat | memCap | memCtl | memStat | memScrubCnt | hmCap | hmStat
  | hmErrcnt | hmPlog | hmPoisoned | hmTcCnt | hmDirCnt | hmLaneIdx | hmLaneData | icCap
  | icStat | icSrcIdx | icSrcCtl | icSrcTgt | icSrcStat | icAck | icRaise | icHartIdx
  | icHartCtl | icClaim | secCap | secStat | partIdx | partData | mbCmd | mbStat
  | mbBuf | patCtl | patMbase | patSeq | patMseq | patLost | patChainLo | patChainHi
  | patRdidx | patRdwin | castIdx | castStat | castIdLo | castIdHi | castRcnt | pwrCap
  | pwrStat | pwrAlloc | pwrEnergy | pwrThr | pwrCtl | thLimits | thIdx | thData
  | thStat | pwrCtxIdx | pwrCtxEn | pwrCtxSh | islCtl | islDroop | islFault | rstCtl
  | rstCause | startStat | hlCtl | hlStat | supCtl | fatalStat | health | bistStat
  | idPart | idSerialLo | idSerialHi | idCap | time | clkStat | engStat | engCmd
  | engSeq | engTrap
  deriving DecidableEq, Repr

/-- The page kind of a register. -/
def Reg.kind : Reg → PageKind
  | .armCap => .armature
  | .armStat => .armature
  | .armFree => .armature
  | .armEngines => .armature
  | .armReqAddr => .armature
  | .armReqCtl => .armature
  | .armReqMask => .armature
  | .armResAddr => .armature
  | .armReqStat => .armature
  | .armQpol => .armature
  | .armQcount => .armature
  | .armQlog => .armature
  | .armMapIdx => .armature
  | .armMapData => .armature
  | .relCap => .relief
  | .relStat => .relief
  | .relErrcnt => .relief
  | .relPlog => .relief
  | .relBlkIdx => .relief
  | .relBlkData => .relief
  | .ccCap => .coreCache
  | .ccCtl => .coreCache
  | .ccStat => .coreCache
  | .ccCntSnoop => .coreCache
  | .ccCntStale => .coreCache
  | .ccCntRsv => .coreCache
  | .ccErr => .coreCache
  | .syncCap => .sync
  | .syncWd => .sync
  | .syncMapinv => .sync
  | .sigIdx => .sync
  | .sigData => .sync
  | .barIdx => .sync
  | .barMask => .sync
  | .barStat => .sync
  | .barCtl => .sync
  | .syncCnt => .sync
  | .monCap => .monitor
  | .monIdx => .monitor
  | .monOwner => .monitor
  | .monData => .monitor
  | .monAddr => .monitor
  | .monArmAddr => .monitor
  | .monArmTarget => .monitor
  | .monArmCtl => .monitor
  | .fsAnom => .monitor
  | .fsAnomrec => .monitor
  | .fsAnomaddr => .monitor
  | .objCmd => .objects
  | .objArg => .objects
  | .objStat => .objects
  | .objIdx => .objects
  | .ctxStat => .objects
  | .qStat => .objects
  | .dbOwner => .objects
  | .arnStat => .objects
  | .frameData => .objects
  | .abtReq => .abort
  | .abtSeq => .abort
  | .abtStat => .abort
  | .atuCap => .atu
  | .atuCtl => .atu
  | .atuStat => .atu
  | .atuFltAddr => .atu
  | .atuFltInfo => .atu
  | .atuCntAts => .atu
  | .atuCntPri => .atu
  | .atuCntInv => .atu
  | .atuErrCnt => .atu
  | .xlInvAddr => .xlat
  | .xlInvCtl => .xlat
  | .xlInvStat => .xlat
  | .xlAptCtl => .xlat
  | .xlAptStat => .xlat
  | .tlbCap => .tlb
  | .tlbCnt => .tlb
  | .tlbErr => .tlb
  | .plCap => .plinth
  | .plCtl => .plinth
  | .plStat => .plinth
  | .hpErr => .plinth
  | .plCntHlc => .plinth
  | .winCtl => .function
  | .winBase => .function
  | .winStat => .function
  | .winErraddr => .function
  | .winCnt => .function
  | .qfErrinfo => .queueFetch
  | .qfErrseq => .queueFetch
  | .qfCnt => .queueFetch
  | .chCap => .chisel
  | .chStat => .chisel
  | .chSidx => .chisel
  | .chScmd => .chisel
  | .chSseq => .chisel
  | .chSprog => .chisel
  | .chCnt => .chisel
  | .chErr => .chisel
  | .tsCap => .slicing
  | .tsCtl => .slicing
  | .tsStat => .slicing
  | .tsIdx => .slicing
  | .tsCtx => .slicing
  | .tsCtxeng => .slicing
  | .tsCnt => .slicing
  | .tsLast => .slicing
  | .csCtl => .chiselSlicing
  | .csStat => .chiselSlicing
  | .csCnt => .chiselSlicing
  | .fabCap => .fabric
  | .fabId => .fabric
  | .fabCtl => .fabric
  | .fabStat => .fabric
  | .fabCnt => .fabric
  | .fabErr => .fabric
  | .fabPortIdx => .fabric
  | .fabPortCtl => .fabric
  | .fabPortStat => .fabric
  | .fabRtIdx => .fabric
  | .fabRtData => .fabric
  | .fjIdx => .jobs
  | .fjCtl => .jobs
  | .fjPeers => .jobs
  | .fjStat => .jobs
  | .frIdx => .jobs
  | .frCtl => .jobs
  | .frBase => .jobs
  | .frTail => .jobs
  | .frHead => .jobs
  | .frStat => .jobs
  | .memCap => .extMem
  | .memCtl => .extMem
  | .memStat => .extMem
  | .memScrubCnt => .extMem
  | .hmCap => .home
  | .hmStat => .home
  | .hmErrcnt => .home
  | .hmPlog => .home
  | .hmPoisoned => .home
  | .hmTcCnt => .home
  | .hmDirCnt => .home
  | .hmLaneIdx => .home
  | .hmLaneData => .home
  | .icCap => .ic
  | .icStat => .ic
  | .icSrcIdx => .ic
  | .icSrcCtl => .ic
  | .icSrcTgt => .ic
  | .icSrcStat => .ic
  | .icAck => .ic
  | .icRaise => .ic
  | .icHartIdx => .ic
  | .icHartCtl => .ic
  | .icClaim => .ic
  | .secCap => .security
  | .secStat => .security
  | .partIdx => .security
  | .partData => .security
  | .mbCmd => .mailbox
  | .mbStat => .mailbox
  | .mbBuf => .mailbox
  | .patCtl => .patina
  | .patMbase => .patina
  | .patSeq => .patina
  | .patMseq => .patina
  | .patLost => .patina
  | .patChainLo => .patina
  | .patChainHi => .patina
  | .patRdidx => .patina
  | .patRdwin => .patina
  | .castIdx => .cast
  | .castStat => .cast
  | .castIdLo => .cast
  | .castIdHi => .cast
  | .castRcnt => .cast
  | .pwrCap => .power
  | .pwrStat => .power
  | .pwrAlloc => .power
  | .pwrEnergy => .power
  | .pwrThr => .power
  | .pwrCtl => .power
  | .thLimits => .thermal
  | .thIdx => .thermal
  | .thData => .thermal
  | .thStat => .thermal
  | .pwrCtxIdx => .ctxEnergy
  | .pwrCtxEn => .ctxEnergy
  | .pwrCtxSh => .ctxEnergy
  | .islCtl => .islands
  | .islDroop => .islands
  | .islFault => .islands
  | .rstCtl => .reset
  | .rstCause => .reset
  | .startStat => .reset
  | .hlCtl => .reset
  | .hlStat => .reset
  | .supCtl => .reset
  | .fatalStat => .reset
  | .health => .reset
  | .bistStat => .reset
  | .idPart => .identity
  | .idSerialLo => .identity
  | .idSerialHi => .identity
  | .idCap => .identity
  | .time => .identity
  | .clkStat => .identity
  | .engStat => .engine
  | .engCmd => .engine
  | .engSeq => .engine
  | .engTrap => .engine

/-- The offset of a register in its page. -/
def Reg.off : Reg → Nat
  | .armCap => 0x100
  | .armStat => 0x108
  | .armFree => 0x110
  | .armEngines => 0x118
  | .armReqAddr => 0x128
  | .armReqCtl => 0x130
  | .armReqMask => 0x138
  | .armResAddr => 0x140
  | .armReqStat => 0x148
  | .armQpol => 0x150
  | .armQcount => 0x158
  | .armQlog => 0x160
  | .armMapIdx => 0x168
  | .armMapData => 0x170
  | .relCap => 0x100
  | .relStat => 0x108
  | .relErrcnt => 0x110
  | .relPlog => 0x118
  | .relBlkIdx => 0x120
  | .relBlkData => 0x128
  | .ccCap => 0x100
  | .ccCtl => 0x108
  | .ccStat => 0x110
  | .ccCntSnoop => 0x118
  | .ccCntStale => 0x120
  | .ccCntRsv => 0x128
  | .ccErr => 0x130
  | .syncCap => 0x100
  | .syncWd => 0x108
  | .syncMapinv => 0x110
  | .sigIdx => 0x118
  | .sigData => 0x120
  | .barIdx => 0x128
  | .barMask => 0x130
  | .barStat => 0x138
  | .barCtl => 0x140
  | .syncCnt => 0x148
  | .monCap => 0x100
  | .monIdx => 0x108
  | .monOwner => 0x110
  | .monData => 0x118
  | .monAddr => 0x120
  | .monArmAddr => 0x128
  | .monArmTarget => 0x130
  | .monArmCtl => 0x138
  | .fsAnom => 0x140
  | .fsAnomrec => 0x148
  | .fsAnomaddr => 0x150
  | .objCmd => 0x100
  | .objArg => 0x108
  | .objStat => 0x110
  | .objIdx => 0x118
  | .ctxStat => 0x120
  | .qStat => 0x128
  | .dbOwner => 0x130
  | .arnStat => 0x138
  | .frameData => 0x140
  | .abtReq => 0x100
  | .abtSeq => 0x108
  | .abtStat => 0x110
  | .atuCap => 0x100
  | .atuCtl => 0x108
  | .atuStat => 0x110
  | .atuFltAddr => 0x118
  | .atuFltInfo => 0x120
  | .atuCntAts => 0x128
  | .atuCntPri => 0x130
  | .atuCntInv => 0x138
  | .atuErrCnt => 0x140
  | .xlInvAddr => 0x100
  | .xlInvCtl => 0x108
  | .xlInvStat => 0x110
  | .xlAptCtl => 0x118
  | .xlAptStat => 0x120
  | .tlbCap => 0x100
  | .tlbCnt => 0x108
  | .tlbErr => 0x110
  | .plCap => 0x100
  | .plCtl => 0x108
  | .plStat => 0x110
  | .hpErr => 0x118
  | .plCntHlc => 0x120
  | .winCtl => 0x100
  | .winBase => 0x108
  | .winStat => 0x110
  | .winErraddr => 0x118
  | .winCnt => 0x120
  | .qfErrinfo => 0x100
  | .qfErrseq => 0x108
  | .qfCnt => 0x110
  | .chCap => 0x100
  | .chStat => 0x108
  | .chSidx => 0x110
  | .chScmd => 0x118
  | .chSseq => 0x120
  | .chSprog => 0x128
  | .chCnt => 0x130
  | .chErr => 0x138
  | .tsCap => 0x100
  | .tsCtl => 0x108
  | .tsStat => 0x110
  | .tsIdx => 0x118
  | .tsCtx => 0x120
  | .tsCtxeng => 0x128
  | .tsCnt => 0x130
  | .tsLast => 0x138
  | .csCtl => 0x100
  | .csStat => 0x108
  | .csCnt => 0x110
  | .fabCap => 0x100
  | .fabId => 0x108
  | .fabCtl => 0x110
  | .fabStat => 0x118
  | .fabCnt => 0x120
  | .fabErr => 0x128
  | .fabPortIdx => 0x130
  | .fabPortCtl => 0x138
  | .fabPortStat => 0x140
  | .fabRtIdx => 0x148
  | .fabRtData => 0x150
  | .fjIdx => 0x100
  | .fjCtl => 0x108
  | .fjPeers => 0x110
  | .fjStat => 0x118
  | .frIdx => 0x120
  | .frCtl => 0x128
  | .frBase => 0x130
  | .frTail => 0x138
  | .frHead => 0x140
  | .frStat => 0x148
  | .memCap => 0x100
  | .memCtl => 0x108
  | .memStat => 0x110
  | .memScrubCnt => 0x118
  | .hmCap => 0x100
  | .hmStat => 0x108
  | .hmErrcnt => 0x110
  | .hmPlog => 0x118
  | .hmPoisoned => 0x120
  | .hmTcCnt => 0x128
  | .hmDirCnt => 0x130
  | .hmLaneIdx => 0x138
  | .hmLaneData => 0x140
  | .icCap => 0x100
  | .icStat => 0x108
  | .icSrcIdx => 0x110
  | .icSrcCtl => 0x118
  | .icSrcTgt => 0x120
  | .icSrcStat => 0x128
  | .icAck => 0x130
  | .icRaise => 0x138
  | .icHartIdx => 0x140
  | .icHartCtl => 0x148
  | .icClaim => 0x150
  | .secCap => 0x100
  | .secStat => 0x108
  | .partIdx => 0x110
  | .partData => 0x118
  | .mbCmd => 0x100
  | .mbStat => 0x108
  | .mbBuf => 0x400
  | .patCtl => 0x100
  | .patMbase => 0x108
  | .patSeq => 0x110
  | .patMseq => 0x118
  | .patLost => 0x120
  | .patChainLo => 0x128
  | .patChainHi => 0x130
  | .patRdidx => 0x138
  | .patRdwin => 0x180
  | .castIdx => 0x100
  | .castStat => 0x108
  | .castIdLo => 0x110
  | .castIdHi => 0x118
  | .castRcnt => 0x120
  | .pwrCap => 0x100
  | .pwrStat => 0x108
  | .pwrAlloc => 0x110
  | .pwrEnergy => 0x118
  | .pwrThr => 0x120
  | .pwrCtl => 0x128
  | .thLimits => 0x100
  | .thIdx => 0x108
  | .thData => 0x110
  | .thStat => 0x118
  | .pwrCtxIdx => 0x100
  | .pwrCtxEn => 0x108
  | .pwrCtxSh => 0x110
  | .islCtl => 0x100
  | .islDroop => 0x108
  | .islFault => 0x110
  | .rstCtl => 0x100
  | .rstCause => 0x108
  | .startStat => 0x110
  | .hlCtl => 0x118
  | .hlStat => 0x120
  | .supCtl => 0x128
  | .fatalStat => 0x130
  | .health => 0x138
  | .bistStat => 0x140
  | .idPart => 0x100
  | .idSerialLo => 0x108
  | .idSerialHi => 0x110
  | .idCap => 0x118
  | .time => 0x120
  | .clkStat => 0x128
  | .engStat => 0x100
  | .engCmd => 0x108
  | .engSeq => 0x110
  | .engTrap => 0x118

/-- How many 64-bit words the register covers (MB_BUF and PAT_RDWIN are arrays, R495, R496). -/
def Reg.words : Reg → Nat
  | .mbBuf => 384
  | .patRdwin => 8
  | _ => 1

/-- The fields of a register; the bits of no field are RSV (00 R9). -/
def Reg.flds : Reg → List Fld
  | .armCap => [Fld.armCap_phys, Fld.armCap_positions, Fld.armCap_maxEngines]
  | .armStat => [Fld.armStat_healthy, Fld.armStat_mapped, Fld.armStat_spares, Fld.armStat_engines, Fld.armStat_state, Fld.armStat_short]
  | .armFree => [Fld.armFree_free, Fld.armFree_largest]
  | .armEngines => [Fld.armEngines_formed]
  | .armReqAddr => [Fld.armReqAddr_image]
  | .armReqCtl => [Fld.armReqCtl_context, Fld.armReqCtl_mode, Fld.armReqCtl_full, Fld.armReqCtl_go]
  | .armReqMask => [Fld.armReqMask_engines]
  | .armResAddr => [Fld.armResAddr_record]
  | .armReqStat => [Fld.armReqStat_busy, Fld.armReqStat_done, Fld.armReqStat_status, Fld.armReqStat_index]
  | .armQpol => [Fld.armQpol_ceThreshold, Fld.armQpol_ceWindow, Fld.armQpol_migrate]
  | .armQcount => [Fld.armQcount_quarantined, Fld.armQcount_migrations, Fld.armQcount_hard]
  | .armQlog => [Fld.armQlog_cell, Fld.armQlog_trigger, Fld.armQlog_engine, Fld.armQlog_migrated, Fld.armQlog_time]
  | .armMapIdx => [Fld.armMapIdx_position]
  | .armMapData => [Fld.armMapData_cell, Fld.armMapData_mapped, Fld.armMapData_engine, Fld.armMapData_occupied]
  | .relCap => [Fld.relCap_bankKib, Fld.relCap_blocks, Fld.relCap_lanes, Fld.relCap_recipes]
  | .relStat => [Fld.relStat_inService, Fld.relStat_poisoned, Fld.relStat_lost]
  | .relErrcnt => [Fld.relErrcnt_corrected, Fld.relErrcnt_uncorr]
  | .relPlog => [Fld.relPlog_position, Fld.relPlog_granule, Fld.relPlog_cause, Fld.relPlog_time]
  | .relBlkIdx => [Fld.relBlkIdx_block]
  | .relBlkData => [Fld.relBlkData_context, Fld.relBlkData_claimed, Fld.relBlkData_resident]
  | .ccCap => [Fld.ccCap_sizeKib, Fld.ccCap_ways, Fld.ccCap_line, Fld.ccCap_storebuf]
  | .ccCtl => [Fld.ccCtl_holdMin]
  | .ccStat => [Fld.ccStat_upgrades, Fld.ccStat_held, Fld.ccStat_deferred]
  | .ccCntSnoop => [Fld.ccCntSnoop_snoops, Fld.ccCntSnoop_delayed]
  | .ccCntStale => [Fld.ccCntStale_misses, Fld.ccCntStale_reclaims]
  | .ccCntRsv => [Fld.ccCntRsv_scOk, Fld.ccCntRsv_scFail]
  | .ccErr => [Fld.ccErr_corrected, Fld.ccErr_uncorrClean, Fld.ccErr_uncorrDirty]
  | .syncCap => [Fld.syncCap_counters, Fld.syncCap_barriers, Fld.syncCap_rounds]
  | .syncWd => [Fld.syncWd_engMs, Fld.syncWd_barMs]
  | .syncMapinv => [Fld.syncMapinv_context, Fld.syncMapinv_go]
  | .sigIdx => [Fld.sigIdx_counter]
  | .sigData => [Fld.sigData_value, Fld.sigData_sat]
  | .barIdx => [Fld.barIdx_unit]
  | .barMask => [Fld.barMask_mask]
  | .barStat => [Fld.barStat_round, Fld.barStat_open, Fld.barStat_arrived, Fld.barStat_stalled, Fld.barStat_lost]
  | .barCtl => [Fld.barCtl_reset]
  | .syncCnt => [Fld.syncCnt_satEvents, Fld.syncCnt_engWd, Fld.syncCnt_barWd]
  | .monCap => [Fld.monCap_slots]
  | .monIdx => [Fld.monIdx_slot]
  | .monOwner => [Fld.monOwner_partition, Fld.monOwner_assigned]
  | .monData => [Fld.monData_bound, Fld.monData_host, Fld.monData_armed, Fld.monData_waiters, Fld.monData_context]
  | .monAddr => [Fld.monAddr_addr]
  | .monArmAddr => [Fld.monArmAddr_addr]
  | .monArmTarget => [Fld.monArmTarget_target]
  | .monArmCtl => [Fld.monArmCtl_slot, Fld.monArmCtl_context, Fld.monArmCtl_source, Fld.monArmCtl_go]
  | .fsAnom => [Fld.fsAnom_anomalies, Fld.fsAnom_saturations, Fld.fsAnom_conflicts]
  | .fsAnomrec => [Fld.fsAnomrec_context, Fld.fsAnomrec_origin, Fld.fsAnomrec_time]
  | .fsAnomaddr => [Fld.fsAnomaddr_addr]
  | .objCmd => [Fld.objCmd_id, Fld.objCmd_arena, Fld.objCmd_op, Fld.objCmd_go]
  | .objArg => [Fld.objArg_arg]
  | .objStat => [Fld.objStat_busy, Fld.objStat_done, Fld.objStat_status, Fld.objStat_step]
  | .objIdx => [Fld.objIdx_context, Fld.objIdx_arena, Fld.objIdx_queue, Fld.objIdx_dbpage, Fld.objIdx_frame]
  | .ctxStat => [Fld.ctxStat_state, Fld.ctxStat_partition, Fld.ctxStat_queues, Fld.ctxStat_ringEntries, Fld.ctxStat_engines]
  | .qStat => [Fld.qStat_state, Fld.qStat_overrun, Fld.qStat_context, Fld.qStat_pending]
  | .dbOwner => [Fld.dbOwner_context, Fld.dbOwner_bound, Fld.dbOwner_partition, Fld.dbOwner_assigned]
  | .arnStat => [Fld.arnStat_cursor, Fld.arnStat_full, Fld.arnStat_lowhit]
  | .frameData => [Fld.frameData_partition, Fld.frameData_owned, Fld.frameData_state]
  | .abtReq => [Fld.abtReq_queue, Fld.abtReq_whole, Fld.abtReq_go]
  | .abtSeq => [Fld.abtSeq_seq]
  | .abtStat => [Fld.abtStat_busy, Fld.abtStat_done, Fld.abtStat_result, Fld.abtStat_aborted]
  | .atuCap => [Fld.atuCap_atc, Fld.atuCap_dtlb, Fld.atuCap_prgTags, Fld.atuCap_minLog2, Fld.atuCap_prefetch]
  | .atuCtl => [Fld.atuCtl_priTimeoutMs, Fld.atuCtl_source, Fld.atuCtl_sourceEn]
  | .atuStat => [Fld.atuStat_atcValid, Fld.atuStat_locked, Fld.atuStat_prgOut]
  | .atuFltAddr => [Fld.atuFltAddr_addr]
  | .atuFltInfo => [Fld.atuFltInfo_context, Fld.atuFltInfo_agent, Fld.atuFltInfo_outcome, Fld.atuFltInfo_time]
  | .atuCntAts => [Fld.atuCntAts_requests, Fld.atuCntAts_prefetch]
  | .atuCntPri => [Fld.atuCntPri_groups, Fld.atuCntPri_coalesced]
  | .atuCntInv => [Fld.atuCntInv_host, Fld.atuCntInv_device]
  | .atuErrCnt => [Fld.atuErrCnt_small, Fld.atuErrCnt_failed, Fld.atuErrCnt_timeout, Fld.atuErrCnt_queue]
  | .xlInvAddr => [Fld.xlInvAddr_addr]
  | .xlInvCtl => [Fld.xlInvCtl_context, Fld.xlInvCtl_all, Fld.xlInvCtl_countM1, Fld.xlInvCtl_go]
  | .xlInvStat => [Fld.xlInvStat_busy, Fld.xlInvStat_done]
  | .xlAptCtl => [Fld.xlAptCtl_context, Fld.xlAptCtl_index, Fld.xlAptCtl_op, Fld.xlAptCtl_go]
  | .xlAptStat => [Fld.xlAptStat_busy, Fld.xlAptStat_done, Fld.xlAptStat_status, Fld.xlAptStat_locked, Fld.xlAptStat_state]
  | .tlbCap => [Fld.tlbCap_entries, Fld.tlbCap_walkcache]
  | .tlbCnt => [Fld.tlbCnt_misses, Fld.tlbCnt_walks]
  | .tlbErr => [Fld.tlbErr_missing, Fld.tlbErr_badEntry, Fld.tlbErr_poison]
  | .plCap => [Fld.plCap_ports, Fld.plCap_vfs, Fld.plCap_hlcKib, Fld.plCap_chisel, Fld.plCap_watchers]
  | .plCtl => [Fld.plCtl_dlaHoldMin, Fld.plCtl_routeShift]
  | .plStat => [Fld.plStat_portUp, Fld.plStat_linkUp, Fld.plStat_outbound, Fld.plStat_watching]
  | .hpErr => [Fld.hpErr_replays, Fld.hpErr_retrains, Fld.hpErr_poisonRx, Fld.hpErr_refused]
  | .plCntHlc => [Fld.plCntHlc_hits, Fld.plCntHlc_misses]
  | .winCtl => [Fld.winCtl_context, Fld.winCtl_en]
  | .winBase => [Fld.winBase_base]
  | .winStat => [Fld.winStat_active, Fld.winStat_err, Fld.winStat_cause]
  | .winErraddr => [Fld.winErraddr_offset, Fld.winErraddr_time]
  | .winCnt => [Fld.winCnt_reads, Fld.winCnt_writes]
  | .qfErrinfo => [Fld.qfErrinfo_queue, Fld.qfErrinfo_cause, Fld.qfErrinfo_time]
  | .qfErrseq => [Fld.qfErrseq_seq]
  | .qfCnt => [Fld.qfCnt_commands, Fld.qfCnt_bad]
  | .chCap => [Fld.chCap_class, Fld.chCap_streams, Fld.chCap_rateGbps]
  | .chStat => [Fld.chStat_active, Fld.chStat_faulted]
  | .chSidx => [Fld.chSidx_stream]
  | .chScmd => [Fld.chScmd_queue, Fld.chScmd_context, Fld.chScmd_valid]
  | .chSseq => [Fld.chSseq_seq]
  | .chSprog => [Fld.chSprog_progress]
  | .chCnt => [Fld.chCnt_bytes]
  | .chErr => [Fld.chErr_poison, Fld.chErr_prot, Fld.chErr_unresolved]
  | .tsCap => [Fld.tsCap_rotation]
  | .tsCtl => [Fld.tsCtl_quantumUs]
  | .tsStat => [Fld.tsStat_resident, Fld.tsStat_waiting, Fld.tsStat_switching]
  | .tsIdx => [Fld.tsIdx_context]
  | .tsCtx => [Fld.tsCtx_state, Fld.tsCtx_work, Fld.tsCtx_unsliced, Fld.tsCtx_runs]
  | .tsCtxeng => [Fld.tsCtxeng_engines]
  | .tsCnt => [Fld.tsCnt_switches, Fld.tsCnt_preempts]
  | .tsLast => [Fld.tsLast_durationNs, Fld.tsLast_time]
  | .csCtl => [Fld.csCtl_quantumUs]
  | .csStat => [Fld.csStat_saved, Fld.csStat_ready, Fld.csStat_faulted]
  | .csCnt => [Fld.csCnt_preempts, Fld.csCnt_resumes]
  | .fabCap => [Fld.fabCap_ports, Fld.fabCap_lanes, Fld.fabCap_vls, Fld.fabCap_jobs, Fld.fabCap_rings]
  | .fabId => [Fld.fabId_devid]
  | .fabCtl => [Fld.fabCtl_storeWdMs, Fld.fabCtl_retxUs, Fld.fabCtl_unreachMs, Fld.fabCtl_en]
  | .fabStat => [Fld.fabStat_portUp, Fld.fabStat_unacked]
  | .fabCnt => [Fld.fabCnt_tx, Fld.fabCnt_rx]
  | .fabErr => [Fld.fabErr_resent, Fld.fabErr_auth, Fld.fabErr_dropped, Fld.fabErr_dead]
  | .fabPortIdx => [Fld.fabPortIdx_port]
  | .fabPortCtl => [Fld.fabPortCtl_en, Fld.fabPortCtl_dateline]
  | .fabPortStat => [Fld.fabPortStat_state, Fld.fabPortStat_noisy, Fld.fabPortStat_replays, Fld.fabPortStat_downs]
  | .fabRtIdx => [Fld.fabRtIdx_entry, Fld.fabRtIdx_low]
  | .fabRtData => [Fld.fabRtData_ports, Fld.fabRtData_pair]
  | .fjIdx => [Fld.fjIdx_slot]
  | .fjCtl => [Fld.fjCtl_jobid, Fld.fjCtl_context, Fld.fjCtl_rank, Fld.fjCtl_txkey, Fld.fjCtl_bound]
  | .fjPeers => [Fld.fjPeers_base, Fld.fjPeers_count]
  | .fjStat => [Fld.fjStat_keys, Fld.fjStat_dead]
  | .frIdx => [Fld.frIdx_ring]
  | .frCtl => [Fld.frCtl_slot, Fld.frCtl_log2Entries, Fld.frCtl_en]
  | .frBase => [Fld.frBase_addr]
  | .frTail => [Fld.frTail_addr]
  | .frHead => [Fld.frHead_addr]
  | .frStat => [Fld.frStat_state, Fld.frStat_inflight]
  | .memCap => [Fld.memCap_stacks, Fld.memCap_pch, Fld.memCap_stackGib, Fld.memCap_usableGib, Fld.memCap_tcacheKib]
  | .memCtl => [Fld.memCtl_wide, Fld.memCtl_scrubGbps]
  | .memStat => [Fld.memStat_trained, Fld.memStat_ready, Fld.memStat_scrubbing]
  | .memScrubCnt => [Fld.memScrubCnt_frames, Fld.memScrubCnt_lastUs]
  | .hmCap => [Fld.hmCap_pch, Fld.hmCap_spares, Fld.hmCap_tcacheKib, Fld.hmCap_keyslots]
  | .hmStat => [Fld.hmStat_trained, Fld.hmStat_failed, Fld.hmStat_spared, Fld.hmStat_sparesUsed, Fld.hmStat_tempC, Fld.hmStat_keys]
  | .hmErrcnt => [Fld.hmErrcnt_corrected, Fld.hmErrcnt_uncorr, Fld.hmErrcnt_tagfail]
  | .hmPlog => [Fld.hmPlog_line, Fld.hmPlog_cause, Fld.hmPlog_time]
  | .hmPoisoned => [Fld.hmPoisoned_count]
  | .hmTcCnt => [Fld.hmTcCnt_hits, Fld.hmTcCnt_misses]
  | .hmDirCnt => [Fld.hmDirCnt_reclaims, Fld.hmDirCnt_blocked]
  | .hmLaneIdx => [Fld.hmLaneIdx_pch]
  | .hmLaneData => [Fld.hmLaneData_spare0, Fld.hmLaneData_spare0Used, Fld.hmLaneData_spare1, Fld.hmLaneData_spare1Used, Fld.hmLaneData_worstLane, Fld.hmLaneData_worstCe]
  | .icCap => [Fld.icCap_sources, Fld.icCap_harts, Fld.icCap_pfVectors, Fld.icCap_vfVectors]
  | .icStat => [Fld.icStat_misroute, Fld.icStat_notarget]
  | .icSrcIdx => [Fld.icSrcIdx_source]
  | .icSrcCtl => [Fld.icSrcCtl_en, Fld.icSrcCtl_mask, Fld.icSrcCtl_coalN, Fld.icSrcCtl_coalTUs, Fld.icSrcCtl_func]
  | .icSrcTgt => [Fld.icSrcTgt_harts, Fld.icSrcTgt_vecBase, Fld.icSrcTgt_vecN, Fld.icSrcTgt_last, Fld.icSrcTgt_lastValid]
  | .icSrcStat => [Fld.icSrcStat_count, Fld.icSrcStat_ovf, Fld.icSrcStat_asserted, Fld.icSrcStat_inservice, Fld.icSrcStat_masked, Fld.icSrcStat_condition]
  | .icAck => [Fld.icAck_source, Fld.icAck_n]
  | .icRaise => [Fld.icRaise_source]
  | .icHartIdx => [Fld.icHartIdx_hart]
  | .icHartCtl => [Fld.icHartCtl_en, Fld.icHartCtl_mask, Fld.icHartCtl_sleep, Fld.icHartCtl_queued]
  | .icClaim => [Fld.icClaim_source, Fld.icClaim_valid]
  | .secCap => [Fld.secCap_partitions, Fld.secCap_castSlots, Fld.secCap_mailboxes]
  | .secStat => [Fld.secStat_run, Fld.secStat_recovery, Fld.secStat_production, Fld.secStat_debugFused, Fld.secStat_ideCache, Fld.secStat_fwVersion]
  | .partIdx => [Fld.partIdx_partition]
  | .partData => [Fld.partData_cores, Fld.partData_exists, Fld.partData_confidential, Fld.partData_debug, Fld.partData_requireSigned, Fld.partData_tdisp, Fld.partData_ideIo, Fld.partData_keys, Fld.partData_anchors, Fld.partData_casts]
  | .mbCmd => [Fld.mbCmd_op, Fld.mbCmd_len, Fld.mbCmd_go]
  | .mbStat => [Fld.mbStat_busy, Fld.mbStat_done, Fld.mbStat_status, Fld.mbStat_rlen]
  | .mbBuf => [Fld.mbBuf_data]
  | .patCtl => [Fld.patCtl_mirror]
  | .patMbase => [Fld.patMbase_base]
  | .patSeq => [Fld.patSeq_seq]
  | .patMseq => [Fld.patMseq_mirrored]
  | .patLost => [Fld.patLost_lost]
  | .patChainLo => [Fld.patChainLo_chain]
  | .patChainHi => [Fld.patChainHi_chain]
  | .patRdidx => [Fld.patRdidx_index]
  | .patRdwin => [Fld.patRdwin_entry]
  | .castIdx => [Fld.castIdx_slot]
  | .castStat => [Fld.castStat_state, Fld.castStat_first, Fld.castStat_frames, Fld.castStat_admit, Fld.castStat_failed, Fld.castStat_overflow]
  | .castIdLo => [Fld.castIdLo_id]
  | .castIdHi => [Fld.castIdHi_id]
  | .castRcnt => [Fld.castRcnt_recasts, Fld.castRcnt_fails, Fld.castRcnt_pending]
  | .pwrCap => [Fld.pwrCap_capW, Fld.pwrCap_prio0, Fld.pwrCap_prio1, Fld.pwrCap_prio2]
  | .pwrStat => [Fld.pwrStat_powerW, Fld.pwrStat_point, Fld.pwrStat_duty, Fld.pwrStat_throttle, Fld.pwrStat_tripped, Fld.pwrStat_standby]
  | .pwrAlloc => [Fld.pwrAlloc_linksW, Fld.pwrAlloc_memoryW, Fld.pwrAlloc_computeW]
  | .pwrEnergy => [Fld.pwrEnergy_energyUj]
  | .pwrThr => [Fld.pwrThr_events, Fld.pwrThr_timeUs]
  | .pwrCtl => [Fld.pwrCtl_standby]
  | .thLimits => [Fld.thLimits_dieThr, Fld.thLimits_dieTrip, Fld.thLimits_stkThr, Fld.thLimits_stkTrip]
  | .thIdx => [Fld.thIdx_sensor]
  | .thData => [Fld.thData_tempC, Fld.thData_maxC]
  | .thStat => [Fld.thStat_hottestC, Fld.thStat_hottestIdx, Fld.thStat_dieThrottling, Fld.thStat_stkThrottling, Fld.thStat_tripIdx]
  | .pwrCtxIdx => [Fld.pwrCtxIdx_context]
  | .pwrCtxEn => [Fld.pwrCtxEn_energyUj, Fld.pwrCtxEn_sharedSeen]
  | .pwrCtxSh => [Fld.pwrCtxSh_sharedUj]
  | .islCtl => [Fld.islCtl_droopPct]
  | .islDroop => [Fld.islDroop_trips, Fld.islDroop_stretched]
  | .islFault => [Fld.islFault_timeouts, Fld.islFault_selfcheck]
  | .rstCtl => [Fld.rstCtl_full, Fld.rstCtl_key]
  | .rstCause => [Fld.rstCause_cause, Fld.rstCause_starts]
  | .startStat => [Fld.startStat_step, Fld.startStat_ready, Fld.startStat_recovery, Fld.startStat_failStep, Fld.startStat_durationMs]
  | .hlCtl => [Fld.hlCtl_cplTimeoutMs]
  | .hlStat => [Fld.hlStat_down, Fld.hlStat_lostCmds, Fld.hlStat_lastDownUs]
  | .supCtl => [Fld.supCtl_limitMs]
  | .fatalStat => [Fld.fatalStat_fatal, Fld.fatalStat_cause, Fld.fatalStat_detail, Fld.fatalStat_time]
  | .health => [Fld.health_state, Fld.health_short, Fld.health_noSpares, Fld.health_lanes, Fld.health_noisy, Fld.health_repeat]
  | .bistStat => [Fld.bistStat_cells, Fld.bistStat_banks, Fld.bistStat_extended, Fld.bistStat_shared]
  | .idPart => [Fld.idPart_part, Fld.idPart_stepping]
  | .idSerialLo => [Fld.idSerialLo_serial]
  | .idSerialHi => [Fld.idSerialHi_serial]
  | .idCap => [Fld.idCap_cores, Fld.idCap_engines, Fld.idCap_cells, Fld.idCap_stacks, Fld.idCap_hostPorts, Fld.idCap_fabPorts]
  | .time => [Fld.time_count]
  | .clkStat => [Fld.clkStat_kpLock, Fld.clkStat_kcLock, Fld.clkStat_fabLock]
  | .engStat => [Fld.engStat_formed, Fld.engStat_state, Fld.engStat_sizeLog2, Fld.engStat_origin, Fld.engStat_context]
  | .engCmd => [Fld.engCmd_queue, Fld.engCmd_valid]
  | .engSeq => [Fld.engSeq_seq]
  | .engTrap => [Fld.engTrap_code, Fld.engTrap_cell, Fld.engTrap_pc]

/-- The registers of a page kind. -/
def PageKind.regs : PageKind → List Reg
  | .identity => [.idPart, .idSerialLo, .idSerialHi, .idCap, .time, .clkStat]
  | .reset => [.rstCtl, .rstCause, .startStat, .hlCtl, .hlStat, .supCtl, .fatalStat, .health, .bistStat]
  | .plinth => [.plCap, .plCtl, .plStat, .hpErr, .plCntHlc]
  | .function => [.winCtl, .winBase, .winStat, .winErraddr, .winCnt]
  | .atu => [.atuCap, .atuCtl, .atuStat, .atuFltAddr, .atuFltInfo, .atuCntAts, .atuCntPri, .atuCntInv, .atuErrCnt]
  | .chisel => [.chCap, .chStat, .chSidx, .chScmd, .chSseq, .chSprog, .chCnt, .chErr]
  | .objects => [.objCmd, .objArg, .objStat, .objIdx, .ctxStat, .qStat, .dbOwner, .arnStat, .frameData]
  | .abort => [.abtReq, .abtSeq, .abtStat]
  | .xlat => [.xlInvAddr, .xlInvCtl, .xlInvStat, .xlAptCtl, .xlAptStat]
  | .queueFetch => [.qfErrinfo, .qfErrseq, .qfCnt]
  | .chiselSlicing => [.csCtl, .csStat, .csCnt]
  | .monitor => [.monCap, .monIdx, .monOwner, .monData, .monAddr, .monArmAddr, .monArmTarget, .monArmCtl, .fsAnom, .fsAnomrec, .fsAnomaddr]
  | .ic => [.icCap, .icStat, .icSrcIdx, .icSrcCtl, .icSrcTgt, .icSrcStat, .icAck, .icRaise, .icHartIdx, .icHartCtl, .icClaim]
  | .security => [.secCap, .secStat, .partIdx, .partData]
  | .patina => [.patCtl, .patMbase, .patSeq, .patMseq, .patLost, .patChainLo, .patChainHi, .patRdidx, .patRdwin]
  | .cast => [.castIdx, .castStat, .castIdLo, .castIdHi, .castRcnt]
  | .mailbox => [.mbCmd, .mbStat, .mbBuf]
  | .power => [.pwrCap, .pwrStat, .pwrAlloc, .pwrEnergy, .pwrThr, .pwrCtl]
  | .thermal => [.thLimits, .thIdx, .thData, .thStat]
  | .ctxEnergy => [.pwrCtxIdx, .pwrCtxEn, .pwrCtxSh]
  | .fabric => [.fabCap, .fabId, .fabCtl, .fabStat, .fabCnt, .fabErr, .fabPortIdx, .fabPortCtl, .fabPortStat, .fabRtIdx, .fabRtData]
  | .jobs => [.fjIdx, .fjCtl, .fjPeers, .fjStat, .frIdx, .frCtl, .frBase, .frTail, .frHead, .frStat]
  | .extMem => [.memCap, .memCtl, .memStat, .memScrubCnt]
  | .home => [.hmCap, .hmStat, .hmErrcnt, .hmPlog, .hmPoisoned, .hmTcCnt, .hmDirCnt, .hmLaneIdx, .hmLaneData]
  | .armature => [.armCap, .armStat, .armFree, .armEngines, .armReqAddr, .armReqCtl, .armReqMask, .armResAddr, .armReqStat, .armQpol, .armQcount, .armQlog, .armMapIdx, .armMapData]
  | .relief => [.relCap, .relStat, .relErrcnt, .relPlog, .relBlkIdx, .relBlkData]
  | .coreCache => [.ccCap, .ccCtl, .ccStat, .ccCntSnoop, .ccCntStale, .ccCntRsv, .ccErr]
  | .sync => [.syncCap, .syncWd, .syncMapinv, .sigIdx, .sigData, .barIdx, .barMask, .barStat, .barCtl, .syncCnt]
  | .tlb => [.tlbCap, .tlbCnt, .tlbErr]
  | .slicing => [.tsCap, .tsCtl, .tsStat, .tsIdx, .tsCtx, .tsCtxeng, .tsCnt, .tsLast]
  | .islands => [.islCtl, .islDroop, .islFault]
  | .engine => [.engStat, .engCmd, .engSeq, .engTrap]
  | .msix => []

/-- The register that covers an offset of a page of the kind. -/
def PageKind.regAt (k : PageKind) (off : Nat) : Option Reg :=
  k.regs.find? fun r => decide (r.off ≤ off) && decide (off < r.off + 8 * r.words)

/-- The word a register holds after a full reset: the Reset column (00 R9). -/
def Reg.resetWord (r : Reg) : Word := Word.ofNat ((r.flds.map fun f => f.at f.reset).sum)

/-- The word at a BAR0 byte offset after a full reset. Key: page × 0x1000 + offset, plus 0x2000000 × f for the copy of function f (19 R559, 09 R567). -/
def regDefault (key : Nat) : Word :=
  let k := key % 0x2000000
  if k % 0x1000 = 0x010 then 1
  else
    match pageOf (k / 0x1000) with
    | none => 0
    | some (pk, _) =>
      match pk.regAt (k % 0x1000) with
      | none => 0
      | some r => r.resetWord

end Sys2Proof.Machine
end

