-- ==== Sys2Proof/Machine/State.lean ====
section
/-! DEFINITION. The state of the complex as plain data, the reasons a step can stop, and the state after reset. -/

namespace Sys2Proof.Machine

/-- Why the machine would stop with a fault. No command of this model raises it: what the spec calls an error is a state the complex goes on from (00 R8, 05 R171, 18 R525). -/
inductive Fault where
  /-- Raised by nothing; an inductive needs a constructor. Safe. -/
  | none
  deriving DecidableEq, Repr

/-- Why a command is refused. -/
inductive Refusal where
  /-- The command has no meaning in the model yet, by its mnemonic; raised by its arm of `exec` alone. Safe: nothing can be proved of a step that did not happen. -/
  | notModelled (mnemonic : String)
  deriving DecidableEq, Repr

/-- A frame of device memory (09 R274): 0 FREE, 1 OWNED, 2 SCRUBBING, 3 CAST, 4 FIRMWARE; while SCRUBBING, the state, partition and key it will take. -/
structure Frame where
  state : Nat := 0
  part : Nat := 0
  /-- The state after the scrub. -/
  next : Nat := 0
  deriving DecidableEq, Repr

/-! ## Patina, interrupts, outbound streams (16 R488 to R491, 15 R447 to R459, 07 R227) -/

/-- A Patina entry (16 R489). -/
structure PatEntry where
  seq : Nat
  time : Nat
  kind : Nat
  origin : Nat
  part : Nat
  flags : Nat
  subject : Nat
  addr : Nat
  data : Nat
  chain : BitVec 128
  deriving DecidableEq, Repr

/-- The Patina log (16 R490, R491): the newest 65,536 entries by index, how many were written and mirrored, the newest CHAIN, and whether a mirroring gap waits to be recorded. -/
structure Patina where
  entries : SMap PatEntry
  count : Nat
  mirrored : Nat
  chain : BitVec 128
  gap : Bool
  deriving DecidableEq, Repr

/-- An interrupt source (15 R447 to R461). -/
structure IrqSource where
  count : Nat := 0
  ovf : Bool := false
  inService : Bool := false
  en : Bool := false
  mask : Bool := false
  coalN : Nat := 0
  coalT : Nat := 0
  func : Nat := 0
  harts : Nat := 0
  vecBase : Nat := 0
  vecN : Nat := 0
  last : Nat := 0
  lastValid : Bool := false
  /-- The coalescing timer runs (R453). -/
  timer : Bool := false
  /-- The coalescing time has passed since the timer started (R453). -/
  due : Bool := false
  /-- IC_STAT.NOTARGET has recorded that no target was enabled (R454). -/
  noTarget : Bool := false
  /-- IC_SRC_STAT.MASKED (R457). -/
  masked : Bool := false
  /-- A fixed source's condition was present when last judged (R448). -/
  cond : Bool := false
  deriving DecidableEq, Repr

/-- A management-processor hart as a target (15 R456, R461): the delivery queue, oldest first. -/
structure Hart where
  en : Bool := false
  mask : Bool := false
  sleep : Bool := false
  queue : List Nat := []
  deriving DecidableEq, Repr

/-- An MSI-X table entry with its pending bit (15 R455, R459). -/
structure MsixEntry where
  addr : Nat := 0
  data : Nat := 0
  masked : Bool := true
  pending : Bool := false
  deriving DecidableEq, Repr

/-- The configuration space of a function: the bits that other rules read, the BAR bases and the host's page request allocation (11 R340, R342, R343, 15 R454, 10 R324, R326). -/
structure FuncCfg where
  msixEnable : Bool := false
  funcMask : Bool := false
  atsEnable : Bool := false
  priEnable : Bool := false
  priFailure : Bool := false
  /-- The host's page request allocation: how many requests may be outstanding (10 R326). -/
  priAlloc : Nat := 0
  /-- The base addresses in BAR0, BAR2 and BAR4 (11 R342). -/
  bar0 : Nat := 0
  bar2 : Nat := 0
  bar4 : Nat := 0
  deriving DecidableEq, Repr

/-- A message toward the host (07 R227, 10 R318, R320, R323, 19 R554). -/
inductive OutMsg where
  /-- A write of bytes to host memory at a host physical address, or at a host virtual address of a PASID. -/
  | write (pasid : Option Nat) (addr : Nat) (data : List Byte) (poison : Bool := false)
  /-- CleanEvictNoData of a host line: the host-line cache no longer holds it (11 R340). -/
  | cleanEvict (addr : Nat)
  /-- An MSI-X message: the entry's data, written to its address. -/
  | msix (addr data : Nat)
  /-- An ATS translation request. -/
  | atsReq (pasid va : Nat)
  /-- An ATS invalidation completion. -/
  | atsInvDone (pasid va : Nat)
  /-- A page request group. -/
  | pageReq (tag pasid va : Nat) (read write : Bool)
  deriving DecidableEq, Repr

/-- The host physical address that a message is sent to, for a write to host memory (07 R227). -/
def OutMsg.target : OutMsg → Option Nat
  | .write _ a _ _ => some a
  | .msix a _ => some a
  | _ => none

/-- A message toward the host with the port that carries it: for a request to a host physical address, the port of that address (11 R339). -/
structure OutReq where
  msg : OutMsg
  port : Option Nat
  deriving DecidableEq, Repr

/-! ## Board, power and start-up (17, 18, 19) -/

/-- A temperature sensor: latest and highest reading (17 R512, R521). -/
structure Sensor where
  now : Nat := 0
  max : Nat := 0
  deriving DecidableEq, Repr

/-- A fatal or link-loss record of package flash (18 R538 FATAL_READ, R530). -/
structure FatalRec where
  start : Nat
  cause : Nat
  detail : Nat
  time : Nat
  seq : Nat
  deriving DecidableEq, Repr

/-- The integrator's configuration record (19 R556), as far as start-up uses it: whether its DIGEST matches, WIDE, ROUTE_SHIFT and the number of rails. -/
structure CfgRecord where
  valid : Bool := true
  wide : Nat := 960
  routeShift : Nat := 12
  rails : Nat := 27
  deriving DecidableEq, Repr

/-- A flash write in progress (18 R529, R558): a firmware image, quarantine entries to clear, or a record. -/
inductive FlashWrite where
  | image (bytes : List Byte) (raiseFloor : Bool)
  | quarantine (cells : List Nat)
  | fatal (r : FatalRec)
  deriving DecidableEq, Repr

/-- What survives a full reset (18 R529): fuses and package flash (19 R555, R556, 02 R32, R33). -/
structure Flash where
  image : List Byte
  cfg : CfgRecord
  /-- The quarantine record: 512 × core + physical cell. -/
  quarantine : List Nat
  fatals : List FatalRec
  starts : Nat
  extBist : Bool
  /-- Cells fused at manufacture: 512 × core + physical cell. -/
  fusedCells : List Nat
  production : Bool
  debugFused : Bool
  tapFused : Bool
  svnFloor : Nat
  /-- Flash writes in progress, oldest first. -/
  writing : List FlashWrite
  /-- THERM_TRIP_N is driven low: it is on VDD_AON and is released only at the end of the next full reset (19 R552). -/
  thermTrip : Bool
  deriving DecidableEq, Repr

/-- The state of a PLDM firmware update (18 R536, R537, DSP0267). -/
inductive PldmState where
  | idle | learn | ready | download | verify | apply | activate
  deriving DecidableEq, Repr

/-- The pins, clocks, power and start-up state that no register holds. -/
structure Board where
  pwrGood : Bool := true
  /-- Reference clocks that lost lock: bit 0 REFCLK_KP, bits 1 to 4 REFCLK_KCn, bit 5 FAB_REFCLK (19 R548). -/
  clkLost : Nat := 0
  thrReq : Nat := 0
  thrAck : Nat := 0
  /-- REQ of die n has been asserted for more than 10 ms (17 R506). -/
  thrLong : Nat := 0
  /-- Dies whose arrays are stopped (17 R504, R514, 18 R525). -/
  arraysStopped : Nat := 0
  sensors : SMap Sensor := []
  /-- Island detectors that are tripped (17 R501), by island key. -/
  droop : List Nat := []
  /-- Edges stretched since the last thousand was counted, per core (17 R523). -/
  stretched : SMap Nat := []
  /-- Consecutive samples a rail answered no read (19 R553). -/
  railSilent : SMap Nat := []
  /-- The last valid reading of each rail, in microjoules per sample. -/
  railLast : SMap Nat := []
  /-- A KC or KR die, or a stack, is above its limit and has not yet cooled by 5 °C (17 R513). -/
  dieHot : Bool := false
  stkHot : Bool := false
  /-- The homes' pacing limit, in sixteenths of full (17 R513). -/
  stackPace : Nat := 16
  linksPaced : Bool := false
  /-- The pacing settings of links and memory that the cap allows, in sixteenths of full activity (17 R510). -/
  linkPace : Nat := 16
  memPace : Nat := 16
  /-- Nanoseconds with some REQ asserted since the last whole microsecond (17 R520). -/
  thrNs : Nat := 0
  /-- The operating point that the cap allows (17 R510). -/
  capPoint : Nat := 0
  /-- The newest 100 energy samples in microjoules: the last 1 ms (17 R520 POWER_W). -/
  recent : List Nat := []
  /-- Contexts that have been resident since the newest energy sample (17 R516). -/
  seen : List Nat := []
  /-- The cause of a full reset that waits for a flash write (18 R529). -/
  resetPend : Option Nat := none
  /-- The operating point is at least this while a die throttles (17 R513). -/
  thermSteps : Nat := 0
  /-- Link-down interval: the ports that are down. -/
  portsDown : Nat := 15
  /-- The time counter when the host link went down (18 R542). -/
  downAt : Nat := 0
  tapOpen : Bool := false
  i3cAddr : Nat := 0
  /-- In-band interrupts raised on the sideband (19 R554). -/
  ibis : Nat := 0
  /-- HEALTH.STATE when it was last seen (19 R554). -/
  lastHealth : Nat := 0
  /-- The staged firmware image (18 R538). -/
  staged : Option (List Byte) := none
  pldm : PldmState := .idle
  pldmLen : Nat := 0
  pldmData : List Byte := []
  fwVersion : Nat := 0
  fwSvn : Nat := 0
  fwDigest : BitVec 384 := 0
  deriving DecidableEq, Repr
/-! ## Partitions, Casts, conversations (16) -/

/-- A partition: its policy and its function's TDISP and IDE state (16 R462, R466, R476). It exists while its core mask is not zero (R464). -/
structure Partition where
  cores : Nat := 0
  requireSigned : Bool := false
  debug : Bool := false
  confidential : Bool := false
  keys : List (Nat × Nat) := []
  anchors : List (BitVec 384) := []
  /-- 0 CONFIG_UNLOCKED, 1 CONFIG_LOCKED, 2 RUN, 3 ERROR (R494). -/
  tdisp : Nat := 0
  ideIo : Bool := false
  deriving DecidableEq, Repr

/-- A Cast slot (16 R480 to R486, R497). -/
structure CastSlot where
  /-- 0 FREE, 1 LOADING, 2 LOADED, 3 UNLOADING. -/
  state : Nat := 0
  first : Nat := 0
  frames : Nat := 0
  admits : Nat := 0
  failed : Bool := false
  overflow : Bool := false
  id : Nat := 0
  signer : BitVec 384 := 0
  imgAddr : Nat := 0
  chunks : Nat := 0
  chunk0 : Nat := 0
  /-- The content key as an identifier for Config's opaque cipher. -/
  key : Nat := 0
  tags : List Nat := []
  deriving DecidableEq, Repr

/-- A Recast in progress or queued: the slot and chunk, whether its step 3 has begun with the content read, and whether new poison asks to queue it again (16 R484, R486). -/
structure RecastJob where
  slot : Nat
  chunk : Nat
  data : Option (List Byte) := none
  again : Bool := false
  deriving DecidableEq, Repr

/-- An SPDM conversation (16 R475, R477). -/
structure Spdm where
  /-- The model's counter of messages answered. -/
  msgs : Nat := 0
  requester : Bool := false
  session : Bool := false
  mutualAuth : Bool := false
  /-- SHA-384 of the authenticated peer's identity public key. -/
  peer : BitVec 384 := 0
  deriving DecidableEq, Repr

/-- What the root of trust holds (16). -/
structure Security where
  parts : SMap Partition
  casts : SMap CastSlot
  recasts : List RecastJob
  /-- Poisoned Cast lines: the partitions that consumed each (16 R483). -/
  consumers : SMap Nat
  spdm : SMap Spdm
  /-- Home key slots loaded (14 R433). -/
  keySlots : Nat
  /-- CXL.cachemem IDE is active. -/
  ideCache : Bool
  deriving DecidableEq, Repr
/-! ## Device memory, caches and banks (07, 14, 06) -/

/-- The states of a line in a caching agent (07 R219). `pending` is invalid but for the early-visible bytes of accepted stores (R209). -/
inductive LineState where
  | pending | shared | exclusive | modified
  deriving DecidableEq, Repr

/-- A line in a core cache or in the device-line agent (07 R209, R219, R222, R226). -/
structure CacheLine where
  st : LineState
  data : Line
  /-- Bytes accepted before ownership (R209). -/
  early : Nat := 0
  held : Bool := false
  poison : Bool := false
  deriving DecidableEq, Repr

/-- A directory entry: the owner as agent + 1 (0 none) and a mask of possible sharers (07 R219). -/
structure DirEntry where
  owner : Nat := 0
  sharers : Nat := 0
  deriving DecidableEq, Repr

/-- A line of the host-line cache (11 R341, 07 R217): `valid` bytes held, `early` bytes accepted before the host granted ownership. -/
structure HostLine where
  data : Line
  valid : Bool
  owned : Bool
  dirty : Bool
  early : Nat
  poison : Bool
  deriving DecidableEq, Repr

/-- The Relief bank of a logical position (06 R174, R198 to R201, 07 R223). -/
structure Bank where
  data : Mem := []
  flags : Word := 0
  /-- Poisoned granules. -/
  poison : SMap Bool := []
  /-- The bank has left service (06 R201). -/
  lost : Bool := false
  /-- Reservation entries, oldest first: reserving cell key and granule. -/
  resv : List (Nat × Nat) := []
  deriving DecidableEq, Repr

/-- A transaction that waits at the home of a line (07 R220, R221): a request for ownership, a load miss, a non-allocating read or write, a cell's atomic by its access, or a piece of a function's window request by its offset. -/
inductive LineReq where
  | own (agent : Nat)
  | shared (agent : Nat) (err : MemErr)
  | read (err : MemErr)
  | write (mask : Word) (data : Line)
  | atomic (c : CellRef) (id : Nat)
  | window (f off : Nat)
  deriving DecidableEq, Repr

/-- A line of a home's tag cache: the carve words of 1 KiB of stack offsets, by ⌊offset / 1,024⌋, and whether it has to be written back (14 R435). The words' POISON bits stand in `MemSys.poison`, their tag bits nowhere (log 20). -/
structure TagLine where
  line : Nat
  dirty : Bool
  deriving DecidableEq, Repr

/-- What a home holds beside its lines: its tag cache, and the corrected errors of each lane since reset, by 64 × pseudo-channel + lane (14 R435, R437, R446 HM_LANE_DATA). -/
structure HomeUnit where
  tags : List TagLine := []
  laneCe : SMap Nat := []
  deriving DecidableEq, Repr

/-- Device memory and the agents that cache it. -/
structure MemSys where
  /-- Bytes by device physical address (14 R425). -/
  dev : Mem
  /-- POISON of a line, by line number (14 R437). -/
  poison : SMap Bool
  /-- Directory, by line number (07 R219). -/
  dir : SMap DirEntry
  /-- Lines of caching agents, by agent × 2^34 + line; agents 0 to 15 are the core caches, 16 the device-line agent. -/
  caches : SMap CacheLine
  /-- Transactions that wait at the home of a line, in order of arrival; the line is blocked while any waits (07 R221). -/
  lineQ : SMap (List LineReq)
  /-- The host-line cache, by host line number. -/
  hlc : SMap HostLine
  /-- Relief banks, by 256 × core + logical position. -/
  banks : SMap Bank
  /-- Frames: state and partition, by frame number (09 R274). -/
  frames : SMap Frame
  /-- Spare lanes in use, by 64 × stack + pseudo-channel: (lane + 1) of spares 41 and 42 (14 R430). -/
  lanes : SMap (Nat × Nat)
  deriving DecidableEq, Repr
/-! ## Cells (02, 04, 05) -/

/-- A tile as an instruction copied it at issue (04 R99, R100, R109): the element descriptor and its companion. -/
structure Tile where
  d : BitVec 128
  comp : BitVec 128
  deriving DecidableEq, Repr

/-- What an asynchronous instruction does, with every operand it took at issue (04 R112 to R128, 06 R184 to R196). -/
inductive AsyncKind where
  | tmma (acc : Nat) (a b : Tile) (init : Bool) (arow : Nat) (sparse : Bool)
  | tacr (acc : Nat) (dd : Tile) (rnd : Rnd) (srule : Nat) (zero : Bool) (arow : Nat) (alpha : Option Nat) (int : Bool)
  | tacw (acc : Nat) (ds : Tile) (mode : Nat) (raw : Bool) (arow : Nat)
  | tacx (accd acca accb op : Nat)
  | ttrn (ds dd : Tile) (rnd : Rnd) (srule : Nat)
  | mvrl (dir : Bool) (op rel : Tile)
  | mvdm (dir : Bool) (op mem : Tile) (tag : Nat) (acq rel na : Bool)
  | mvbc (op : Tile) (src inst : Nat)
  | relief (minor : Nat) (dd da db dc : Tile) (rnd : Rnd) (srule : Nat) (sa : Nat) (fn : Nat)
  | racc (ds dm : Tile) (tag : Nat) (rel : Bool) (op : Nat)
  deriving DecidableEq, Repr

/-- An asynchronous operation in a queue (04 R105 to R108): its place in the cell's program order, its program counter, the token it advances and the one it waits on, whether it has started, and the granules already applied (RACC). -/
structure AsyncOp where
  id : Nat
  pc : Nat
  ks : Nat
  kw : Option Nat
  kind : AsyncKind
  started : Bool
  applied : List Nat
  /-- A parameter block read at the start (06 R193). -/
  params : List Nat
  /-- The operand store when it started (04 R109). -/
  snap : Option Mem := none
  deriving DecidableEq, Repr

/-- Where an access is performed (07 R204): a device physical address, a bank and its offset, a host physical address with the function whose stream carries its writes, or an arena of a context. -/
inductive Place where
  | stack (a : Nat)
  | bank (p off : Nat)
  | host (hpa : Nat)
  | arena (ctx a : Nat)
  deriving DecidableEq, Repr

/-- A scalar store in the store buffer (05 R132, 07 R208). -/
structure StoreEntry where
  id : Nat
  pc : Nat
  place : Place
  size : Nat
  value : Nat
  tag : Nat
  rel : Bool
  deriving DecidableEq, Repr

/-- What an outstanding device-memory access will do (05 R140 to R144). -/
inductive LoadKind where
  | ld (signed : Bool)
  | lr
  | amo (fn : Nat) (b : Nat)
  | cas (cmp new : Nat)
  | sc (new : Nat)
  | fsig (value : Nat)
  deriving DecidableEq, Repr

/-- A load, atomic, LR or SC to device memory that has not returned (05 R132): `done` holds the old value once an atomic has been performed where R224 places it. -/
structure LoadEntry where
  id : Nat
  pc : Nat
  sd : Nat
  kind : LoadKind
  va : Nat
  place : Place
  size : Nat
  tag : Nat
  acq : Bool
  rel : Bool
  done : Option Nat
  failed : Nat
  /-- The pieces of an unaligned load that have been taken: offset and bytes (07 R206). -/
  got : List (Nat × List Byte) := []
  deriving DecidableEq, Repr

/-- What a cell is blocked in (05 R148 to R152, 04 R122). -/
inductive Block where
  | fence (scope kind tagmask id : Nat)
  | tkop (mask limit : Nat)
  | sigWait (phys : Nat) (target : Nat)
  | addb (phys amount partner depth : Nat)
  | barSync (phys bid inst : Nat)
  | barWait (unit ticket : Nat)
  | fwait (sd : Nat) (va : Nat) (target : Nat) (deadline : Option Nat) (slot : Option Nat) (acq : Bool)
  deriving DecidableEq, Repr

/-- The phase of a cell's sequencer (05 R170, R172). -/
inductive Phase where
  | halted | running | ended | stopped
  | blocked (b : Block)
  deriving DecidableEq, Repr

/-- The state of the cell at a logical position (02 R27). -/
structure Cell where
  /-- Operand store. -/
  ops : Mem := []
  sregs : SMap Word := []
  /-- Lane i of register v at 128 × v + i. -/
  vregs : SMap (BitVec 32) := []
  preds : SMap (BitVec 256) := []
  /-- Element (r, j) of accumulator a at 2048 × a + 64 × r + j. -/
  accs : SMap (BitVec 32) := []
  descs : SMap (BitVec 128) := []
  toks : SMap Word := []
  aflags : Word := 0
  rmode : Word := 0
  traprec : Word := 0
  cycles : Word := 0
  pc : Nat := 0
  phase : Phase := .halted
  /-- The granule of the reservation (05 R144). -/
  resv : Option Place := none
  deriving DecidableEq, Repr

/-- A store that a cache accepted before ownership (07 R209, R217): its line, whether a host line, its order tag, and the bytes of a scalar store. It counts while the line still holds early-visible bytes. -/
structure EarlyStore where
  line : Nat
  host : Bool
  tag : Nat
  bytes : Option (Place × Nat) := none
  deriving DecidableEq, Repr

/-- What a cell has in flight: nothing of it survives a switch (04 R105, 05 R132). -/
structure Flight where
  /-- The next place in program order. -/
  seq : Nat := 0
  tq : List AsyncOp := []
  mq : List AsyncOp := []
  rq : List AsyncOp := []
  raccs : List AsyncOp := []
  stbuf : List StoreEntry := []
  loads : List LoadEntry := []
  /-- Scalar registers still awaited (05 R132). -/
  busy : Nat := 0
  /-- BAR ARRIVE tickets awaited: barrier, instance, destination register. -/
  arrive : List (Nat × Nat × Nat) := []
  /-- The first failed asynchronous operation: its code, token and program counter (04 R110). -/
  failed : Option (Nat × Nat × Nat) := none
  /-- Its stores that a cache accepted before ownership. -/
  early : List EarlyStore := []
  /-- Other cells' early stores that a full fence of this cell found, before which its later writes may not be performed: line, whether a host line, tag mask of the fence (07 R212, R215). -/
  debts : List (Nat × Bool × Nat) := []
  /-- A store or SC that met poison and whose failure has not returned: its program counter, and the register an SC still awaits (05 R145). -/
  storeFail : Option (Nat × Nat) := none
  deriving DecidableEq, Repr

/-- A cell's part of its engine's gathers: instances issued of each barrier identifier and of MVBC (04 R127, 08 R260, R262). -/
structure Gather where
  bars : SMap Nat := []
  mvbc : Nat := 0
  deriving DecidableEq, Repr

/-- What the complex keeps of a cell of a saved engine (12 R384, R385; 08 R262): its gather, the tickets it awaits, and its phase. -/
structure Kept where
  gather : Gather := {}
  arrive : List (Nat × Nat × Nat) := []
  phase : Phase := .halted
  deriving DecidableEq, Repr

/-- A formed engine (02 R36 to R43, R50, R54; 05 R168 to R173; 19 R564). -/
structure Engine where
  formed : Bool := false
  /-- 0 idle, 1 running, 2 faulted, 3 parked, 4 held, 5 migrating. -/
  state : Nat := 0
  sizeLog2 : Nat := 0
  origin : Nat := 0
  ctx : Nat := 0
  entry : Nat := 0
  codeBase : Nat := 0
  codeLen : Nat := 0
  opstore : Nat := 0
  relief : Nat := 0
  /-- The command it holds: queue and sequence number. -/
  cmd : Option (Nat × Nat) := none
  args : List Word := []
  trapCode : Nat := 0
  trapCell : Nat := 0
  trapPc : Nat := 0
  /-- The engine is stopping for a trap (1), a forced abort (2), a hard quarantine (3) (05 R172, 09 R288, 02 R57). -/
  stopping : Nat := 0
  faultCode : Nat := 0
  /-- The engine was formed with this place in the core's order of formation. -/
  order : Nat := 0
  /-- Barrier instances that have arrived, by barrier identifier. -/
  barServed : SMap Nat := []
  /-- The round + 1 that an arrived instance was counted for, by 2^32 × barrier identifier + instance (08 R260). -/
  barRound : SMap Nat := []
  /-- The unit and MASK that the first cell to issue an instance translated, while its arrival has not been made: by 2^32 × barrier identifier + instance (08 R241). -/
  barAt : SMap (Nat × Nat) := []
  /-- What a saved engine keeps in the core record, by cell index (08 R262, 12 R384, R385). -/
  kept : SMap Kept := []
  /-- Its save was discarded: when next resident it holds the zeroed state of R41 (09 R289). -/
  blank : Bool := false
  /-- MVBC collectives: the source tile once the source has sent, and the cells served, by instance. -/
  mvbc : SMap (Nat × Nat) := []
  deriving DecidableEq, Repr

/-- A barrier unit (08 R259 to R264, R566): open rounds (number, arrived engines), the number of the next round, C, stalled entries (engine, barrier identifier, instance), discarded rounds. -/
structure BarUnit where
  rounds : List (Nat × Nat) := []
  next : Nat := 0
  done : Nat := 0
  mask : Nat := 0
  /-- The context that last used it: one at a time is granted it (08 R241, R263). -/
  ctx : Option Nat := none
  stalled : List (Nat × Nat × Nat) := []
  lost : List Nat := []
  /-- BAR_STAT.LOST: the newest round that the watchdog discarded. -/
  lostLow : Nat := 0
  deriving DecidableEq, Repr

/-- An engine-table entry of an image being formed (02 R50). -/
structure EngEntry where
  engine : Nat
  sizeLog2 : Nat
  place : Nat
  origin : Nat
  entry : Nat
  codeSec : Nat
  preFirst : Nat
  preCount : Nat
  opstore : Nat
  relief : Nat
  deriving DecidableEq, Repr

/-- A section-table entry (02 R51). -/
structure SecEntry where
  typ : Nat
  sflags : Nat
  dest : Nat
  offset : Nat
  length : Nat
  stride : Nat
  deriving DecidableEq, Repr

/-- An Armature request (02 R37 to R48): its fields, who submitted it (a queue's command, else the registers), the step of formation reached, and what the checks read from the image. -/
structure ArmReq where
  ctx : Nat
  image : Nat
  mode : Nat
  full : Bool
  mask : Nat
  record : Nat
  cmd : Option (Nat × Nat)
  src : Nat
  step : Nat := 1
  start : Nat := 0
  /-- The header, the engine table and the section table as they were read. -/
  head : List Byte := []
  etab : List Byte := []
  stab : List Byte := []
  /-- A cell failed during clearing or preload and no spare was free (R60). -/
  lost : Bool := false
  engines : List EngEntry := []
  sections : List SecEntry := []
  signals : Nat := 0
  barriers : Nat := 0
  monitors : Nat := 0
  /-- Origins found by step 4, in engine-table order. -/
  places : List Nat := []
  free : Nat := 0
  /-- Relief blocks that passed to the context for this request: block, the claimant before, and whether the context's own contents lay in its slot (R40). -/
  took : List (Nat × Option Nat × Bool) := []
  deriving DecidableEq, Repr

/-- A quarantine in progress or waiting (02 R55 to R60): physical cell, logical position, the engine whose stop it awaits, trigger, soft or hard, how far it has come, and the engine that held the cell at the trigger. -/
structure Quar where
  cell : Nat
  pos : Nat
  /-- The engine whose stop it awaits. -/
  eng : Option Nat
  trigger : Nat
  hard : Bool
  time : Nat
  drained : Bool := false
  /-- It waits for the Armature request in progress at its trigger (R60). -/
  deferred : Bool := false
  /-- The engine that held the cell at the trigger (R61, R63 ARM_QLOG). -/
  holder : Option Nat := none
  deriving DecidableEq, Repr

/-- A switch in progress (12 R382): outgoing contexts, incoming context, step. -/
structure Switch where
  out : List Nat
  into : Nat
  step : Nat
  start : Nat
  deriving DecidableEq, Repr

/-- A cached device translation (10 R308): context, first 32 MiB page, 1 GiB or not, and the leaf entry. -/
structure TlbEntry where
  ctx : Nat
  page : Nat
  big : Bool
  leaf : Word
  deriving DecidableEq, Repr

/-- A cached table entry of the walk (10 R308): context, level (0 root, 1 level 1), index bits above the level's table, entry. -/
structure WalkEntry where
  ctx : Nat
  level : Nat
  index : Nat
  entry : Word
  deriving DecidableEq, Repr

/-- A core (01 R18, 02, 08, 12): what Armature, the synchronisation units, the TLB and the slicer keep. -/
structure Core where
  /-- Physical cell + 1 under each logical position; 0 unmapped. -/
  map : SMap Nat := []
  /-- Role of each physical cell: 0 spare, 1 mapped, 2 fused, 3 quarantined (02 R30). -/
  roles : SMap Nat := []
  mapped : Bool := false
  /-- Corrected errors of each physical cell and its bank: when they were counted, and how many (02 R27, R55). -/
  ceLog : SMap (List (Nat × Nat)) := []
  arm : Option ArmReq := none
  armQ : List ArmReq := []
  quars : List Quar := []
  engines : SMap Engine := []
  formed : Nat := 0
  /-- ENGINE commands that wait for a busy or saved engine, in order of arrival (11 R358). -/
  waiting : List (Nat × Nat) := []
  counters : SMap Word := []
  bars : SMap BarUnit := []
  /-- Cells blocked in an ADDB on a counter, in order of arrival (08 R245). -/
  addbQ : SMap (List Nat) := []
  /-- Cached map entries, by context × 2^20 + word index of the core map (08 R241). -/
  mapCache : SMap Word := []
  /-- Claimant + 1 of each Relief block (06 R181). -/
  claims : SMap Nat := []
  /-- Contexts whose contents of a block lie in their Relief slot: by 16 × context + block (12 R385 RELIEF). -/
  saved : SMap Bool := []
  /-- Relief flag words saved with a block (12 R386): by 16 × (16 × context + block) + bank. -/
  savedFlags : SMap Word := []
  /-- The time counter at the last save, by context (12 R385 TIME). -/
  savedAt : SMap Nat := []
  rotation : List Nat := []
  residents : List Nat := []
  expired : List Nat := []
  switch : Option Switch := none
  lastIn : Option Nat := none
  runs : SMap Nat := []
  tlb : List TlbEntry := []
  walks : List WalkEntry := []
  deriving DecidableEq, Repr
/-! ## Objects of the Plinth (09, 10, 11, 08) -/

/-- An arena (09 R271, R277, R278). -/
structure Arena where
  base : Nat
  limit : Nat
  low : Nat
  source : Nat
  alignLog2 : Nat
  cursor : Nat := 0
  full : Bool := false
  lowHit : Bool := false
  lowArmed : Bool := true
  deriving DecidableEq, Repr

/-- A context record (09 R271 to R273, 17 R516). -/
structure Context where
  /-- 0 FREE, 1 LIVE, 2 DYING. -/
  state : Nat := 0
  pasid : Nat := 0
  part : Nat := 0
  cores : Nat := 0
  ptRoot : Nat := 0
  aptBase : Nat := 0
  aptCount : Nat := 0
  monLen : Nat := 0
  cmapBase : Nat := 0
  monBase : Nat := 0
  saveBase : Nat := 0
  saveSize : Nat := 0
  flistBase : Nat := 0
  flistLen : Nat := 0
  arenaWin : Nat := 0
  arenas : List Arena := []
  energy : Nat := 0
  shared : Nat := 0
  sharedSeen : Bool := false
  deriving DecidableEq, Repr

/-- An aperture of a context (10 R311 to R316): 0 UNLOADED, 1 LOADED, 2 BROKEN, 3 loading. -/
structure Aperture where
  state : Nat := 0
  hbase : Nat := 0
  dbase : Nat := 0
  length : Nat := 0
  flags : Nat := 0
  /-- The 2 MiB steps whose ATC entries it holds locked (R313). -/
  locked : List Nat := []
  /-- While loading: the lowest status code of its failures so far; 0 none (R314). -/
  fail : Nat := 0
  /-- It is being unloaded: it has left the copies, and accesses issued through it are awaited (R313). -/
  leaving : Bool := false
  deriving DecidableEq, Repr

/-- How far a fetched command has come (09 R284, 11 R354, R355, 10 R328). -/
inductive CmdState where
  | fetched | waiting | pretrans | ready | running
  deriving DecidableEq, Repr

/-- A fetched and unretired command (11 R351, R352). -/
structure Cmd where
  entries : Nat
  op : Nat
  fhost : Bool
  whost : Bool
  wait : Bool
  serial : Bool
  faddr : Nat
  fval : Nat
  waddr : Nat
  wtarget : Nat
  body : Nat
  payload : List Line
  state : CmdState
  /-- A command watcher is held (11 R355). -/
  watched : Bool := false
  /-- Sequence numbers of commands unretired when a SERIAL command was fetched (11 R354). -/
  before : List Nat := []
  /-- COPY: the Chisel engine chosen, the next descriptor to start, the descriptors done. -/
  chisel : Option Nat := none
  nextDesc : Nat := 0
  doneDescs : List Nat := []
  /-- ENGINE: engines still to complete. -/
  engines : Nat := 0
  /-- The completion report: none, or a code (0 success). -/
  report : Option Nat := none
  /-- ENGINE: its engines have been started (11 R358). -/
  begun : Bool := false
  /-- ENGINE: the code of the first trap of its engines; 0 none. -/
  trapped : Nat := 0
  /-- COPY with pre-translation: the ATC lock counts reserved, and the 2 MiB steps whose ATC entries it holds locked (10 R328). -/
  resv : Nat := 0
  locks : List Nat := []
  /-- COPY: a stream of its engine was pre-empted for it, and goes to it (12 R388). -/
  granted : Bool := false
  deriving DecidableEq, Repr

/-- A queue record (09 R280 to R284). -/
structure Queue where
  /-- 0 FREE, 1 LIVE, 2 STOPPED, 3 DYING. -/
  state : Nat := 0
  ring : Nat := 0
  ctx : Nat := 0
  log2 : Nat := 0
  xlate : Nat := 0
  irq : Nat := 0
  irqEn : Bool := false
  tail : Nat := 0
  head : Nat := 0
  /-- The next entry to fetch. -/
  fetched : Nat := 0
  overrun : Bool := false
  /-- Where a restart begins: the tail recorded at the abort (09 R287). -/
  restart : Nat := 0
  cmds : SMap Cmd := []
  /-- How each retired command ended: 1 by its own outcome, 2 by an abort or a destruction (09 R287). -/
  ended : SMap Nat := []
  deriving DecidableEq, Repr

/-- A doorbell page (09 R279). -/
structure DbPage where
  part : Nat := 0
  assigned : Bool := false
  ctx : Nat := 0
  bound : Bool := false
  deriving DecidableEq, Repr

/-- A monitor slot (08 R256 to R258, R268). -/
structure MonSlot where
  part : Nat := 0
  assigned : Bool := false
  bound : Option Place := none
  ctx : Nat := 0
  va : Nat := 0
  /-- Waiting cells, by cell key. -/
  waiters : List Nat := []
  armed : Bool := false
  target : Nat := 0
  source : Nat := 0
  /-- The context that MON_ARM_CTL armed it for (08 R258). -/
  armCtx : Nat := 0
  deriving DecidableEq, Repr

/-- A fence operation waiting to be performed (09 R285, 08 R250, R252): a signal (code 0) or an error write, whose stream it belongs to, where it came from, and the source it raises. -/
structure FenceOp where
  ctx : Nat
  host : Bool
  va : Nat
  code : Nat
  value : Nat
  origin : Nat
  raise : Option Nat
  /-- Queue and sequence number, for QF_ERRINFO. -/
  qs : Option (Nat × Nat)
  /-- The fence-list entry it serves (09 R291 step 5). -/
  flist : Option Nat
  deriving DecidableEq, Repr

/-- An object or abort request that has been accepted and not yet performed (09 R295, R567): OP 0 to 6 of OBJ_CMD, 8 an abort of one command, 9 of a whole queue; the context or queue; the arena; OBJ_ARG or ABT_SEQ; its place in the order of acceptance; and for OP 8 the first entry that the abort itself fetches, for OP 9 the tail of the queue at acceptance (R287). -/
structure ObjReq where
  op : Nat
  id : Nat
  arena : Nat
  arg : Nat
  order : Nat
  base : Nat := 0
  deriving DecidableEq, Repr

/-- A forced abort in progress (09 R287, R288, R291): 0 one command, 1 a whole queue, 2 a queue's destruction, 3 a context's destruction, 4 a context's destruction by the complex itself (function level reset, TDISP ERROR); the function that asked, the queues and the context, the code it writes, the commands it retired with the error writes it owes, the step reached (1 accepted, 2 agents stopped, 3 error writes issued), how many commands it retired, and how many outbound messages issued before its agents stopped the host has yet to acknowledge. -/
structure Abort where
  kind : Nat
  f : Nat
  ctx : Nat
  queues : List Nat
  code : Nat
  cmds : List (Nat × Nat)
  fences : List FenceOp
  step : Nat := 1
  count : Nat := 0
  acks : Nat := 0
  /-- For each queue, one more than the last entry that it names: the tail when it was accepted (R287, R288 step 5). -/
  tails : List (Nat × Nat) := []
  /-- The request it performs, which holds its place in the order of its object's requests until the abort completes (R567). -/
  req : Option ObjReq := none
  /-- It ends the jobs of its context: a destruction, or an abort that leaves the context no LIVE queue (13 R419). -/
  jobs : Bool := false
  deriving DecidableEq, Repr

/-- A request of XL_APT_CTL (10 R313): OP 0 loads, 1 unloads; whether it is being performed; and its place in the order of acceptance (09 R567). -/
structure AptReq where
  op : Nat
  ctx : Nat
  index : Nat
  order : Nat
  going : Bool := false
  deriving DecidableEq, Repr

/-- An ATS invalidation request that the ATU holds (10 R320): its range, and the host physical ranges (base, log2 of the size) of the translations it dropped. -/
structure AtsInv where
  f : Nat
  pasid : Nat
  va : Nat
  drops : List (Nat × Nat)
  deriving DecidableEq, Repr

/-- A host translation of the ATC (10 R319). -/
structure AtcEntry where
  f : Nat
  pasid : Nat
  va : Nat
  log2 : Nat
  hpa : Nat
  r : Bool
  w : Bool
  locks : Nat
  /-- When it was last used, in the ATU's order of uses. -/
  used : Nat
  deriving DecidableEq, Repr

/-- Who asked for a host translation (10 R318, R321, R323, R313, R316, R328). -/
inductive AtsUser where
  | aperture (f ctx index : Nat)
  | rebind (ctx index : Nat)
  | stream (q seq index : Nat)
  | command (q seq : Nat)
  | queue (q : Nat)
  | fence (op : FenceOp)
  | prefetch (q seq index : Nat)
  deriving DecidableEq, Repr

/-- An ATS translation request outstanding. -/
structure AtsReq where
  f : Nat
  pasid : Nat
  va : Nat
  write : Bool
  user : AtsUser
  /-- It follows a successful page request (10 R323 step 5). -/
  again : Bool := false
  deriving DecidableEq, Repr

/-- A page request group (10 R323 to R326): region of 2 MiB, the address of its first fault, its tag once sent, its needs, and its waiters. -/
structure PageGroup where
  f : Nat
  pasid : Nat
  region : Nat
  va : Nat
  tag : Option Nat
  read : Bool
  write : Bool
  sentWrite : Bool
  waiters : List AtsReq
  deriving DecidableEq, Repr

/-- A Chisel descriptor (11 R362). -/
structure ChDesc where
  src : Nat
  dst : Nat
  rowBytes : Nat
  rows : Nat
  sStride : Nat
  dStride : Nat
  tileLog2 : Nat
  zero : Bool
  serial : Bool
  deriving DecidableEq, Repr

/-- A Chisel stream, active or saved (11 R365, R368, 12 R388, R389): its command and descriptor, the tiles whose writes have all been performed, and what it waits for. -/
structure Stream where
  q : Nat
  seq : Nat
  ctx : Nat
  cls : Nat
  index : Nat
  /-- The descriptor, once it has been read. -/
  desc : Option ChDesc
  tiles : Nat := 0
  /-- It waits on an ATS translation request. -/
  asked : Bool := false
  /-- It waits on a page request. -/
  faulted : Bool := false
  /-- Its next translation request follows a page request (10 R323 step 5): the address and whether it writes. -/
  retry : Option (Nat × Bool) := none
  /-- When it started or last resumed. -/
  since : Nat := 0
  /-- Its entry in the context's stream table, while saved (12 R389). -/
  entry : Nat := 0
  /-- Every byte of the descriptor below this one has been moved (11 R366). -/
  pos : Nat := 0
  /-- Later bytes that have been moved too: within a descriptor writes are unordered (11 R366). -/
  ahead : List Nat := []
  /-- The 2 MiB regions that the host reported as not usable to its prefetch, which does not ask for them again (10 R331). -/
  tried : List Nat := []
  deriving DecidableEq, Repr

/-- An object, abort or translation request of a function in progress (09 R567). -/
structure FuncReqs where
  /-- An object request that waits for its staging record, or for an earlier request on the same object. -/
  obj : Option ObjReq := none
  /-- An abort request that waits for ring entries, or for an earlier request on the same queue. -/
  abt : Option ObjReq := none
  /-- A device invalidation in progress: context, all, first page, pages. -/
  inval : Option (Nat × Bool × Nat × Nat) := none
  /-- An aperture load or unload: in progress, or waiting for an earlier request on the same context. -/
  apt : Option AptReq := none
  deriving DecidableEq, Repr

/-- A request of the host to a function that has been received and not yet performed (07 R228, 11 R348, R350): what is left of a window write or read (context, device virtual address of offset 0, the pieces still to perform, and for a read the port that its completion returns on), or a doorbell write. -/
inductive HostReq where
  | write (ctx base : Nat) (todo : List (Nat × List Byte))
  | read (ctx base off len port : Nat) (todo : List (Nat × Nat)) (got : List (Nat × List Byte)) (bad : Bool)
  | doorbell (off : Nat) (v : Word)
  deriving DecidableEq, Repr

/-- What the Plinth keeps. -/
structure Plinth where
  ctxs : SMap Context
  apts : SMap Aperture
  queues : SMap Queue
  dbs : SMap DbPage
  mons : SMap MonSlot
  reqs : SMap FuncReqs
  fenceOps : List FenceOp
  aborts : List Abort
  /-- Frames being scrubbed, in the order they entered it. -/
  scrubs : List Nat
  dtlb : List TlbEntry
  atc : List AtcEntry
  atcUses : Nat
  atsReqs : List AtsReq
  groups : List PageGroup
  /-- Tags (by function) of page requests that timed out: the late response is still to come and is discarded (10 R324). -/
  lateTags : List (Nat × Nat)
  /-- ATS invalidation requests held until what was issued with the dropped translations is done (10 R320). -/
  atsInvs : List AtsInv
  /-- The queue that started a command last, in round-robin order (11 R360). -/
  turn : Nat
  streams : SMap Stream
  saved : List Stream
  /-- Host lines written by a context's engines and not yet owned are those with early bytes: contexts by host line. -/
  hostWriters : SMap (List Nat)
  outbound : SMap (List OutReq)
  /-- Each function's window and doorbell requests that wait, in the order in which the Plinth received them (07 R228). -/
  hostQ : SMap (List HostReq)
  irqs : SMap IrqSource
  harts : SMap Hart
  msix : SMap MsixEntry
  cfgs : SMap FuncCfg
  sriov : Bool
  patina : Patina
  deriving DecidableEq, Repr
/-! ## Fabric (13) -/

/-- A fabric port (13 R397, R398): 0 down, 1 training, 2 up. -/
structure Port where
  state : Nat := 0
  en : Bool := false
  dateline : Bool := false
  noisy : Bool := false
  replays : Nat := 0
  downs : Nat := 0
  /-- Consecutive failed replays. -/
  fails : Nat := 0
  /-- The link sequence number of the next packet to send, and of the next to accept (13 R397; log 95). -/
  txSeq : Nat := 0
  rxSeq : Nat := 0
  /-- What has left on the port and is not yet acknowledged by the neighbour, with its link sequence number (13 R397). -/
  kept : List (Nat × Packet) := []
  /-- Free credits of the neighbour's buffers, and the credits given back to it, by 8 × traffic class + virtual lane (13 R397, R404). -/
  credits : SMap Nat := []
  freed : SMap Nat := []
  deriving DecidableEq, Repr

/-- A packet that waits for a credit to leave, still with the lane it came on, and the port it came on (none: it starts here) (13 R397, R400, R404). -/
structure Waiting where
  pkt : Packet
  came : Option Nat
  deriving DecidableEq, Repr

/-- A packet addressed to this complex that waits for its transport, and the port it came on (none: it was sent here) (13 R400). -/
structure Arrival where
  port : Option Nat
  pkt : Packet
  deriving DecidableEq, Repr

/-- A job slot (13 R405 to R407). -/
structure Job where
  bound : Bool := false
  job : Nat := 0
  ctx : Nat := 0
  rank : Nat := 0
  txKey : Nat := 0
  base : Nat := 0
  count : Nat := 0
  key0 : Option Nat := none
  key1 : Option Nat := none
  /-- Peers declared dead. -/
  dead : Nat := 0
  deriving DecidableEq, Repr

/-- A ring descriptor in progress (13 R412, R413). -/
structure RingDesc where
  idx : Nat
  kind : Nat
  dflags : Nat
  peer : Nat
  laddr : Nat
  raddr : Nat
  length : Nat
  value : Nat
  faddr : Nat
  fval : Nat
  /-- Bytes already cut into packets. -/
  sent : Nat := 0
  /-- Packets sent and not yet acknowledged. -/
  out : Nat := 0
  started : Bool := false
  /-- The code of its first failure; 0 none. -/
  code : Nat := 0
  done : Bool := false
  deriving DecidableEq, Repr

/-- A send ring (13 R410, R413): 0 disabled, 1 enabled. -/
structure Ring where
  en : Bool := false
  slot : Nat := 0
  log2 : Nat := 0
  base : Nat := 0
  tailVa : Nat := 0
  headVa : Nat := 0
  /-- The tail last seen, the next descriptor to read, and HEAD. -/
  tail : Nat := 0
  next : Nat := 0
  head : Nat := 0
  descs : List RingDesc := []
  /-- Failures of retired descriptors that the next BARRIER covers: index, code, whether by peer death. -/
  failures : List (Nat × Nat × Bool) := []
  /-- Stopped by an abort (13 R422 FR_STAT). -/
  stopped : Bool := false
  deriving DecidableEq, Repr

/-- An unacknowledged packet (13 R414): job slot, rank, the packet, its ring and descriptor (or the GET it answers), how often it was sent. -/
structure Unacked where
  slot : Nat
  rank : Nat
  pkt : Packet
  ring : Option (Nat × Nat)
  /-- A GETRESP: the GET's PSN. -/
  get : Option Nat
  sends : Nat
  deriving DecidableEq, Repr

/-- A GET being served for a peer (13 R415): slot, rank and PSN; the source address, the destination at the requester and the length; the bytes cut into GETRESPs, those packets unacknowledged, and the code of its failure (0 none). -/
structure GetServe where
  slot : Nat
  rank : Nat
  psn : Nat
  addr : Nat
  dest : Nat
  length : Nat
  sent : Nat := 0
  out : Nat := 0
  code : Nat := 0
  deriving DecidableEq, Repr

/-- The fabric transport. -/
structure Fabric where
  ports : SMap Port
  /-- Route entries: 0 to 511 high, 512 to 767 low: PORTS in [15:0], PAIR in [17:16]. -/
  routes : SMap Nat
  jobs : SMap Job
  rings : SMap Ring
  unacked : List Unacked
  gets : List GetServe
  /-- Packets that wait for a credit of a candidate port. -/
  egress : List Waiting
  /-- Packets addressed to this complex that have arrived. -/
  ingress : List Arrival
  /-- Sequence numbers whose first copy was refused: slot, rank, PSN (13 R414, R415). -/
  refused : List (Nat × Nat × Nat)
  /-- Job identifiers for which a refused packet was written to the Patina log within a millisecond, and when (13 R409). -/
  authLog : List (Nat × Nat)
  deriving DecidableEq, Repr
/-! ## The state -/

/-- The state of the complex, the queue of waiting commands, and the model's own fields `draws`, `reply` and `replyPort`. -/
structure State where
  /-- BAR0 registers that are stored, by key (see `regDefault`). -/
  regs : SMap Word
  /-- The time counter (19 R563). -/
  time : Nat
  board : Board
  flash : Flash
  sec : Security
  mem : MemSys
  /-- The homes, by stack. -/
  homes : SMap HomeUnit
  pl : Plinth
  fab : Fabric
  cores : SMap Core
  /-- Cells by 256 × core + logical position. -/
  cells : SMap Cell
  flights : SMap Flight
  gathers : SMap Gather
  /-- The model's own: how many free values have been drawn (log 2). -/
  draws : Nat
  /-- The model's own: what was last returned to the outside for a read or a message (log 4). -/
  reply : List Byte
  /-- The model's own: the host port on which that completion returns: the one that carried the request (11 R339). -/
  replyPort : Nat
  /-- The commands that wait, first in, first out. -/
  pending : List Instr
  deriving DecidableEq, Repr

/-- No partition policy, no Cast, no conversation. -/
def Security.reset : Security := ⟨[], [], [], [], [], 0, false⟩

/-- Device memory of zeros, nothing cached. -/
def MemSys.reset : MemSys := ⟨[], [], [], [], [], [], [], [], []⟩

/-- The Patina log before its start entry. -/
def Patina.reset : Patina := ⟨[], 0, 0, 0, false⟩

/-- Every slot FREE and every queue empty. -/
def Plinth.reset : Plinth :=
  { ctxs := [], apts := [], queues := [], dbs := [], mons := [], reqs := [], fenceOps := [], aborts := [], scrubs := [], dtlb := [], atc := []
    atcUses := 0, atsReqs := [], groups := [], lateTags := [], atsInvs := [], turn := 16383, streams := [], saved := [], hostWriters := []
    outbound := [], hostQ := [], irqs := [], harts := [], msix := [], cfgs := [], sriov := false, patina := Patina.reset }

/-- Every port down, nothing bound. -/
def Fabric.reset : Fabric := ⟨[], [], [], [], [], [], [], [], [], []⟩

/-- Package flash and fuses at power-on (log 11). -/
def Flash.initial : Flash :=
  { image := Config.factoryImage, cfg := {}, quarantine := [], fatals := [], starts := 0, extBist := false,
    fusedCells := [], production := false, debugFused := false, tapFused := false, svnFloor := 0, writing := [], thermTrip := false }

/-- RST_CAUSE is at this key; its reset value is the cause of the reset (18 R542). -/
def rstCauseKey : Nat := 0x10108

/-- The state at the end of a full reset, before start-up step 1 (18 R529, R534), with a cause, what survives, and the pins as they stand. -/
def State.afterReset (cause : Nat) (fl : Flash) (thr : Nat) (pend : List Instr) : State :=
  { regs := SMap.set regDefault [] rstCauseKey (Word.ofNat (cause + 65536 * fl.starts))
    time := 0
    board := { thrReq := thr, thrAck := thr }
    flash := fl
    sec := Security.reset
    mem := MemSys.reset
    homes := []
    pl := Plinth.reset
    fab := Fabric.reset
    cores := []
    cells := []
    flights := []
    gathers := []
    draws := 0
    reply := []
    replyPort := 0
    pending := pend }

/-- The state after power-on reset: every register at its Reset value, RST_CAUSE 1, nothing waiting. -/
def State.reset : State := State.afterReset 1 Flash.initial 0 []

end Sys2Proof.Machine
end

