-- ==== Sys2Proof/Machine/Ops.lean ====
section
/-! DEFINITION. The named operations that every command shares: registers, free values, owners of pages and cores, error bits, the outbound streams, the Patina log (16 R488 to R491) and the interrupt sources (15 R447 to R458). -/

namespace Sys2Proof.Machine

/-! ## Defaults of the sparse maps -/


/-- An entry of a map of records, with the fresh record as default. -/
def SMap.at {α : Type} (m : SMap α) (d : α) (k : Nat) : α := m.get (fun _ => d) k

/-- Replacing an entry of a map of records. -/
def SMap.put {α : Type} [DecidableEq α] (m : SMap α) (d : α) (k : Nat) (x : α) : SMap α := m.set (fun _ => d) k x

/-! ## Registers (00 R8, R9) -/

/-- The key of a register of a page. -/
def regKey (page off : Nat) : Nat := page * 0x1000 + off

/-- The pages of which every function has a copy (09 R567). -/
def copiedPage (page : Nat) : Bool := decide (0x400 ≤ page) && decide (page ≤ 0x403)

/-- The key of a page as function `f` sees it: its own copy of a copied page, else the one page. -/
def pageKey (f page : Nat) : Nat := page * 0x1000 + (if copiedPage page && decide (f ≤ 16) then f * 0x2000000 else 0)

/-- The key of the common header of a page: one header for every function, whatever copy of the page is named (19 R561). -/
def headKey (pk : Nat) : Nat := pk % 0x2000000

/-- A stored register word. -/
def State.rd (s : State) (key : Nat) : Word := s.regs.get regDefault key

/-- Replacing a stored register word. -/
def State.wr (s : State) (key : Nat) (w : Word) : State := { s with regs := s.regs.set regDefault key w }

/-- A stored register of a page whose key is `pk`. -/
def State.reg (s : State) (pk : Nat) (r : Reg) : Word := s.rd (pk + r.off)

/-- A field of a stored register. -/
def State.fld (s : State) (pk : Nat) (r : Reg) (f : Fld) : Nat := f.get (s.reg pk r)

/-- Replacing a field of a stored register. -/
def State.setFld (s : State) (pk : Nat) (r : Reg) (f : Fld) (v : Nat) : State := s.wr (pk + r.off) (f.put (s.reg pk r) v)

/-- A saturating counter field advances by `n`. -/
def State.bump (s : State) (pk : Nat) (r : Reg) (f : Fld) (n : Nat) : State :=
  s.setFld pk r f (satAdd (2 ^ f.width - 1) (s.fld pk r f) n)

/-- A counter that wraps at its width advances by `n`. -/
def State.wrapUp (s : State) (pk : Nat) (r : Reg) (f : Fld) (n : Nat) : State :=
  s.setFld pk r f (s.fld pk r f + n)

/-! ## Free values -/

/-- The next free value (log 2). -/
def State.draw (s : State) : Nat := Config.freeNat s.draws

/-- After `n` free values have been drawn. -/
def State.drew (s : State) (n : Nat) : State := { s with draws := s.draws + n }

/-- The free values from draw `d` on, as a list of `n`. -/
def freeList (d n : Nat) : List Nat := (List.range n).map fun i => Config.freeNat (d + i)

/-! ## Records -/

/-- A partition's record. -/
def State.part (s : State) (p : Nat) : Partition := s.sec.parts.at {} p
/-- Replacing a partition's record. -/
def State.setPart (s : State) (p : Nat) (x : Partition) : State := { s with sec := { s.sec with parts := s.sec.parts.put {} p x } }
/-- A core. -/
def State.core (s : State) (c : Nat) : Core := s.cores.at {} c
/-- Replacing a core. -/
def State.setCore (s : State) (c : Nat) (x : Core) : State := { s with cores := s.cores.put {} c x }
/-- The cell at a logical position (key 256 × core + position). -/
def State.cell (s : State) (k : Nat) : Cell := s.cells.at {} k
/-- Replacing a cell. -/
def State.setCell (s : State) (k : Nat) (x : Cell) : State := { s with cells := s.cells.put {} k x }
/-- What a cell has in flight. -/
def State.flight (s : State) (k : Nat) : Flight := s.flights.at {} k
/-- Replacing what a cell has in flight. -/
def State.setFlight (s : State) (k : Nat) (x : Flight) : State := { s with flights := s.flights.put {} k x }
/-- A cell's part of its engine's gathers. -/
def State.gather (s : State) (k : Nat) : Gather := s.gathers.at {} k
/-- Replacing a cell's part of its engine's gathers. -/
def State.setGather (s : State) (k : Nat) (x : Gather) : State := { s with gathers := s.gathers.put {} k x }
/-- An engine of a core. -/
def State.engine (s : State) (c e : Nat) : Engine := (s.core c).engines.at {} e
/-- Replacing an engine of a core. -/
def State.setEngine (s : State) (c e : Nat) (x : Engine) : State :=
  let k := s.core c
  s.setCore c { k with engines := k.engines.put {} e x }
/-- A context record. -/
def State.ctx (s : State) (n : Nat) : Context := s.pl.ctxs.at {} n
/-- Replacing a context record. -/
def State.setCtx (s : State) (n : Nat) (x : Context) : State := { s with pl := { s.pl with ctxs := s.pl.ctxs.put {} n x } }
/-- A queue record. -/
def State.queue (s : State) (n : Nat) : Queue := s.pl.queues.at {} n
/-- Replacing a queue record. -/
def State.setQueue (s : State) (n : Nat) (x : Queue) : State := { s with pl := { s.pl with queues := s.pl.queues.put {} n x } }
/-- A frame (09 R274). -/
def State.frame (s : State) (n : Nat) : Frame := s.mem.frames.at {} n
/-- Replacing a frame. -/
def State.setFrame (s : State) (n : Nat) (x : Frame) : State := { s with mem := { s.mem with frames := s.mem.frames.put {} n x } }
/-- An interrupt source. -/
def State.irq (s : State) (n : Nat) : IrqSource := s.pl.irqs.at {} n
/-- Replacing an interrupt source. -/
def State.setIrq (s : State) (n : Nat) (x : IrqSource) : State := { s with pl := { s.pl with irqs := s.pl.irqs.put {} n x } }
/-- A management hart. -/
def State.hart (s : State) (n : Nat) : Hart := s.pl.harts.at {} n
/-- Replacing a management hart. -/
def State.setHart (s : State) (n : Nat) (x : Hart) : State := { s with pl := { s.pl with harts := s.pl.harts.put {} n x } }
/-- A function's configuration bits. -/
def State.cfg (s : State) (f : Nat) : FuncCfg := s.pl.cfgs.at {} f
/-- Replacing a function's configuration bits. -/
def State.setCfg (s : State) (f : Nat) (x : FuncCfg) : State := { s with pl := { s.pl with cfgs := s.pl.cfgs.put {} f x } }
/-- A Cast slot. -/
def State.cast (s : State) (n : Nat) : CastSlot := s.sec.casts.at {} n
/-- Replacing a Cast slot. -/
def State.setCast (s : State) (n : Nat) (x : CastSlot) : State := { s with sec := { s.sec with casts := s.sec.casts.put {} n x } }
/-- A monitor slot. -/
def State.mon (s : State) (n : Nat) : MonSlot := s.pl.mons.at {} n
/-- Replacing a monitor slot. -/
def State.setMon (s : State) (n : Nat) (x : MonSlot) : State := { s with pl := { s.pl with mons := s.pl.mons.put {} n x } }
/-- A doorbell page. -/
def State.db (s : State) (n : Nat) : DbPage := s.pl.dbs.at {} n
/-- Replacing a doorbell page. -/
def State.setDb (s : State) (n : Nat) (x : DbPage) : State := { s with pl := { s.pl with dbs := s.pl.dbs.put {} n x } }
/-- A function's requests in progress. -/
def State.freq (s : State) (f : Nat) : FuncReqs := s.pl.reqs.at {} f
/-- Replacing a function's requests in progress. -/
def State.setFreq (s : State) (f : Nat) (x : FuncReqs) : State := { s with pl := { s.pl with reqs := s.pl.reqs.put {} f x } }
/-- A fabric port. -/
def State.port (s : State) (n : Nat) : Port := s.fab.ports.at {} n
/-- Replacing a fabric port. -/
def State.setPort (s : State) (n : Nat) (x : Port) : State := { s with fab := { s.fab with ports := s.fab.ports.put {} n x } }
/-- A job slot. -/
def State.job (s : State) (n : Nat) : Job := s.fab.jobs.at {} n
/-- Replacing a job slot. -/
def State.setJob (s : State) (n : Nat) (x : Job) : State := { s with fab := { s.fab with jobs := s.fab.jobs.put {} n x } }
/-- A send ring. -/
def State.ring (s : State) (n : Nat) : Ring := s.fab.rings.at {} n
/-- Replacing a send ring. -/
def State.setRing (s : State) (n : Nat) (x : Ring) : State := { s with fab := { s.fab with rings := s.fab.rings.put {} n x } }
/-- A Relief bank by key. -/
def State.bank (s : State) (k : Nat) : Bank := s.mem.banks.at {} k
/-- Replacing a Relief bank. -/
def State.setBank (s : State) (k : Nat) (x : Bank) : State := { s with mem := { s.mem with banks := s.mem.banks.put {} k x } }

/-! ## Owners (16 R462, 11 R343, 19 R561) -/

/-- The partition that owns a core. -/
def State.coreOwner (s : State) (c : Nat) : Option Nat := (List.range 16).find? fun p => (s.part p).cores.testBit c

/-- A partition exists while its core mask is not zero (16 R464). -/
def State.partExists (s : State) (p : Nat) : Bool := (s.part p).cores != 0

/-- The partition of a virtual function, when the function is active (11 R343). -/
def State.funcPart (s : State) (f : Nat) : Option Nat :=
  if 1 ≤ f ∧ f ≤ 16 ∧ s.partExists (f - 1) then some (f - 1) else none

/-- The partition that PAGE_OWNER names (19 R561). -/
def State.pageOwner (s : State) (page : Nat) : Option Nat :=
  match pageOf page with
  | some (.function, f) => s.funcPart f
  | some (.mailbox, f) => s.funcPart f
  | some (_, _) => if 0x1000 ≤ page then s.coreOwner ((page - 0x1000) / 0x100) else none
  | none => none

/-- A partition is CONFIDENTIAL (16 R468). -/
def State.confidential (s : State) (p : Option Nat) : Bool :=
  match p with
  | some q => (s.part q).confidential
  | none => false

/-- A counter field of access RC of a core's page: it does not count in a CONFIDENTIAL partition (16 R468). -/
def State.bumpCore (s : State) (c : Nat) (pk : Nat) (r : Reg) (f : Fld) (n : Nat) : State :=
  if s.confidential (s.coreOwner c) then s else s.bump pk r f n

/-- The pages of core `c`: 0 Armature, 1 Relief, 2 core cache, 3 synchronisation, 4 TLB, 5 slicing, 6 islands (19 R559). -/
def corePage (c k : Nat) : Nat := regKey (0x1000 + 0x100 * c + k) 0

/-! ## Corrected errors (02 R27, R55) -/

/-- Corrected errors of a physical cell within CE_WINDOW milliseconds. -/
def State.ceRecent (s : State) (core cell : Nat) : List (Nat × Nat) :=
  ((s.core core).ceLog.at [] cell).filter fun e => decide (s.time < e.1 + s.fld (corePage core 0) .armQpol Fld.armQpol_ceWindow * 1000000)

/-- `n` corrected errors count against a physical cell (02 R27). -/
def State.countCe (s : State) (core cell n : Nat) : State :=
  let k := s.core core
  s.setCore core { k with ceLog := k.ceLog.put [] cell (if n = 0 then s.ceRecent core cell else s.ceRecent core cell ++ [(s.time, n)]) }

/-- The corrected errors of a cell have reached CE_THRESHOLD within CE_WINDOW (02 R55). -/
def State.ceReached (s : State) (core cell : Nat) : Bool :=
  decide (s.fld (corePage core 0) .armQpol Fld.armQpol_ceThreshold ≤ ((s.ceRecent core cell).map fun e => e.2).sum)

/-! ## Page errors (19 R561) -/

/-- The PAGE_ERR bits of a page key. -/
def State.pageErrs (s : State) (pk : Nat) : Word := s.rd (headKey pk + 0x20)

/-- An error bit of a page is set. -/
def State.pageErr (s : State) (pk bit : Nat) : State := s.wr (headKey pk + 0x20) ((s.pageErrs pk).setFld bit 1 1)

/-- The access-error bit of a page is set (00 R8, 19 R561). -/
def State.accessErr (s : State) (pk : Nat) : State := s.pageErr pk 63

/-- The key of the function page of function f (11 R372). -/
def funcPage (f : Nat) : Nat := regKey (0x110 + f) 0

/-! ## Outbound streams (07 R227) -/

/-- The Plinth page (11 R371). -/
def plPage : Nat := regKey 0x100 0

/-- The host port that carries a request for a host physical address (11 R339). -/
def State.portOf (s : State) (a : Nat) : Nat := a / 2 ^ s.fld plPage .plCtl Fld.plCtl_routeShift % 4

/-- A message joins the outbound stream of a function, with the port that carries it (11 R339). -/
def State.send (s : State) (f : Nat) (m : OutMsg) : State :=
  { s with pl := { s.pl with outbound := s.pl.outbound.put [] f (s.pl.outbound.at [] f ++ [⟨m, m.target.map s.portOf⟩]) } }

/-- The writes of a function's outbound stream that the host has yet to acknowledge (07 R227, 11 R371). -/
def State.outWrites (s : State) (f : Nat) : Nat := ((s.pl.outbound.at [] f).filter fun x => x.port.isSome).length

/-- The oldest write of a stream is acknowledged; the messages before it have left. -/
def ackWrite : List OutReq → List OutReq
  | [] => []
  | x :: l => if x.port.isSome then l else ackWrite l

/-- A context has been resident since the newest energy sample (17 R516). -/
def State.noteUse (s : State) (ctx : Nat) : State :=
  if s.board.seen.contains ctx then s else { s with board := { s.board with seen := s.board.seen ++ [ctx] } }

/-! ## Patina (16 R488 to R491) -/

/-- The Patina page. -/
def patPage : Nat := regKey 0x602 0

/-- An entry with nothing in it. -/
def PatEntry.blank : PatEntry := ⟨0, 0, 0, 0, 0, 0, 0, 0, 0, 0⟩

/-- Bytes 0x00 to 0x2F of an entry (16 R489). -/
def PatEntry.head (e : PatEntry) : List Byte :=
  bytesOf 8 e.seq ++ bytesOf 8 e.time ++ bytesOf 1 e.kind ++ bytesOf 1 e.origin ++ bytesOf 1 e.part
    ++ bytesOf 1 e.flags ++ bytesOf 4 e.subject ++ bytesOf 8 e.addr ++ bytesOf 16 e.data

/-- The 64 bytes of an entry (16 R489). -/
def PatEntry.bytes (e : PatEntry) : List Byte := e.head ++ bytesOf 16 e.chain.toNat

/-- The predecessor value of the start entry: bytes 0 to 15 of FW_DIGEST (16 R490). -/
def State.chainBefore (s : State) : BitVec 128 :=
  if s.pl.patina.count = 0 then s.board.fwDigest.setWidth 128 else s.pl.patina.chain

/-- CHAIN of an entry: bytes 0 to 15 of SHA-384 over the previous CHAIN and bytes 0x00 to 0x2F (16 R490). -/
def chainOf (prev : BitVec 128) (e : PatEntry) : BitVec 128 :=
  (Config.sha384 (bytesOf 16 prev.toNat ++ e.head)).setWidth 128

/-- The newest entry not yet mirrored is written to host memory in the physical function's stream (16 R491). -/
def State.mirrorOne (s : State) : State :=
  let p := s.pl.patina
  let e := p.entries.at PatEntry.blank (p.mirrored % 65536)
  let base := s.fld patPage .patMbase Fld.patMbase_base * 2 ^ 22
  let s1 := s.send 0 (.write none (base + 64 * (p.mirrored % 65536)) e.bytes)
  let s2 := s1.wrapUp patPage .patMseq Fld.patMseq_mirrored 1
  { s2 with pl := { s2.pl with patina := { s2.pl.patina with mirrored := p.mirrored + 1 } } }

/-- `n` entries are mirrored, in SEQ order. -/
def State.mirrorMany : Nat → State → State
  | 0, s => s
  | n + 1, s => State.mirrorMany n s.mirrorOne

/-- With PAT_CTL.MIRROR set, every retained entry not yet mirrored is mirrored (16 R491). -/
def State.mirrorFlush (s : State) : State :=
  if s.fld patPage .patCtl Fld.patCtl_mirror = 1 then s.mirrorMany (s.pl.patina.count - s.pl.patina.mirrored) else s

/-- The entry takes its place at index SEQ mod 65,536; an entry it overwrites unmirrored counts in PAT_LOST and leaves a gap (16 R491). -/
def State.placeEntry (s : State) (e : PatEntry) : State :=
  let p := s.pl.patina
  let lost := decide (65536 ≤ p.count) && decide (p.mirrored ≤ p.count - 65536)
  let s1 := if lost then s.bump patPage .patLost Fld.patLost_lost 1 else s
  { s1 with pl := { s1.pl with patina :=
      { entries := p.entries.put PatEntry.blank (p.count % 65536) e
        count := p.count + 1
        mirrored := if lost then p.count - 65536 + 1 else p.mirrored
        chain := e.chain
        gap := p.gap || lost } } }

/-- The PART byte: the partition concerned, or none, and REDACTED (16 R489). -/
def partByte (p : Option Nat) (redacted : Bool) : Nat :=
  (match p with
   | some q => q % 16
   | none => 16) + 32 * b2n redacted

/-- A hash-chained entry is appended to the Patina log (16 R488 to R491). -/
def State.patina (s : State) (kind origin part flags subject addr data : Nat) : State :=
  let e0 : PatEntry := { seq := s.pl.patina.count, time := s.time, kind := kind, origin := origin, part := part, flags := flags,
                         subject := subject, addr := addr, data := data, chain := 0 }
  (s.placeEntry { e0 with chain := chainOf s.chainBefore e0 }).mirrorFlush

/-- Mirroring resumes: a KIND 6 entry records a gap (16 R491), and what is retained is mirrored. -/
def State.mirrorResume (s : State) : State :=
  if s.fld patPage .patCtl Fld.patCtl_mirror = 1 then
    if s.pl.patina.gap then
      let s1 := { s with pl := { s.pl with patina := { s.pl.patina with gap := false } } }
      s1.patina 6 19 16 0 0x602 0 0
    else s.mirrorFlush
  else s

/-- An entry of complex hardware (ORIGIN 19) about an event: the page concerned, the code, and the fields its rule names. -/
def State.logEvent (s : State) (kind : Nat) (part : Option Nat) (page code addr data : Nat) : State :=
  s.patina kind 19 (partByte part false) 0 (page + 65536 * code) addr data

/-- An entry of the root of trust (ORIGIN 18). -/
def State.logTrust (s : State) (kind : Nat) (part : Option Nat) (page code addr data : Nat) : State :=
  s.patina kind 18 (partByte part false) 0 (page + 65536 * code) addr data

/-- The function that a register access comes from: 0 for the management processors, the root of trust and the sideband. -/
def srcFunc (src : Nat) : Nat := if src ≤ 16 then src else 0

/-- The KIND 1 entry of an accepted BAR0 write, before the write takes effect: ADDR the BAR0 offset, DATA the value written and the previous value; REDACTED with DATA zero for a CONFIDENTIAL partition's own function (16 R468, R488, R489). PAGE_LOGSEQ of the page follows; the MSI-X pages have no header (15 R459). -/
def State.logWrite (s : State) (src page off : Nat) (v prev : Word) (changes : Bool) : State :=
  let own := s.funcPart src
  let red := s.confidential own
  let part := match s.pageOwner page with
    | some p => some p
    | none => own
  let n := s.pl.patina.count
  let s1 := s.patina 1 src (partByte part red) (b2n (!changes)) page (regKey page off) (if red then 0 else v.toNat + prev.toNat * 2 ^ 64)
  match pageOf page with
  | some (.msix, _) => s1
  | _ => s1.wr (pageKey 0 page + 0x30) (Word.ofNat n)

/-! ## Interrupt sources (15) -/

/-- The interrupt controller page. -/
def icPage : Nat := regKey 0x500 0

/-- A target of a source: a hart or a vector (15 R454). -/
inductive IrqTarget where
  | hart (n : Nat)
  | vector (n : Nat)
  deriving DecidableEq, Repr

/-- The target list of a source (15 R454). -/
def IrqSource.targets (x : IrqSource) : List IrqTarget :=
  ((List.range 16).filter fun h => x.harts.testBit h).map .hart
    ++ (List.range x.vecN).map fun k => .vector (x.vecBase + k)

/-- The vectors of a function's MSI-X table (15 R459). -/
def vectorsOf (f : Nat) : Nat := if f = 0 then 2048 else 128

/-- An enabled target (15 R454, R458). -/
def State.targetOn (s : State) (f : Nat) : IrqTarget → Bool
  | .hart h => (s.hart h).en
  | .vector v => (f == 0 || (s.funcPart f).isSome) && (s.cfg f).msixEnable && !(s.cfg f).funcMask && decide (v < vectorsOf f)

/-- The index of the first enabled target after the one used last, wrapping around the list (15 R454). -/
def State.nextTarget (s : State) (x : IrqSource) : Option (Nat × IrqTarget) :=
  let l := x.targets
  let start := if x.lastValid then x.last + 1 else 0
  let order := (List.range l.length).map fun k => (start + k) % l.length
  order.findSome? fun j =>
    match l[j]? with
    | some t => if s.targetOn x.func t then some (j, t) else none
    | none => none

/-- The MSI-X entry of a vector. -/
def State.msixAt (s : State) (f v : Nat) : MsixEntry := s.pl.msix.at {} (f * 2048 + v)

/-- Replacing the MSI-X entry of a vector. -/
def State.setMsix (s : State) (f v : Nat) (x : MsixEntry) : State :=
  { s with pl := { s.pl with msix := s.pl.msix.put {} (f * 2048 + v) x } }

/-- A delivery to a vector: the pending bit while the vector is masked, else the message in the function's stream (15 R455). -/
def State.deliverVector (s : State) (f v : Nat) : State :=
  let e := s.msixAt f v
  if e.masked then s.setMsix f v { e with pending := true } else s.send f (.msix e.addr e.data)

/-- A delivery to a hart enters its queue and wakes it (15 R456). -/
def State.deliverHart (s : State) (n src : Nat) : State :=
  let h := s.hart n
  s.setHart n { h with queue := h.queue ++ [src], sleep := false }

/-- A source is asserted (15 R448, R451). -/
def IrqSource.asserted (x : IrqSource) : Bool := x.en && (x.count != 0 || x.cond)

/-- A source is deliverable (15 R453). -/
def IrqSource.deliverable (x : IrqSource) : Bool :=
  x.asserted && !x.mask && !x.inService && (x.coalT == 0 || x.due || (x.coalN != 0 && decide (x.coalN ≤ x.count)))

/-- A deliverable source is delivered once, or records that no target is enabled (15 R453, R454). -/
def State.irqTry (s : State) (n : Nat) : State :=
  let x := s.irq n
  if x.deliverable then
    match s.nextTarget x with
    | none =>
      if x.noTarget then s
      else (s.bump icPage .icStat Fld.icStat_notarget 1).setIrq n { x with noTarget := true }
    | some (j, t) =>
      let s1 := s.setIrq n { x with inService := true, last := j, lastValid := true, timer := false, due := false, noTarget := false }
      match t with
      | .hart h => s1.deliverHart h n
      | .vector v => s1.deliverVector x.func v
  else s

/-- After a source changed: its coalescing timer starts when it becomes asserted out of service, stops when it is not asserted, and a delivery is tried (15 R453). -/
def State.irqUpdate (s : State) (n : Nat) : State :=
  let x := s.irq n
  let x1 :=
    if x.asserted then (if x.inService || x.timer || x.due then x else { x with timer := true })
    else { x with timer := false, due := false, noTarget := false }
  (s.setIrq n x1).irqTry n

/-- One event on a source: COUNT, saturating with OVF; discarded while EN is clear (15 R447, R451). -/
def State.irqEvent (s : State) (n : Nat) : State :=
  let x := s.irq n
  if x.en then
    (s.setIrq n (if x.count = 255 then { x with ovf := true } else { x with count := x.count + 1 })).irqUpdate n
  else s

/-- A raise that R449 discards counts in IC_STAT.MISROUTE. -/
def State.misroute (s : State) : State := s.bump icPage .icStat Fld.icStat_misroute 1

/-- A raise of a source by a rule of R448, on behalf of a partition or of none (15 R449). -/
def State.irqRaise (s : State) (n : Nat) (onBehalf : Option Nat) : State :=
  if n < 32 then s.misroute
  else
    match onBehalf with
    | none => s.irqEvent n
    | some p => if (s.irq n).func = 0 ∨ (s.irq n).func = p + 1 then s.irqEvent n else s.misroute

/-- A target has become enabled: sources that wait for one are delivered (15 R454). -/
def State.irqRetry (s : State) : State :=
  (s.pl.irqs.map Prod.fst).foldl (fun t n => if (t.irq n).noTarget then t.irqTry n else t) s

/-- A change of FUNC: an asserted source's COUNT and OVF are cleared, the in-service flag clears, and LAST_VALID clears (15 R454, R458). -/
def IrqSource.setFunc (x : IrqSource) (f : Nat) : IrqSource :=
  let y := { x with func := f, lastValid := false }
  if x.asserted then { y with count := 0, ovf := false, inService := false, timer := false, due := false } else y

/-- The condition of a fixed source: an unmasked error of a page of its range (15 R450). The listed registers are all that can hold one, since PAGE_ERR resets to 0. -/
def State.fixedCondition (s : State) (n : Nat) : Bool :=
  decide (n < 11) && s.regs.any fun e =>
    let k := e.1 % 0x2000000
    k % 0x1000 == 0x20 && (if n = 10 then decide (0x1000 ≤ k / 0x1000) else k / 0x100000 == n)
      && (e.2 &&& ~~~ s.rd (e.1 + 8)) != 0

end Sys2Proof.Machine
end

