-- ==== Sys2Proof/Machine/Access.lean ====
section
/-! DEFINITION. BAR0 accesses before their effect: which pages answer a function (11 R343, R344, 16 R476, R493, 18 R525, R536), which accesses are refused (00 R8, 19 R561), what an access code does to a stored register (00 R9, R10), and the range rules of single registers. -/

namespace Sys2Proof.Machine

/-- The reset page. -/
def rstPage : Nat := regKey 0x10 0

/-- The complex is out of reset: PWR_GOOD is high and every reference clock is locked (19 R548, R550). -/
def State.up (s : State) : Bool := s.board.pwrGood && s.board.clkLost == 0

/-- Start-up step 11 has been reached (18 R534). -/
def State.ready (s : State) : Bool := s.up && s.fld rstPage .startStat Fld.startStat_ready == 1

/-- Recovery (18 R536). -/
def State.recovery (s : State) : Bool := s.up && s.fld rstPage .startStat Fld.startStat_recovery == 1

/-- Start-up stopped at a failed step (18 R534). -/
def State.startFailed (s : State) : Bool := s.up && s.fld rstPage .startStat Fld.startStat_failStep != 0

/-- A fatal cause has occurred (18 R525). -/
def State.fatal (s : State) : Bool := s.fld rstPage .fatalStat Fld.fatalStat_fatal == 1

/-- The complex serves: started and not fatal (18 R525, R534). -/
def State.serving (s : State) : Bool := s.ready && !s.fatal

/-- The host link is up: all four host ports are up (11 R338, 18 R530). -/
def State.linkUp (s : State) : Bool := s.board.portsDown == 0

/-- PWR_CTL.STANDBY (17 R517). -/
def State.standby (s : State) : Bool := s.fld (regKey 0x700 0) .pwrCtl Fld.pwrCtl_standby == 1

/-- A function in the TDISP state ERROR: its requests fail (16 R476). -/
def State.tdispError (s : State) (f : Nat) : Bool :=
  match s.funcPart f with
  | some p => (s.part p).tdisp == 3
  | none => false

/-- A page answers through a function; virtual functions are present while SR-IOV is enabled (11 R340, R343, R344; 16 R476, R493; 18 R534, R536; 19 R559). -/
def State.answers (s : State) (f page : Nat) : Bool :=
  if s.recovery then f == 0 && (page == 0x0000 || page == 0x0010 || page == 0x0600 || page == 0x0610)
  else if !(s.ready || s.startFailed) then false
  else
    match pageOf page with
    | none => false
    | some (k, i) =>
      if f = 0 then true
      else if !s.pl.sriov || s.tdispError f then false
      else
        match s.funcPart f with
        | none => decide (k = .identity) || decide (k = .msix)
        | some p =>
          match k with
          | .identity | .objects | .abort | .xlat | .queueFetch | .ic | .msix => true
          | .function | .mailbox => i == f
          | .armature | .relief | .coreCache | .sync | .tlb | .slicing | .islands => s.coreOwner i == some p
          | .engine => s.coreOwner (i / 64) == some p
          | _ => false

/-- What becomes of a BAR0 write: it is performed, it is ignored, or it sets the access-error bit of a page. -/
inductive Verdict where
  | perform
  | ignore
  | error (pk : Nat)
  deriving DecidableEq, Repr

/-- The partition of the page is admitted into the host's trusted domain: CONFIG_LOCKED or RUN (16 R476). -/
def State.pageLockedByTdisp (s : State) (page : Nat) : Bool :=
  match s.pageOwner page with
  | some p => (s.part p).tdisp == 1 || (s.part p).tdisp == 2
  | none => false

/-- PAGE_CTL.EN of a page key (19 R561). -/
def State.pageEn (s : State) (pk : Nat) : Bool := (s.rd (headKey pk + 0x10)).bit 0
/-- PAGE_CTL.LOCK of a page key (00 R10). -/
def State.pageLock (s : State) (pk : Nat) : Bool := (s.rd (headKey pk + 0x10)).bit 1

/-- The verdict on a BAR0 write of `size` bytes at `off` of a page by `src` (00 R8, 11 R343, R344, 16 R476, 19 R559, R561). -/
def State.verdict (s : State) (src page off size : Nat) : Verdict :=
  let f := srcFunc src
  if !s.answers f page then .ignore
  else
    match pageOf page with
    | some (.msix, _) =>
      if (size = 4 ∨ size = 8) ∧ off % size = 0 then .perform else .error (funcPage f)
    | _ =>
      let pk := pageKey 0 page
      if size ≠ 8 ∨ off % 8 ≠ 0 then .error pk
      else if src = 0 ∧ s.pageLockedByTdisp page then .error pk
      else if 0x100 ≤ off ∧ !s.pageEn pk then .error pk
      else .perform

/-- A register-triggered command: an accepted write has the effect `act`, a refused one sets the access-error bit (00 R8), one that finds no page does nothing. -/
def State.offer (s : State) (src page off size : Nat) (act : State → State) : State :=
  match s.verdict src page off size with
  | .perform => act s
  | .ignore => s
  | .error pk => s.accessErr pk

/-- A request to a BAR from another requester than a root port: Unsupported Request, which returns nothing, counted in HP_ERR.REFUSED (11 R346). -/
def State.unsupported (s : State) : State :=
  if s.up && s.linkUp then { s.bump plPage .hpErr Fld.hpErr_refused 1 with reply := [] } else s

/-- A request to a BAR: the complex accepts it from the host's root ports only; its completion returns on the port that carried it (11 R339, R346). -/
def State.accept (s : State) (rq : Requester) (act : State → State) : State :=
  let t := { s with replyPort := rq.port }
  match rq with
  | .rootPort _ => act t
  | .other _ _ => t.unsupported

/-! ## Access codes (00 R9) -/

/-- The bits of a register whose fields have an access code. -/
def Reg.mask (r : Reg) (a : Access) : Word :=
  Word.ofNat (((r.flds.filter fun f => f.acc == a).map fun f => f.at (2 ^ f.width - 1)).sum)

/-- The bits a write sets: RW always, RWL while the page is not locked (00 R9). -/
def Reg.takes (r : Reg) (locked : Bool) : Word := if locked then r.mask .rw else r.mask .rw ||| r.mask .rwl

/-- A stored register after a write by its fields' access codes (00 R9). -/
def Reg.written (r : Reg) (locked : Bool) (old v : Word) : Word :=
  let t := r.takes locked
  ((old &&& ~~~ t) ||| (v &&& t)) &&& ~~~ (v &&& r.mask .w1c)

/-- Writing a stored register of a page by its access codes. -/
def State.writeReg (s : State) (pk : Nat) (r : Reg) (v : Word) : State :=
  s.wr (pk + r.off) (r.written (s.pageLock pk) (s.reg pk r) v)

/-- The GO or other triggering write of a row: the write is recorded in the Patina log, takes its RW fields, and `act` follows (16 R488). -/
def State.trigger (s : State) (src page : Nat) (r : Reg) (v : Word) (act : State → State) : State :=
  s.offer src page r.off 8 fun t =>
    let pk := pageKey (srcFunc src) page
    let old := t.reg pk r
    act ((t.logWrite src page r.off v old true).writeReg pk r v)

/-- A triggering write that a rule refuses: it changes nothing and sets the access-error bit of PAGE_ERR. -/
def State.refuse (s : State) (src page : Nat) : State := s.accessErr (pageKey (srcFunc src) page)

/-- A triggering write guarded by its rule: where the guard fails it changes nothing and sets the access-error bit; it is recorded all the same as a write that changed nothing (16 R488). -/
def State.triggerIf (s : State) (src page : Nat) (r : Reg) (v : Word) (ok : State → Bool) (act : State → State) : State :=
  s.offer src page r.off 8 fun t =>
    let pk := pageKey (srcFunc src) page
    let old := t.reg pk r
    if ok t then act ((t.logWrite src page r.off v old true).writeReg pk r v)
    else (t.logWrite src page r.off v old false).accessErr pk

/-! ## The range rules (07 R235, 08 R266, 10 R334, 11 R370, 12 R392, 13 R420, 14 R444, 17 R519, 18 R541) -/

/-- A value between two bounds. -/
def between (lo x hi : Nat) : Bool := decide (lo ≤ x) && decide (x ≤ hi)

/-- 0, or between two bounds. -/
def zeroOr (lo x hi : Nat) : Bool := x == 0 || between lo x hi

/-- The values a register accepts; a write of another changes nothing and sets the access-error bit. -/
def Reg.accepts (r : Reg) (v : Word) : Bool :=
  match r with
  | .ccCtl => between 16 (Fld.ccCtl_holdMin.get v) 256
  | .plCtl => between 16 (Fld.plCtl_dlaHoldMin.get v) 256
  | .winBase => !v.bit 51
  | .syncWd => zeroOr 1 (Fld.syncWd_engMs.get v) 60000 && zeroOr 1 (Fld.syncWd_barMs.get v) 10000
  | .atuCtl => between 1 (Fld.atuCtl_priTimeoutMs.get v) 60000
  | .tsCtl => between 100 (Fld.tsCtl_quantumUs.get v) 100000
  | .csCtl => between 100 (Fld.csCtl_quantumUs.get v) 100000
  | .fabCtl => between 1 (Fld.fabCtl_storeWdMs.get v) 10000 && between 10 (Fld.fabCtl_retxUs.get v) 10000
      && between 1 (Fld.fabCtl_unreachMs.get v) 10000
  | .memCtl => Fld.memCtl_wide.get v % 32 == 0 && decide (Fld.memCtl_wide.get v ≤ 1920) && between 16 (Fld.memCtl_scrubGbps.get v) 400
  | .pwrCap =>
    let a := Fld.pwrCap_prio0.get v
    let b := Fld.pwrCap_prio1.get v
    let c := Fld.pwrCap_prio2.get v
    between 900 (Fld.pwrCap_capW.get v) 2000 && decide (a < 3) && decide (b < 3) && decide (c < 3) && a != b && b != c && a != c
  | .thLimits =>
    let a := Fld.thLimits_dieThr.get v
    let b := Fld.thLimits_dieTrip.get v
    let c := Fld.thLimits_stkThr.get v
    let d := Fld.thLimits_stkTrip.get v
    between 60 a 125 && between 60 b 125 && between 60 c 125 && between 60 d 125 && decide (a < b) && decide (c < d)
  | .islCtl => between 3 (Fld.islCtl_droopPct.get v) 8
  | .hlCtl => between 1 (Fld.hlCtl_cplTimeoutMs.get v) 1000
  | .supCtl => between 10 (Fld.supCtl_limitMs.get v) 60000
  | _ => true

/-- A virtual function's write of a register is performed as the physical function's; other writes through it are ignored (02 R62, 07 R234, 08 R266, 10 R334, 12 R392, 17 R519). -/
def Reg.vfWrites (r : Reg) : Bool :=
  match r.kind with
  | .armature => r != .armQpol && r != .armMapIdx
  | .coreCache => r != .ccCtl
  | .sync => r == .syncMapinv || r == .sigIdx || r == .sigData || r == .barIdx || r == .barCtl
  | .tlb | .slicing | .islands => false
  | _ => r != .icHartIdx && r != .icHartCtl

end Sys2Proof.Machine
end

