-- ==== Sys2Proof/Machine/Health.lean ====
section
/-! DEFINITION. The tray's health, the fatal causes and the records of package flash (18 R525, R526, R538, R540, 19 R554). -/

namespace Sys2Proof.Machine

/-! ## Health (18 R540) -/

/-- A core is short (02 R59). -/
def Core.isShort (k : Core) : Bool := k.mapped && decide ((k.map.filter fun e => e.2 != 0).length < 256)

/-- A core has no free spare (02 R30). -/
def Core.noSpare (k : Core) : Bool := k.mapped && !(List.range 272).any fun n => k.roles.at 0 n == 0

/-- The same fatal cause, one of codes 1 to 8, with the same detail, stands in two of the fatal records of the last three starts. -/
def Flash.repeats (x : Flash) : Bool :=
  let l := x.fatals.filter fun r => between 1 r.cause 8 && decide (x.starts < r.start + 3)
  l.any fun r => decide (2 ≤ (l.filter fun q => q.cause == r.cause && q.detail == r.detail).length)

/-- A pseudo-channel uses both of its spare lanes. -/
def State.lanesSpent (s : State) : Bool := s.mem.lanes.any fun e => e.2.1 != 0 && e.2.2 != 0

/-- A fabric port is noisy (13 R398). -/
def State.noisyPort (s : State) : Bool := s.fab.ports.any fun e => e.2.noisy

/-- HEALTH.STATE: 0 GOOD, 1 DEGRADED, 2 FAILED. -/
def State.healthState (s : State) : Nat :=
  if s.fatal || s.startFailed || s.recovery || s.flash.repeats then 2
  else if (s.cores.any fun e => e.2.isShort) || (s.cores.any fun e => e.2.noSpare) || s.lanesSpent || s.noisyPort then 1
  else 0

/-- The HEALTH register (18 R542). -/
def State.healthWord (s : State) : Word :=
  Word.ofNat (Fld.health_state.at s.healthState + Fld.health_short.at (b2n (s.cores.any fun e => e.2.isShort))
    + Fld.health_noSpares.at (b2n (s.cores.any fun e => e.2.noSpare)) + Fld.health_lanes.at (b2n s.lanesSpent)
    + Fld.health_noisy.at (b2n s.noisyPort) + Fld.health_repeat.at (b2n s.flash.repeats))

/-- The sideband raises an in-band interrupt when HEALTH.STATE has changed (19 R554). -/
def State.noteHealth (s : State) : State :=
  if s.healthState = s.board.lastHealth then s
  else { s with board := { s.board with ibis := s.board.ibis + 1, lastHealth := s.healthState } }

/-! ## Records of package flash (18 R530, R538) -/

/-- The newest Patina entry's sequence number. -/
def State.patNewest (s : State) : Nat := s.pl.patina.count - 1

/-- A flash write begins; it ends with FLASH_WRITE_COMPLETE (18 R529). -/
def State.flashWrite (s : State) (w : FlashWrite) : State := { s with flash := { s.flash with writing := s.flash.writing ++ [w] } }

/-- A fatal or link-loss record is appended to package flash. -/
def State.flashRecord (s : State) (cause detail : Nat) : State :=
  s.flashWrite (.fatal { start := s.flash.starts, cause := cause, detail := detail, time := s.time, seq := s.patNewest })

/-! ## Fatal causes (18 R525) -/

/-- A fatal cause is detected: the arrays stop, the complex no longer serves, FATAL_STAT and PAGE_ERR bit 0 of the reset page are set, a Patina entry and a fatal record are written, and the sideband raises an interrupt. The first cause stands (log 46). -/
def State.fatalOp (s : State) (code detail : Nat) : State :=
  if s.fatal then s
  else
    let s1 := (s.wr (rstPage + Reg.fatalStat.off) (Word.ofNat (Fld.fatalStat_fatal.at 1 + Fld.fatalStat_cause.at code
      + Fld.fatalStat_detail.at detail + Fld.fatalStat_time.at s.time))).pageErr rstPage 0
    let s2 := ({ s1 with board := { s1.board with arraysStopped := 15 } }.logEvent 5 none 0x10 code detail 0).flashRecord code detail
    { s2 with board := { s2.board with ibis := s2.board.ibis + 1, lastHealth := 2 } }

end Sys2Proof.Machine
end

