-- ==== Sys2Proof/Machine/Memory.lean ====
section
/-! DEFINITION. Device memory and its coherence (07, 14), and the Relief banks (06): the operations on lines and granules that every agent's access is built from. -/

namespace Sys2Proof.Machine

/-! ## Where a device physical address lies (14 R425 to R429) -/

/-- Bytes of usable device memory (14 "The device physical address map"). -/
def devBytes : Nat := 0xB400000000

/-- Frames of usable device memory (09 R274). -/
def devFrames : Nat := 23040

/-- The frame of an address: 32 MiB each. -/
def frameOf (a : Nat) : Nat := a / 0x2000000

/-- The XOR of two Nats' low `n` bits. -/
def xorN (n a b : Nat) : Nat := (BitVec.ofNat n a ^^^ BitVec.ofNat n b).toNat

/-- An address lies in the device-wide region: frames 0 to 12 W − 1 (14 R425). -/
def isWide (w a : Nat) : Bool := decide (frameOf a < 12 * w)

/-- The stack and stack offset of a device physical address (14 R427, R428). -/
def stackOf (w a : Nat) : Nat × Nat :=
  if isWide w a then
    let g := a / 256
    let h := g / 4
    let d := xorN 2 (xorN 2 (nbits g 0 2) (nbits g 8 2)) (xorN 2 (nbits g 16 2) (nbits g 24 2))
    (3 * d + (h + h / 3 + h / 9) % 3, 256 * (g / 12) + a % 256)
  else
    let per := 3 * (1920 - w) * 0x2000000
    let r := a - 12 * w * 0x2000000
    let d := r / per
    let g := (r % per) / 256
    (3 * d + (g + g / 3 + g / 9) % 3, w * 0x2000000 + 256 * (g / 3) + a % 256)

/-- The pseudo-channel of a stack offset (14 R429). -/
def pchOf (o : Nat) : Nat :=
  let u := o / 256
  xorN 6 (xorN 6 (xorN 6 (nbits u 0 6) (nbits u 6 6)) (xorN 6 (nbits u 12 6) (nbits u 18 6))) (nbits u 24 4)

/-- MEM_CTL.WIDE. -/
def State.wide (s : State) : Nat := s.fld (regKey 0x900 0) .memCtl Fld.memCtl_wide

/-- The home (stack) of a device line (07 R218). -/
def State.homeOf (s : State) (line : Nat) : Nat := (stackOf s.wide (64 * line)).1

/-- The page of home `h`. -/
def homePage (h : Nat) : Nat := regKey (0x901 + h) 0

/-! ## Lines and their owners (07 R219) -/

/-- The key of a caching agent's line. -/
def cacheKey (agent line : Nat) : Nat := agent * 2 ^ 34 + line

/-- A caching agent's line, where it holds one. -/
def MemSys.cline? (m : MemSys) (agent line : Nat) : Option CacheLine := m.caches.find? (cacheKey agent line)

/-- A caching agent's line is replaced. -/
def MemSys.setCline (m : MemSys) (agent line : Nat) (c : CacheLine) : MemSys :=
  { m with caches := m.caches.insert (cacheKey agent line) c }

/-- A caching agent's line is dropped. -/
def MemSys.dropCline (m : MemSys) (agent line : Nat) : MemSys :=
  { m with caches := m.caches.erase (cacheKey agent line) }

/-- The home's directory entry for a line. -/
def MemSys.dirAt (m : MemSys) (line : Nat) : DirEntry := m.dir.at {} line

/-- The directory entry of a line is replaced. -/
def MemSys.setDir (m : MemSys) (line : Nat) (d : DirEntry) : MemSys := { m with dir := m.dir.put {} line d }

/-- The transactions that wait at the home of a line, in order of arrival (07 R221). -/
def MemSys.queue (m : MemSys) (line : Nat) : List LineReq := m.lineQ.at [] line

/-- The transactions that wait at the home of a line are replaced. -/
def MemSys.setQueue (m : MemSys) (line : Nat) (l : List LineReq) : MemSys := { m with lineQ := m.lineQ.put [] line l }

/-- The line is blocked: a transaction waits on it (07 R221). -/
def MemSys.blocked (m : MemSys) (line : Nat) : Bool := !(m.queue line).isEmpty

/-- The agents that can hold a line: the sixteen core caches and the device-line agent (07 R218). -/
def agents : List Nat := List.range 17

/-- The modified line of the line's owner, where there is one. -/
def MemSys.dirty? (m : MemSys) (line : Nat) : Option CacheLine :=
  agents.findSome? fun a =>
    match m.cline? a line with
    | some c => if c.st = .modified then some c else none
    | none => none

/-- The line as its home answers a snooping access: the owner's modified data, else the stack's (07 R220). -/
def MemSys.homeLine (m : MemSys) (line : Nat) : Line :=
  match m.dirty? line with
  | some c => c.data
  | none => m.dev.readLine (64 * line)

/-- The line is poisoned as its home answers (07 R226, 14 R438). -/
def MemSys.homePoison (m : MemSys) (line : Nat) : Bool :=
  match m.dirty? line with
  | some c => c.poison
  | none => m.poison.get (fun _ => false) line

/-- The byte at a device physical address as its home answers. -/
def MemSys.homeByte (m : MemSys) (a : Nat) : Byte := BitVec.ofNat 8 ((m.homeLine (a / 64)).toNat / 256 ^ (a % 64))

/-- Bytes from a device physical address as their homes answer. -/
def MemSys.homeBytes (m : MemSys) (a n : Nat) : List Byte := (List.range n).map fun i => m.homeByte (a + i)

/-- The aligned 8-byte word at a device physical address as its home answers. -/
def MemSys.homeWord (m : MemSys) (a : Nat) : Word :=
  BitVec.ofNat 64 ((m.homeLine (a / 64)).toNat / 256 ^ (a % 64))

/-- The lines that `n` bytes from `a` touch. -/
def linesOf (a n : Nat) : List Nat :=
  if n = 0 then [] else (List.range ((a + n - 1) / 64 - a / 64 + 1)).map fun i => a / 64 + i

/-- Some line of the bytes is poisoned. -/
def MemSys.homePoisoned (m : MemSys) (a n : Nat) : Bool := (linesOf a n).any m.homePoison

/-- A holder of the line is inside its minimum hold, so a snoop that would take the line waits (07 R222). -/
def MemSys.held (m : MemSys) (line : Nat) : Bool :=
  agents.any fun a =>
    match m.cline? a line with
    | some c => c.held
    | none => false

/-- A transaction on the line can be served now: the line is not blocked and nobody holds it (07 R221, R222). -/
def MemSys.free (m : MemSys) (line : Nat) : Bool := !m.blocked line && !m.held line

/-- Every line of the bytes can be served now. -/
def MemSys.freeRange (m : MemSys) (a n : Nat) : Bool := (linesOf a n).all m.free

/-- POISON of a line set or cleared. -/
def MemSys.setPoison (m : MemSys) (line : Nat) (p : Bool) : MemSys := { m with poison := m.poison.set (fun _ => false) line p }

/-- A modified line reaches its stack, with its poison (07 R220, R226, 14 R436, R439). -/
def MemSys.stackWrite (m : MemSys) (line : Nat) (data : Line) (poison : Bool) : MemSys :=
  { m with dev := m.dev.writeMasked (64 * line) (2 ^ 64 - 1) data.toNat }.setPoison line poison

/-- The bytes of `new` where the mask is set, of `old` elsewhere. -/
def mergeLine (old new : Line) (mask : Nat) : Line :=
  BitVec.ofNat 512 (((List.range 64).map fun i =>
    ((if mask.testBit i then new.toNat else old.toNat) / 256 ^ i % 256) * 256 ^ i).sum)

/-- An agent gives the line up to a snoop: modified data goes to the stack, and only early-visible bytes remain, awaiting ownership (07 R209, R220). -/
def MemSys.giveUp (m : MemSys) (agent line : Nat) : MemSys :=
  match m.cline? agent line with
  | none => m
  | some c =>
    let m1 := if c.st = .modified then m.stackWrite line c.data c.poison else m
    if c.early = 0 then m1.dropCline agent line
    else m1.setCline agent line { c with st := .pending, held := false }

/-! ## Reservations (07 R223, 05 R144) -/

/-- The cell keys of a core. -/
def coreCells (c : Nat) : List Nat := (List.range 256).map fun p => 256 * c + p

/-- The cells of a core whose reservation lies on a device line lose it. -/
def State.clearResv (s : State) (core line : Nat) : State :=
  { s with cells := (s.cells.map fun e =>
      match e.2.resv with
      | some (.stack a) => if e.1 / 256 = core ∧ a / 64 = line then (e.1, { e.2 with resv := none }) else e
      | _ => e).filter fun e => e.2 ≠ {} }

/-! ## The tag cache of a home (14 R435) -/

/-- Lines of a tag cache: 2 MiB of 64 bytes. -/
def tagLines : Nat := 32768

/-- Carve lines of a stack: one for each KiB of its 60 GiB of usable offsets. -/
def carveLines : Nat := 0x3C00000

/-- A home. -/
def State.home (s : State) (h : Nat) : HomeUnit := s.homes.at {} h
/-- A home is replaced. -/
def State.setHome (s : State) (h : Nat) (x : HomeUnit) : State := { s with homes := s.homes.put {} h x }

/-- A carve line is brought into a tag cache. Which line of its 16-way set gives way, and whether the set is full, are free choices once 16 lines are held (log 99). -/
def State.tagBring (s : State) (h c : Nat) (dirty : Bool) : State :=
  let l := (s.home h).tags
  if l.length < 16 then s.setHome h { s.home h with tags := l ++ [⟨c, dirty⟩] }
  else
    let k := s.draw % (l.length + if l.length < tagLines then 1 else 0)
    (s.setHome h { s.home h with tags := l.eraseIdx k ++ [⟨c, dirty⟩] }).drew 1

/-- A carve line that a tag cache holds is used. -/
def State.tagHit (s : State) (h c : Nat) (write : Bool) : State :=
  let x := s.home h
  (s.setHome h { x with tags := x.tags.map fun t => if t.line = c then { t with dirty := t.dirty || write } else t }).bump (homePage h) .hmTcCnt Fld.hmTcCnt_hits 1

/-- A carve line that a tag cache does not hold is fetched, and the following one with it where the home streams. -/
def State.tagMiss (s : State) (h c : Nat) (write next : Bool) : State :=
  let s1 := (s.tagBring h c write).bump (homePage h) .hmTcCnt Fld.hmTcCnt_misses 1
  if next then s1.tagBring h (c + 1) false else s1

/-- A tag cache holds a carve line. -/
def HomeUnit.holdsTag (x : HomeUnit) (c : Nat) : Bool := x.tags.any fun t => t.line == c

/-- A home streams past a carve line: it holds the one before it, and the one after it exists and is not held (log 99). -/
def HomeUnit.streams (x : HomeUnit) (c : Nat) : Bool := c != 0 && x.holdsTag (c - 1) && !x.holdsTag (c + 1) && decide (c + 1 < carveLines)

/-- The carve word of a line is read, or written with the line's new tag: a hit or a miss of its home's tag cache; a miss while streaming also fetches the following carve line (14 R435, R436; log 99). -/
def State.carveAccess (s : State) (line : Nat) (write : Bool) : State :=
  let p := stackOf s.wide (64 * line)
  if (s.home p.1).holdsTag (p.2 / 1024) then s.tagHit p.1 (p.2 / 1024) write
  else s.tagMiss p.1 (p.2 / 1024) write ((s.home p.1).streams (p.2 / 1024))

/-! ## Transactions (07 R220) -/

/-- A snoop of an agent counts in its core's page; a holder the directory names in vain is answered as a miss (07 R219, R236). -/
def State.countSnoop (s : State) (agent line : Nat) : State :=
  if agent < 16 then
    let s1 := s.bumpCore agent (corePage agent 2) .ccCntSnoop Fld.ccCntSnoop_snoops 1
    match s.mem.cline? agent line with
    | some _ => s1
    | none => s1.bumpCore agent (corePage agent 2) .ccCntStale Fld.ccCntStale_misses 1
  else s

/-- The agents a directory entry names. -/
def DirEntry.names (d : DirEntry) (agent : Nat) : Bool := d.owner == agent + 1 || d.sharers.testBit agent

/-- The line is taken from one agent. -/
def State.takeFrom (line : Nat) (s : State) (agent : Nat) : State :=
  let s1 := if (s.mem.dirAt line).names agent then s.countSnoop agent line else s
  match s1.mem.cline? agent line with
  | none => s1
  | some c =>
    let s2 := if c.st = .modified then s1.carveAccess line true else s1
    { s2 with mem := s2.mem.giveUp agent line }

/-- Reservations on a device line are lost, but those of one core (07 R223). -/
def State.clearResvOn (s : State) (line : Nat) (keep : Option Nat) : State :=
  { s with cells := (s.cells.map fun e =>
      match e.2.resv with
      | some (.stack a) => if a / 64 = line ∧ keep ≠ some (e.1 / 256) then (e.1, { e.2 with resv := none }) else e
      | _ => e).filter fun e => e.2 ≠ {} }

/-- The line is recalled from every holder but `keep`, and the reservations on it with it (07 R220, R223). -/
def State.recall (s : State) (line : Nat) (keep : Option Nat) : State :=
  let s1 := ((agents.filter fun a => some a != keep).foldl (State.takeFrom line) s).clearResvOn line keep
  { s1 with mem := s1.mem.setDir line {} }

/-- A line that no owner supplies is read from its stack, and its carve word with it (14 R434, R435). -/
def State.stackTouch (s : State) (line : Nat) : State :=
  match s.mem.dirty? line with
  | some _ => s
  | none => s.carveAccess line false

/-- A non-allocating read snoops the owner that the directory names, if any, and reads the stack where no owner supplies the data (07 R220, 14 R435). -/
def State.snoopRead (s : State) (line : Nat) : State :=
  let t := s.stackTouch line
  match (t.mem.dirAt line).owner with
  | 0 => t
  | a + 1 => t.countSnoop a line

/-- Non-allocating reads of several lines. -/
def State.snoopReads (s : State) (lines : List Nat) : State := lines.foldl State.snoopRead s

/-- The record of the most recent poisoning: the fields an event's rule names, each in the fewest whole bytes that hold its range (16 R489). -/
def packFields : List (Nat × Nat) → Nat
  | [] => 0
  | (n, v) :: l => v % 256 ^ n + 256 ^ n * packFields l

/-- The Cast slot whose frames hold a frame. -/
def State.castOfFrame (s : State) (f : Nat) : Option Nat :=
  (List.range 15).find? fun n =>
    let c := s.cast n
    c.state != 0 && decide (c.first ≤ f) && decide (f < c.first + c.frames)

/-- A chunk of a Cast joins the Recast queue, unless it is queued already; a full queue sets OVERFLOW (16 R484 to R486). -/
def State.queueRecast (s : State) (slot chunk : Nat) : State :=
  match s.sec.recasts.find? fun j => j.slot == slot && j.chunk == chunk with
  | some j =>
    if j.data.isSome then
      { s with sec := { s.sec with recasts := s.sec.recasts.map fun k => if k.slot = slot ∧ k.chunk = chunk then { k with again := true } else k } }
    else s
  | none =>
    if 256 ≤ s.sec.recasts.length then s.setCast slot { s.cast slot with overflow := true }
    else { s with sec := { s.sec with recasts := s.sec.recasts ++ [{ slot := slot, chunk := chunk }] } }

/-- A line is poisoned (14 R437, R440): POISON is set, the home counts and logs it, a Patina entry is written, and a Cast chunk joins the Recast queue (16 R484). Causes: 0 marked on arrival, 1 data word, 2 tag, 3 carve word. -/
def State.poisonLine (s : State) (line cause : Nat) : State :=
  let a := 64 * line
  let h := (stackOf s.wide a).1
  let o := (stackOf s.wide a).2
  let f := s.frame (frameOf a)
  let s1 := { s with mem := s.mem.setPoison line true }
  let s2 := if cause = 1 ∨ cause = 3 then s1.bump (homePage h) .hmErrcnt Fld.hmErrcnt_uncorr 1
            else if cause = 2 then s1.bump (homePage h) .hmErrcnt Fld.hmErrcnt_tagfail 1 else s1
  let s3 := ((s2.setFld (homePage h) .hmPlog Fld.hmPlog_line (o / 64)).setFld (homePage h) .hmPlog Fld.hmPlog_cause cause).setFld
    (homePage h) .hmPlog Fld.hmPlog_time s.time
  let cast := s.castOfFrame (frameOf a)
  let s4 := s3.logEvent 5 (if f.state = 1 then some f.part else none) (0x901 + h) 7 h
    (packFields [(5, a), (1, cause), (1, if f.state = 3 then cast.getD 0 else f.part)])
  match cast with
  | some n => if f.state = 3 then s4.queueRecast n ((a - 0x2000000 * (s.cast n).first) / 0x10000) else s4
  | none => s4

/-- The error code of poison at a device address: CAST_POISON in a CAST frame, else ECC_UNCORR (14 R438). -/
def State.poisonCode (s : State) (a : Nat) : Nat := if (s.frame (frameOf a)).state = 3 then 8 else 7

/-- A partition's agents consume a poisoned line: in a CAST frame the first consumption by each partition is recorded with a Patina entry naming the partition, the context and the address (16 R483). -/
def State.consumePoison (s : State) (line ctx : Nat) : State :=
  let p := (s.ctx ctx).part
  let seen := s.sec.consumers.at 0 line
  if s.poisonCode (64 * line) = 8 ∧ ¬ seen.testBit p then
    ({ s with sec := { s.sec with consumers := s.sec.consumers.put 0 line (seen + 2 ^ p) } }).logEvent 5 (some p) 0x603 8 p
      (packFields [(2, ctx), (5, 64 * line)])
  else s

/-- Every poisoned line of a range is consumed by a context. -/
def State.consumeRange (s : State) (a n ctx : Nat) : State :=
  (linesOf a n).foldl (fun t l => if t.mem.homePoison l then t.consumePoison l ctx else t) s

/-- The lanes of a pseudo-channel in use: 0 to 40 but for the replaced ones, and the spares that replace them (14 R423, R430). -/
def State.lanesUsed (s : State) (stack pch : Nat) : List Nat :=
  let l := s.mem.lanes.at (0, 0) (64 * stack + pch)
  ((List.range 41).filter fun n => l.1 != n + 1 && l.2 != n + 1) ++ (if l.1 = 0 then [] else [41]) ++ (if l.2 = 0 then [] else [42])

/-- A corrected error counts for its lane; which lane erred is free (14 R430, R446; log 100). -/
def State.laneErr (s : State) (line : Nat) : State :=
  let p := stackOf s.wide (64 * line)
  let l := s.lanesUsed p.1 (pchOf p.2)
  let k := 64 * pchOf p.2 + (l[s.draw % l.length]?).getD 0
  let x := s.home p.1
  (s.setHome p.1 { x with laneCe := x.laneCe.put 0 k (satAdd (2 ^ 24 - 1) (x.laneCe.at 0 k) 1) }).drew 1

/-- What a stack read finds (14 R437): a corrected error counts; an uncorrectable error or a tag mismatch poisons the line. Only a line that comes from the stack is so read. -/
def State.stackRead (s : State) (line : Nat) (err : MemErr) : State :=
  match s.mem.dirty? line with
  | some _ => s
  | none =>
    match err with
    | .ok => s
    | .corrected => (s.bump (homePage (s.homeOf line)) .hmErrcnt Fld.hmErrcnt_corrected 1).laneErr line
    | .data => s.poisonLine line 1
    | .tag => s.poisonLine line 2
    | .carve => s.poisonLine line 3

/-- A modified line is written back, and the agent no longer holds it (07 R220). -/
def State.writeBackOp (s : State) (agent line : Nat) : State :=
  match s.mem.cline? agent line with
  | none => s
  | some c =>
    let was := s.mem.poison.get (fun _ => false) line
    let s0 := s.carveAccess line true
    let s1 := ({ s0 with mem := ((s0.mem.stackWrite line c.data c.poison).dropCline agent line).setDir line {} }).clearResv agent line
    if c.poison && !was then s1.poisonLine line 0 else s1

/-- Lines that a caching agent can hold: 16 MiB of a core cache, 4,096 of the device-line agent (01 R18, R24, 07 R204). -/
def cacheCap (agent : Nat) : Nat := if agent < 16 then 262144 else 4096

/-- The lines a caching agent holds. -/
def MemSys.agentLines (m : MemSys) (agent : Nat) : SMap CacheLine := m.caches.filter fun e => e.1 / 2 ^ 34 == agent

/-- The lines a caching agent can choose for eviction: outside their minimum hold, and with no store that waits for ownership (07 R222). -/
def MemSys.victims (m : MemSys) (agent : Nat) : List Nat :=
  ((m.agentLines agent).filter fun e => !e.2.held && e.2.early == 0).map fun e => e.1 % 2 ^ 34

/-- A caching agent can take a line: it holds it, has room, or can evict another. -/
def MemSys.roomFor (m : MemSys) (agent line : Nat) : Bool :=
  (m.cline? agent line).isSome || decide ((m.agentLines agent).length < cacheCap agent) || !(m.victims agent).isEmpty

/-- A caching agent evicts a line: a modified line is written back, a shared or exclusive one is dropped without telling the home; the reservations on it are lost (07 R219, R220, R223, 05 R144). -/
def State.evict (s : State) (agent line : Nat) : State :=
  match s.mem.cline? agent line with
  | none => s
  | some c =>
    if c.st = .modified then s.writeBackOp agent line
    else ({ s with mem := s.mem.dropCline agent line }).clearResv agent line

/-- A full caching agent evicts a line, whichever it chooses, before it takes another. -/
def State.makeRoom (s : State) (agent line : Nat) : State :=
  if (s.mem.cline? agent line).isSome ∨ (s.mem.agentLines agent).length < cacheCap agent then s
  else
    let l := s.mem.victims agent
    match l[s.draw % l.length]? with
    | some v => (s.evict agent v).drew 1
    | none => s

/-- A read shared: the owner downgrades to shared and supplies its data; the requester takes the line shared, or exclusive when no other holder is recorded (07 R220). Its own early-visible bytes stay on top; with no other holder the line is its own, and they take their place (R209). -/
def State.readSharedOp (s' : State) (agent line : Nat) : State :=
  let room := s'.makeRoom agent line
  let s := room.carveAccess line (room.mem.dirty? line).isSome
  let m := s.mem
  let d := m.dirAt line
  let others := (agents.filter fun a => a != agent && d.names a)
  let s0 := others.foldl (fun t a => if d.owner = a + 1 then t.countSnoop a line else t) s
  let m1 := others.foldl (fun (k : MemSys) a =>
    match k.cline? a line with
    | none => k
    | some c =>
      let k1 := if c.st = .modified then k.stackWrite line c.data c.poison else k
      if c.st = .pending then k1 else k1.setCline a line { c with st := .shared }) s0.mem
  let data := m1.dev.readLine (64 * line)
  let poison := m1.poison.get (fun _ => false) line
  let early := (m1.cline? agent line).map fun c => (c.early, c.data)
  let st : LineState := if others.isEmpty then .exclusive else .shared
  let c : CacheLine :=
    match early with
    | some (e, x) =>
      if e ≠ 0 ∧ others.isEmpty then { st := .modified, data := mergeLine data x e, poison := poison }
      else { st := st, data := mergeLine data x e, early := e, poison := poison }
    | none => { st := st, data := data, poison := poison }
  let m2 := m1.setCline agent line c
  let sh := ((others.map fun a => 2 ^ a).sum)
  let d' : DirEntry := if others.isEmpty then ⟨agent + 1, 0⟩ else ⟨0, sh + 2 ^ agent⟩
  { s0 with mem := m2.setDir line d' }

/-- Ownership is granted: every other holder is invalidated, and the requester's line becomes exclusive, or modified with its early-visible bytes on top of the newest data; it is held (07 R209, R220, R222). -/
def State.ownOp (s : State) (agent line : Nat) : State :=
  let s0 := (s.makeRoom agent line).recall line (some agent)
  let own := s0.mem.cline? agent line
  let s1 := if own.all fun c => c.st == .pending then s0.carveAccess line false else s0
  let m := s1.mem
  let base : Line × Bool :=
    match own with
    | some c => if c.st = .pending then (m.dev.readLine (64 * line), m.poison.get (fun _ => false) line)
                else if c.st = .shared then (m.dev.readLine (64 * line), c.poison)
                else (c.data, c.poison)
    | none => (m.dev.readLine (64 * line), m.poison.get (fun _ => false) line)
  let c : CacheLine :=
    match own with
    | some c =>
      if c.early = 0 then { st := if c.st = .modified then .modified else .exclusive, data := base.1, held := true, poison := base.2 }
      else { st := .modified, data := mergeLine base.1 c.data c.early, held := true, poison := base.2 }
    | none => { st := .exclusive, data := base.1, held := true, poison := base.2 }
  { s1 with mem := (m.setCline agent line c).setDir line ⟨agent + 1, 0⟩ }

/-- A frame is OWNED: only there does a whole-line write clear poison (14 R439). -/
def State.ownedFrame (s : State) (a : Nat) : Bool := (s.frame (frameOf a)).state == 1

/-- Masked bytes of a line that nobody holds are merged in its stack: a partial write of a poisoned line writes nothing, a whole-line write clears the poison of an OWNED frame. The result says whether the bytes were written (14 R436, R438, R439). -/
def State.lineWrite (s : State) (line mask : Nat) (data : Line) : State × Bool :=
  if s.mem.homePoison line then
    if mask % 2 ^ 64 = 2 ^ 64 - 1 ∧ s.ownedFrame (64 * line) then ({ s with mem := s.mem.stackWrite line data false }, true)
    else (s, false)
  else ({ s with mem := { s.mem with dev := s.mem.dev.writeMasked (64 * line) mask data.toNat } }, true)

/-- A write of a line's masked bytes at its home: holders are recalled, and the bytes merged (07 R220, 14 R435). -/
def State.homeWrite (s : State) (line mask : Nat) (data : Line) : State × Bool :=
  ((s.recall line none).carveAccess line true).lineWrite line mask data

/-- The mask and the data of the part of a byte string, placed at an address, that lies in a line. -/
def linePart (a : Nat) (bytes : List Byte) (line : Nat) : Nat × Line :=
  let mask := ((List.range 64).map fun i => if a ≤ 64 * line + i ∧ 64 * line + i < a + bytes.length then 2 ^ i else 0).sum
  let data := ((List.range 64).map fun i =>
    if a ≤ 64 * line + i then (((bytes[64 * line + i - a]?).getD 0).toNat) * 256 ^ i else 0).sum
  (mask, BitVec.ofNat 512 data)

/-- Bytes are written at their homes by non-allocating writes; the result says whether every line took them (07 R220). -/
def State.homeWriteBytes (s : State) (a : Nat) (bytes : List Byte) : State × Bool :=
  (linesOf a bytes.length).foldl (fun (r : State × Bool) l =>
    let p := linePart a bytes l
    let w := r.1.homeWrite l p.1 p.2
    (w.1, r.2 && w.2)) (s, true)

/-- An aligned word of `n` bytes is written at its home after a recall (an atomic's result, 07 R220). -/
def State.homeStore (s : State) (a n v : Nat) : State := (s.homeWriteBytes a (bytesOf n v)).1

/-! ## Transactions that wait (07 R221, R222) -/

/-- Snoops that a hold defers count in the page of each core that holds the line (07 R222, R236). -/
def State.countDelay (s : State) (line : Nat) : State :=
  agents.foldl (fun t a =>
    match t.mem.cline? a line with
    | some c => if c.held && decide (a < 16) then t.bumpCore a (corePage a 2) .ccCntSnoop Fld.ccCntSnoop_delayed 1 else t
    | none => t) s

/-- A transaction of which one at a time waits on a line: the same one does not join the queue twice. -/
def LineReq.once : LineReq → Bool
  | .read _ | .write _ _ => false
  | _ => true

/-- A transaction that finds its line blocked or held joins the line's queue at its home, and is counted once (07 R221, R222, R236; 14 R445 HM_DIR_CNT). -/
def State.defer (s : State) (line : Nat) (r : LineReq) : State :=
  let q := s.mem.queue line
  if r.once && q.contains r then s
  else
    let s1 := if s.mem.blocked line then s.bump (homePage (s.homeOf line)) .hmDirCnt Fld.hmDirCnt_blocked 1 else s
    let s2 := s1.countDelay line
    { s2 with mem := s2.mem.setQueue line (q ++ [r]) }

/-! ## Accesses of a core cache (07 R204, R208, R209) -/

/-- The core can read bytes of a line from its cache: the line is valid there, or the bytes are all early-visible. -/
def MemSys.coreHas (m : MemSys) (core line mask : Nat) : Bool :=
  match m.cline? core line with
  | none => false
  | some c => decide (c.st ≠ .pending) || (mask &&& c.early) == mask

/-- The line as a core's cells see it. -/
def MemSys.coreLine (m : MemSys) (core line : Nat) : Line × Bool :=
  match m.cline? core line with
  | some c => (c.data, c.poison)
  | none => (m.homeLine line, m.homePoison line)

/-- A store of masked bytes into a core cache: an exclusive or modified line takes them; a shared line accepts them early, before ownership (07 R209); a line held early only takes more bytes. The result says whether the cache took them; poison refuses a partial write (14 R438) and yields to a whole-line write of an OWNED frame (14 R439). -/
def State.coreStore (s : State) (core line mask : Nat) (data : Line) : State × Bool :=
  match s.mem.cline? core line with
  | none => (s, false)
  | some c =>
    let whole := mask % 2 ^ 64 = 2 ^ 64 - 1 ∧ s.ownedFrame (64 * line)
    if c.poison ∧ ¬ whole then (s, false)
    else
      let d := mergeLine c.data data mask
      let c' : CacheLine :=
        match c.st with
        | .exclusive | .modified => { c with st := .modified, data := d, early := 0, poison := false }
        | _ => { c with data := d, early := c.early ||| mask, poison := false }
      ({ s with mem := s.mem.setCline core line c' }, true)

/-! ## Relief banks (06 R177, R199 to R202) -/

/-- The bank key of a position. -/
def bankKey (core pos : Nat) : Nat := 256 * core + pos

/-- Bytes of a bank. -/
def bankBytes : Nat := 0x200000

/-- A granule is poisoned, or its bank has left service (06 R199, R201). -/
def Bank.poisoned (b : Bank) (g : Nat) : Bool := b.lost || b.poison.get (fun _ => false) g

/-- The granules that `n` bytes from `off` touch. -/
def granulesOf (off n : Nat) : List Nat := linesOf off n

/-- Some granule of the bytes is poisoned. -/
def Bank.anyPoison (b : Bank) (off n : Nat) : Bool := (granulesOf off n).any b.poisoned

/-- A write of masked bytes to a granule: a poisoned granule takes only a write of the whole granule, which clears it; a lost bank takes none (06 R200, R201). -/
def Bank.writeGranule (b : Bank) (g mask : Nat) (data : Line) : Bank × Bool :=
  if b.lost then (b, false)
  else if b.poison.get (fun _ => false) g then
    if mask % 2 ^ 64 = 2 ^ 64 - 1 then
      ({ b with data := b.data.writeMasked (64 * g) mask data.toNat, poison := b.poison.set (fun _ => false) g false }, true)
    else (b, false)
  else ({ b with data := b.data.writeMasked (64 * g) mask data.toNat }, true)

/-- Bytes written to a bank; the result says whether every granule took them. -/
def Bank.writeBytes (b : Bank) (off : Nat) (bytes : List Byte) : Bank × Bool :=
  (granulesOf off bytes.length).foldl (fun (r : Bank × Bool) g =>
    let p := linePart off bytes g
    let w := r.1.writeGranule g p.1 p.2
    (w.1, r.2 && w.2)) (b, true)

/-- Reservations on granules of the bytes are cleared, but the writer's own (07 R223). -/
def Bank.clearResv (b : Bank) (off n : Nat) (own : Option Nat) : Bank :=
  { b with resv := b.resv.filter fun e => !(decide (e.2 ∈ granulesOf off n) && some e.1 != own) }

/-- A write to a bank by an agent. `own` is the reserving cell when the write is its own scalar store. -/
def State.bankWrite (s : State) (k off : Nat) (bytes : List Byte) (own : Option Nat) : State × Bool :=
  let r := ((s.bank k).clearResv off bytes.length own).writeBytes off bytes
  (s.setBank k r.1, r.2)

/-- Bytes of a bank. -/
def State.bankRead (s : State) (k off n : Nat) : List Byte := (s.bank k).data.readBytes off n

/-- A context claims a Relief block of a core. -/
def State.claimant (s : State) (core block : Nat) : Option Nat :=
  let c := (s.core core).claims.at 0 block
  if c = 0 then none else some (c - 1)

/-- The Relief block of a logical position (06 R179). -/
def blockOfPos (pos : Nat) : Nat := 4 * (pos / 64) + (pos % 16) / 4

/-- A bank error is found at a granule (06 R199, R202): a corrected error counts; an uncorrectable one poisons the granule, counts, is logged and writes a Patina entry. -/
def State.bankError (s : State) (k g : Nat) (err : MemErr) : State :=
  let core := k / 256
  let pos := k % 256
  match err with
  | .ok => s
  | .corrected =>
    let s1 := s.bumpCore core (corePage core 1) .relErrcnt Fld.relErrcnt_corrected 1
    let cell := (s.core core).map.at 0 pos
    if cell = 0 then s1 else s1.countCe core (cell - 1) 1
  | _ =>
    let b := s.bank k
    let s1 := s.setBank k { b with poison := b.poison.set (fun _ => false) g true }
    let s2 := s1.bumpCore core (corePage core 1) .relErrcnt Fld.relErrcnt_uncorr 1
    let pk := corePage core 1
    let s3 := (((s2.setFld pk .relPlog Fld.relPlog_position pos).setFld pk .relPlog Fld.relPlog_granule g).setFld
      pk .relPlog Fld.relPlog_cause 1).setFld pk .relPlog Fld.relPlog_time s.time
    s3.logEvent 5 (s.coreOwner core) (0x1000 + 0x100 * core + 1) 7 core
      (packFields [(1, pos), (2, g), (2, (s.claimant core (blockOfPos pos)).getD 0), (1, (s.coreOwner core).getD 16)])

end Sys2Proof.Machine
end

