-- ==== Sys2Proof/Machine/Translate.lean ====
section
/-! DEFINITION. Address translation (10): the walk of the device page table, the TLBs, the aperture half, the ATC, and the place an address names. -/

namespace Sys2Proof.Machine

/-! ## Rights and places -/

/-- The right an access needs (10 R304). -/
inductive Right where
  | read | write | atomic
  deriving DecidableEq, Repr

/-- What becomes of an address: a place; a missing translation or right; a page-table entry in a poisoned line (R568); a host translation being fetched again, for which a cell access waits (R316). -/
inductive Xl where
  | ok (p : Place)
  | missing
  | poison (line : Nat)
  | wait
  deriving DecidableEq, Repr

/-! ## Page-table entries (R300 to R302) -/

/-- The size of the table an entry of a level points at: level-1 tables are 4 KiB, level-2 tables 256 bytes (R300). -/
def nextTableSize (level : Nat) : Nat := if level = 0 then 4096 else 256

/-- An entry is valid for translation at its level (R301, R302, 14 R426). -/
def ptValid (w level : Nat) (e : Word) : Bool :=
  let typ := e.fld 1 2
  e.bit 0 &&
    (match typ with
     | 0 => decide (level < 2) && e.fld 3 5 == 0 && e.fld 40 20 == 0 && e.fld 8 32 * 256 % nextTableSize level == 0
     | 1 => decide (1 ≤ level) && !e.bit 7 && e.fld 8 17 == 0 && e.fld 40 20 == 0 && decide (e.fld 25 15 < devFrames)
        && (level == 2 || e.fld 25 5 == 0) && (e.bit 6 == !isWide w (e.fld 25 15 * 0x2000000))
     | 2 => level == 2 && !e.bit 6 && !e.bit 7 && e.fld 16 44 == 0
     | _ => false)

/-- The index of a level, and the key of a cached table entry (R300, R308). -/
def ptIndex (level va : Nat) : Nat := if level = 0 then nbits va 39 12 else if level = 1 then nbits va 30 9 else nbits va 25 5

/-- The address bits that name a table entry of a level in the walk cache. -/
def ptKey (level va : Nat) : Nat := if level = 0 then nbits va 39 12 else nbits va 30 21

/-- A frame passes the ownership check for a partition: OWNED by it, or, for a read, a CAST frame whose Cast admits it (09 R275, 16 R481). -/
def State.framePasses (s : State) (part : Nat) (rd : Bool) (f : Nat) : Bool :=
  let x := s.frame f
  (x.state == 1 && x.part == part)
    || (rd && x.state == 3 &&
        (match s.castOfFrame f with
         | some n => (s.cast n).state == 2 && (s.cast n).admits.testBit part
         | none => false))

/-- What a walk finds: a leaf with its level, nothing usable (with whether an invalid entry with V set was read), or poison. -/
inductive Walk where
  | leaf (e : Word) (big : Bool)
  | missing (bad : Bool)
  | poison (line : Nat)
  deriving DecidableEq, Repr

/-- A unit's walk cache: the sixteen cores have one (R308). -/
def State.walksOf (s : State) (unit : Nat) : List WalkEntry := if unit < 16 then (s.core unit).walks else []

/-- A unit's TLB: a core's, or the device TLB of the ATU (unit 16). -/
def State.tlbOf (s : State) (unit : Nat) : List TlbEntry := if unit < 16 then (s.core unit).tlb else s.pl.dtlb

/-- A table entry as a walk reads it: from the walk cache, or from the home; a table outside the partition's frames is missing, a poisoned line consumes the poison (R305, R306, R568). -/
def State.ptRead (s : State) (unit ctx level va table : Nat) : Except Walk Word :=
  match (s.walksOf unit).find? fun e => e.ctx == ctx && e.level == level && e.index == ptKey level va with
  | some e => .ok e.entry
  | none =>
    let a := table + 8 * ptIndex level va
    if ¬ s.framePasses (s.ctx ctx).part false (frameOf a) then .error (.missing false)
    else if s.mem.homePoison (a / 64) then .error (.poison (a / 64))
    else .ok (s.mem.homeWord a)

/-- The walk from a level on (R300, R302). -/
def State.walkFrom (s : State) (unit ctx va : Nat) : Nat → Nat → Nat → Walk
  | 0, _, _ => .missing false
  | n + 1, level, table =>
    match s.ptRead unit ctx level va table with
    | .error w => w
    | .ok e =>
      if ptValid s.wide level e then
        if e.fld 1 2 = 0 then State.walkFrom s unit ctx va n (level + 1) (e.fld 8 32 * 256)
        else .leaf e (level == 1)
      else .missing (e.bit 0)

/-- The walk of a device-half address of a context (R300). -/
def State.walk (s : State) (unit ctx va : Nat) : Walk := s.walkFrom unit ctx va 3 0 (s.ctx ctx).ptRoot

/-- The table entries a walk reads and a walk cache keeps: level, entry (R308). -/
def State.walkTables (s : State) (unit ctx va : Nat) : Nat → Nat → Nat → List WalkEntry
  | 0, _, _ => []
  | n + 1, level, table =>
    match s.ptRead unit ctx level va table with
    | .error _ => []
    | .ok e =>
      if ptValid s.wide level e ∧ e.fld 1 2 = 0 then
        ⟨ctx, level, ptKey level va, e⟩ :: State.walkTables s unit ctx va n (level + 1) (e.fld 8 32 * 256)
      else []

/-- The lines that a walk reads from memory: of the entries that the walk cache does not hold, in tables that pass their frame check (R306, R337). -/
def State.walkLines (s : State) (unit ctx va : Nat) : Nat → Nat → Nat → List Nat
  | 0, _, _ => []
  | n + 1, level, table =>
    let a := table + 8 * ptIndex level va
    let cached := (s.walksOf unit).any fun e => e.ctx == ctx && e.level == level && e.index == ptKey level va
    let here := if cached || !s.framePasses (s.ctx ctx).part false (frameOf a) then [] else [a / 64]
    match s.ptRead unit ctx level va table with
    | .error _ => here
    | .ok e => if ptValid s.wide level e && e.fld 1 2 == 0 then here ++ State.walkLines s unit ctx va n (level + 1) (e.fld 8 32 * 256) else here

/-- The TLB entry for a page of a context. -/
def State.tlbHit (s : State) (unit ctx va : Nat) : Option TlbEntry :=
  (s.tlbOf unit).find? fun e => e.ctx == ctx && (if e.big then e.page == va / 0x40000000 else e.page == va / 0x2000000)

/-- A leaf has a right (R301). -/
def leafRight (e : Word) : Right → Bool
  | .read => e.bit 3
  | .write => e.bit 4
  | .atomic => e.bit 5

/-- The index i of a core among a context's cores: the core's region of the save area (12 R385). -/
def Context.region (x : Context) (core : Nat) : Nat := ((List.range core).filter fun c => x.cores.testBit c).length

/-- Where a context's saved contents of a Relief block lie (12 R385). -/
def Context.reliefSlot (x : Context) (core block : Nat) : Nat :=
  x.saveBase + 0xA100000 + 0x2A000000 * x.region core + 0x2000000 * block

/-- The place of a byte of a Relief page: the bank, or the saved copy while the context's contents are not resident (06 R179, R182). -/
def State.reliefPlace (s : State) (ctx core block o : Nat) : Place :=
  if (s.core core).saved.get (fun _ => false) (16 * ctx + block) then .stack ((s.ctx ctx).reliefSlot core block + o)
  else
    let q := o / 0x200000
    let pos := (4 * (block / 4) + q / 4) * 16 + 4 * (block % 4) + q % 4
    .bank (bankKey core pos) (o % 0x200000)

/-- The place a leaf gives a device-half address, when its checks pass (R303, R304, 09 R275, 06 R180). -/
def State.leafPlace (s : State) (ctx va : Nat) (r : Right) (e : Word) (big : Bool) : Option Place :=
  let part := (s.ctx ctx).part
  if ¬ leafRight e r then none
  else if e.fld 1 2 = 2 then
    if s.coreOwner (e.fld 8 4) = some part then some (s.reliefPlace ctx (e.fld 8 4) (e.fld 12 4) (va % 0x2000000)) else none
  else
    let f := e.fld 25 15
    let fs := if big then (List.range 32).map fun i => f + i else [f]
    if fs.all (s.framePasses part (decide (r = .read))) then
      some (.stack (f * 0x2000000 + va % (if big then 0x40000000 else 0x2000000)))
    else none

/-- A device-half address: a TLB entry with the right, else a walk (R304, R307). -/
def State.xlDevice (s : State) (unit ctx va : Nat) (r : Right) : Xl :=
  let hit := match s.tlbHit unit ctx va with
    | some t => s.leafPlace ctx va r t.leaf t.big
    | none => none
  match hit with
  | some p => .ok p
  | none =>
    match s.walk unit ctx va with
    | .leaf e big =>
      match s.leafPlace ctx va r e big with
      | some p => .ok p
      | none => .missing
    | .missing _ => .missing
    | .poison l => .poison l

/-- The leaf that serves a device-half address: the TLB's where it grants the access, else the walk's. -/
def State.leafFor (s : State) (unit ctx va : Nat) (r : Right) : Option Word :=
  let hit := match s.tlbHit unit ctx va with
    | some t => if (s.leafPlace ctx va r t.leaf t.big).isSome then some t.leaf else none
    | none => none
  match hit with
  | some e => some e
  | none =>
    match s.walk unit ctx va with
    | .leaf e _ => some e
    | _ => none

/-- An address lies in a Relief page, resident or saved (06 R179, R182). -/
def State.inRelief (s : State) (unit ctx va : Nat) (r : Right) : Bool :=
  decide (va < 2 ^ 51) && (match s.leafFor unit ctx va r with
    | some e => e.fld 1 2 == 2
    | none => false)

/-- The bank whose saved copy holds a device address: by core, context, block and bank of the block (06 R182, 12 R385). -/
def State.savedBank (s : State) (a : Nat) : Option (Nat × Nat × Nat × Nat) :=
  (List.range 16).findSome? fun c =>
    (s.core c).saved.findSome? fun e =>
      let slot := (s.ctx (e.1 / 16)).reliefSlot c (e.1 % 16)
      if e.2 && decide (slot ≤ a) && decide (a < slot + 0x2000000) then some (c, e.1 / 16, e.1 % 16, (a - slot) / 0x200000) else none

/-- A list kept to its newest `n`. -/
def keepLast {α : Type} (n : Nat) (l : List α) : List α := l.drop (l.length - n)

/-- The record of an ATU event (10 R335). An agent that R335 gives no number (the window, the fabric) leaves AGENT free (log 2). -/
def State.atuFault (s : State) (addr ctx agent outcome : Nat) : State :=
  let pk := regKey 0x200 0
  let s1 := (if agent ≤ 22 then s else s.drew 1).wr (pk + (Reg.atuFltAddr).off) (Word.ofNat addr)
  s1.wr (pk + (Reg.atuFltInfo).off) (Word.ofNat (Fld.atuFltInfo_context.at ctx + Fld.atuFltInfo_agent.at (if agent ≤ 22 then agent else s.draw)
    + Fld.atuFltInfo_outcome.at outcome + Fld.atuFltInfo_time.at s.time))

/-- An access to a device-half address fills the caches as its translation does: a miss counts and walks, a valid leaf and the tables it passed are cached, nothing refused is kept (R307, R308, R337). `agent` is the ATU's agent number; a walk that serves no access (`quiet`: prefetch, R331) refuses none, and records no missing translation. -/
def State.xlFill (s : State) (unit ctx va : Nat) (r : Right) (agent : Nat) (quiet : Bool := false) : State :=
  let hit := match s.tlbHit unit ctx va with
    | some t => (s.leafPlace ctx va r t.leaf t.big).isSome
    | none => false
  if hit then s
  else
    let core := decide (unit < 16)
    let pk := corePage unit 4
    let root := (s.ctx ctx).ptRoot
    let lines := s.walkLines unit ctx va 3 0 root
    let s0 := s.snoopReads lines
    let s1 :=
      if core then
        let t := s0.bumpCore unit pk .tlbCnt Fld.tlbCnt_misses 1
        if lines.isEmpty then t else t.bumpCore unit pk .tlbCnt Fld.tlbCnt_walks 1
      else s0
    let refused := fun (t : State) =>
      if quiet then t else if core then t.bumpCore unit pk .tlbErr Fld.tlbErr_missing 1 else t.atuFault va ctx agent 5
    let ts := s.walkTables unit ctx va 3 0 root
    let s2 :=
      if core then
        let k := s1.core unit
        let fresh := ts.filter fun t => !(k.walks.any fun w => w.ctx == t.ctx && w.level == t.level && w.index == t.index)
        s1.setCore unit { k with walks := keepLast 64 (k.walks ++ fresh) }
      else s1
    match s.walk unit ctx va with
    | .leaf e big =>
      match s.leafPlace ctx va r e big with
      | some _ =>
        let t : TlbEntry := ⟨ctx, if big then va / 0x40000000 else va / 0x2000000, big, e⟩
        let old := fun (l : List TlbEntry) => l.filter fun x => !(x.ctx == ctx && x.big == big && x.page == t.page)
        if core then
          let k := s2.core unit
          s2.setCore unit { k with tlb := keepLast 2048 (old k.tlb ++ [t]) }
        else { s2 with pl := { s2.pl with dtlb := keepLast 4096 (old s2.pl.dtlb ++ [t]) } }
      | none => refused s2
    | .missing bad =>
      let s3 := refused s2
      if core ∧ bad then s3.bumpCore unit pk .tlbErr Fld.tlbErr_badEntry 1 else s3
    | .poison l =>
      let s3 := s2.consumePoison l ctx
      if core then s3.bumpCore unit pk .tlbErr Fld.tlbErr_poison 1 else s3.atuFault va ctx agent 9

/-! ## The ATC (R317 to R320) -/

/-- The function under which a context's host requests travel: its partition's virtual function while SR-IOV is enabled, else the physical function (07 R227, 10 R317). -/
def State.ctxFunc (s : State) (ctx : Nat) : Nat := if s.pl.sriov then (s.ctx ctx).part + 1 else 0

/-- The ATC entry that covers a host virtual address. -/
def State.atcFind (s : State) (f pasid va : Nat) : Option AtcEntry :=
  s.pl.atc.find? fun e => e.f == f && e.pasid == pasid && e.va == va / 2 ^ e.log2 * 2 ^ e.log2

/-- A host virtual address through the ATC: the host physical address where the entry grants the access. -/
def State.atcLook (s : State) (f pasid va : Nat) (write : Bool) : Option Nat :=
  match s.atcFind f pasid va with
  | some e => if (if write then e.w else e.r) then some (e.hpa + va % 2 ^ e.log2) else none
  | none => none

/-- The use of an ATC entry is noted for replacement (R319). -/
def State.atcTouch (s : State) (f pasid va : Nat) : State :=
  { s with pl := { s.pl with
      atcUses := s.pl.atcUses + 1
      atc := s.pl.atc.map fun e =>
        if e.f = f ∧ e.pasid = pasid ∧ e.va = va / 2 ^ e.log2 * 2 ^ e.log2 then { e with used := s.pl.atcUses + 1 } else e } }

/-- The least recently used entry among those not locked (R319). -/
def atcVictim (l : List AtcEntry) : Option AtcEntry :=
  (l.filter fun e => e.locks == 0).foldl (fun v e =>
    match v with
    | none => some e
    | some x => if e.used < x.used then some e else v) none

/-- The 2 MiB steps that hold a lock: function, PASID and address, for every step of every aperture and of every pre-translated command (R319). -/
def State.lockHolders (s : State) : List (Nat × Nat × Nat) :=
  (s.pl.apts.flatMap fun e => e.2.locked.map fun va => (s.ctxFunc (e.1 / 64), (s.ctx (e.1 / 64)).pasid, va))
    ++ s.pl.queues.flatMap fun e => e.2.cmds.flatMap fun c => c.2.locks.map fun va => (s.ctxFunc e.2.ctx, (s.ctx e.2.ctx).pasid, va)

/-- Every entry's lock count is the number of steps that hold it (R319). -/
def State.relock (s : State) : State :=
  let hs := s.lockHolders
  { s with pl := { s.pl with atc := s.pl.atc.map fun e => { e with locks := (hs.filter fun h => s.atcFind h.1 h.2.1 h.2.2 == some e).length } } }

/-- An accepted completion is cached; at 16,384 entries the least recently used unlocked one makes room (R318, R319). Entries inside its range leave. -/
def State.atcInsert (s : State) (e : AtcEntry) : State :=
  let inside := fun (x : AtcEntry) => x.f == e.f && x.pasid == e.pasid && decide (e.va ≤ x.va) && decide (x.va < e.va + 2 ^ e.log2)
  let rest := s.pl.atc.filter fun x => !inside x
  let rest := if 16384 ≤ rest.length then
      match atcVictim rest with
      | some v => rest.filter fun x => x ≠ v
      | none => rest
    else rest
  ({ s with pl := { s.pl with atcUses := s.pl.atcUses + 1, atc := { e with used := s.pl.atcUses + 1 } :: rest } }).relock

/-- An ATS translation request is sent, on behalf of a user (R317, R335). -/
def State.atsSend (s : State) (f pasid va : Nat) (write : Bool) (user : AtsUser) (again : Bool := false) : State :=
  let s1 := (s.send f (.atsReq pasid va)).bump (regKey 0x200 0) .atuCntAts Fld.atuCntAts_requests 1
  { s1 with pl := { s1.pl with atsReqs := s1.pl.atsReqs ++ [⟨f, pasid, va, write, user, again⟩] } }

/-- The ATU's interrupt source is raised, when ATU_CTL enables it (R316, R321). -/
def State.atuRaise (s : State) : State :=
  let pk := regKey 0x200 0
  if s.fld pk .atuCtl Fld.atuCtl_sourceEn = 1 then s.irqRaise (s.fld pk .atuCtl Fld.atuCtl_source) none else s

/-! ## Apertures (R311 to R316) -/

/-- The key of an aperture: 64 for each context. -/
def aptKey (ctx index : Nat) : Nat := 64 * ctx + index

/-- An aperture. -/
def State.apt (s : State) (ctx index : Nat) : Aperture := s.pl.apts.at {} (aptKey ctx index)

/-- Replacing an aperture. -/
def State.setApt (s : State) (ctx index : Nat) (x : Aperture) : State :=
  { s with pl := { s.pl with apts := s.pl.apts.put {} (aptKey ctx index) x } }

/-- The loaded (or broken) aperture of a context that holds a device address. -/
def State.aptOf (s : State) (ctx va : Nat) : Option Nat :=
  (List.range 64).find? fun i =>
    let x := s.apt ctx i
    (x.state == 1 || x.state == 2) && !x.leaving && decide (x.dbase ≤ va) && decide (va < x.dbase + x.length)

/-- FLAGS of an aperture grant a right (R311). -/
def aptRight (flags : Nat) : Right → Bool
  | .read => flags.testBit 1
  | .write => flags.testBit 2
  | .atomic => flags.testBit 3

/-- A cell's access to the aperture half (R315, R316). -/
def State.xlAperture (s : State) (ctx va : Nat) (r : Right) : Xl :=
  match s.aptOf ctx va with
  | none => .missing
  | some i =>
    let x := s.apt ctx i
    if x.state = 2 ∨ ¬ aptRight x.flags r then .missing
    else
      let hva := va - x.dbase + x.hbase
      match s.atcFind (s.ctxFunc ctx) (s.ctx ctx).pasid hva with
      | none => .wait
      | some e => if r = .read ∨ e.w then .ok (.host (e.hpa + hva % 2 ^ e.log2)) else .missing

/-- The address of a device virtual address of a context, for a cell of a core: the arena window, the device half or the aperture half (09 R277, R298, R315). -/
def State.xlCell (s : State) (core ctx va : Nat) (r : Right) : Xl :=
  let w := (s.ctx ctx).arenaWin
  if 2 ^ 52 ≤ va then .missing
  else if 0 < w ∧ w ≤ va ∧ va < w + 64 then .ok (.arena ctx ((va - w) / 8))
  else if va < 2 ^ 51 then s.xlDevice core ctx va r
  else s.xlAperture ctx va r

/-- The host virtual address that a loaded aperture gives an address of the aperture half (R315). -/
def State.aptHost (s : State) (ctx va : Nat) : Option Nat :=
  (s.aptOf ctx va).map fun i => va - (s.apt ctx i).dbase + (s.apt ctx i).hbase

/-- The caches and counters as a cell's access leaves them: an access of the aperture half uses its ATC entry, and a refused one counts in TLB_ERR.MISSING like one of the device half (R319, R337). -/
def State.xlCellFill (s : State) (core ctx va : Nat) (r : Right) : State :=
  let w := (s.ctx ctx).arenaWin
  if 0 < w ∧ w ≤ va ∧ va < w + 64 then s
  else if va < 2 ^ 51 then s.xlFill core ctx va r 0
  else
    match s.xlCell core ctx va r with
    | .missing => s.bumpCore core (corePage core 4) .tlbErr Fld.tlbErr_missing 1
    | .ok _ =>
      match s.aptHost ctx va with
      | some a => s.atcTouch (s.ctxFunc ctx) (s.ctx ctx).pasid a
      | none => s
    | _ => s

/-- A device-half address for an agent of the Plinth, through the device TLB (R308). -/
def State.xlPlinth (s : State) (ctx va : Nat) (r : Right) : Xl := if va < 2 ^ 51 then s.xlDevice 16 ctx va r else .missing

/-! ## Dropping translations (R276, R291, R310) -/

/-- Every TLB and the device TLB keep only the entries that pass. -/
def State.filterTlbs (s : State) (p : TlbEntry → Bool) (q : WalkEntry → Bool) : State :=
  let s1 := (List.range 16).foldl (fun t c =>
    let k := t.core c
    t.setCore c { k with tlb := k.tlb.filter p, walks := k.walks.filter q }) s
  { s1 with pl := { s1.pl with dtlb := s1.pl.dtlb.filter p } }

/-- The cached translations of a context that lie in a range of 32 MiB pages are dropped, with every walk-cache entry of the context (R310). -/
def State.dropContext (s : State) (ctx : Nat) (all : Bool) (first count : Nat) : State :=
  s.filterTlbs
    (fun e => !(e.ctx == ctx && (all ||
      (if e.big then decide (32 * e.page < first + count) && decide (first < 32 * e.page + 32)
       else decide (first ≤ e.page) && decide (e.page < first + count)))))
    (fun w => w.ctx != ctx)

/-- The cached translations that name a frame are dropped: leaves of it, and tables in it (09 R276). -/
def State.dropFrame (s : State) (f : Nat) : State :=
  s.filterTlbs
    (fun e => !(e.leaf.fld 1 2 == 1 && (if e.big then decide (e.leaf.fld 25 15 ≤ f) && decide (f < e.leaf.fld 25 15 + 32)
      else e.leaf.fld 25 15 == f)))
    (fun w => frameOf (w.entry.fld 8 32 * 256) != f && !(w.level == 0 && frameOf ((s.ctx w.ctx).ptRoot + 8 * w.index) == f))

end Sys2Proof.Machine
end

