-- ==== Sys2Proof/Machine/Operands.lean ====
section
/-! DEFINITION. Operand forms: the fields of a Karnov word (04 R97, R112, 05 R139, R147, R153), scalar, vector, predicate and accumulator operands (05 R129 to R131, 04 R104), and tiles: their layout, their checks and their elements (04 R99 to R102, 03 R66 to R78). -/

namespace Sys2Proof.Machine

/-! ## The instruction word -/

/-- The major opcode (04 R97). -/
def opOf (w : Word) : Nat := w.fld 58 6

/-- The minor code of the opcodes that have one (04 R122, R123, 05 R149, R150, R167). -/
def minorOf (w : Word) : Nat := w.fld 54 4

/-- A reserved or unused field is zero (04 R97). -/
def zeroFld (w : Word) (lo n : Nat) : Bool := w.fld lo n == 0

/-- The sign-extended field of `n` bits from `lo`. -/
def sxFld (w : Word) (lo n : Nat) : Word := Word.ofNat (wrapNat 64 (signedNat (w.fld lo n) n))

/-- KW is zero when WE is clear (04 R112). -/
def asyncHeader (w : Word) : Bool := w.bit 49 || zeroFld w 50 4

/-! ## Registers of a cell (05 R129 to R131, 04 R104) -/

/-- A scalar register; s0 reads as zero (05 R129). -/
def Cell.s (c : Cell) (r : Nat) : Word := if r = 0 then 0 else c.sregs.at 0 r

/-- Writing a scalar register; writes to s0 are discarded (05 R129). -/
def Cell.setS (c : Cell) (r : Nat) (v : Word) : Cell := if r = 0 then c else { c with sregs := c.sregs.put 0 r v }

/-- A 32-bit lane of a vector register (05 R130). -/
def Cell.lane (c : Cell) (v i : Nat) : Nat := (c.vregs.at 0 (128 * v + i)).toNat

/-- Writing a 32-bit lane. -/
def Cell.setLane (c : Cell) (v i x : Nat) : Cell := { c with vregs := c.vregs.put 0 (128 * v + i) (BitVec.ofNat 32 x) }

/-- A BF16 lane: lane 2i is the low half of 32-bit lane i, lane 2i + 1 the high half (05 R130). -/
def Cell.half (c : Cell) (v i : Nat) : Nat := nbits (c.lane v (i / 2)) (16 * (i % 2)) 16

/-- Writing a BF16 lane. -/
def Cell.setHalf (c : Cell) (v i x : Nat) : Cell :=
  let old := c.lane v (i / 2)
  c.setLane v (i / 2) (if i % 2 = 0 then old / 65536 * 65536 + x % 65536 else old % 65536 + x % 65536 * 65536)

/-- Lanes written in order from lane 0; none leaves a lane as it was. -/
def Cell.setLanes (c : Cell) (v : Nat) (f : Nat → Option Nat) : Cell :=
  (List.range 128).foldl (fun k i => match f i with
    | some x => k.setLane v i x
    | none => k) c

/-- BF16 lanes written in order from lane 0. -/
def Cell.setHalves (c : Cell) (v : Nat) (f : Nat → Option Nat) : Cell :=
  (List.range 256).foldl (fun k i => match f i with
    | some x => k.setHalf v i x
    | none => k) c

/-- A predicate; p0 reads as all ones (05 R131). -/
def Cell.pred (c : Cell) (p : Nat) : BitVec 256 := if p = 0 then BitVec.allOnes 256 else c.preds.at 0 p

/-- Writing a predicate; writes to p0 are discarded (05 R131). -/
def Cell.setPred (c : Cell) (p : Nat) (v : BitVec 256) : Cell := if p = 0 then c else { c with preds := c.preds.put 0 p v }

/-- A lane is active when its bit of the governing predicate is set (05 R154). -/
def Cell.active (c : Cell) (p i : Nat) : Bool := (c.pred p).toNat.testBit i

/-- An accumulator element (04 R104). -/
def Cell.acc (c : Cell) (a r j : Nat) : Nat := (c.accs.at 0 (2048 * a + 64 * r + j)).toNat

/-- Writing an accumulator element. -/
def Cell.setAcc (c : Cell) (a r j x : Nat) : Cell := { c with accs := c.accs.put 0 (2048 * a + 64 * r + j) (BitVec.ofNat 32 x) }

/-- A tile descriptor register (04 R99). -/
def Cell.desc (c : Cell) (d : Nat) : BitVec 128 := c.descs.at 0 d

/-- Writing a descriptor register. -/
def Cell.setDesc (c : Cell) (d : Nat) (v : BitVec 128) : Cell := { c with descs := c.descs.put 0 d v }

/-- An asynchronous token (04 R106). -/
def Cell.tok (c : Cell) (k : Nat) : Word := c.toks.at 0 k

/-- Writing a token. -/
def Cell.setTok (c : Cell) (k : Nat) (v : Word) : Cell := { c with toks := c.toks.put 0 k v }

/-- PENDING of a token (04 R106). -/
def Cell.pendingOf (c : Cell) (k : Nat) : Nat := (c.tok k).fld 0 8

/-- Issue adds one to PENDING (04 R107). -/
def Cell.tokIssue (c : Cell) (k : Nat) : Cell := c.setTok k ((c.tok k).setFld 0 8 (c.pendingOf k + 1))

/-- A token advances: PENDING falls, DONE counts modulo 2^32, and a failure sets ERR and CODE where ERR is clear (04 R106, R108, R110). -/
def Cell.tokAdvance (c : Cell) (k : Nat) (code : Nat) : Cell :=
  let t := c.tok k
  let t1 := (t.setFld 0 8 (t.fld 0 8 - 1)).setFld 16 32 (t.fld 16 32 + 1)
  let t2 := if code ≠ 0 ∧ ¬ t.bit 63 then (t1.setFld 48 15 code).setFld 63 1 1 else t1
  c.setTok k t2

/-! ## Tiles (04 R99 to R101) -/

/-- A tile as the instruction copies it: descriptor `n` and its companion (04 R100, R109). -/
def Cell.tile (c : Cell) (n : Nat) : Tile := ⟨c.desc n, c.desc ((n + 1) % 16)⟩

/-- BASE (04 R99). -/
def Tile.base (t : Tile) : Nat := nbits t.d.toNat 0 52
/-- FMT (04 R99). -/
def Tile.fmt (t : Tile) : Nat := nbits t.d.toNat 52 4
/-- SPACE (04 R99). -/
def Tile.space (t : Tile) : Nat := nbits t.d.toNat 56 2
/-- TRANS (04 R99). -/
def Tile.trans (t : Tile) : Bool := t.d.toNat.testBit 58
/-- TERN (04 R99). -/
def Tile.tern (t : Tile) : Bool := t.d.toNat.testBit 59
/-- SPARSE (04 R99). -/
def Tile.sparse (t : Tile) : Bool := t.d.toNat.testBit 60
/-- ROWS (04 R99). -/
def Tile.rows (t : Tile) : Nat := nbits t.d.toNat 64 12 + 1
/-- COLS, counted in dense positions (04 R99). -/
def Tile.cols (t : Tile) : Nat := nbits t.d.toNat 76 16 + 1
/-- STRIDE (04 R99). -/
def Tile.stride (t : Tile) : Nat := nbits t.d.toNat 92 24
/-- SBASE of the companion (04 R100). -/
def Tile.sbase (t : Tile) : Nat := nbits t.comp.toNat 0 52
/-- SPITCH (04 R100). -/
def Tile.spitch (t : Tile) : Nat := nbits t.comp.toNat 64 20
/-- MPITCH (04 R100). -/
def Tile.mpitch (t : Tile) : Nat := nbits t.comp.toNat 84 20
/-- MOFF (04 R100). -/
def Tile.moff (t : Tile) : Nat := nbits t.comp.toNat 104 24

/-- The descriptor needs a companion (04 R100). -/
def Tile.paired (t : Tile) : Bool := fmtBlock t.fmt != 0 || t.sparse

/-- Elements stored in a row: half of the dense positions when compressed (04 R101). -/
def Tile.stored (t : Tile) : Nat := if t.sparse then t.cols / 2 else t.cols

/-- Bytes of a row (04 R101). -/
def Tile.rowBytes (t : Tile) : Nat := (t.stored * fmtBits t.fmt + 7) / 8

/-- Scale bytes of a row (04 R101, 03 R69). -/
def Tile.rowScales (t : Tile) : Nat := if fmtBlock t.fmt = 0 then 0 else t.cols / fmtBlock t.fmt

/-- Metadata bytes of a row (04 R101): COLS / 8, rounded up where COLS is 4 modulo 8 (log 86). -/
def Tile.rowMeta (t : Tile) : Nat := if t.sparse then (t.cols + 7) / 8 else 0

/-- The byte runs of a tile, row by row: elements, then scales, then metadata, each as start and length (04 R101). -/
def Tile.runs (t : Tile) : List (Nat × Nat) :=
  ((List.range t.rows).map fun r => (t.base + r * t.stride, t.rowBytes))
    ++ (if t.rowScales = 0 then [] else (List.range t.rows).map fun r => (t.sbase + r * t.spitch, t.rowScales))
    ++ (if t.rowMeta = 0 then [] else (List.range t.rows).map fun r => (t.sbase + t.moff + r * t.mpitch, t.rowMeta))

/-- Every byte address of a tile, in the order of its runs. -/
def Tile.addrs (t : Tile) : List Nat := t.runs.flatMap fun p => (List.range p.2).map fun i => p.1 + i

/-- The checks of R102 that fail with ILLEGAL_INSTR, for descriptor number `n`, but for the role's formats and spaces. -/
def Tile.lawful (n : Nat) (t : Tile) : Bool :=
  decide (t.fmt ≤ 0xC)
    && decide (t.space ≠ 3)
    && nbits t.d.toNat 61 3 == 0 && nbits t.d.toNat 116 12 == 0
    && (!t.paired || (n % 2 == 0 && nbits t.comp.toNat 52 12 == 0))
    && (!t.trans || decide (t.fmt ≤ 4) || t.fmt == 0xC)
    && (!t.tern || t.fmt == 0xB)
    && (!t.sparse || t.fmt == 3 || t.fmt == 4 || t.fmt == 9 || t.fmt == 0xB)
    && !(t.sparse && t.trans)
    && (if fmtBlock t.fmt ≠ 0 then t.cols % fmtBlock t.fmt == 0 else t.sparse || t.cols * fmtBits t.fmt % 8 == 0)
    && (!t.sparse || t.cols % 4 == 0)
    && t.base % 8 == 0 && t.stride % 8 == 0
    && (t.rows == 1 || decide (t.rowBytes ≤ t.stride))

/-- Every byte of the tile lies below a bound. -/
def Tile.below (t : Tile) (bound : Nat) : Bool :=
  decide (t.base + (t.rows - 1) * t.stride + t.rowBytes ≤ bound)
    && (t.rowScales == 0 || decide (t.sbase + (t.rows - 1) * t.spitch + t.rowScales ≤ bound))
    && (t.rowMeta == 0 || decide (t.sbase + t.moff + (t.rows - 1) * t.mpitch + t.rowMeta ≤ bound))

/-- Operand-store bytes of a cell (02 R27). -/
def opBytes : Nat := 524288

/-- What an instruction requires of one tile: its descriptor number, its space, and a condition on format and flags (04 R102). -/
structure TileUse where
  n : Nat
  t : Tile
  space : Nat
  ok : Bool

/-- The code a tile fails R102 with: ILLEGAL_INSTR, or PROTECTION for the Relief extent against the engine's RELIEF figure. -/
def TileUse.fail (relief : Nat) (u : TileUse) : Option Nat :=
  if ¬ (u.t.lawful u.n && u.t.space == u.space && u.ok) then some 5
  else if u.space = 0 ∧ ¬ u.t.below opBytes then some 5
  else if u.space = 1 ∧ ¬ u.t.below relief then some 6
  else none

/-- The code the tiles of an instruction fail with: ILLEGAL_INSTR of any comes before PROTECTION (log 22). -/
def tilesFail (relief : Nat) (us : List TileUse) : Option Nat :=
  let fs := us.filterMap (TileUse.fail relief)
  if fs.any fun c => c == 5 then some 5 else fs.head?

/-! ## Elements (03 R66, R68, R76) -/

/-- `n` bytes from `a` of a byte source, as a little-endian Nat. -/
def readN (rd : Nat → Byte) (a n : Nat) : Nat := ofBytes ((List.range n).map fun i => rd (a + i))

/-- Stored element `n` of row `r`: its bits by R66. -/
def Tile.raw (rd : Nat → Byte) (t : Tile) (r n : Nat) : Nat :=
  let w := fmtBits t.fmt
  nbits (readN rd (t.base + r * t.stride + n * w / 8) ((n * w % 8 + w + 7) / 8)) (n * w % 8) w

/-- The scale byte of block `b` of row `r` (04 R101). -/
def Tile.scaleAt (rd : Nat → Byte) (t : Tile) (r b : Nat) : Nat := (rd (t.sbase + r * t.spitch + b)).toNat

/-- The metadata nibble of group `g` of row `r` (03 R76, 04 R101). -/
def Tile.metaAt (rd : Nat → Byte) (t : Tile) (r g : Nat) : Nat :=
  nbits (rd (t.sbase + t.moff + r * t.mpitch + g / 2)).toNat (4 * (g % 2)) 4

/-- An element as a value with the flags of reading it: its encoding, times its block's scale at dense position `k` (03 R65, R68, R70). -/
def Tile.valueOf (rd : Nat → Byte) (t : Tile) (r k raw : Nat) : Num × Nat :=
  let v := elemValue t.fmt t.tern raw
  if fmtBlock t.fmt = 0 then v else (scaleValue (t.scaleAt rd r (k / fmtBlock t.fmt)) v.1, v.2)

/-- Element (r, n) of a dense tile. -/
def Tile.value (rd : Nat → Byte) (t : Tile) (r n : Nat) : Num × Nat := t.valueOf rd r n (t.raw rd r n)

/-- The element of a sparse row at a dense position: the kept value the metadata names there, else zero; an invalid nibble makes its group zero and flags SPARSE_META (03 R76, R78). -/
def Tile.sparseValue (rd : Nat → Byte) (t : Tile) (r k : Nat) : Num × Nat :=
  let g := k / 4
  let nib := t.metaAt rd r g
  let p0 := nib % 4
  let p1 := nib / 4
  if p1 ≤ p0 then (.fin false 0 0, flagSparseMeta)
  else if k % 4 = p0 then t.valueOf rd r k (t.raw rd r (2 * g))
  else if k % 4 = p1 then t.valueOf rd r k (t.raw rd r (2 * g + 1))
  else (.fin false 0 0, 0)

/-- Row `i`, reduction position `k` of a tensor operand (04 R101): TRANS exchanges tile row and element. -/
def Tile.operand (rd : Nat → Byte) (t : Tile) (i k : Nat) : Num × Nat :=
  if t.sparse then t.sparseValue rd i k else if t.trans then t.value rd k i else t.value rd i k

/-- Rows of a tensor operand (04 R101, R114). -/
def Tile.opRows (t : Tile) : Nat := if t.trans then t.cols else t.rows
/-- The reduction length of a tensor operand (04 R101, R115). -/
def Tile.opK (t : Tile) : Nat := if t.trans then t.rows else t.cols

/-- Accumulator rows that a read-out to the tile covers (04 R118): its rows, or its columns under TRANS. -/
def Tile.opRowsT (t : Tile) : Nat := if t.trans then t.cols else t.rows
/-- Accumulator columns that a read-out to the tile covers. -/
def Tile.opColsT (t : Tile) : Nat := if t.trans then t.rows else t.cols

/-! ## Writing tiles (03 R66, R88 to R92) -/

/-- Element codes packed into the bytes of a row (03 R66). -/
def packCodes (w : Nat) (codes : List Nat) : List Byte :=
  bytesOf ((codes.length * w + 7) / 8) (codes.foldr (fun c acc => c % 2 ^ w + 2 ^ w * acc) 0)

/-- Conversion of a row of values to a format: element codes, scale bytes, flags. `us` holds the elements' draws (03 R86). -/
def convRow (fmt : Nat) (tern : Bool) (r : Rnd) (rule : Nat) (us : List Nat) (xs : List Num) : List Nat × List Nat × Nat :=
  let b := fmtBlock fmt
  if b = 0 then
    let es := (xs.zip us).map fun p => encodeUnscaled fmt r p.2 p.1
    (es.map Prod.fst, [], es.foldl (fun a e => a ||| e.2) 0)
  else
    let bs := (List.range (xs.length / b)).map fun i =>
      encodeBlock fmt tern r rule ((us.drop (i * b)).take b) ((xs.drop (i * b)).take b)
    (bs.flatMap fun e => e.2.1, bs.map fun e => e.1, bs.foldl (fun a e => a ||| e.2.2) 0)

/-- The bytes a tile's row `r` takes from a row of values, as (address, byte), with the flags. -/
def Tile.rowWrites (t : Tile) (rnd : Rnd) (rule : Nat) (us : List Nat) (r : Nat) (xs : List Num) : List (Nat × Byte) × Nat :=
  let c := convRow t.fmt t.tern rnd rule us xs
  let body := packCodes (fmtBits t.fmt) c.1
  let put := fun (a : Nat) (l : List Byte) => (List.range l.length).zip l |>.map fun p => (a + p.1, p.2)
  (put (t.base + r * t.stride) body ++ put (t.sbase + r * t.spitch) (c.2.1.map (BitVec.ofNat 8)), c.2.2)

/-- The bytes a tile takes from values given by row and column, with the flags; element (r, n) draws number r × cols + n. -/
def Tile.writes (t : Tile) (rnd : Rnd) (rule : Nat) (free : Nat → Nat) (x : Nat → Nat → Num) : List (Nat × Byte) × Nat :=
  let rs := (List.range t.rows).map fun r =>
    t.rowWrites rnd rule ((List.range t.cols).map fun n => free (r * t.cols + n)) r ((List.range t.cols).map (x r))
  (rs.flatMap Prod.fst, rs.foldl (fun a e => a ||| e.2) 0)

/-- Bytes written to the operand store. -/
def Cell.opWrites (c : Cell) (ws : List (Nat × Byte)) : Cell := { c with ops := ws.foldl (fun m p => m.write p.1 p.2) c.ops }

/-- A byte of the operand store. -/
def Cell.opRd (c : Cell) (a : Nat) : Byte := c.ops.read a

/-! ## Byte moves by granule (04 R110, 06 R177) -/

/-- The address-wise union of two tiles of equal shape: (source, destination) of each byte (04 "Moves"). -/
def moveBytes (src dst : Tile) : List (Nat × Nat) := src.addrs.zip dst.addrs

/-- Byte writes gathered by 64-byte granule: mask and data of each. -/
def byGranule (ws : List (Nat × Byte)) : SMap (Nat × Nat) :=
  ws.foldl (fun (m : SMap (Nat × Nat)) p =>
    let g := p.1 / 64
    let i := p.1 % 64
    let o := m.at (0, 0) g
    m.put (0, 0) g
      (if o.1.testBit i then (o.1, o.2 - nbits o.2 (8 * i) 8 * 256 ^ i + p.2.toNat * 256 ^ i)
       else (o.1 + 2 ^ i, o.2 + p.2.toNat * 256 ^ i))) []

end Sys2Proof.Machine
end

