-- ==== Sys2Proof/Machine/Flags.lean ====
section
/-! DEFINITION. Flag computations: AFLAGS and the Relief flag word (03 R93 to R95, 06 R198), and the conditions of branches and compares (05 R137, R158). -/

namespace Sys2Proof.Machine

/-- Sticky flags are set in AFLAGS (03 R93, R95). -/
def Cell.flag (c : Cell) (f : Nat) : Cell := { c with aflags := c.aflags ||| Word.ofNat f }

/-- Sticky flags are set in a bank's flag word; SPARSE_META is never set in it (06 R198). -/
def Bank.flag (b : Bank) (f : Nat) : Bank := { b with flags := b.flags ||| Word.ofNat (f % 256) }

/-- Flags without those of a mask. -/
def dropFlag (f mask : Nat) : Nat := ((Word.ofNat f) &&& ~~~ (Word.ofNat mask)).toNat

/-- The tensor array never flags INEXACT (03 R81). -/
def tensorFlags (f : Nat) : Nat := dropFlag f flagInexact

/-- A branch condition (05 R137): EQ, NE, LT, GE, LTU, GEU; the reserved codes hold never. -/
def branchHolds (cond : Nat) (a b : Word) : Bool :=
  match cond with
  | 0 => a == b
  | 1 => a != b
  | 2 => BitVec.slt a b
  | 3 => !BitVec.slt a b
  | 4 => BitVec.ult a b
  | 5 => !BitVec.ult a b
  | _ => false

/-- A floating comparison (05 R158): every one involving a NaN is false but NE and UNORD. -/
def floatCompare (fn : Nat) (a b : Num) : Bool :=
  match fn with
  | 0 => a.eqv b
  | 1 => !a.eqv b
  | 2 => a.lt b
  | 3 => a.lt b || a.eqv b
  | 4 => b.lt a
  | 5 => b.lt a || a.eqv b
  | 6 => a.isNan || b.isNan
  | _ => false

/-- An INT32 comparison (05 R158). -/
def intCompare (fn a b : Nat) : Bool :=
  let x := signedNat a 32
  let y := signedNat b 32
  match fn with
  | 0 => a == b
  | 1 => a != b
  | 2 => decide (x < y)
  | 3 => decide (x ≤ y)
  | 4 => decide (y < x)
  | 5 => decide (y ≤ x)
  | 7 => decide (a < b)
  | 8 => decide (b ≤ a)
  | _ => false

end Sys2Proof.Machine
end

