-- ==== Sys2Proof/Machine/Issue.lean ====
section
/-! DEFINITION. How a cell issues an instruction, stalls, blocks and traps (02 R36, 04 R97, R105 to R111, 05 R132, R137, R138, R170 to R173), and what order its accesses keep (07 R207, R214). -/

namespace Sys2Proof.Machine

/-! ## The cells of an engine (02 R36) -/

/-- Columns of an engine of 2^k cells. -/
def engWidth (k : Nat) : Nat := 2 ^ ((k + 1) / 2)
/-- Rows of an engine of 2^k cells. -/
def engHeight (k : Nat) : Nat := 2 ^ (k / 2)
/-- Cells of an engine. -/
def Engine.size (e : Engine) : Nat := 2 ^ e.sizeLog2
/-- The logical position of the cell with an index (02 R36). -/
def Engine.posOf (e : Engine) (i : Nat) : Nat := e.origin + 16 * (i / engWidth e.sizeLog2) + i % engWidth e.sizeLog2
/-- The keys of an engine's cells, by cell index. -/
def Engine.keys (core : Nat) (e : Engine) : List Nat := (List.range e.size).map fun i => 256 * core + e.posOf i
/-- The key of a cell of an engine. -/
def State.cellKey (s : State) (c : CellRef) : Nat := 256 * c.core + (s.engine c.core c.eng).posOf c.idx

/-- An engine's context is resident on its core: its cells hold live state (12 R375). -/
def State.resident (s : State) (core eng : Nat) : Bool :=
  (s.engine core eng).formed && (s.core core).residents.contains (s.engine core eng).ctx

/-- The resident engine of a core that holds a logical position. -/
def State.engineAt (s : State) (core pos : Nat) : Option Nat :=
  (List.range 64).find? fun n =>
    s.resident core n && ((List.range (s.engine core n).size).any fun i => (s.engine core n).posOf i == pos)

/-- An engine is stopping at instruction boundaries for a switch or a migration (04 R111). -/
def State.draining (s : State) (core eng : Nat) : Bool :=
  let e := s.engine core eng
  e.state == 5 ||
    match (s.core core).switch with
    | some w => w.step == 1 && w.out.contains e.ctx
    | none => false

/-- The most MVBC instances that any cell of an engine has issued (04 R127). -/
def State.mvbcMax (s : State) (core : Nat) (e : Engine) : Nat := ((e.keys core).map fun k => (s.gather k).mvbc).foldl max 0

/-- The fewest. -/
def State.mvbcMin (s : State) (core : Nat) (e : Engine) : Nat :=
  ((e.keys core).map fun k => (s.gather k).mvbc).foldl min (s.mvbcMax core e)

/-- A cell runs and may issue: its engine runs a command and is not stopping, no failed operation holds it back, and a drain lets it go on only to an MVBC that other cells have issued (04 R110, R111, 05 R170, R172, 18 R525). -/
def State.cellRuns (s : State) (c : CellRef) : Bool :=
  let e := s.engine c.core c.eng
  let k := s.cellKey c
  s.serving && !s.standby && s.resident c.core c.eng && decide (c.idx < e.size) && (e.state == 1 || e.state == 5) && e.stopping == 0
    && decide ((s.cell k).phase = .running) && (s.flight k).failed.isNone
    && (!s.draining c.core c.eng || decide ((s.gather k).mvbc < s.mvbcMax c.core e))

/-! ## Order of a cell's accesses (07 R207, R214) -/

/-- Bytes of one place after another. -/
def Place.add : Place → Nat → Place
  | .stack a, n => .stack (a + n)
  | .bank p off, n => .bank p (off + n)
  | .host a, n => .host (a + n)
  | .arena c a, n => .arena c (a + n)

/-- Two runs of bytes overlap. -/
def overlapN (a n b m : Nat) : Bool := decide (a < b + m) && decide (b < a + n)

/-- Two accesses touch a common byte. -/
def Place.overlaps (p : Place) (n : Nat) (q : Place) (m : Nat) : Bool :=
  match p, q with
  | .stack a, .stack b => overlapN a n b m
  | .bank j a, .bank k b => j == k && overlapN a n b m
  | .host a, .host b => overlapN a n b m
  | .arena c a, .arena d b => c == d && a == b
  | _, _ => false

/-- A line still holds early-visible bytes: a line of a core's cache, or a host line (07 R209, R217). -/
def State.lineEarly (s : State) (core line : Nat) (host : Bool) : Bool :=
  if host then
    match s.mem.hlc.find? line with
    | some l => l.early != 0
    | none => false
  else
    match s.mem.cline? core line with
    | some l => l.early != 0
    | none => false

/-- A store that a cache accepted before ownership still waits for it (07 R209, R217). -/
def State.earlyOpen (s : State) (core : Nat) (e : EarlyStore) : Bool := s.lineEarly core e.line e.host

/-- A tag lies in a tag mask; 0 means every tag (07 R215). -/
def inTags (mask t : Nat) : Bool := mask == 0 || mask.testBit t

/-- What the order of an access depends on: its place in program order, tag, marks, and for a scalar access where it lies. -/
structure Acc where
  id : Nat
  tag : Nat
  acq : Bool
  rel : Bool
  scalar : Option (Place × Nat)
  /-- A plain load takes its own cell's buffered bytes (07 R208). -/
  plain : Bool := false
  /-- A scalar store, which a line may take beside bytes it already holds early (R209). -/
  store : Bool := false
  /-- It writes. -/
  write : Bool := false
  /-- It lies in host memory, where its marks act at system scope (R214). -/
  host : Bool := false

/-- An earlier access that has not been performed holds back a later one (07 R207): same tag, an acquire mark on the earlier, a release mark on the later, or scalar accesses to overlapping bytes, but for a plain load behind the cell's own store (R208). -/
def Acc.holds (e a : Acc) (store : Bool) : Bool :=
  let lap := match e.scalar, a.scalar with
    | some p, some q => p.1.overlaps p.2 q.1 q.2
    | _, _ => false
  if store && a.plain && lap then false
  else decide (e.id < a.id) && (e.tag == a.tag || e.acq || a.rel || lap)

/-- An accepted store of the cell, not yet performed outside the core, holds a later access back (07 R207, R212, R214): by tag, by overlapping bytes, or by a release mark whose scope it concerns. A plain load takes the cell's own bytes (R208), and a store to the same line becomes visible with it (R209). -/
def EarlyStore.holds (e : EarlyStore) (a : Acc) : Bool :=
  let lap := match e.bytes, a.scalar with
    | some p, some q => p.1.overlaps p.2 q.1 q.2
    | _, _ => false
  let same := match a.scalar with
    | some (.stack x, _) => !e.host && x / 64 == e.line
    | some (.host x, _) => e.host && x / 64 == e.line
    | _ => false
  if (a.plain && lap) || (a.store && same) then false
  else e.tag == a.tag || lap || (a.rel && (a.host || !e.host))

/-- A place in host memory. -/
def Place.isHost : Place → Bool
  | .host _ => true
  | _ => false

/-- A buffered store as an access. -/
def StoreEntry.acc (e : StoreEntry) : Acc :=
  { id := e.id, tag := e.tag, acq := false, rel := e.rel, scalar := some (e.place, e.size), store := true, write := true, host := e.place.isHost }

/-- An outstanding load, atomic, LR or SC as an access. -/
def LoadEntry.acc (e : LoadEntry) : Acc :=
  { id := e.id, tag := e.tag, acq := e.acq, rel := e.rel, scalar := some (e.place, e.size)
    plain := match e.kind with
      | .ld _ => true
      | _ => false
    write := match e.kind with
      | .ld _ | .lr => false
      | _ => true
    host := e.place.isHost }

/-- An asynchronous operation as an access, when it is one to memory (07 R207, R215). -/
def AsyncOp.acc (o : AsyncOp) : Option Acc :=
  match o.kind with
  | .mvdm dir _ mem tag acq rel _ =>
    some { id := o.id, tag := tag, acq := acq, rel := rel, scalar := none, write := dir, host := decide (2 ^ 51 ≤ mem.base) }
  | .racc _ _ tag rel _ => some { id := o.id, tag := tag, acq := false, rel := rel, scalar := none, write := true }
  | _ => none

/-- Lines with early-visible stores of a core's other cells, and with `host` the host lines with those of any other cell: writes that the cell may have observed and that its releases order (07 R209, R212, R217). -/
def State.othersEarly (s : State) (core k : Nat) (host : Bool) : List (Nat × Bool) :=
  s.flights.flatMap fun f =>
    if f.1 = k then []
    else (f.2.early.filter fun e => (e.host && host || !e.host && f.1 / 256 == core) && s.earlyOpen (f.1 / 256) e).map fun e => (e.line, e.host)

/-- Nothing earlier holds the access back (07 R207, R212, R215): no buffered store, outstanding load or atomic, move or RACC, no accepted store of the cell that is not yet performed outside, for a release none of another cell, and for a write none that a full fence found. -/
def State.mayPerform (s : State) (core k : Nat) (a : Acc) : Bool :=
  let f := s.flight k
  !(f.stbuf.any fun e => e.acc.holds a true)
    && !(f.loads.any fun e => e.acc.holds a false)
    && !((f.mq ++ f.raccs).any fun o => match o.acc with
        | some e => e.holds a false
        | none => false)
    && !(f.early.any fun e => s.earlyOpen core e && e.holds a)
    && !(a.rel && !(s.othersEarly core k a.host).isEmpty)
    && !(a.write && f.debts.any fun d => s.lineEarly core d.1 d.2.1 && inTags d.2.2 a.tag)

/-! ## Stopping and trapping (05 R171 to R173) -/

/-- A cell leaves the monitor slot it waits on; the last waiter unbinds it, unless it is armed (08 R256, R258). -/
def State.leaveSlot (s : State) (n k : Nat) : State :=
  let m := s.mon n
  let w := m.waiters.filter fun x => x != k
  s.setMon n { m with waiters := w, bound := if w.isEmpty && !m.armed then none else m.bound }

/-- A cell leaves the ADDB queue of a counter. -/
def State.leaveAddb (s : State) (core phys k : Nat) : State :=
  let c := s.core core
  s.setCore core { c with addbQ := c.addbQ.put [] phys ((c.addbQ.at [] phys).filter fun x => x != k) }

/-- What a blocked cell leaves behind when its instruction ends without effect (05 R172, 08 R265). -/
def State.unblock (s : State) (core k : Nat) : State :=
  match (s.cell k).phase with
  | .blocked (.addb phys _ _ _) => s.leaveAddb core phys k
  | .blocked (.fwait _ _ _ _ (some n) _) => s.leaveSlot n k
  | _ => s

/-- A cell's reservation is lost (05 R144, 07 R223). -/
def State.dropResv (s : State) (k : Nat) : State :=
  let c := s.cell k
  let s1 := match c.resv with
    | some (.bank b _) => s.setBank b { s.bank b with resv := (s.bank b).resv.filter fun e => e.1 != k }
    | _ => s
  s1.setCell k { c with resv := none }

/-- A cell stops: a blocking instruction ends without effect; a cell that has ended stays ended (05 R172). -/
def State.stopCell (s : State) (core k : Nat) : State :=
  let s1 := s.unblock core k
  let c := s1.cell k
  match c.phase with
  | .running | .blocked _ => s1.setCell k { c with phase := .stopped }
  | _ => s1

/-- The granules of a write list kept by a choice (04 R110, R111: each granule old or new). -/
def chooseGranules (free : Nat → Nat) (bad : Nat → Bool) (ws : List (Nat × Byte)) : List (Nat × Byte) :=
  ws.filter fun p => !bad (p.1 / 64) && free (p.1 / 64) % 2 == 1

/-- A mask without a bit. -/
def clearBit (m i : Nat) : Nat := if m.testBit i then m - 2 ^ i else m

/-- A mask with a bit. -/
def setBit (m i : Nat) : Nat := if m.testBit i then m else m + 2 ^ i

/-- Two descriptors agree in FMT, ROWS, COLS, TRANS, TERN and SPARSE (04 R124, R125, R128). -/
def Tile.agrees (t u : Tile) : Bool :=
  t.fmt == u.fmt && t.rows == u.rows && t.cols == u.cols && t.trans == u.trans && t.tern == u.tern && t.sparse == u.sparse

/-- A cell's instance of a collective is over: the source no longer waits for it (04 R128). -/
def State.serveMvbc (s : State) (core eng k inst : Nat) : State :=
  let e := s.engine core eng
  let m := e.mvbc.at (0, 0) inst
  let i := ((List.range e.size).find? fun j => 256 * core + e.posOf j == k).getD 0
  if m.1 = 0 then s else s.setEngine core eng { e with mvbc := e.mvbc.put (0, 0) inst (m.1, setBit m.2 i) }

/-- The tile that the source of a collective sends, once its instance has started: none to the source itself, and none to a destination whose DO differs (04 R127, R128). -/
def State.mvbcSent (s : State) (core : Nat) (e : Engine) (k inst : Nat) (t : Tile) : Option (Nat × Tile) :=
  let src := (e.mvbc.at (0, 0) inst).1
  if src = 0 ∨ src > e.size then none
  else
    let sk := 256 * core + e.posOf (src - 1)
    ((s.flight sk).mq.findSome? fun p => match p.kind with
      | .mvbc u _ n => if n = inst ∧ p.started ∧ sk ≠ k ∧ t.agrees u then some u else none
      | _ => none).map fun u => (sk, u)

/-- An MVBC instance of a cell is cut: it completes without error, its destination old or, where the source and the destination have started, old or new by granule (04 R111, R128). -/
def State.cutMvbc (s : State) (core eng k : Nat) (o : AsyncOp) (t : Tile) (inst : Nat) : State :=
  let f := s.flight k
  let ws := match s.mvbcSent core (s.engine core eng) k inst t with
    | some (sk, u) => if o.started then (moveBytes u t).map fun p => (p.2, (s.cell sk).opRd p.1) else []
    | none => []
  let d := s.draws
  let c := ((s.cell k).opWrites (chooseGranules (fun g => Config.freeNat (d + g)) (fun _ => false) ws)).tokAdvance o.ks 0
  (((s.setCell k c).setFlight k { f with mq := f.mq.filter fun p => p.id != o.id }).serveMvbc core eng k inst).drew 8192

/-- Every MVBC collective that not every cell has issued is cut, and every cell's count catches up (04 R111; log 23). -/
def State.cutCollectives (s : State) (core eng : Nat) : State :=
  let e := s.engine core eng
  let lo := s.mvbcMin core e
  let hi := s.mvbcMax core e
  let s1 := (e.keys core).foldl (fun t k =>
    (s.flight k).mq.foldl (fun u o => match o.kind with
      | .mvbc tl _ n => if lo ≤ n then u.cutMvbc core eng k o tl n else u
      | _ => u) t) s
  (e.keys core).foldl (fun t k => t.setGather k { t.gather k with mvbc := hi }) s1

/-- How many instances of a barrier every cell of an engine has issued (08 R260). -/
def State.barFull (s : State) (core : Nat) (e : Engine) (b : Nat) : Nat :=
  match (e.keys core).map fun k => (s.gather k).bars.at 0 b with
  | [] => 0
  | x :: l => l.foldl min x

/-- Partial barrier gathers are withdrawn: an instance that some cell has not issued is forgotten with its tickets; one that every cell has issued still arrives (05 R173, 08 R260, R262). -/
def State.withdrawBars (s : State) (core eng : Nat) : State :=
  let e := s.engine core eng
  let s1 := s.setEngine core eng { e with barAt := e.barAt.filter fun x => decide (x.1 % 2 ^ 32 < s.barFull core e (x.1 / 2 ^ 32)) }
  (e.keys core).foldl (fun t k =>
    let f := t.flight k
    let g := t.gather k
    let gone := f.arrive.filter fun a => decide (s.barFull core e a.1 ≤ a.2.1)
    (t.setGather k { g with bars := g.bars.foldl (fun m x => m.put 0 x.1 (s.barFull core e x.1)) g.bars }).setFlight k
      { f with
        arrive := f.arrive.filter fun a => decide (a.2.1 < s.barFull core e a.1)
        busy := gone.foldl (fun b a => clearBit b a.2.2) f.busy }) s1

/-- Every cell of an engine stops at its next instruction boundary, partial collectives and gathers end, and the reservations are lost (05 R172, R144). -/
def State.stopEngine (s : State) (core eng why : Nat) : State :=
  let e := s.engine core eng
  let s1 := (e.keys core).foldl (fun t k => (t.stopCell core k).dropResv k) s
  let s2 := (s1.cutCollectives core eng).withdrawBars core eng
  s2.setEngine core eng { s2.engine core eng with stopping := why }

/-- TRAPREC after a trap (05 R168). -/
def trapWord (code info pc : Nat) : Word :=
  Word.ofNat (code % 2 ^ 15 + 2 ^ 15 + (info % 65536) * 2 ^ 16 + (pc % 2 ^ 32) * 2 ^ 32)

/-- A cell traps (05 R171, R172): it writes TRAPREC and issues nothing further, its reservation is lost, and the engine's other cells stop. The first trap of the engine gives the command its code. -/
def State.trapCell (s : State) (c : CellRef) (code info pc : Nat) : State :=
  let k := s.cellKey c
  let s1 := (s.stopCell c.core k).dropResv k
  let s2 := s1.setCell k { s1.cell k with traprec := trapWord code info pc, phase := .stopped }
  let e := s2.engine c.core c.eng
  if e.stopping = 0 then
    let s3 := s2.stopEngine c.core c.eng 1
    s3.setEngine c.core c.eng { s3.engine c.core c.eng with trapCode := code, trapCell := c.idx, trapPc := pc }
  else s2

/-! ## Issuing (04 R97, 05 R132, R137, R138) -/

/-- The cell that an instruction issues on. -/
structure At where
  ref : CellRef
  key : Nat
  cell : Cell
  fl : Flight
  eng : Engine

/-- What a command's cell is. -/
def State.at (s : State) (c : CellRef) : At := ⟨c, s.cellKey c, s.cell (s.cellKey c), s.flight (s.cellKey c), s.engine c.core c.eng⟩

/-- The program counter is inside the code section (05 R137, R138). -/
def At.inCode (a : At) : Bool := decide (a.cell.pc < a.eng.codeLen)

/-- An instruction is done: the next one follows (05 R137). -/
def Cell.next (c : Cell) : Cell := { c with pc := c.pc + 8, cycles := c.cycles + 1 }

/-- The register is awaited (05 R132). -/
def Flight.awaits (f : Flight) (r : Nat) : Bool := r != 0 && f.busy.testBit r

/-- A cell issues the word it fetched, when it is one of the row's: outside the code section the fetch traps with PROTECTION, an illegal word traps with ILLEGAL_INSTR, an awaited register stalls it, and otherwise the body is its effect. -/
def State.issue (s : State) (c : CellRef) (row : Bool) (legal : Bool) (regs : List Nat) (body : At → State) : State :=
  let a := s.at c
  if ¬ (s.cellRuns c && row) then s
  else if ¬ a.inCode then s.trapCell c 6 0 a.cell.pc
  else if ¬ legal then s.trapCell c 5 0 a.cell.pc
  else if regs.any a.fl.awaits then s
  else body a

/-- An instruction that changes its cell alone; `n` free values may be drawn. -/
def State.issueCell (s : State) (c : CellRef) (row legal : Bool) (regs : List Nat) (n : Nat) (f : (Nat → Nat) → Cell → Cell) : State :=
  s.issue c row legal regs fun a => (s.setCell a.key (f (fun i => Config.freeNat (s.draws + i)) a.cell).next).drew n

/-- An instruction traps at issue. -/
def State.trapAt (s : State) (a : At) (code : Nat) : State := s.trapCell a.ref code 0 a.cell.pc

/-- The cell blocks in an instruction; its program counter stays on it (05 R172). -/
def State.blockAt (s : State) (a : At) (b : Block) : State :=
  s.setCell a.key { a.cell with phase := .blocked b, cycles := a.cell.cycles + 1 }

/-- A blocked instruction ends with its effect, and issue resumes. -/
def Cell.resume (c : Cell) : Cell := { c with phase := .running, pc := c.pc + 8 }

/-! ## Asynchronous instructions (04 R105 to R112) -/

/-- KS of an asynchronous word. -/
def ksOf (w : Word) : Nat := w.fld 54 4
/-- The token an asynchronous word waits on, when WE is set. -/
def kwOf (w : Word) : Option Nat := if w.bit 49 then some (w.fld 50 4) else none

/-- The queue of a kind, with how many it holds (04 R105, 06 R191); a RACC has no queue limit. -/
def Flight.queueOf (f : Flight) : AsyncKind → List AsyncOp × Nat
  | .tmma .. | .tacr .. | .tacw .. | .tacx .. | .ttrn .. => (f.tq, 2)
  | .mvrl .. | .mvdm .. | .mvbc .. => (f.mq, 8)
  | .relief .. => (f.rq, 8)
  | .racc .. => (f.raccs, f.raccs.length + 1)

/-- An operation joins its queue. -/
def Flight.enqueue (f : Flight) (o : AsyncOp) : Flight :=
  match o.kind with
  | .tmma .. | .tacr .. | .tacw .. | .tacx .. | .ttrn .. => { f with tq := f.tq ++ [o] }
  | .mvrl .. | .mvdm .. | .mvbc .. => { f with mq := f.mq ++ [o] }
  | .relief .. => { f with rq := f.rq ++ [o] }
  | .racc .. => { f with raccs := f.raccs ++ [o] }

/-- Every operation in a cell's queues. -/
def Flight.ops (f : Flight) : List AsyncOp := f.tq ++ f.mq ++ f.rq ++ f.raccs

/-- An operation leaves its queue. -/
def Flight.without (f : Flight) (id : Nat) : Flight :=
  { f with
    tq := f.tq.filter fun o => o.id != id
    mq := f.mq.filter fun o => o.id != id
    rq := f.rq.filter fun o => o.id != id
    raccs := f.raccs.filter fun o => o.id != id }

/-- An asynchronous instruction issues into its queue (04 R105, R107): a full queue or a PENDING of 255 stalls; failed tiles trap with their code. -/
def State.issueAsync (s : State) (c : CellRef) (w : Word) (row legal : Bool) (regs : List Nat)
    (tiles : At → List TileUse) (kind : At → AsyncKind) : State :=
  s.issue c row (asyncHeader w && legal) regs fun a =>
    match tilesFail a.eng.relief (tiles a) with
    | some code => s.trapAt a code
    | none =>
      let q := a.fl.queueOf (kind a)
      if q.2 ≤ q.1.length ∨ 255 ≤ a.cell.pendingOf (ksOf w) then s
      else
        let o : AsyncOp := ⟨a.fl.seq, a.cell.pc, ksOf w, kwOf w, kind a, false, [], [], match kind a with
          | .racc .. => some a.cell.ops
          | _ => none⟩
        (s.setCell a.key (a.cell.tokIssue (ksOf w)).next).setFlight a.key { a.fl.enqueue o with seq := a.fl.seq + 1 }

/-- The entries of two maps mixed: the new one's where the choice says so, the old one's elsewhere. -/
def SMap.mix {α : Type} (pick : Nat → Bool) (o n : SMap α) : SMap α :=
  (n.filter fun e => pick e.1).foldl (fun m e => m.insert e.1 e.2) (o.filter fun e => !pick e.1)

/-- A tile has a byte at an address. -/
def Tile.covers (t : Tile) (a : Nat) : Bool := t.runs.any fun p => decide (p.1 ≤ a) && decide (a < p.1 + p.2)

/-- A kind of operation writes a byte of the operand store. -/
def AsyncKind.writesOp (k : AsyncKind) (a : Nat) : Bool :=
  match k with
  | .tacr _ t .. | .ttrn _ t .. | .mvbc t .. => t.covers a
  | .mvrl dir t _ | .mvdm dir t .. => !dir && t.covers a
  | .relief minor _ _ _ _ _ _ sa _ => minor == 4 && decide (sa ≤ a) && decide (a < sa + 8)
  | _ => false

/-- The operand store as an operation in progress reads it: a 64-byte granule that other work has changed since the operation started shows its old or its new contents (04 R109). -/
def AsyncOp.view (o : AsyncOp) (free : Nat → Nat) (c : Cell) : Mem :=
  match o.snap with
  | none => c.ops
  | some m => if m = c.ops then c.ops else SMap.mix (fun a => free (2 ^ 28 + a / 64) % 2 == 1) m c.ops

/-- Whose bytes a granule that the operation writes ends with: the operation's, or, where other work has changed it since the operation started, either's (04 R109). -/
def AsyncOp.keeps (o : AsyncOp) (free : Nat → Nat) (c : Cell) (g : Nat) : Bool :=
  match o.snap with
  | none => true
  | some m => ((List.range 64).all fun i => m.read (64 * g + i) == c.ops.read (64 * g + i)) || free (2 ^ 29 + g) % 2 == 1

/-- An operation's effect on its cell, by R109 where other work has meanwhile changed the operand store. -/
def AsyncOp.effect (o : AsyncOp) (free : Nat → Nat) (c : Cell) (f : Cell → Cell) : Cell :=
  if o.snap.all fun m => m == c.ops then f c
  else
    let r := f { c with ops := o.view free c }
    { r with ops := SMap.mix (fun a => o.kind.writesOp a && o.keeps free c (a / 64)) c.ops r.ops }

/-- Every operation issued earlier on the token an operation waits on has completed (04 R107). -/
def Flight.waitMet (f : Flight) (o : AsyncOp) : Bool :=
  match o.kw with
  | none => true
  | some t => !(f.ops.any fun p => p.ks == t && decide (p.id < o.id))

/-- The operation of a queue with an identifier. -/
def findOp (l : List AsyncOp) (id : Nat) : Option AsyncOp := l.find? fun o => o.id == id

/-- An operation's cell is alive to complete it: its engine is resident and the complex serves (18 R525). -/
def State.cellWorks (s : State) (c : CellRef) : Bool :=
  let e := s.engine c.core c.eng
  s.serving && s.resident c.core c.eng && decide (c.idx < e.size)

/-- An operation completes and its token advances; a failure is the cell's first failed operation (04 R108, R110). -/
def State.opDone (s : State) (k : Nat) (o : AsyncOp) (code : Nat) : State :=
  let f := (s.flight k).without o.id
  let f1 := if code ≠ 0 ∧ f.failed.isNone then { f with failed := some (code, o.ks, o.pc) } else f
  (s.setCell k ((s.cell k).tokAdvance o.ks code)).setFlight k f1

end Sys2Proof.Machine
end

