-- ==== Sys2Proof/Machine/Scalar.lean ====
section
/-! DEFINITION. Scalar arithmetic, constants, branches and system instructions (05 R133 to R138, R167, R168), and traps that a cell takes by itself (R171, R172). -/

namespace Sys2Proof.Machine

/-- The operations of SOP and SOPI (05 R134). -/
def scalarOp (fn : Nat) (a b : Word) : Word :=
  match fn with
  | 0 => a + b
  | 1 => a - b
  | 2 => a &&& b
  | 3 => a ||| b
  | 4 => a ^^^ b
  | 5 => a <<< (b.toNat % 64)
  | 6 => a >>> (b.toNat % 64)
  | 7 => a.sshiftRight (b.toNat % 64)
  | 8 => if BitVec.slt a b then a else b
  | 9 => if BitVec.slt a b then b else a
  | 10 => if BitVec.ult a b then a else b
  | 11 => if BitVec.ult a b then b else a
  | 12 => if BitVec.slt a b then 1 else 0
  | 13 => if BitVec.ult a b then 1 else 0
  | _ => 0

/-- The number of leading zero bits of a word. -/
def clz (a : Word) : Nat := if a = 0 then 64 else 63 - Nat.log2 a.toNat

/-- The number of set bits among the low `n` of a Nat. -/
def popcount (n x : Nat) : Nat := ((List.range n).filter fun i => x.testBit i).length

/-- The number of trailing zero bits of a word. -/
def ctz (a : Word) : Nat := ((List.range 64).find? fun i => a.bit i).getD 64

/-- The operations of SMD (05 R135). -/
def mulDivOp (fn : Nat) (a b : Word) : Word :=
  match fn with
  | 0 => a * b
  | 1 => Word.ofNat (wrapNat 64 (a.toInt * b.toInt / (2 ^ 64 : Int)))
  | 2 => Word.ofNat (a.toNat * b.toNat / 2 ^ 64)
  | 3 => if b = 0 then BitVec.allOnes 64 else Word.ofNat (wrapNat 64 (a.toInt.tdiv b.toInt))
  | 4 => if b = 0 then BitVec.allOnes 64 else Word.ofNat (a.toNat / b.toNat)
  | 5 => if b = 0 then a else Word.ofNat (wrapNat 64 (a.toInt.tmod b.toInt))
  | 6 => if b = 0 then a else Word.ofNat (a.toNat % b.toNat)
  | 7 => Word.ofNat (clz a)
  | 8 => Word.ofNat (ctz a)
  | 9 => Word.ofNat (popcount 64 a.toNat)
  | _ => 0

/-- SD, SA, SB of the three-register scalar layout (05 R133). -/
def sdOf (w : Word) : Nat := w.fld 52 6
/-- SA (05 R133). -/
def saOf (w : Word) : Nat := w.fld 46 6
/-- SB (05 R133). -/
def sbOf (w : Word) : Nat := w.fld 40 6

/-- SOP: s[SD] = s[SA] op s[SB] (05 R134). -/
def opSop (c : CellRef) (w : Word) (s : State) : State :=
  s.issueCell c (opOf w == 0x00) (w != 0 && decide (w.fld 34 6 ≤ 13) && zeroFld w 0 34) [sdOf w, saOf w, sbOf w] 0
    fun _ k => k.setS (sdOf w) (scalarOp (w.fld 34 6) (k.s (saOf w)) (k.s (sbOf w)))

/-- SOPI: s[SD] = s[SA] op IMM (05 R134). -/
def opSopi (c : CellRef) (w : Word) (s : State) : State :=
  s.issueCell c (opOf w == 0x01) (decide (w.fld 40 6 ≤ 13) && zeroFld w 32 8) [sdOf w, saOf w] 0
    fun _ k => k.setS (sdOf w) (scalarOp (w.fld 40 6) (k.s (saOf w)) (sxFld w 0 32))

/-- SMD: multiply, divide and bit counts (05 R135). -/
def opSmd (c : CellRef) (w : Word) (s : State) : State :=
  let fn := w.fld 34 6
  s.issueCell c (opOf w == 0x02) (decide (fn ≤ 9) && zeroFld w 0 34 && (decide (fn < 7) || sbOf w == 0)) [sdOf w, saOf w, sbOf w] 0
    fun _ k => k.setS (sdOf w) (mulDivOp fn (k.s (saOf w)) (k.s (sbOf w)))

/-- MOVI: s[SD] takes the sign-extended 48-bit IMM (05 R136). -/
def opMovi (c : CellRef) (w : Word) (s : State) : State :=
  s.issueCell c (opOf w == 0x03) (zeroFld w 48 4) [sdOf w] 0 fun _ k => k.setS (sdOf w) (sxFld w 0 48)

/-- MOVHI: bits [63:48] of s[SD] take IMM (05 R136). -/
def opMovhi (c : CellRef) (w : Word) (s : State) : State :=
  s.issueCell c (opOf w == 0x04) (zeroFld w 16 36) [sdOf w] 0
    fun _ k => k.setS (sdOf w) ((k.s (sdOf w)).setFld 48 16 (w.fld 0 16))

/-- A branch by OFF from the branch's own program counter (05 R137). -/
def Cell.branch (c : Cell) (taken : Bool) (off : Word) : Cell :=
  { c with pc := if taken then (Word.ofNat c.pc + off).toNat else c.pc + 8, cycles := c.cycles + 1 }

/-- BCC: branch if s[SA] COND s[SB] (05 R137). -/
def opBcc (c : CellRef) (w : Word) (s : State) : State :=
  s.issue c (opOf w == 0x08) (zeroFld w 52 6 && decide (w.fld 37 3 ≤ 5) && zeroFld w 32 5 && zeroFld w 0 3) [saOf w, sbOf w]
    fun a => s.setCell a.key (a.cell.branch (branchHolds (w.fld 37 3) (a.cell.s (saOf w)) (a.cell.s (sbOf w))) (sxFld w 0 32))

/-- BCCI: branch if s[SA] COND IMM16 (05 R137). -/
def opBcci (c : CellRef) (w : Word) (s : State) : State :=
  s.issue c (opOf w == 0x09) (decide (w.fld 49 3 ≤ 5) && zeroFld w 48 1 && zeroFld w 0 3) [sdOf w]
    fun a => s.setCell a.key (a.cell.branch (branchHolds (w.fld 49 3) (a.cell.s (sdOf w)) (sxFld w 32 16)) (sxFld w 0 32))

/-- JAL: s[SD] = PC + 8, jump by OFF (05 R137). -/
def opJal (c : CellRef) (w : Word) (s : State) : State :=
  s.issue c (opOf w == 0x0A) (zeroFld w 32 20 && zeroFld w 0 3) [sdOf w]
    fun a => s.setCell a.key ((a.cell.setS (sdOf w) (Word.ofNat (a.cell.pc + 8))).branch true (sxFld w 0 32))

/-- JALR: s[SD] = PC + 8, jump to s[SA] + IMM; a target that is not a multiple of 8 traps with ILLEGAL_INSTR (05 R137, R138). -/
def opJalr (c : CellRef) (w : Word) (s : State) : State :=
  s.issue c (opOf w == 0x0B) (zeroFld w 32 14) [sdOf w, saOf w] fun a =>
    let t := (a.cell.s (saOf w) + sxFld w 0 32).toNat
    if t % 8 ≠ 0 then s.trapAt a 5
    else s.setCell a.key { a.cell.setS (sdOf w) (Word.ofNat (a.cell.pc + 8)) with pc := t, cycles := a.cell.cycles + 1 }

/-- NOP (05 R137). -/
def opNopInstr (c : CellRef) (w : Word) (s : State) : State :=
  s.issueCell c (opOf w == 0x0D) (zeroFld w 0 58) [] 0 fun _ k => k

/-! ## System registers (05 R167, R168) -/

/-- S of the system layout. -/
def sysS (w : Word) : Nat := w.fld 48 6
/-- IDX of the system layout. -/
def sysIdx (w : Word) : Nat := w.fld 41 7

/-- The indices that SYSR reads (05 R168). -/
def sysListed (i : Nat) : Bool := decide (i ≤ 4) || (decide (8 ≤ i) && decide (i ≤ 0x12))

/-- A system register's value (05 R168); CYCLES as the model's count stands. -/
def State.sysValue (s : State) (a : At) (i : Nat) : Word :=
  match i with
  | 0 => Word.ofNat a.ref.idx
  | 1 => Word.ofNat (a.eng.sizeLog2 + a.eng.size * 2 ^ 8 + a.eng.origin * 2 ^ 16)
  | 2 => Word.ofNat (a.ref.eng + a.ref.core * 2 ^ 8 + ((s.coreOwner a.ref.core).getD 0) * 2 ^ 16 + a.eng.ctx * 2 ^ 32)
  | 3 => Word.ofNat s.time
  | 4 => a.cell.cycles
  | 0x10 => a.cell.aflags
  | 0x11 => a.cell.rmode
  | 0x12 => a.cell.traprec
  | _ => (a.eng.args[i - 8]?).getD 0

/-- SYSR: s[S] takes system register IDX; an index not listed traps (05 R167, R168). The island cycles run since the last instruction that read CYCLES are a free value added to it (log 3). -/
def opSysr (c : CellRef) (w : Word) (s : State) : State :=
  s.issue c (opOf w == 0x3E && minorOf w == 0) (zeroFld w 16 25 && sysListed (sysIdx w)) [sysS w] fun a =>
    let a' := if sysIdx w = 4 then { a with cell := { a.cell with cycles := a.cell.cycles + Word.ofNat s.draw } } else a
    (s.setCell a.key (a'.cell.setS (sysS w) (s.sysValue a' (sysIdx w))).next).drew 1

/-- SYSW: AFLAGS and RMODE take s[S]; TRAPREC's VALID clears; other registers and an RMODE default of 5 to 7 trap (05 R167, R168). -/
def opSysw (c : CellRef) (w : Word) (s : State) : State :=
  s.issue c (opOf w == 0x3E && minorOf w == 1) (zeroFld w 16 25 && decide (0x10 ≤ sysIdx w) && decide (sysIdx w ≤ 0x12)) [sysS w] fun a =>
    let v := a.cell.s (sysS w)
    if sysIdx w = 0x10 then s.setCell a.key { a.cell with aflags := Word.ofNat (v.fld 0 9) }.next
    else if sysIdx w = 0x11 then
      if 5 ≤ v.fld 0 3 then s.trapAt a 5 else s.setCell a.key { a.cell with rmode := Word.ofNat (v.fld 0 3) }.next
    else s.setCell a.key (if v.bit 15 then { a.cell with traprec := a.cell.traprec.setFld 15 1 0 } else a.cell).next

/-- END: the cell ends its part of the command (05 R167, R170). -/
def opEndCmd (c : CellRef) (w : Word) (s : State) : State :=
  s.issue c (opOf w == 0x3E && minorOf w == 2) (zeroFld w 16 25) []
    fun a => s.setCell a.key { a.cell with phase := .ended, cycles := a.cell.cycles + 1 }

/-- TRAP: the cell traps with USER_TRAP, recording IMM (05 R167). -/
def opTrap (c : CellRef) (w : Word) (s : State) : State :=
  s.issue c (opOf w == 0x3E && minorOf w == 3) (zeroFld w 16 25) [] fun a => s.trapCell c 11 (w.fld 0 16) a.cell.pc

/-- Debug is enabled for the partition of a core (16 R467). -/
def State.coreDebug (s : State) (core : Nat) : Bool :=
  match s.coreOwner core with
  | some p => (s.part p).debug
  | none => false

/-- BRK: with debug enabled the engine stops as for a trap with USER_TRAP and IMM 0xFFFF; with it disabled nothing happens (05 R167). -/
def opBrk (c : CellRef) (w : Word) (s : State) : State :=
  s.issue c (opOf w == 0x3E && minorOf w == 4) (zeroFld w 16 25) [] fun a =>
    if s.coreDebug c.core then s.trapCell c 11 0xFFFF a.cell.pc else s.setCell a.key a.cell.next

/-- A word of a reserved major opcode or minor code, or the all-zero word (04 R97, R98, 05 R137, R140, R147, R149, R150, R153, R167). -/
def reservedWord (w : Word) : Bool :=
  let op := opOf w
  let m := minorOf w
  w == 0 || (decide (5 ≤ op) && decide (op ≤ 7)) || op == 0x0C || op == 0x0E || op == 0x0F || op == 0x17
    || (decide (0x1D ≤ op) && decide (op ≤ 0x1F)) || (decide (0x2B ≤ op) && decide (op ≤ 0x2F)) || op == 0x3B || op == 0x3F
    || (op == 0x36 && decide (4 ≤ m)) || (op == 0x37 && decide (8 ≤ m)) || (op == 0x19 && decide (4 ≤ m))
    || (op == 0x1A && decide (3 ≤ m)) || (op == 0x3E && decide (5 ≤ m)) || (op == 0x3C && decide (6 ≤ w.fld 45 4))

/-- CELL_TRAP: a cell traps by itself (05 R171): on a word that no row of the table issues, on a fetch outside the code section or without a translation, on a fetch from a poisoned line (R145), or once its queued operations have completed after one failed (04 R110). -/
def opCellTrap (c : CellRef) (cause : TrapCause) (s : State) : State :=
  let a := s.at c
  match cause with
  | .illegalWord w => if s.cellRuns c && a.inCode && reservedWord w then s.trapAt a 5 else s
  | .fetchOutside =>
    if s.cellRuns c && (!a.inCode || s.xlCell c.core a.eng.ctx (a.eng.codeBase + a.cell.pc) .read == .missing) then s.trapAt a 6 else s
  | .fetchPoison =>
    if s.cellRuns c && a.inCode then
      match s.xlCell c.core a.eng.ctx (a.eng.codeBase + a.cell.pc) .read with
      | .ok (.stack p) =>
        if (s.mem.coreLine c.core (p / 64)).2 then (s.consumePoison (p / 64) a.eng.ctx).trapAt a (s.poisonCode p) else s
      | .ok (.bank b off) => if (s.bank b).poisoned (off / 64) then s.trapAt a 7 else s
      | .poison l => (s.consumePoison l a.eng.ctx).trapAt a 7
      | _ => s
    else s
  | .asyncFailed =>
    match a.fl.failed with
    | some (code, tok, pc) =>
      if s.cellWorks c && a.fl.ops.isEmpty then
        (s.setFlight a.key { a.fl with failed := none }).trapCell c code tok pc
      else s
    | none => s

/-! ## Meanings: each command answers the next state that its operation gives. -/

/-- The meaning of SOP. -/
def execSop (c : CellRef) (w : Word) (s : State) : Host.Outcome State Fault Refusal := .next (opSop c w s)
/-- The meaning of SOPI. -/
def execSopi (c : CellRef) (w : Word) (s : State) : Host.Outcome State Fault Refusal := .next (opSopi c w s)
/-- The meaning of SMD. -/
def execSmd (c : CellRef) (w : Word) (s : State) : Host.Outcome State Fault Refusal := .next (opSmd c w s)
/-- The meaning of MOVI. -/
def execMovi (c : CellRef) (w : Word) (s : State) : Host.Outcome State Fault Refusal := .next (opMovi c w s)
/-- The meaning of MOVHI. -/
def execMovhi (c : CellRef) (w : Word) (s : State) : Host.Outcome State Fault Refusal := .next (opMovhi c w s)
/-- The meaning of BCC. -/
def execBcc (c : CellRef) (w : Word) (s : State) : Host.Outcome State Fault Refusal := .next (opBcc c w s)
/-- The meaning of BCCI. -/
def execBcci (c : CellRef) (w : Word) (s : State) : Host.Outcome State Fault Refusal := .next (opBcci c w s)
/-- The meaning of JAL. -/
def execJal (c : CellRef) (w : Word) (s : State) : Host.Outcome State Fault Refusal := .next (opJal c w s)
/-- The meaning of JALR. -/
def execJalr (c : CellRef) (w : Word) (s : State) : Host.Outcome State Fault Refusal := .next (opJalr c w s)
/-- The meaning of NOP. -/
def execNopInstr (c : CellRef) (w : Word) (s : State) : Host.Outcome State Fault Refusal := .next (opNopInstr c w s)
/-- The meaning of SYSR. -/
def execSysr (c : CellRef) (w : Word) (s : State) : Host.Outcome State Fault Refusal := .next (opSysr c w s)
/-- The meaning of SYSW. -/
def execSysw (c : CellRef) (w : Word) (s : State) : Host.Outcome State Fault Refusal := .next (opSysw c w s)
/-- The meaning of END. -/
def execEndCmd (c : CellRef) (w : Word) (s : State) : Host.Outcome State Fault Refusal := .next (opEndCmd c w s)
/-- The meaning of TRAP. -/
def execTrap (c : CellRef) (w : Word) (s : State) : Host.Outcome State Fault Refusal := .next (opTrap c w s)
/-- The meaning of BRK. -/
def execBrk (c : CellRef) (w : Word) (s : State) : Host.Outcome State Fault Refusal := .next (opBrk c w s)
/-- The meaning of CELL_TRAP. -/
def execCellTrap (c : CellRef) (cause : TrapCause) (s : State) : Host.Outcome State Fault Refusal := .next (opCellTrap c cause s)

end Sys2Proof.Machine
end

