-- ==== Sys2Proof/Machine/Vector.lean ====
section
/-! DEFINITION. Vector instructions (05 R153 to R166). -/

namespace Sys2Proof.Machine

/-! ## The vector layout (05 R153, R154) -/

/-- VD or V. -/
def vdOf (w : Word) : Nat := w.fld 53 5
/-- VA. -/
def vaOf (w : Word) : Nat := w.fld 48 5
/-- VB. -/
def vbOf (w : Word) : Nat := w.fld 43 5
/-- VC. -/
def vcOf (w : Word) : Nat := w.fld 38 5
/-- PM. -/
def pmOf (w : Word) : Nat := w.fld 35 3
/-- ZM. -/
def zmOf (w : Word) : Bool := w.bit 34
/-- TY. -/
def tyOf (w : Word) : Nat := w.fld 32 2
/-- RND. -/
def vrndOf (w : Word) : Nat := w.fld 29 3
/-- FN. -/
def vfnOf (w : Word) : Nat := w.fld 23 6

/-- A rounding code that is not reserved (03 R85). -/
def rndCode (x : Nat) : Bool := x != 5 && x != 6

/-- The mode a rounding code selects in a cell (03 R85). -/
def Cell.rnd (c : Cell) (code : Nat) : Rnd := (Rnd.ofCode (c.rmode.fld 0 3) code).getD .rne

/-- Lanes written under a predicate: `f` gives an active lane's pattern and flags; an inactive lane is zeroed under ZM and keeps its value otherwise (05 R154). -/
def Cell.vecWrite (c : Cell) (bf : Bool) (vd pm : Nat) (zm : Bool) (f : Nat → Nat × Nat) : Cell :=
  let n := if bf then 256 else 128
  let rs := (List.range n).map fun i => if c.active pm i then some (f i) else none
  let put := fun (i : Nat) => match (rs[i]?).join with
    | some r => some r.1
    | none => if zm then some 0 else none
  let fl := rs.foldl (fun a r => match r with
    | some x => a ||| x.2
    | none => a) 0
  ((if bf then c.setHalves vd put else c.setLanes vd put)).flag fl

/-- The value of a floating lane (05 R130). -/
def Cell.flane (c : Cell) (bf : Bool) (v i : Nat) : Num := if bf then bf16.decode (c.half v i) else fp32.decode (c.lane v i)

/-- The operations of VAR before the result's rounding (05 R155, R156). -/
def varValue (fn : Nat) (a b c : Num) : Num × Nat :=
  match fn with
  | 0 => a.add b
  | 1 => a.add b.neg
  | 2 => a.mul b
  | 3 => Num.fma a b c
  | 4 => Num.fma a b c.neg
  | 5 => Num.fma a.neg b c
  | 6 => (a.min b, 0)
  | 7 => (a.max b, 0)
  | 8 => (a.abs, 0)
  | 9 => (a.neg, 0)
  | 10 => a.div b
  | 11 => a.sqrt
  | 12 => Num.div (.fin false 1 0) a
  | 13 => a.rsqrt
  | 14 => a.exp2
  | 15 => a.log2
  | _ => (a, 0)

/-- An operation of VAR whose result is exact (05 R154). -/
def varExact (fn : Nat) : Bool := (decide (6 ≤ fn) && decide (fn ≤ 9)) || fn == 16

/-- VAR: floating arithmetic on FP32 or BF16 lanes (05 R155, R156, 03 R87). -/
def opVarOp (c : CellRef) (w : Word) (s : State) : State :=
  s.issueCell c (opOf w == 0x20)
    (zeroFld w 0 23 && decide (tyOf w ≤ 1) && decide (vfnOf w ≤ 16) && rndCode (vrndOf w) && (!varExact (vfnOf w) || vrndOf w == 0)) [] drawSpan
    fun free k =>
      let bf := tyOf w == 1
      let r := k.rnd (vrndOf w)
      k.vecWrite bf (vdOf w) (pmOf w) (zmOf w) fun i =>
        let v := varValue (vfnOf w) (k.flane bf (vaOf w) i) (k.flane bf (vbOf w) i) (k.flane bf (vcOf w) i)
        let z := (if bf then bf16 else fp32).encode r (roundDraw free i) v.1
        (z.1, v.2 ||| z.2)

/-- The operations of VINT on 32-bit patterns (05 R157). -/
def vintValue (fn a b : Nat) : Nat :=
  let x : BitVec 32 := BitVec.ofNat 32 a
  let y : BitVec 32 := BitVec.ofNat 32 b
  let z : BitVec 32 :=
    match fn with
    | 0 => x + y
    | 1 => x - y
    | 2 => x * y
    | 3 => x &&& y
    | 4 => x ||| y
    | 5 => x ^^^ y
    | 6 => x <<< (b % 32)
    | 7 => x >>> (b % 32)
    | 8 => x.sshiftRight (b % 32)
    | 9 => if BitVec.slt x y then x else y
    | 10 => if BitVec.slt x y then y else x
    | 11 => if BitVec.ult x y then x else y
    | 12 => if BitVec.ult x y then y else x
    | _ => x
  z.toNat

/-- VINT: integer arithmetic on 32-bit lanes (05 R157). -/
def opVint (c : CellRef) (w : Word) (s : State) : State :=
  s.issueCell c (opOf w == 0x21) (zeroFld w 0 23 && tyOf w == 2 && decide (vfnOf w ≤ 13) && vrndOf w == 0) [] 0
    fun _ k => k.vecWrite false (vdOf w) (pmOf w) (zmOf w) fun i => (vintValue (vfnOf w) (k.lane (vaOf w) i) (k.lane (vbOf w) i), 0)

/-- A predicate from its bits. -/
def predOf (f : Nat → Bool) : BitVec 256 := BitVec.ofNat 256 (((List.range 256).map fun i => if f i then 2 ^ i else 0).sum)

/-- VCMP: a compare into a predicate (05 R158, R131, R154). -/
def opVcmp (c : CellRef) (w : Word) (s : State) : State :=
  let fn := vfnOf w
  s.issueCell c (opOf w == 0x22)
    (zeroFld w 0 23 && zeroFld w 56 2 && decide (tyOf w ≤ 2) && vrndOf w == 0
      && (decide (fn ≤ 5) || (fn == 6 && decide (tyOf w ≤ 1)) || ((fn == 7 || fn == 8) && tyOf w == 2))) [] 0
    fun _ k =>
      let pd := w.fld 53 3
      let bf := tyOf w == 1
      let old := k.pred pd
      k.setPred pd (predOf fun i =>
        decide (i < (if bf then 256 else 128)) &&
          (if k.active (pmOf w) i then
            (if tyOf w = 2 then intCompare fn (k.lane (vaOf w) i) (k.lane (vbOf w) i)
             else floatCompare fn (k.flane bf (vaOf w) i) (k.flane bf (vbOf w) i))
           else !zmOf w && old.toNat.testBit i))

/-- VCVT: lane conversions (05 R159). -/
def opVcvt (c : CellRef) (w : Word) (s : State) : State :=
  let fn := vfnOf w
  s.issueCell c (opOf w == 0x23)
    (zeroFld w 0 23 && tyOf w == 0 && decide (fn ≤ 4) && rndCode (vrndOf w) && (decide (fn ≠ 1 ∧ fn ≠ 2) || vrndOf w == 0)) [] drawSpan
    fun free k =>
      let r := k.rnd (vrndOf w)
      let u := roundDraw free
      match fn with
      | 0 => k.vecWrite true (vdOf w) (pmOf w) (zmOf w) fun i =>
          bf16.encode r (u i) (fp32.decode (if i < 128 then k.lane (vaOf w) i else k.lane (vbOf w) (i - 128)))
      | 1 => k.vecWrite false (vdOf w) (pmOf w) (zmOf w) fun i => fp32.encode .rne 0 (bf16.decode (k.half (vaOf w) i))
      | 2 => k.vecWrite false (vdOf w) (pmOf w) (zmOf w) fun i => fp32.encode .rne 0 (bf16.decode (k.half (vaOf w) (128 + i)))
      | 3 => k.vecWrite false (vdOf w) (pmOf w) (zmOf w) fun i => encodeInt32 r (u i) (fp32.decode (k.lane (vaOf w) i))
      | _ => k.vecWrite false (vdOf w) (pmOf w) (zmOf w) fun i => fp32.encode r (u i) (int32Num (k.lane (vaOf w) i))

/-! ## VLD and VST (05 R160, R161) -/

/-- SA of the layout. -/
def vmSa (w : Word) : Nat := w.fld 47 6
/-- SB of the layout. -/
def vmSb (w : Word) : Nat := w.fld 41 6
/-- FMT of the layout. -/
def vmFmt (w : Word) : Nat := w.fld 37 4
/-- TERN of the layout. -/
def vmTern (w : Word) : Bool := w.bit 36
/-- TY of the layout. -/
def vmTy (w : Word) : Nat := w.fld 34 2
/-- RND of the layout. -/
def vmRnd (w : Word) : Nat := w.fld 31 3
/-- PM of the layout. -/
def vmPm (w : Word) : Nat := w.fld 27 3
/-- L, the elements moved (05 R161). -/
def vmLen (w : Word) : Nat := if vmTy w = 1 then 256 else 128

/-- The one-row tile that VLD reads and VST writes. -/
def vmTile (w : Word) (a sb : Nat) : Tile :=
  ⟨BitVec.ofNat 128 (a + vmFmt w * 2 ^ 52 + b2n (vmTern w) * 2 ^ 59 + (vmLen w - 1) * 2 ^ 76), BitVec.ofNat 128 sb⟩

/-- The checks of VLD and VST on the word alone (05 R160, R161). -/
def vmLegal (w : Word) : Bool :=
  decide (vmFmt w ≤ 0xC) && (!vmTern w || vmFmt w == 0xB) && decide (vmTy w ≤ 1) && rndCode (vmRnd w)
    && zeroFld w 24 3 && (fmtBlock (vmFmt w) != 0 || vmSb w == 0)

/-- The element and scale addresses, when every byte lies in the operand store and the element address is aligned (05 R161). -/
def vmAddr (w : Word) (k : Cell) : Option (Nat × Nat) :=
  let a := (k.s (vmSa w) + sxFld w 0 24).toNat
  let sb := (k.s (vmSb w)).toNat
  let scales := if fmtBlock (vmFmt w) = 0 then 0 else vmLen w / fmtBlock (vmFmt w)
  if a % 8 = 0 ∧ a + vmLen w * fmtBits (vmFmt w) / 8 ≤ opBytes ∧ (scales = 0 ∨ sb + scales ≤ opBytes) then some (a, sb) else none

/-- VST: L lanes become packed elements, with scales by R90 to R92; a predicated store writes active elements only (05 R161). -/
def opVst (c : CellRef) (w : Word) (s : State) : State :=
  s.issue c (opOf w == 0x25)
    (vmLegal w && (vmPm w == 0 || decide (vmFmt w ≤ 4) || vmFmt w == 0xC)) [vmSa w, vmSb w] fun a =>
    match vmAddr w a.cell with
    | none => s.trapAt a 5
    | some (p, sb) =>
      let k := a.cell
      let free := fun i => Config.freeNat (s.draws + i)
      let bf := vmTy w == 1
      let r := k.rnd (vmRnd w)
      if vmPm w = 0 then
        let x := (vmTile w p sb).rowWrites r (w.fld 30 1) ((List.range (vmLen w)).map (roundDraw free)) 0
          ((List.range (vmLen w)).map (k.flane bf (vdOf w)))
        (s.setCell a.key ((k.opWrites x.1).flag x.2).next).drew drawSpan
      else
        let b := fmtBits (vmFmt w) / 8
        let on := (List.range (vmLen w)).filter (k.active (vmPm w))
        let es := on.map fun i => (i, encodeUnscaled (vmFmt w) r (roundDraw free i) (k.flane bf (vdOf w) i))
        let ws := es.flatMap fun e => (List.range b).map fun j => (p + e.1 * b + j, BitVec.ofNat 8 (e.2.1 / 256 ^ j))
        (s.setCell a.key ((k.opWrites ws).flag (es.foldl (fun f e => f ||| e.2.2) 0)).next).drew drawSpan

/-! ## Reductions, permutes, accumulators, predicates, select (05 R162 to R166) -/

/-- The result of a floating reduction of FP32 patterns (05 R162, 03 R87). -/
def vredValue (free : Nat → Nat) (r : Rnd) (fn : Nat) (xs : List Nat) : Nat × Nat :=
  let one := fun (v : Num) => (fp32.encode .rne 0 v).1
  let abs := fun x => if fn = 3 then one (f32 x).abs else x
  let f := fun d a b =>
    match fn with
    | 0 =>
      let v := (f32 a).add (f32 b)
      let z := fp32.encode r (roundDraw free d) v.1
      (z.1, v.2 ||| z.2)
    | 2 => (one ((f32 a).min (f32 b)), 0)
    | _ => (one ((f32 a).max (f32 b)), 0)
  match xs with
  | [] => (if fn = 1 then fp32.infPat true else if fn = 2 then fp32.infPat false else 0, 0)
  | [x] => (if fn = 0 then (fp32.encode r 0 (f32 x)).1 else one (f32 (abs x)), 0)
  | _ => treeFold free f xs.length 0 (xs.map abs) 0

/-- VRED: a reduction of the active lanes into s[SD] (05 R162). A floating reduction named with INT32 lanes, or ISUM with floating lanes, has no stated result: a free value (log 25). -/
def opVred (c : CellRef) (w : Word) (s : State) : State :=
  let fn := w.fld 36 3
  let ty := w.fld 42 2
  let rn := w.fld 39 3
  s.issueCell c (opOf w == 0x26) (zeroFld w 0 36 && decide (fn ≤ 4) && decide (ty ≤ 2) && rndCode rn && (fn == 0 || rn == 0)) [sdOf w] drawSpan
    fun free k =>
      let va := w.fld 47 5
      let on := (List.range (if ty = 1 then 256 else 128)).filter (k.active (w.fld 44 3))
      if fn = 4 ∧ ty = 2 then k.setS (sdOf w) (Word.ofNat ((on.map (k.lane va)).sum % 2 ^ 32))
      else if fn = 4 ∨ ty = 2 then k.setS (sdOf w) (Word.ofNat (free 0 % 2 ^ 32))
      else
        let z := vredValue free (k.rnd rn) fn (on.map fun i => (fp32.encode .rne 0 (k.flane (ty == 1) va i)).1)
        (k.setS (sdOf w) (Word.ofNat z.1)).flag z.2

/-- VPERM: broadcast, extract, insert, permute, rotate; bit patterns are copied unchanged (05 R163). -/
def opVperm (c : CellRef) (w : Word) (s : State) : State :=
  let fn := w.fld 34 3
  let sx := w.fld 37 6
  let imm := w.fld 0 16
  s.issueCell c (opOf w == 0x27) (zeroFld w 16 18 && decide (fn ≤ 4)) [sx] 0 fun _ k =>
    match fn with
    | 0 => k.setLanes (vdOf w) fun _ => some ((k.s sx).fld 0 32)
    | 1 => k.setS sx (Word.ofNat (k.lane (vaOf w) (imm % 128)))
    | 2 => k.setLane (vdOf w) (imm % 128) ((k.s sx).fld 0 32)
    | 3 => k.setLanes (vdOf w) fun i => some (k.lane (vaOf w) (k.lane (vbOf w) i % 128))
    | _ => k.setLanes (vdOf w) fun i => some (k.lane (vaOf w) ((i + imm) % 128))

/-- A tensor-queue operation names an accumulator (04 R109). -/
def AsyncKind.names (a : Nat) : AsyncKind → Bool
  | .tmma x .. => x == a
  | .tacr x .. => x == a
  | .tacw x .. => x == a
  | .tacx x y z op => x == a || y == a || (op != 0 && z == a)
  | _ => false

/-- VACC: lanes 0 to 63 and 64 to 127 against accumulator rows AROW and AROW + 1; it waits for tensor operations that name the accumulator (05 R164, 04 R109). -/
def opVacc (c : CellRef) (w : Word) (s : State) : State :=
  let acc := w.fld 50 3
  let row := w.fld 45 5
  s.issue c (opOf w == 0x28) (zeroFld w 0 44 && row % 2 == 0) [] fun a =>
    if a.fl.tq.any fun o => o.kind.names acc then s
    else
      let k := a.cell
      s.setCell a.key (if w.bit 44 then
          (List.range 128).foldl (fun x i => x.setAcc acc (row + i / 64) (i % 64) (k.lane (vdOf w) i)) k
        else k.setLanes (vdOf w) fun i => some (k.acc acc (row + i / 64) (i % 64))).next

/-- VPRED: predicate logic over 256 bits (05 R165). -/
def opVpred (c : CellRef) (w : Word) (s : State) : State :=
  let fn := w.fld 46 3
  let sd := w.fld 40 6
  let pd := w.fld 55 3
  s.issueCell c (opOf w == 0x29) (zeroFld w 0 40 && decide (fn ≤ 6)) [sd] 0 fun _ k =>
    let x := k.pred (w.fld 52 3)
    let y := k.pred (w.fld 49 3)
    match fn with
    | 0 => k.setPred pd (x &&& y)
    | 1 => k.setPred pd (x ||| y)
    | 2 => k.setPred pd (x ^^^ y)
    | 3 => k.setPred pd (x &&& ~~~ y)
    | 4 => k.setPred pd (~~~ x)
    | 5 => k.setPred pd (predOf fun i => decide (i < (k.s sd).toNat))
    | _ => k.setS sd (Word.ofNat (popcount256 x))
where
  /-- The number of set bits. -/
  popcount256 (x : BitVec 256) : Nat := ((List.range 256).filter fun i => x.toNat.testBit i).length

/-- VSEL: lane i of VA where bit i of PM is set, of VB elsewhere (05 R166). -/
def opVsel (c : CellRef) (w : Word) (s : State) : State :=
  s.issueCell c (opOf w == 0x2A) (zeroFld w 0 23 && vfnOf w == 0 && !zmOf w && decide (tyOf w ≤ 2) && vrndOf w == 0) [] 0 fun _ k =>
    let pick := fun i => if k.active (pmOf w) i then vaOf w else vbOf w
    if tyOf w = 1 then k.setHalves (vdOf w) fun i => some (k.half (pick i) i)
    else k.setLanes (vdOf w) fun i => some (k.lane (pick i) i)

/-! ## Meanings: each command answers the next state that its operation gives. -/

/-- The meaning of VAR. -/
def execVarOp (c : CellRef) (w : Word) (s : State) : Host.Outcome State Fault Refusal := .next (opVarOp c w s)
/-- The meaning of VINT. -/
def execVint (c : CellRef) (w : Word) (s : State) : Host.Outcome State Fault Refusal := .next (opVint c w s)
/-- The meaning of VCMP. -/
def execVcmp (c : CellRef) (w : Word) (s : State) : Host.Outcome State Fault Refusal := .next (opVcmp c w s)
/-- The meaning of VCVT. -/
def execVcvt (c : CellRef) (w : Word) (s : State) : Host.Outcome State Fault Refusal := .next (opVcvt c w s)
/-- The meaning of VST. -/
def execVst (c : CellRef) (w : Word) (s : State) : Host.Outcome State Fault Refusal := .next (opVst c w s)
/-- The meaning of VRED. -/
def execVred (c : CellRef) (w : Word) (s : State) : Host.Outcome State Fault Refusal := .next (opVred c w s)
/-- The meaning of VPERM. -/
def execVperm (c : CellRef) (w : Word) (s : State) : Host.Outcome State Fault Refusal := .next (opVperm c w s)
/-- The meaning of VACC. -/
def execVacc (c : CellRef) (w : Word) (s : State) : Host.Outcome State Fault Refusal := .next (opVacc c w s)
/-- The meaning of VPRED. -/
def execVpred (c : CellRef) (w : Word) (s : State) : Host.Outcome State Fault Refusal := .next (opVpred c w s)
/-- The meaning of VSEL. -/
def execVsel (c : CellRef) (w : Word) (s : State) : Host.Outcome State Fault Refusal := .next (opVsel c w s)

end Sys2Proof.Machine
end

