-- ==== Sys2Proof/Machine/Tensor.lean ====
section
/-! DEFINITION. Tensor instructions, tokens and descriptors (04 R104 to R123), and the arithmetic of the tensor array (03 R72 to R83). -/

namespace Sys2Proof.Machine

/-! ## Formats and pairings (03 R72, R73) -/

/-- The array accepts a pairing (03 R73). -/
def pairing (a b : Nat) : Bool :=
  (a == 9 && b == 0xB)
    || ((a == 3 || a == 4) && (b == 3 || b == 4))
    || (between5to9 a && between5to9 b)
    || (a == b && (a == 1 || a == 2 || a == 0xA || a == 0xC))
where
  /-- An MX float code. -/
  between5to9 (x : Nat) : Bool := decide (5 ≤ x) && decide (x ≤ 9)

/-- A pairing with a sparse rate (03 R73). -/
def sparsePairing (a b : Nat) : Bool := (a == 9 && (b == 9 || b == 0xB)) || ((a == 3 || a == 4) && (b == 3 || b == 4))

/-! ## Multiply-accumulate (03 R79 to R83, 04 R114) -/

/-- The reduction group (03 R79). -/
def groupLen (a b : Tile) : Nat := if fmtBlock a.fmt = 0 then 16 else if b.fmt = 0xB then 64 else 32

/-- The exact sum of a group's products (03 R79, R81). -/
def exactSum (xs : List Num) : Num × Nat :=
  if xs.any Num.isNan then (.nan, 0)
  else
    let pos := xs.any fun x => decide (x = .inf false)
    let neg := xs.any fun x => decide (x = .inf true)
    if pos && neg then (.nan, flagInvalid)
    else if pos then (.inf false, 0)
    else if neg then (.inf true, 0)
    else
      let d := xs.foldl (fun acc x => match x with
        | .fin n m e => addDyadic acc (signedOf n m, e)
        | _ => acc) ((0 : Int), (0 : Int))
      (.fin (decide (d.1 < 0)) d.1.natAbs d.2, 0)

/-- An operand element's scale is 0xFF (03 R81). -/
def Tile.scaleNan (rd : Nat → Byte) (t : Tile) (i k : Nat) : Nat :=
  if fmtBlock t.fmt ≠ 0 ∧ t.scaleAt rd i (k / fmtBlock t.fmt) = 0xFF then flagScaleNan else 0

/-- The product of A(i, k) and B(j, k) with its flags; a group with invalid metadata contributes zero (03 R78). -/
def tensorProduct (rd : Nat → Byte) (a b : Tile) (i j k : Nat) : Num × Nat :=
  let x := a.operand rd i k
  let y := b.operand rd j k
  if y.2.testBit 8 then (.fin false 0 0, flagSparseMeta)
  else
    let p := x.1.mul y.1
    (p.1, x.2 ||| y.2 ||| p.2 ||| a.scaleNan rd i k ||| b.scaleNan rd j k)

/-- The group sums of an accumulator element as FP32 patterns, with the flags (03 R79, R81). A product of infinity and zero flags INVALID whatever else the group holds; opposite infinities beside a NaN flag nothing (log 86). -/
def groupSums (rd : Nat → Byte) (a b : Tile) (i j : Nat) : List (Nat × Nat) :=
  let g := groupLen a b
  let kk := a.opK
  (List.range ((kk + g - 1) / g)).map fun q =>
    let ps := (List.range (min g (kk - q * g))).map fun d => tensorProduct rd a b i j (q * g + d)
    let s := exactSum (ps.map Prod.fst)
    let z := fp32.encode .rne 0 s.1
    (z.1, ps.foldl (fun f p => f ||| p.2) 0 ||| s.2 ||| z.2)

/-- The integer sum of an INT8 element (03 R82). -/
def intSum (rd : Nat → Byte) (a b : Tile) (i j prior : Nat) : Nat × Nat :=
  let el := fun (t : Tile) (r k : Nat) => signedNat (if t.trans then t.raw rd k r else t.raw rd r k) 8
  let x := signedNat prior 32 + ((List.range a.opK).map fun k => el a i k * el b j k).sum
  if 2147483647 < x then (2147483647, flagSaturate)
  else if x < -2147483647 then (2147483649, flagSaturate)
  else (wrapNat 32 x, 0)

/-- The new value of an accumulator element (04 R114, 03 R80 to R83): any summation tree over the prior value and the group sums. -/
def tmmaElem (free : Nat → Nat) (rd : Nat → Byte) (a b : Tile) (i j prior : Nat) : Nat × Nat :=
  if a.fmt = 0xC then intSum rd a b i j prior
  else
    let gs := groupSums rd a b i j
    let r := treeFold (fun n => free ((64 * i + j) * 2 ^ 14 + n)) (fun _ x y => f32AddRne x y) (gs.length + 1) 0 (prior :: gs.map Prod.fst) 0
    (r.1, tensorFlags (r.2 ||| gs.foldl (fun f p => f ||| p.2) 0))

/-- Accumulator elements (arow + i, j) for i below m and j below n take new values; the flags of all of them. -/
def Cell.accWrite (c : Cell) (acc arow m n : Nat) (f : Nat → Nat → Nat × Nat) : Cell :=
  let es := (List.range m).flatMap fun i => (List.range n).map fun j => (i, j, f i j)
  (es.foldl (fun k e => k.setAcc acc (arow + e.1) e.2.1 e.2.2.1) c).flag (es.foldl (fun a e => a ||| e.2.2.2) 0)

/-- The INT32 sum of two patterns, saturated (03 R82). -/
def intAddSat (a b : Nat) : Nat × Nat :=
  let x := signedNat a 32 + signedNat b 32
  if 2147483647 < x then (2147483647, flagSaturate)
  else if x < -2147483647 then (2147483649, flagSaturate)
  else (wrapNat 32 x, 0)

/-- What a tensor-queue operation does to its cell (04 R114, R118 to R121). -/
def tensorEffect (free : Nat → Nat) (c : Cell) : AsyncKind → Cell
  | .tmma acc a b init arow _ =>
    c.accWrite acc arow a.opRows b.opRows fun i j => tmmaElem free c.opRd a b i j (if init then 0 else c.acc acc (arow + i) j)
  | .tacr acc dd rnd srule zero arow alpha int =>
    let val := fun r n =>
      let p := if dd.trans then c.acc acc (arow + n) r else c.acc acc (arow + r) n
      let v := if int then int32Num p else f32 p
      match alpha with
      | some x => v.mul (f32 x)
      | none => (v, 0)
    let ws := dd.writes rnd srule (roundDraw free) fun r n => (val r n).1
    let mf := ((List.range dd.rows).flatMap fun r => (List.range dd.cols).map fun n => (val r n).2).foldl (fun a f => a ||| f) 0
    let c1 := (c.opWrites ws.1).flag (ws.2 ||| mf)
    if zero then c1.accWrite acc arow dd.opRowsT dd.opColsT fun _ _ => (0, 0) else c1
  | .tacw acc ds mode raw arow =>
    let el := fun r n => if raw then ds.raw c.opRd r n else (fp32.encode .rne 0 (ds.value c.opRd r n).1).1
    if mode = 0 then c.accWrite acc arow ds.rows ds.cols fun i j => (el i j, 0)
    else if mode = 1 then c.accWrite acc arow (32 - arow) ds.cols fun _ j => (el 0 j, 0)
    else c.accWrite acc 0 32 64 fun _ _ => (0, 0)
  | .tacx d a b op =>
    c.accWrite d 0 32 64 fun i j =>
      if op = 0 then (c.acc a i j, 0)
      else if op = 1 then
        let z := f32AddRne (c.acc a i j) (c.acc b i j)
        (z.1, tensorFlags z.2)
      else intAddSat (c.acc a i j) (c.acc b i j)
  | .ttrn ds dd rnd srule =>
    let ws := dd.writes rnd srule (roundDraw free) fun r n => (ds.value c.opRd n r).1
    let rf := ((List.range ds.rows).flatMap fun r => (List.range ds.cols).map fun n => (ds.value c.opRd r n).2).foldl (fun a f => a ||| f) 0
    (c.opWrites ws.1).flag (ws.2 ||| rf)
  | _ => c

/-! ## Issue of tensor instructions (04 R113, R115, R117 to R121) -/

/-- A field of four bits that names a descriptor. -/
def descAt (w : Word) (lo : Nat) : Nat := w.fld lo 4

/-- The tiles of TMMA and TMMS with their checks (04 R113, R115, 03 R74). -/
def tmmaTiles (sparse : Bool) (w : Word) (a : At) : List TileUse :=
  let x := a.cell.tile (descAt w 42)
  let y := a.cell.tile (descAt w 38)
  let ok := (if sparse then sparsePairing x.fmt y.fmt else pairing x.fmt y.fmt) && !x.sparse && y.sparse == sparse
    && decide (x.opRows + w.fld 32 5 ≤ 32) && decide (y.opRows ≤ 64) && x.opK == y.opK
  [⟨descAt w 42, x, 0, ok⟩, ⟨descAt w 38, y, 0, true⟩]

/-- The operation TMMA or TMMS issues. -/
def tmmaKind (sparse : Bool) (w : Word) (a : At) : AsyncKind :=
  .tmma (w.fld 46 3) (a.cell.tile (descAt w 42)) (a.cell.tile (descAt w 38)) (w.bit 37) (w.fld 32 5) sparse

/-- TMMA: dense multiply-accumulate into the tensor queue (04 R113 to R115). -/
def opTmma (c : CellRef) (w : Word) (s : State) : State :=
  s.issueAsync c w (opOf w == 0x30) (zeroFld w 0 32) [] (tmmaTiles false w) (tmmaKind false w)

/-- TMMS: multiply-accumulate with a 2:4-sparse operand B (04 R113 to R115, 03 R76 to R78). -/
def opTmms (c : CellRef) (w : Word) (s : State) : State :=
  s.issueAsync c w (opOf w == 0x31) (zeroFld w 0 32) [] (tmmaTiles true w) (tmmaKind true w)

/-- TACR: accumulator read-out with conversion (04 R117, R118). -/
def opTacr (c : CellRef) (w : Word) (s : State) : State :=
  let sa := w.fld 26 6
  s.issueAsync c w (opOf w == 0x32) (zeroFld w 0 24 && rndCode (w.fld 39 3)) (if w.bit 25 then [sa] else [])
    (fun a =>
      let t := a.cell.tile (descAt w 42)
      [⟨descAt w 42, t, 0, !t.sparse && decide (t.opRowsT + w.fld 32 5 ≤ 32) && decide (t.opColsT ≤ 64)⟩])
    fun a => .tacr (w.fld 46 3) (a.cell.tile (descAt w 42)) (a.cell.rnd (w.fld 39 3)) (w.fld 38 1) (w.bit 37) (w.fld 32 5)
      (if w.bit 25 then some ((a.cell.s sa).fld 0 32) else none) (w.bit 24)

/-- TACW: accumulator write, broadcast or zeroing (04 R119). -/
def opTacw (c : CellRef) (w : Word) (s : State) : State :=
  let mode := w.fld 40 2
  let raw := w.bit 39
  let arow := w.fld 34 5
  s.issueAsync c w (opOf w == 0x33) (zeroFld w 0 34 && mode != 3 && (mode != 2 || (zeroFld w 42 4 && !raw && arow == 0))) []
    (fun a =>
      if mode = 2 then []
      else
        let t := a.cell.tile (descAt w 42)
        [⟨descAt w 42, t, 0, decide (t.fmt ≤ 2) && !t.trans && !t.tern && !t.sparse && (!raw || t.fmt == 0) && decide (t.cols ≤ 64)
            && (if mode = 0 then decide (t.rows + arow ≤ 32) else t.rows == 1)⟩])
    fun a => .tacw (w.fld 46 3) (a.cell.tile (descAt w 42)) mode raw arow

/-- TACX: accumulator copy or add (04 R120). -/
def opTacx (c : CellRef) (w : Word) (s : State) : State :=
  s.issueAsync c w (opOf w == 0x35) (zeroFld w 0 38 && w.fld 38 2 != 3) [] (fun _ => [])
    fun _ => .tacx (w.fld 46 3) (w.fld 43 3) (w.fld 40 3) (w.fld 38 2)

/-- Two tiles have no byte in common. -/
def Tile.apart (t u : Tile) : Bool := t.runs.all fun p => u.runs.all fun q => !overlapN p.1 p.2 q.1 q.2

/-- TTRN: tile transpose with conversion (04 R121). -/
def opTtrn (c : CellRef) (w : Word) (s : State) : State :=
  s.issueAsync c w (opOf w == 0x34) (zeroFld w 0 37 && rndCode (w.fld 38 3)) []
    (fun a =>
      let x := a.cell.tile (descAt w 45)
      let y := a.cell.tile (descAt w 41)
      [⟨descAt w 45, x, 0, !x.trans && !x.sparse && x.rows == y.cols && x.cols == y.rows && x.apart y⟩,
       ⟨descAt w 41, y, 0, !y.trans && !y.sparse⟩])
    fun a => .ttrn (a.cell.tile (descAt w 45)) (a.cell.tile (descAt w 41)) (a.cell.rnd (w.fld 38 3)) (w.fld 37 1)

/-! ## Tokens (04 R122) -/

/-- Every token of a mask has PENDING at most a limit. -/
def Cell.tokensAtMost (c : Cell) (mask limit : Nat) : Bool :=
  (List.range 16).all fun k => !mask.testBit k || decide (c.pendingOf k ≤ limit)

/-- A token wait: at once when it holds, else the cell blocks. -/
def State.tokenWait (s : State) (a : At) (mask limit : Nat) : State :=
  if a.cell.tokensAtMost mask limit then s.setCell a.key a.cell.next else s.blockAt a (.tkop mask limit)

/-- TKOP WAIT: until every masked token has PENDING 0 (04 R122). -/
def opTkopWait (c : CellRef) (w : Word) (s : State) : State :=
  s.issue c (opOf w == 0x36 && minorOf w == 0) (zeroFld w 16 38) [] fun a => s.tokenWait a (w.fld 0 16) 0

/-- TKOP WAITN: until a token's PENDING is at most N (04 R122). -/
def opTkopWaitn (c : CellRef) (w : Word) (s : State) : State :=
  s.issue c (opOf w == 0x36 && minorOf w == 1) (zeroFld w 0 42) [] fun a => s.tokenWait a (2 ^ w.fld 50 4) (w.fld 42 8)

/-- TKOP READ: a token's value to s[SD] (04 R122). -/
def opTkopRead (c : CellRef) (w : Word) (s : State) : State :=
  s.issueCell c (opOf w == 0x36 && minorOf w == 2) (zeroFld w 0 44) [w.fld 44 6] 0
    fun _ k => k.setS (w.fld 44 6) (k.tok (w.fld 50 4))

/-- TKOP TEST: predicate PD is all ones when PENDING is 0, else all zeros (04 R122). -/
def opTkopTest (c : CellRef) (w : Word) (s : State) : State :=
  s.issueCell c (opOf w == 0x36 && minorOf w == 3) (zeroFld w 0 47) [] 0
    fun _ k => k.setPred (w.fld 47 3) (if k.pendingOf (w.fld 50 4) = 0 then BitVec.allOnes 256 else 0)

/-- A cell blocked in a running engine. -/
def State.cellBlocked (s : State) (c : CellRef) : Bool :=
  let e := s.engine c.core c.eng
  s.serving && s.resident c.core c.eng && decide (c.idx < e.size) && (e.state == 1 || e.state == 5) && e.stopping == 0

/-- TKOP_WAIT_END: a blocked token wait ends because its condition holds (04 R122). -/
def opTkopWaitEnd (c : CellRef) (s : State) : State :=
  let a := s.at c
  match a.cell.phase with
  | .blocked (.tkop mask limit) =>
    if s.cellBlocked c && a.cell.tokensAtMost mask limit then s.setCell a.key a.cell.resume else s
  | _ => s

/-! ## Descriptors (04 R123) -/

/-- D of TDSC. -/
def tdD (w : Word) : Nat := w.fld 50 4
/-- S of TDSC. -/
def tdS (w : Word) : Nat := w.fld 44 6

/-- A TDSC of a minor that changes its cell alone. -/
def State.tdsc (s : State) (c : CellRef) (w : Word) (minor : Nat) (f : Cell → Cell) : State :=
  s.issueCell c (opOf w == 0x37 && minorOf w == minor) (zeroFld w 32 12) [tdS w] 0 fun _ k => f k

/-- The operand-store address of TDSC LD and ST, when it is lawful (04 R123). -/
def tdAddr (w : Word) (k : Cell) : Option Nat :=
  let a := (k.s (tdS w) + sxFld w 0 32).toNat
  if a % 16 = 0 ∧ a < opBytes then some a else none

/-- TDSC ST (04 R123). -/
def opTdscSt (c : CellRef) (w : Word) (s : State) : State :=
  s.issue c (opOf w == 0x37 && minorOf w == 1) (zeroFld w 32 12) [tdS w] fun a =>
    match tdAddr w a.cell with
    | none => s.trapAt a 5
    | some p => s.setCell a.key { a.cell with ops := a.cell.ops.writeLE p 16 (a.cell.desc (tdD w)).toNat }.next

/-- A descriptor with one 64-bit word replaced. -/
def descWord (d : BitVec 128) (hi : Bool) (v : Word) : BitVec 128 :=
  if hi then BitVec.ofNat 128 (d.toNat % 2 ^ 64 + v.toNat * 2 ^ 64) else BitVec.ofNat 128 (d.toNat / 2 ^ 64 * 2 ^ 64 + v.toNat)

/-- A descriptor with an amount added to bits [51:0] (04 R123). -/
def descAdd (d : BitVec 128) (v : Word) : BitVec 128 :=
  BitVec.ofNat 128 (d.toNat / 2 ^ 52 * 2 ^ 52 + (d.toNat + v.toNat) % 2 ^ 52)

/-- TDSC SETW0 (04 R123). -/
def opTdscSetw0 (c : CellRef) (w : Word) (s : State) : State :=
  s.tdsc c w 2 fun k => k.setDesc (tdD w) (descWord (k.desc (tdD w)) false (k.s (tdS w)))
/-- TDSC SETW1 (04 R123). -/
def opTdscSetw1 (c : CellRef) (w : Word) (s : State) : State :=
  s.tdsc c w 3 fun k => k.setDesc (tdD w) (descWord (k.desc (tdD w)) true (k.s (tdS w)))
/-- TDSC GETW0 (04 R123). -/
def opTdscGetw0 (c : CellRef) (w : Word) (s : State) : State :=
  s.tdsc c w 4 fun k => k.setS (tdS w) (Word.ofNat (k.desc (tdD w)).toNat)
/-- TDSC GETW1 (04 R123). -/
def opTdscGetw1 (c : CellRef) (w : Word) (s : State) : State :=
  s.tdsc c w 5 fun k => k.setS (tdS w) (Word.ofNat ((k.desc (tdD w)).toNat / 2 ^ 64))
/-- TDSC ADDI (04 R123). -/
def opTdscAddi (c : CellRef) (w : Word) (s : State) : State :=
  s.tdsc c w 6 fun k => k.setDesc (tdD w) (descAdd (k.desc (tdD w)) (sxFld w 0 32))
/-- TDSC ADDS (04 R123). -/
def opTdscAdds (c : CellRef) (w : Word) (s : State) : State :=
  s.tdsc c w 7 fun k => k.setDesc (tdD w) (descAdd (k.desc (tdD w)) (k.s (tdS w)))

/-! ## The queues at work (04 R105, R107, R108) -/

/-- An operation is marked started, with the operand store as it finds it (04 R109); a recipe's parameter block is read now (06 R193). -/
def AsyncOp.start (o : AsyncOp) (c : Cell) : AsyncOp :=
  match o.kind with
  | .relief 3 _ _ _ _ _ _ sa _ => { o with started := true, snap := some c.ops, params := (List.range 9).map fun i => c.ops.readLE (sa + 4 * i) 4 }
  | _ => { o with started := true, snap := some c.ops }

/-- An operation may start: it is the oldest of its queue that has not, the tensor and Relief queues run one at a time, and its token wait is met (04 R105, R107, 06 R191). -/
def Flight.mayStart (f : Flight) (q : OpQueue) (o : AsyncOp) : Bool :=
  let l := match q with
    | .tensor => f.tq
    | .move => f.mq
    | .relief => f.rq
  !o.started && f.waitMet o &&
    (match q with
     | .move => !(l.any fun p => !p.started && decide (p.id < o.id))
     | _ => (match l.head? with
       | some p => p.id == o.id
       | none => false))

/-- QUEUED_OP_START: a queued operation starts (04 R105, R107). -/
def opQueuedOpStart (c : CellRef) (q : OpQueue) (i : Nat) (s : State) : State :=
  let a := s.at c
  let l := match q with
    | .tensor => a.fl.tq
    | .move => a.fl.mq
    | .relief => a.fl.rq
  match findOp l i with
  | none => s
  | some o =>
    if s.cellWorks c && a.eng.stopping != 2 && a.fl.mayStart q o then
      let put := fun (m : List AsyncOp) => m.map fun p => if p.id = i then p.start a.cell else p
      s.setFlight a.key (match q with
        | .tensor => { a.fl with tq := put a.fl.tq }
        | .move => { a.fl with mq := put a.fl.mq }
        | .relief => { a.fl with rq := put a.fl.rq })
    else s

/-- The tensor arrays of a core's die are stopped (17 R504, R514, 18 R525). -/
def State.arraysOff (s : State) (core : Nat) : Bool := s.board.arraysStopped.testBit (core / 4)

/-- TENSOR_OP_COMPLETE: the running tensor operation writes its results, sets its flags and advances its token (04 R108, 03 R95). A multiply-accumulate waits while the die's arrays are stopped (17 R504). -/
def opTensorOpComplete (c : CellRef) (s : State) : State :=
  let a := s.at c
  match a.fl.tq with
  | [] => s
  | o :: _ =>
    let waits := match o.kind with
      | .tmma .. => s.arraysOff c.core
      | _ => false
    if s.cellWorks c && o.started && !waits then
      let free := fun i => Config.freeNat (s.draws + i)
      ((s.setCell a.key (o.effect free a.cell fun k => tensorEffect free k o.kind)).opDone a.key o 0).drew drawSpan
    else s

/-! ## Meanings: each command answers the next state that its operation gives. -/

/-- The meaning of TMMA. -/
def execTmma (c : CellRef) (w : Word) (s : State) : Host.Outcome State Fault Refusal := .next (opTmma c w s)
/-- The meaning of TMMS. -/
def execTmms (c : CellRef) (w : Word) (s : State) : Host.Outcome State Fault Refusal := .next (opTmms c w s)
/-- The meaning of TACR. -/
def execTacr (c : CellRef) (w : Word) (s : State) : Host.Outcome State Fault Refusal := .next (opTacr c w s)
/-- The meaning of TACW. -/
def execTacw (c : CellRef) (w : Word) (s : State) : Host.Outcome State Fault Refusal := .next (opTacw c w s)
/-- The meaning of TACX. -/
def execTacx (c : CellRef) (w : Word) (s : State) : Host.Outcome State Fault Refusal := .next (opTacx c w s)
/-- The meaning of TTRN. -/
def execTtrn (c : CellRef) (w : Word) (s : State) : Host.Outcome State Fault Refusal := .next (opTtrn c w s)
/-- The meaning of TKOP_WAIT. -/
def execTkopWait (c : CellRef) (w : Word) (s : State) : Host.Outcome State Fault Refusal := .next (opTkopWait c w s)
/-- The meaning of TKOP_WAITN. -/
def execTkopWaitn (c : CellRef) (w : Word) (s : State) : Host.Outcome State Fault Refusal := .next (opTkopWaitn c w s)
/-- The meaning of TKOP_READ. -/
def execTkopRead (c : CellRef) (w : Word) (s : State) : Host.Outcome State Fault Refusal := .next (opTkopRead c w s)
/-- The meaning of TKOP_TEST. -/
def execTkopTest (c : CellRef) (w : Word) (s : State) : Host.Outcome State Fault Refusal := .next (opTkopTest c w s)
/-- The meaning of TKOP_WAIT_END. -/
def execTkopWaitEnd (c : CellRef) (s : State) : Host.Outcome State Fault Refusal := .next (opTkopWaitEnd c s)
/-- The meaning of TDSC_ST. -/
def execTdscSt (c : CellRef) (w : Word) (s : State) : Host.Outcome State Fault Refusal := .next (opTdscSt c w s)
/-- The meaning of TDSC_SETW0. -/
def execTdscSetw0 (c : CellRef) (w : Word) (s : State) : Host.Outcome State Fault Refusal := .next (opTdscSetw0 c w s)
/-- The meaning of TDSC_SETW1. -/
def execTdscSetw1 (c : CellRef) (w : Word) (s : State) : Host.Outcome State Fault Refusal := .next (opTdscSetw1 c w s)
/-- The meaning of TDSC_GETW0. -/
def execTdscGetw0 (c : CellRef) (w : Word) (s : State) : Host.Outcome State Fault Refusal := .next (opTdscGetw0 c w s)
/-- The meaning of TDSC_GETW1. -/
def execTdscGetw1 (c : CellRef) (w : Word) (s : State) : Host.Outcome State Fault Refusal := .next (opTdscGetw1 c w s)
/-- The meaning of TDSC_ADDI. -/
def execTdscAddi (c : CellRef) (w : Word) (s : State) : Host.Outcome State Fault Refusal := .next (opTdscAddi c w s)
/-- The meaning of TDSC_ADDS. -/
def execTdscAdds (c : CellRef) (w : Word) (s : State) : Host.Outcome State Fault Refusal := .next (opTdscAdds c w s)
/-- The meaning of QUEUED_OP_START. -/
def execQueuedOpStart (c : CellRef) (q : OpQueue) (i : Nat) (s : State) : Host.Outcome State Fault Refusal := .next (opQueuedOpStart c q i s)
/-- The meaning of TENSOR_OP_COMPLETE. -/
def execTensorOpComplete (c : CellRef) (s : State) : Host.Outcome State Fault Refusal := .next (opTensorOpComplete c s)

end Sys2Proof.Machine
end

