-- ==== Sys2Proof/Machine/Host.lean ====
section
/-! DEFINITION. Accesses by place: the host-line cache (07 R217, 11 R341), and the reads and stores of a cell at a stack line, a bank granule or a host line (07 R204, R209, 06 R200, 14 R438). -/

namespace Sys2Proof.Machine

/-! ## The host-line cache -/

/-- The host line's answer, when it has come: its data and whether it is poisoned (18 R531). -/
def hostLineOf (h : HostAnswer) (line : Nat) : Option (Line × Bool) :=
  (h.lines.find? fun e => e.1 == line).map fun e => (e.2, h.poisoned.contains line)

/-- A host line of the host-line cache. -/
def State.hline? (s : State) (line : Nat) : Option HostLine := s.mem.hlc.find? line

/-- Replacing a host line. -/
def State.setHline (s : State) (line : Nat) (l : HostLine) : State := { s with mem := { s.mem with hlc := s.mem.hlc.insert line l } }

/-- The cells, but one, lose a reservation on a host line (05 R144). -/
def State.clearHostResv (s : State) (line own : Nat) : State :=
  { s with cells := (s.cells.map fun e =>
      match e.2.resv with
      | some (.host a) => if a / 64 = line ∧ e.1 ≠ own then (e.1, { e.2 with resv := none }) else e
      | _ => e).filter fun e => e.2 ≠ {} }

/-- A host line leaves the host-line cache: a modified one with DirtyEvict, another with CleanEvictNoData (11 R340, R341; log 47). -/
def State.hostEvict (s : State) (line : Nat) (l : HostLine) : State :=
  let t := { s with mem := { s.mem with hlc := s.mem.hlc.erase line } }.clearHostResv line 0x10000
  if l.dirty then t.send 0 (.write none (64 * line) (bytesOf 64 l.data.toNat) l.poison) else t.send 0 (.cleanEvict (64 * line))

/-- The host lines held in the set of a line (11 R341). -/
def MemSys.hlcWays (m : MemSys) (line : Nat) : List (Nat × HostLine) :=
  m.hlc.filter fun e => Config.hlcSet e.1 % 8192 == Config.hlcSet line % 8192

/-- The host-line cache has room for a line: 16 ways of 8,192 sets; a full set loses a line that does not wait for ownership, which one being free; none while all of them wait (11 R341; log 93). -/
def State.hostRoom (s : State) (line : Nat) : Option State :=
  if s.mem.hlc.length < 16 ∨ (s.mem.hlcWays line).length < 16 then some s
  else
    let l := (s.mem.hlcWays line).filter fun e => e.2.early == 0
    (l[s.draw % l.length]?).map fun e => (s.hostEvict e.1 e.2).drew 1

/-- An access of the host-line cache counts as a hit or a miss (11 R371). -/
def State.hostCount (s : State) (hit : Bool) : State :=
  s.bump plPage .plCntHlc (if hit then Fld.plCntHlc_hits else Fld.plCntHlc_misses) 1

/-- A host line is brought in for a read, when it is not held: it waits while the link is down or the host has not answered; early-visible bytes stay on top (07 R217, 18 R530). -/
def State.hostFetch (s : State) (h : HostAnswer) (line : Nat) : Option State :=
  match s.hline? line with
  | some l =>
    if l.valid then some (s.hostCount true)
    else if s.linkUp then
      (hostLineOf h line).map fun a => (s.setHline line { l with data := mergeLine a.1 l.data l.early, valid := true, poison := a.2 }).hostCount false
    else none
  | none =>
    if s.linkUp then
      match hostLineOf h line, s.hostRoom line with
      | some a, some t => some ((t.setHline line { data := a.1, valid := true, owned := false, dirty := false, early := 0, poison := a.2 }).hostCount false)
      | _, _ => none
    else none

/-- A context's cells have written a host line that is not yet owned (07 R217). -/
def State.noteHostWriter (s : State) (line ctx : Nat) : State :=
  let l := s.pl.hostWriters.at [] line
  if l.contains ctx then s else { s with pl := { s.pl with hostWriters := s.pl.hostWriters.put [] line (l ++ [ctx]) } }

/-- A store into the host-line cache: an owned line takes it; another accepts it early; none while no line of its set can make room (07 R217). -/
def State.hostStore (s : State) (line mask : Nat) (data : Line) (ctx : Nat) : Option State :=
  match s.hline? line with
  | some l =>
    let d := mergeLine l.data data mask
    let t := s.hostCount true
    if l.owned then some (t.setHline line { l with data := d, dirty := true })
    else some ((t.setHline line { l with data := d, early := l.early ||| mask }).noteHostWriter line ctx)
  | none =>
    (s.hostRoom line).map fun t =>
      ((t.hostCount false).setHline line
        { data := mergeLine 0 data mask, valid := false, owned := false, dirty := false, early := mask, poison := false }).noteHostWriter line ctx

/-! ## Places by granule -/

/-- The aligned 64 bytes that hold a place, and the offset in them. -/
def Place.granule : Place → Place × Nat
  | .stack a => (.stack (a / 64 * 64), a % 64)
  | .bank k off => (.bank k (off / 64 * 64), off % 64)
  | .host a => (.host (a / 64 * 64), a % 64)
  | .arena c a => (.arena c a, 0)

/-- A cell's read needs a granule at hand: a line not in the core cache is read shared, or, with NA and for the saved copy of a Relief page (06 R178, R182), at its home, once the home can serve it; a host line is fetched (07 R204, R220, R221). None: it waits. -/
def State.ensure (s : State) (core : Nat) (na : Bool) (h : HostAnswer) (g : Place) : Option State :=
  match g with
  | .stack a =>
    let line := a / 64
    if (s.mem.cline? core line).any (fun c => c.st ≠ .pending) then some s
    else if ¬ s.mem.free line then none
    else if (na ∧ (s.mem.cline? core line).isNone) ∨ (s.savedBank a).isSome then some (s.snoopRead line)
    else if s.mem.roomFor core line then some (s.readSharedOp core line)
    else none
  | .bank _ _ => some s
  | .host a => s.hostFetch h (a / 64)
  | .arena _ _ => some s

/-- Every granule of a list is at hand. -/
def State.ensureAll (s : State) (core : Nat) (na : Bool) (h : HostAnswer) : List Place → Option State
  | [] => some s
  | g :: gs =>
    match s.ensure core na h g with
    | none => none
    | some t => t.ensureAll core na h gs

/-- A byte as a core's cells see it. -/
def State.byteAt (s : State) (core : Nat) (p : Place) : Byte :=
  match p with
  | .stack a => BitVec.ofNat 8 ((s.mem.coreLine core (a / 64)).1.toNat / 256 ^ (a % 64))
  | .bank k off => (s.bank k).data.read off
  | .host a =>
    match s.hline? (a / 64) with
    | some l => BitVec.ofNat 8 (l.data.toNat / 256 ^ (a % 64))
    | none => 0
  | .arena _ _ => 0

/-- The code that reading a place fails with, where it is poisoned (05 R145, 06 R199, 14 R438, 18 R531). -/
def State.poisonAt (s : State) (core : Nat) (p : Place) : Option Nat :=
  match p with
  | .stack a => if (s.mem.coreLine core (a / 64)).2 then some (s.poisonCode a) else none
  | .bank k off => if (s.bank k).poisoned (off / 64) then some 7 else none
  | .host a =>
    match s.hline? (a / 64) with
    | some l => if l.poison then some 7 else none
    | none => none
  | .arena _ _ => none

/-- The consumption of poison at a place by a context (16 R483). -/
def State.consumeAt (s : State) (core ctx : Nat) (p : Place) : State :=
  match p with
  | .stack a => if (s.mem.coreLine core (a / 64)).2 then s.consumePoison (a / 64) ctx else s
  | _ => s

/-- The cells of a core, but one, lose a reservation on a device line (05 R144). -/
def State.clearResvBut (s : State) (core line own : Nat) : State :=
  { s with cells := (s.cells.map fun e =>
      match e.2.resv with
      | some (.stack a) => if e.1 / 256 = core ∧ a / 64 = line ∧ e.1 ≠ own then (e.1, { e.2 with resv := none }) else e
      | _ => e).filter fun e => e.2 ≠ {} }

/-- What a store at a granule came to: it waits; or it is done, with the failure code where poison refused it, and the line that holds it early. -/
inductive Stored where
  | wait
  | done (s : State) (code : Option Nat) (early : Option (Nat × Bool))

/-- A cell's store of masked bytes at a granule (07 R204, R209, R217, 06 R200, 14 R438, R439); one to the saved copy of a Relief page is performed at its home (06 R178, R182). `own` is the storing cell when it is a scalar store, which keeps its own reservation. -/
def State.storeAt (s : State) (core ctx : Nat) (na : Bool) (own : Option Nat) (g : Place) (mask : Nat) (data : Line) : Stored :=
  match g with
  | .stack a =>
    let line := a / 64
    let put := fun (t : State) =>
      let r := t.coreStore core line mask data
      let early := match r.1.mem.cline? core line with
        | some c => if c.early = 0 then none else some (line, false)
        | none => none
      Stored.done (r.1.clearResvBut core line (own.getD 0x10000)) (if r.2 then none else some 7) early
    match s.mem.cline? core line with
    | some c =>
      if c.st = .pending ∧ c.early = 0 then .wait else put s
    | none =>
      if ¬ s.mem.free line then .wait
      else if na ∨ (s.savedBank a).isSome then
        let r := s.homeWrite line mask data
        let t := match own with
          | some k => r.1.setCell k { r.1.cell k with resv := (s.cell k).resv }
          | none => r.1
        .done t (if r.2 then none else some 7) none
      else if s.mem.roomFor core line then put (s.ownOp core line)
      else .wait
  | .bank k off =>
    let b := (s.bank k).clearResv off 64 own
    let r := b.writeGranule (off / 64) mask data
    .done (s.setBank k r.1) (if r.2 then none else some 7) none
  | .host a =>
    match s.hostStore (a / 64) mask data ctx with
    | none => .wait
    | some t =>
      .done (t.clearHostResv (a / 64) (own.getD 0x10000)) none (match t.hline? (a / 64) with
        | some l => if l.early = 0 then none else some (a / 64, true)
        | none => none)
  | .arena _ _ => .done s (some 6) none

/-- Placed bytes gathered by granule: mask and data of each. -/
def gatherPlaces (ws : List (Place × Byte)) : List (Place × Nat × Nat) :=
  ws.foldl (fun acc p =>
    let g := p.1.granule
    let one : Nat × Nat := (2 ^ g.2, p.2.toNat * 256 ^ g.2)
    match acc.find? fun e => e.1 == g.1 with
    | some e =>
      if e.2.1.testBit g.2 then acc.map fun f => if f.1 = g.1 then (f.1, f.2.1, f.2.2 - nbits f.2.2 (8 * g.2) 8 * 256 ^ g.2 + one.2) else f
      else acc.map fun f => if f.1 = g.1 then (f.1, f.2.1 + one.1, f.2.2 + one.2) else f
    | none => acc ++ [(g.1, one)]) []

/-- Stores at several granules; none where one must wait. The code is the first failure's. -/
def State.storeAll (s : State) (core ctx : Nat) (na : Bool) (own : Option Nat) :
    List (Place × Nat × Nat) → Option Nat → List (Nat × Bool) → Option (State × Option Nat × List (Nat × Bool))
  | [], code, early => some (s, code, early)
  | e :: es, code, early =>
    match s.storeAt core ctx na own e.1 e.2.1 (BitVec.ofNat 512 e.2.2) with
    | .wait => none
    | .done t c l => t.storeAll core ctx na own es (code <|> c) (match l with
      | some x => x :: early
      | none => early)

/-- An access of a context's engine touches the code region of an engine of the context, on whatever core that is formed (02 R29, R54, 05 R138). -/
def State.codeHit (s : State) (ctx va n : Nat) : Bool :=
  s.cores.any fun k => k.2.engines.any fun e => e.2.formed && e.2.ctx == ctx && overlapN e.2.codeBase e.2.codeLen va n

/-- Stores that were accepted early are noted with the cell: the lines, and the bytes of a scalar store (07 R209). -/
def Flight.noteEarly (f : Flight) (tag : Nat) (bytes : Option (Place × Nat)) (l : List (Nat × Bool)) : Flight :=
  { f with early := f.early ++ l.map fun e => ⟨e.1, e.2, tag, bytes⟩ }

end Sys2Proof.Machine
end

