-- ==== Sys2Proof/Machine/Moves.lean ====
section
/-! DEFINITION. Moves (04 R124 to R128) and their completion (R108, R110). -/

namespace Sys2Proof.Machine

/-- MVRL: a move between the operand store and the cell's own Relief bank (04 R124). -/
def opMvrl (c : CellRef) (w : Word) (s : State) : State :=
  s.issueAsync c w (opOf w == 0x38) (zeroFld w 0 40) []
    (fun a =>
      let o := a.cell.tile (descAt w 44)
      let r := a.cell.tile (descAt w 40)
      [⟨descAt w 44, o, 0, o.agrees r⟩, ⟨descAt w 40, r, 1, true⟩])
    fun a => .mvrl (w.bit 48) (a.cell.tile (descAt w 44)) (a.cell.tile (descAt w 40))

/-- MVDM: a move between the operand store and device memory (04 R125). -/
def opMvdm (c : CellRef) (w : Word) (s : State) : State :=
  s.issueAsync c w (opOf w == 0x39) (zeroFld w 0 33 && (if w.bit 48 then !w.bit 35 else !w.bit 34)) []
    (fun a =>
      let o := a.cell.tile (descAt w 44)
      let m := a.cell.tile (descAt w 40)
      [⟨descAt w 44, o, 0, o.agrees m⟩, ⟨descAt w 40, m, 2, true⟩])
    fun a => .mvdm (w.bit 48) (a.cell.tile (descAt w 44)) (a.cell.tile (descAt w 40)) (w.fld 36 4) (w.bit 35) (w.bit 34) (w.bit 33)

/-- MVBC: an instance of a broadcast collective (04 R127). Cell 0's instance names the source. -/
def opMvbc (c : CellRef) (w : Word) (s : State) : State :=
  let k := s.cellKey c
  let g := s.gather k
  let t := s.issueAsync c w (opOf w == 0x3A) (zeroFld w 0 39) (if c.idx = 0 then [w.fld 39 6] else [])
    (fun a => [⟨descAt w 45, a.cell.tile (descAt w 45), 0, true⟩])
    fun a => .mvbc (a.cell.tile (descAt w 45)) (w.fld 39 6) g.mvbc
  if (t.flight k).seq = (s.flight k).seq then t
  else
    let t1 := t.setGather k { g with mvbc := g.mvbc + 1 }
    if c.idx = 0 then
      let e := t1.engine c.core c.eng
      let src := min ((s.cell k).s (w.fld 39 6)).toNat e.size
      t1.setEngine c.core c.eng { e with mvbc := e.mvbc.put (0, 0) g.mvbc (src + 1, 0) }
    else t1

/-! ## Completion -/

/-- An operation of the move queue that has started. -/
def Flight.moveOp (f : Flight) (i : Nat) : Option AsyncOp :=
  match findOp f.mq i with
  | some o => if o.started then some o else none
  | none => none

/-- MVRL_COMPLETE: every byte is at its destination (04 R108), or the move fails on poison, each other granule old or new (R110, 06 R199, R200). `bad` are the bank granules in which the read found an uncorrectable error. -/
def opMvrlComplete (c : CellRef) (i : Nat) (bad : List Nat) (s : State) : State :=
  let a := s.at c
  match a.fl.moveOp i with
  | some o =>
    match o.kind with
    | .mvrl dir op rel =>
      if ¬ s.cellWorks c then s
      else
        let free := fun n => Config.freeNat (s.draws + n)
        if dir then
          let ws := byGranule ((moveBytes op rel).map fun p => (p.2, (o.view free a.cell).read p.1))
          let b0 := s.bank a.key
          let fails := ws.filter fun e => !(b0.writeGranule e.1 e.2.1 (BitVec.ofNat 512 e.2.2)).2
          let take := fun (e : Nat × Nat × Nat) => fails.isEmpty || free e.1 % 2 == 1
          let b1 := (ws.filter take).foldl (fun (b : Bank) e =>
            ((b.clearResv (64 * e.1) 64 none).writeGranule e.1 e.2.1 (BitVec.ofNat 512 e.2.2)).1) b0
          ((s.setBank a.key b1).opDone a.key o (if fails.isEmpty then 0 else 7)).drew drawSpan
        else
          let s1 := (bad.filter fun g => (moveBytes rel op).any fun p => p.1 / 64 == g).foldl (fun t g => t.bankError a.key g .data) s
          let b := s1.bank a.key
          let mv := moveBytes rel op
          let ws := mv.map fun p => (p.2, b.data.read p.1)
          let hurt := ((mv.filter fun p => b.poisoned (p.1 / 64)).map fun p => p.2 / 64).eraseDups
          let done := if hurt.isEmpty then ws else chooseGranules free (fun g => hurt.contains g) ws
          ((s1.setCell a.key (o.effect free (s1.cell a.key) fun k => k.opWrites done)).opDone a.key o (if hurt.isEmpty then 0 else 7)).drew drawSpan
    | _ => s
  | none => s

/-- The place of each byte of a move's memory tile, or the code it fails with; none where a host translation is awaited (04 R126, 10 R316, R568, 02 R29). -/
def State.movePlaces (s : State) (core ctx : Nat) (r : Right) (vas : List Nat) : Option (List (Except Nat Place)) :=
  let xs := vas.map fun va => s.xlCell core ctx va r
  if xs.any fun x => x == .wait then none
  else some ((xs.zip vas).map fun p =>
    match p.1 with
    | .ok (.arena _ _) => .error 6
    | .ok q => if r = .write ∧ s.codeHit ctx p.2 1 then .error 6 else .ok q
    | .poison _ => .error 7
    | _ => .error 6)

/-- The first failure code of a list of places. -/
def firstCode (l : List (Except Nat Place)) : Nat :=
  (l.findSome? fun x => match x with
    | .error c => some c
    | .ok _ => none).getD 0

/-- The translations of a move fill the caches, page by page (10 R308). -/
def State.moveFill (s : State) (core ctx : Nat) (r : Right) (vas : List Nat) : State :=
  ((vas.map fun va => va / 0x2000000).eraseDups).foldl (fun t p => t.xlCellFill core ctx (p * 0x2000000) r) s

/-- MVDM_COMPLETE: a load is in the operand store, or a store has been accepted (04 R108), once the order of R207 lets it be performed; a failure leaves each granule old or new (R110). -/
def opMvdmComplete (c : CellRef) (i : Nat) (h : HostAnswer) (s : State) : State :=
  let a := s.at c
  match a.fl.moveOp i with
  | some o =>
    match o.kind with
    | .mvdm dir op mem tag _ _ na =>
      let ctx := a.eng.ctx
      let r : Right := if dir then .write else .read
      let mayGo := s.cellWorks c && (match o.acc with
        | some x => s.mayPerform c.core a.key x
        | none => true)
      match mayGo, s.movePlaces c.core ctx r mem.addrs with
      | true, some ps =>
        let s0 := s.moveFill c.core ctx r mem.addrs
        let free := fun n => Config.freeNat (s.draws + n)
        let code := firstCode ps
        if dir then
          let good := (ps.zip op.addrs).filterMap fun p => match p.1 with
            | .ok q => some (q, (o.view free a.cell).read p.2)
            | .error _ => none
          let gs := gatherPlaces good
          let gs := if code = 0 then gs else ((List.range gs.length).zip gs).filterMap fun e => if free e.1 % 2 = 1 then some e.2 else none
          match s0.storeAll c.core ctx na none gs none [] with
          | none => s
          | some (t, bad, early) =>
            let t1 := t.setFlight a.key ((t.flight a.key).noteEarly tag none early)
            (t1.opDone a.key o (if code ≠ 0 then code else bad.getD 0)).drew drawSpan
        else
          let goods := ps.filterMap fun p => match p with
            | .ok q => some q.granule.1
            | .error _ => none
          match s0.ensureAll c.core na h goods.eraseDups with
          | none => s
          | some t =>
            let rows := (ps.zip op.addrs).map fun p => match p.1 with
              | .ok q => (p.2, t.byteAt c.core q, t.poisonAt c.core q)
              | .error e => (p.2, 0, some e)
            let hurt := ((rows.filter fun x => x.2.2.isSome).map fun x => x.1 / 64).eraseDups
            let bad := (rows.findSome? fun x => x.2.2).getD 0
            let t1 := goods.eraseDups.foldl (fun u q => u.consumeAt c.core ctx q) t
            let ws := rows.map fun x => (x.1, x.2.1)
            let done := if hurt.isEmpty then ws else chooseGranules free (fun g => hurt.contains g) ws
            ((t1.setCell a.key (o.effect free (t1.cell a.key) fun k => k.opWrites done)).opDone a.key o bad).drew drawSpan
      | _, _ => s
    | _ => s
  | none => s

/-- MVBC_COMPLETE: a destination takes the source's tile, or fails, and the source completes once every destination is served (04 R108, R127, R128). A one-cell engine's instance whose source index is 1 or more fails like any index at or above the size (log 86). -/
def opMvbcComplete (c : CellRef) (i : Nat) (s : State) : State :=
  let a := s.at c
  match a.fl.moveOp i with
  | some o =>
    match o.kind with
    | .mvbc t _ inst =>
      let rec? := a.eng.mvbc.at (0, 0) inst
      let size := a.eng.size
      if ¬ s.cellWorks c ∨ rec?.1 = 0 then s
      else
        let src := rec?.1 - 1
        let served := fun (u : State) =>
          let e := u.engine c.core c.eng
          let m := (e.mvbc.at (0, 0) inst)
          u.setEngine c.core c.eng { e with mvbc := e.mvbc.put (0, 0) inst (m.1, setBit m.2 c.idx) }
        if size ≤ src then s.opDone a.key o 5
        else if c.idx = src then
          if (List.range size).all fun j => j == src || rec?.2.testBit j then s.opDone a.key o 0 else s
        else
          let sk := 256 * c.core + a.eng.posOf src
          match (s.flight sk).mq.findSome? fun p => match p.kind with
            | .mvbc u _ n => if n = inst ∧ p.started then some (p, u) else none
            | _ => none with
          | none => s
          | some (p, u) =>
            if t.agrees u then
              let free := fun n => Config.freeNat (s.draws + n)
              let ws := (moveBytes u t).map fun b => (b.2, (p.view free (s.cell sk)).read b.1)
              (served ((s.setCell a.key (o.effect free a.cell fun k => k.opWrites ws)).opDone a.key o 0)).drew drawSpan
            else served (s.opDone a.key o 5)
    | _ => s
  | none => s

/-! ## Meanings: each command answers the next state that its operation gives. -/

/-- The meaning of MVRL. -/
def execMvrl (c : CellRef) (w : Word) (s : State) : Host.Outcome State Fault Refusal := .next (opMvrl c w s)
/-- The meaning of MVDM. -/
def execMvdm (c : CellRef) (w : Word) (s : State) : Host.Outcome State Fault Refusal := .next (opMvdm c w s)
/-- The meaning of MVBC. -/
def execMvbc (c : CellRef) (w : Word) (s : State) : Host.Outcome State Fault Refusal := .next (opMvbc c w s)
/-- The meaning of MVRL_COMPLETE. -/
def execMvrlComplete (c : CellRef) (i : Nat) (bad : List Nat) (s : State) : Host.Outcome State Fault Refusal := .next (opMvrlComplete c i bad s)
/-- The meaning of MVDM_COMPLETE. -/
def execMvdmComplete (c : CellRef) (i : Nat) (h : HostAnswer) (s : State) : Host.Outcome State Fault Refusal := .next (opMvdmComplete c i h s)
/-- The meaning of MVBC_COMPLETE. -/
def execMvbcComplete (c : CellRef) (i : Nat) (s : State) : Host.Outcome State Fault Refusal := .next (opMvbcComplete c i s)

end Sys2Proof.Machine
end

