-- ==== Sys2Proof/Machine/Overlap.lean ====
section
/-! DEFINITION. What a scalar, vector or descriptor access sees of the operand store while asynchronous operations are at work on it (04 R109), and the accesses that see it: TDSC LD and VLD (04 R123, 05 R161). -/

namespace Sys2Proof.Machine

/-! ## Old or new (04 R109) -/

/-- The operand store as an operation in progress would leave it, where what it reads is at hand. -/
def State.preview (s : State) (core : Nat) (a : At) (o : AsyncOp) : Option Mem :=
  let free := fun n => Config.freeNat (s.draws + n)
  let put := fun (ws : List (Nat × Byte)) => some (a.cell.opWrites ws).ops
  match o.kind with
  | .tacr .. | .ttrn .. => some (tensorEffect free { a.cell with ops := o.view free a.cell } o.kind).ops
  | .mvrl false op rel => put ((moveBytes rel op).map fun p => (p.2, (s.bank a.key).data.read p.1))
  | .mvdm false op mem _ _ _ _ =>
    (s.movePlaces core a.eng.ctx .read mem.addrs).bind fun ps =>
      put ((ps.zip op.addrs).filterMap fun p => match p.1 with
        | .ok (.host x) => (s.hline? (x / 64)).bind fun l => if l.valid then some (p.2, s.byteAt core (.host x)) else none
        | .ok q => some (p.2, s.byteAt core q)
        | .error _ => none)
  | .mvbc t _ inst => (s.mvbcSent core a.eng a.key inst t).bind fun u => put ((moveBytes u.2 t).map fun p => (p.2, (s.cell u.1).opRd p.1))
  | .relief 4 _ _ _ _ _ _ sa _ => some (a.cell.ops.writeLE sa 8 (s.bank a.key).flags.toNat)
  | _ => none

/-- The operations in progress of a cell that write its operand store, each with what it would leave. -/
def State.previews (s : State) (c : CellRef) : List (AsyncKind × Mem) :=
  let a := s.at c
  ((a.fl.tq ++ a.fl.mq ++ a.fl.rq).filter fun o => o.started).filterMap fun o => (s.preview c.core a o).map fun m => (o.kind, m)

/-- The operand store as an access of the cell sees it now: each granule that operations in progress write is as it was, or as one of them leaves it. -/
def State.opsSeen (s : State) (c : CellRef) : Mem :=
  let ps := s.previews c
  (ps.mapIdx fun j p => (j, p)).foldl (fun m x =>
    SMap.mix (fun b => x.2.1.writesOp b && Config.freeNat (s.draws + b / 64) % (ps.length + 1) == x.1 + 1) m x.2.2) (s.cell (s.cellKey c)).ops

/-- How many free values such an access uses: none while no operation is at work. -/
def State.opsDraws (s : State) (c : CellRef) : Nat := if (s.previews c).isEmpty then 0 else 8192

/-! ## TDSC LD and VLD -/

/-- TDSC LD (04 R123). -/
def opTdscLd (c : CellRef) (w : Word) (s : State) : State :=
  s.issue c (opOf w == 0x37 && minorOf w == 0) (zeroFld w 32 12) [tdS w] fun a =>
    match tdAddr w a.cell with
    | none => s.trapAt a 5
    | some p => (s.setCell a.key (a.cell.setDesc (tdD w) (BitVec.ofNat 128 ((s.opsSeen c).readLE p 16))).next).drew (s.opsDraws c)

/-- VLD: L packed elements become lanes; inactive lanes keep their value (05 R161). A value that the lane cannot hold exactly is rounded under RND (03 R88, R89; log 24). -/
def opVld (c : CellRef) (w : Word) (s : State) : State :=
  s.issue c (opOf w == 0x24) (vmLegal w) [vmSa w, vmSb w] fun a =>
    match vmAddr w a.cell with
    | none => s.trapAt a 5
    | some (p, sb) =>
      let t := vmTile w p sb
      let k := a.cell
      let rd := (s.opsSeen c).read
      let r := k.rnd (vmRnd w)
      let free := fun i => Config.freeNat (s.draws + i)
      let lane := fun i =>
        let v := t.value rd 0 i
        if vmTy w = 0 ∧ vmFmt w = 0 then (t.raw rd 0 i, 0)
        else
          let z := (if vmTy w = 0 then fp32 else bf16).encode r (roundDraw free (2 ^ 20 + i)) v.1
          (z.1, v.2 ||| z.2)
      (s.setCell a.key (k.vecWrite (vmTy w == 1) (vdOf w) (vmPm w) false lane).next).drew drawSpan

/-! ## Meanings: each command answers the next state that its operation gives. -/

/-- The meaning of TDSC_LD. -/
def execTdscLd (c : CellRef) (w : Word) (s : State) : Host.Outcome State Fault Refusal := .next (opTdscLd c w s)
/-- The meaning of VLD. -/
def execVld (c : CellRef) (w : Word) (s : State) : Host.Outcome State Fault Refusal := .next (opVld c w s)

end Sys2Proof.Machine
end

