-- ==== Sys2Proof/Machine/CellMemory.lean ====
section
/-! DEFINITION. Scalar memory instructions of a cell, atomics, reservations, ACVT, FENCE and FSIG (05 R139 to R148, R151; 07 R204 to R216, R223, R224; 08 R250, R251; 09 R277). -/

namespace Sys2Proof.Machine

/-! ## The layout (05 R139, R140) -/

/-- The access size in bytes. -/
def mSize (w : Word) : Nat := 2 ^ w.fld 38 2
/-- SP. -/
def mSp (w : Word) : Nat := w.fld 35 2
/-- TAG. -/
def mTag (w : Word) : Nat := w.fld 31 4
/-- ACQ. -/
def mAcq (w : Word) : Bool := w.bit 30
/-- REL. -/
def mRel (w : Word) : Bool := w.bit 29
/-- FN. -/
def mFn (w : Word) : Nat := w.fld 25 4
/-- The address s[SA] + IMM. -/
def mAddr (w : Word) (k : Cell) : Nat := (k.s (saOf w) + sxFld w 0 20).toNat

/-- A mark with a non-zero TAG is illegal in SP 0 and 1 (05 R140; log 26). -/
def mMarks (w : Word) : Bool := !(decide (mSp w < 2) && (mAcq w || mRel w) && mTag w != 0)

/-- The word of LD is lawful (05 R140). -/
def ldLegal (w : Word) : Bool :=
  zeroFld w 40 6 && !mRel w && zeroFld w 20 9 && decide (mSp w ≤ 2) && mMarks w
/-- The word of ST is lawful (05 R140). -/
def stLegal (w : Word) : Bool :=
  zeroFld w 52 6 && !w.bit 37 && !mAcq w && zeroFld w 20 9 && decide (mSp w ≤ 2) && mMarks w
/-- The word of AMO is lawful (05 R140, R142). -/
def amoLegal (w : Word) : Bool :=
  !w.bit 37 && zeroFld w 20 5 && mSp w == 2 && decide (mFn w ≤ 9)
    && (if mFn w = 9 then w.fld 38 2 == 1 || w.fld 38 2 == 2 else decide (2 ≤ w.fld 38 2))
/-- The word of CAS is lawful (05 R140). -/
def casLegal (w : Word) : Bool := !w.bit 37 && zeroFld w 20 9 && mSp w == 2 && decide (2 ≤ w.fld 38 2)
/-- The word of LR is lawful (05 R140). -/
def lrLegal (w : Word) : Bool := zeroFld w 40 6 && !w.bit 37 && !mRel w && zeroFld w 20 9 && mSp w == 2 && decide (2 ≤ w.fld 38 2)
/-- The word of SC is lawful (05 R140). -/
def scLegal (w : Word) : Bool := !w.bit 37 && !mAcq w && zeroFld w 20 9 && mSp w == 2 && decide (2 ≤ w.fld 38 2)

/-- A loaded value of `n` bytes as a register value (05 R139). -/
def extend (sx : Bool) (n v : Nat) : Word := if sx then Word.ofNat (wrapNat 64 (signedNat v (8 * n))) else Word.ofNat (v % 256 ^ n)

/-! ## Addresses in SP 2 (05 R141) -/

/-- What becomes of an access of `n` bytes: every byte needs its translation and right. -/
def State.xlAccess (s : State) (core ctx va n : Nat) (r : Right) : Xl :=
  let xs := (List.range n).map fun i => s.xlCell core ctx (va + i) r
  match xs.find? fun x => match x with
    | .ok _ => false
    | _ => true with
  | some x => x
  | none => (xs[0]?).getD .missing

/-- The caches as an access of `n` bytes leaves them: its first page, and where that translates, the page of its last byte when it is another (10 R307, R337). -/
def State.xlAccessFill (s : State) (core ctx va n : Nat) (r : Right) : State :=
  let t := s.xlCellFill core ctx va r
  let last := va + (n - 1)
  match s.xlCell core ctx va r with
  | .ok _ => if last / 0x2000000 = va / 0x2000000 then t else t.xlCellFill core ctx last r
  | _ => t

/-- An SP 2 access: a missing translation or right traps with PROTECTION, a poisoned page table with ECC_UNCORR (10 R568), an aperture step being translated again makes it wait, and otherwise the body has its place. -/
def State.withPlace (s : State) (a : At) (va n : Nat) (r : Right) (body : State → Place → State) : State :=
  let core := a.ref.core
  match s.xlAccess core a.eng.ctx va n r with
  | .ok p => body (s.xlAccessFill core a.eng.ctx va n r) p
  | .missing => (s.xlAccessFill core a.eng.ctx va n r).trapAt a 6
  | .poison _ => (s.xlAccessFill core a.eng.ctx va n r).trapAt a 7
  | .wait => s

/-- The place of byte `i` of an access: beside the first byte within 4 KiB, else translated itself. -/
def State.bytePlace (s : State) (core ctx : Nat) (va : Nat) (p : Place) (r : Right) (i : Nat) : Place :=
  if (va + i) / 4096 = va / 4096 then p.add i
  else match s.xlCell core ctx (va + i) r with
    | .ok q => q
    | _ => p.add i

/-- A load, atomic, LR or SC goes out; at most 8 are outstanding, and its destination is awaited (05 R132). -/
def State.issueAccess (s : State) (a : At) (sd : Nat) (kind : LoadKind) (va : Nat) (p : Place) (n tag : Nat) (acq rel : Bool) : State :=
  if 8 ≤ a.fl.loads.length then s
  else
    let e : LoadEntry := ⟨a.fl.seq, a.cell.pc, sd, kind, va, p, n, tag, acq, rel, none, 0, []⟩
    (s.setCell a.key a.cell.next).setFlight a.key
      { a.fl with loads := a.fl.loads ++ [e], seq := a.fl.seq + 1, busy := if sd = 0 then a.fl.busy else setBit a.fl.busy sd }

/-- An arena answers at the address: number below ARENAS, aligned (09 R277). -/
def State.arenaAt (s : State) (va : Nat) (p : Place) : Bool :=
  match p with
  | .arena c i => decide (i < (s.ctx c).arenas.length) && va % 8 == 0
  | _ => true

/-- A place in an arena window. -/
def Place.isArena : Place → Bool
  | .arena _ _ => true
  | _ => false

/-- A place in a Relief page. -/
def Place.isBank : Place → Bool
  | .bank _ _ => true
  | _ => false

/-! ## LD and ST (05 R140, R141) -/

/-- LD: a scalar load; from device memory it stays outstanding until MEMORY_ACCESS_RETURN (05 R132, R140, R141). -/
def opLd (c : CellRef) (w : Word) (s : State) : State :=
  s.issue c (opOf w == 0x10) (ldLegal w) [sdOf w, saOf w] fun a =>
    let n := mSize w
    let va := mAddr w a.cell
    match mSp w with
    | 0 =>
      if opBytes < va + n then s.trapAt a 5
      else (s.setCell a.key (a.cell.setS (sdOf w) (extend (w.bit 37) n ((s.opsSeen c).readLE va n))).next).drew (s.opsDraws c)
    | 1 =>
      if a.eng.relief < va + n then s.trapAt a 6
      else if (s.bank a.key).anyPoison va n then s.trapAt a 7
      else s.setCell a.key (a.cell.setS (sdOf w) (extend (w.bit 37) n ((s.bank a.key).data.readLE va n))).next
    | _ =>
      s.withPlace a va n .read fun t p =>
        if p.isArena && !(n == 8 && s.arenaAt va p) then t.trapAt a 6
        else t.issueAccess a (sdOf w) (.ld (w.bit 37)) va p n (mTag w) (mAcq w) false

/-- The pieces of a store: it splits at 8-byte boundaries (07 R206): offset and length of each. -/
def pieces (va n : Nat) : List (Nat × Nat) :=
  let first := min n (8 - va % 8)
  if n ≤ first then [(0, n)] else [(0, first), (first, n - first)]

/-- ST: a scalar store; to device memory it enters the store buffer (05 R132, R140, R141, R145). -/
def opSt (c : CellRef) (w : Word) (s : State) : State :=
  s.issue c (opOf w == 0x11) (stLegal w) [saOf w, sbOf w] fun a =>
    let n := mSize w
    let va := mAddr w a.cell
    let v := (a.cell.s (sbOf w)).toNat % 256 ^ n
    match mSp w with
    | 0 =>
      if opBytes < va + n then s.trapAt a 5
      else s.setCell a.key { a.cell with ops := a.cell.ops.writeLE va n v }.next
    | 1 =>
      if a.eng.relief < va + n then s.trapAt a 6
      else
        let r := s.bankWrite a.key va (bytesOf n v) (some a.key)
        let t := r.1.setCell a.key a.cell.next
        if r.2 then t else t.setFlight a.key { a.fl with storeFail := a.fl.storeFail <|> some (a.cell.pc, 0) }
    | _ =>
      s.withPlace a va n .write fun t p =>
        if p.isArena || s.codeHit a.eng.ctx va n then t.trapAt a 6
        else
          let ps := pieces va n
          if 16 < a.fl.stbuf.length + ps.length then s
          else
            let es : List StoreEntry := ps.map fun q =>
              ⟨a.fl.seq, a.cell.pc, s.bytePlace c.core a.eng.ctx va p .write q.1, q.2, v / 256 ^ q.1 % 256 ^ q.2, mTag w, mRel w⟩
            (t.setCell a.key a.cell.next).setFlight a.key { a.fl with stbuf := a.fl.stbuf ++ es, seq := a.fl.seq + 1 }

/-! ## Atomics (05 R142 to R144, R151) -/

/-- A naturally aligned SP 2 atomic that is not stopped by alignment, arena, code region or host rules. -/
def State.atomicIssue (s : State) (a : At) (sd : Nat) (kind : LoadKind) (va n tag : Nat) (acq rel : Bool)
    (stores allowHost allowArena : Bool) : State :=
  if va % n ≠ 0 then s.trapAt a 5
  else
    s.withPlace a va n .atomic fun t p =>
      if (p.isArena && !(allowArena && s.arenaAt va p)) || (stores && s.codeHit a.eng.ctx va n) || (p.isHost && !allowHost)
      then t.trapAt a 6
      else t.issueAccess a sd kind va p n tag acq rel

/-- AMO (05 R142); on an arena only ADD of 8 bytes (09 R277). -/
def opAmo (c : CellRef) (w : Word) (s : State) : State :=
  s.issue c (opOf w == 0x12) (amoLegal w) [sdOf w, saOf w, sbOf w] fun a =>
    s.atomicIssue a (sdOf w) (.amo (mFn w) ((a.cell.s (sbOf w)).toNat % 256 ^ mSize w)) (mAddr w a.cell) (mSize w) (mTag w) (mAcq w) (mRel w)
      true true (mFn w == 1 && mSize w == 8)

/-- CAS (05 R143). -/
def opCas (c : CellRef) (w : Word) (s : State) : State :=
  s.issue c (opOf w == 0x13) (casLegal w) [sdOf w, saOf w, sbOf w] fun a =>
    s.atomicIssue a (sdOf w) (.cas ((a.cell.s (sdOf w)).toNat % 256 ^ mSize w) ((a.cell.s (sbOf w)).toNat % 256 ^ mSize w))
      (mAddr w a.cell) (mSize w) (mTag w) (mAcq w) (mRel w) true true false

/-- LR: load reserved; to a host aperture it traps with PROTECTION (05 R144). -/
def opLr (c : CellRef) (w : Word) (s : State) : State :=
  s.issue c (opOf w == 0x14) (lrLegal w) [sdOf w, saOf w] fun a =>
    s.atomicIssue a (sdOf w) .lr (mAddr w a.cell) (mSize w) (mTag w) (mAcq w) false false false false

/-- SC: store conditional; to a host aperture it traps with PROTECTION (05 R144). -/
def opSc (c : CellRef) (w : Word) (s : State) : State :=
  s.issue c (opOf w == 0x15) (scLegal w) [sdOf w, saOf w, sbOf w] fun a =>
    s.atomicIssue a (sdOf w) (.sc ((a.cell.s (sbOf w)).toNat % 256 ^ mSize w)) (mAddr w a.cell) (mSize w) (mTag w) false (mRel w) true false false

/-- FSIG: a fence signal of s[SB] on the aligned word at s[SA]; a Relief page traps with PROTECTION (05 R151, 08 R248). -/
def opFsig (c : CellRef) (w : Word) (s : State) : State :=
  s.issue c (opOf w == 0x1B) (zeroFld w 52 6 && zeroFld w 0 36) [saOf w, sbOf w] fun a =>
    let va := (a.cell.s (saOf w)).toNat
    if va % 8 ≠ 0 ∨ (a.cell.s (sbOf w)).bit 63 then s.trapAt a 5
    else
      s.withPlace a va 8 .atomic fun t p =>
        if p.isArena || s.inRelief c.core a.eng.ctx va .atomic || s.codeHit a.eng.ctx va 8 then t.trapAt a 6
        else t.issueAccess a 0 (.fsig (a.cell.s (sbOf w)).toNat) va p 8 (w.fld 36 4) false false

/-- The FADD of an AMO (05 R142, 06 R197): FP32, or BF16; a bank forms the sum in FP32 first (06 R195). -/
def faddValue (n old b : Nat) (inBank : Bool) : Nat × Nat :=
  if n = 4 then
    let s := (f32 old).add (f32 b)
    let z := fp32.encode .rne 0 s.1
    (z.1, s.2 ||| z.2)
  else
    let s := (bf16.decode old).add (bf16.decode b)
    if inBank then
      let y := fp32.encode .rne 0 s.1
      let z := bf16.encode .rne 0 (f32 y.1)
      (z.1, s.2 ||| y.2 ||| z.2)
    else
      let z := bf16.encode .rne 0 s.1
      (z.1, s.2 ||| z.2)

/-- The result of an AMO of `n` bytes, with the flags of FADD (05 R142). -/
def amoValue (fn n old b : Nat) (inBank : Bool) : Nat × Nat :=
  let so := signedNat old (8 * n)
  let sb := signedNat b (8 * n)
  match fn with
  | 0 => (b, 0)
  | 1 => ((old + b) % 256 ^ n, 0)
  | 2 => ((BitVec.ofNat 64 old &&& BitVec.ofNat 64 b).toNat, 0)
  | 3 => ((BitVec.ofNat 64 old ||| BitVec.ofNat 64 b).toNat, 0)
  | 4 => ((BitVec.ofNat 64 old ^^^ BitVec.ofNat 64 b).toNat, 0)
  | 5 => (if so < sb then b else old, 0)
  | 6 => (if so < sb then old else b, 0)
  | 7 => (max old b, 0)
  | 8 => (min old b, 0)
  | _ => faddValue n old b inBank

/-! ## Fence signals (08 R249 to R252) -/

/-- The monitor page. -/
def monPage : Nat := regKey 0x4F0 0

/-- The largest normal value, which is the saturated one (08 R249). -/
def fenceTop : Nat := 2 ^ 63 - 1

/-- A fence word after a signal of `v` (08 R250). -/
def signalWord (w v : Nat) : Nat := if 2 ^ 63 ≤ w then w else if w < v then v else w

/-- What a signal counts: saturations and anomalies, with the record of an anomaly (08 R250, R251). Origins: 1 FSIG, 2 the Plinth, 3 the fabric. -/
def State.noteSignal (s : State) (w v ctx origin va : Nat) : State :=
  if 2 ^ 63 ≤ w then s
  else if w < v then (if v = fenceTop then s.bump monPage .fsAnom Fld.fsAnom_saturations 1 else s)
  else if v < w then
    let s1 := s.bump monPage .fsAnom Fld.fsAnom_anomalies 1
    let s2 := s1.wr (monPage + Reg.fsAnomrec.off)
      (Word.ofNat (Fld.fsAnomrec_context.at ctx + Fld.fsAnomrec_origin.at origin + Fld.fsAnomrec_time.at s.time))
    s2.wr (monPage + Reg.fsAnomaddr.off) (Word.ofNat (Fld.fsAnomaddr_addr.at va))
  else s

/-- A fence word after an error write (08 R252). -/
def errorWord (w code : Nat) : Nat := if 2 ^ 63 ≤ w then w else 2 ^ 63 + (code % 2 ^ 15) * 2 ^ 48 + w % 2 ^ 48

/-! ## ATOMIC_AT_HOME (07 R224) -/

/-- What an atomic makes of the old value: the new value where it writes, and the flags of FADD. -/
def LoadKind.apply (k : LoadKind) (n old : Nat) (inBank : Bool) : Option Nat × Nat :=
  match k with
  | .amo fn b => let r := amoValue fn n old b inBank; (some r.1, r.2)
  | .cas cmp new => (if old = cmp then some new else none, 0)
  | .fsig v => (some (signalWord old v), 0)
  | _ => (none, 0)

/-- The old value of an atomic that its place can serve now, or the code of the poison it met, or none where it must wait for the host, with the state in which its place is ready: a recalled line, or an owned host line (07 R220, R224). -/
def State.atomicReady (s : State) (h : HostAnswer) (p : Place) (n : Nat) : Option (State × Except Nat Nat) :=
  match p with
  | .stack a =>
    let s1 := s.recall (a / 64) none
    if s1.mem.homePoison (a / 64) then some (s1, .error (s.poisonCode a)) else some (s1, .ok (s1.mem.dev.readLE a n))
  | .bank k off => if (s.bank k).anyPoison off n then some (s, .error 7) else some (s, .ok ((s.bank k).data.readLE off n))
  | .host a =>
    match s.hostFetch h (a / 64) with
    | none => none
    | some s1 =>
      match s1.hline? (a / 64) with
      | none => none
      | some l =>
        if l.poison then some (s1, .error 7)
        else if l.owned then some (s1, .ok (l.data.toNat / 256 ^ (a % 64) % 256 ^ n))
        else if s.linkUp then
          let s2 := (s1.setHline (a / 64) { l with owned := true, dirty := l.dirty || l.early != 0, early := 0 })
          let s3 := { s2 with pl := { s2.pl with hostWriters := s2.pl.hostWriters.put [] (a / 64) [] } }
          some (s3, .ok (l.data.toNat / 256 ^ (a % 64) % 256 ^ n))
        else none
  | .arena _ _ => none

/-- Arithmetic at a place follows the Relief unit's rules: in a bank, or in the saved copy of one (06 R182, R197). -/
def State.reliefArith (s : State) (p : Place) : Bool :=
  match p with
  | .bank _ _ => true
  | .stack x => (s.savedBank x).isSome
  | _ => false

/-- Flags of arithmetic at a place: a bank's flag word, or the one saved with its contents (06 R182, R198). -/
def State.reliefFlag (s : State) (p : Place) (fl : Nat) : State :=
  match p with
  | .bank k _ => s.setBank k ((s.bank k).flag fl)
  | .stack x =>
    match s.savedBank x with
    | some (c, ctx, b, q) =>
      let r := s.core c
      let i := 16 * (16 * ctx + b) + q
      s.setCore c { r with savedFlags := r.savedFlags.put 0 i (r.savedFlags.at 0 i ||| Word.ofNat (fl % 256)) }
    | none => s
  | _ => s

/-- The result of an atomic is written at its place (07 R224). -/
def State.atomicWrite (s : State) (p : Place) (n v flags : Nat) : State :=
  match p with
  | .stack a => (s.homeStore a n v).reliefFlag p flags
  | .bank k off => (s.bankWrite k off (bytesOf n v) none).1.reliefFlag p flags
  | .host a =>
    match s.hline? (a / 64) with
    | some l =>
      let m := linePart a (bytesOf n v) (a / 64)
      (s.setHline (a / 64) { l with data := mergeLine l.data m.2 m.1, dirty := true }).clearHostResv (a / 64) 0x10000
    | none => s
  | .arena _ _ => s

/-- An outstanding access with its identifier. -/
def Flight.access (f : Flight) (i : Nat) : Option LoadEntry := f.loads.find? fun e => e.id == i

/-- An outstanding access is replaced, or removed. -/
def Flight.setAccess (f : Flight) (i : Nat) (e : Option LoadEntry) : Flight :=
  { f with loads := match e with
    | some x => f.loads.map fun y => if y.id = i then x else y
    | none => f.loads.filter fun y => y.id != i }

/-- An AMO, CAS or FSIG that has not been performed. -/
def LoadEntry.atomicDue (e : LoadEntry) : Bool :=
  (match e.kind with
    | .amo .. | .cas .. | .fsig .. => true
    | _ => false) && e.done.isNone && e.failed == 0 && !e.place.isArena

/-- An outstanding atomic is performed indivisibly at its home, its bank or the host-line cache (07 R224, 05 R142, R143, 08 R250). -/
def State.atomicPerform (s : State) (c : CellRef) (i : Nat) (h : HostAnswer) : State :=
  let a := s.at c
  match a.fl.access i with
  | some e =>
    if ¬ e.atomicDue then s
    else
      match s.atomicReady h e.place e.size with
      | none => s
      | some (t, .error code) => (t.consumeAt c.core a.eng.ctx e.place).setFlight a.key (a.fl.setAccess i (some { e with failed := code }))
      | some (t, .ok old) =>
        let r := e.kind.apply e.size old (s.reliefArith e.place)
        let t1 := match r.1 with
          | some v => t.atomicWrite e.place e.size v r.2
          | none => t
        match e.kind with
        | .fsig v => (t1.noteSignal old v a.eng.ctx 1 e.va).setFlight a.key (a.fl.setAccess i none)
        | _ => t1.setFlight a.key (a.fl.setAccess i (some { e with done := some old }))
  | none => s

/-- ATOMIC_AT_HOME: an AMO, CAS or FSIG executes indivisibly at its home, its bank or the host-line cache; on a blocked or held line it waits in arrival order (07 R221, R222, R224). -/
def opAtomicAtHome (c : CellRef) (i : Nat) (h : HostAnswer) (s : State) : State :=
  let a := s.at c
  match a.fl.access i with
  | some e =>
    if ¬ (s.cellWorks c && e.atomicDue && s.mayPerform c.core a.key e.acc) then s
    else
      match e.place with
      | .stack x => if s.mem.free (x / 64) then s.atomicPerform c i h else s.defer (x / 64) (.atomic c i)
      | _ => s.atomicPerform c i h
  | none => s

/-! ## Arenas (09 R277, R278) -/

/-- An arena of a context is replaced. -/
def State.setArena (s : State) (ctx i : Nat) (x : Arena) : State :=
  let r := s.ctx ctx
  s.setCtx ctx { r with arenas := r.arenas.set i x }

/-- An outstanding access to an arena that is ready to be performed. -/
def State.arenaAccess (s : State) (c : CellRef) (i : Nat) (load : Bool) : Option (LoadEntry × Nat × Nat × Arena) :=
  let a := s.at c
  match a.fl.access i with
  | some e =>
    match e.place with
    | .arena ctx j =>
      let isLd := match e.kind with
        | .ld _ => true
        | _ => false
      match (s.ctx ctx).arenas[j]? with
      | some x => if s.cellWorks c && e.done.isNone && isLd == load && s.mayPerform c.core a.key e.acc then some (e, ctx, j, x) else none
      | none => none
    | _ => none
  | none => none

/-- ARENA_CURSOR_READ: an LD of an arena returns its CURSOR (09 R277). -/
def opArenaCursorRead (c : CellRef) (i : Nat) (s : State) : State :=
  match s.arenaAccess c i true with
  | some (e, _, _, x) =>
    let a := s.at c
    s.setFlight a.key (a.fl.setAccess i (some { e with done := some x.cursor }))
  | none => s

/-- An allocation of `b` bytes: the arena after it and the value returned, 0 where it does not fit (09 R277). -/
def Arena.alloc (x : Arena) (b : Nat) : Arena × Nat :=
  let g := 2 ^ x.alignLog2
  let r := (b + g - 1) / g * g
  if r ≠ 0 ∧ x.cursor + r ≤ x.limit then ({ x with cursor := x.cursor + r }, x.cursor + x.base)
  else ({ x with full := true }, 0)

/-- ARENA_ALLOC: an AMO ADD of an arena allocates; the first time the cursor reaches LOW its source is raised (09 R277, R278). -/
def opArenaAlloc (c : CellRef) (i : Nat) (s : State) : State :=
  match s.arenaAccess c i false with
  | some (e, ctx, j, x) =>
    match e.kind with
    | .amo _ b =>
      let a := s.at c
      let r := x.alloc b
      let low := decide (x.low ≠ 0) && decide (x.low ≤ r.1.cursor) && x.lowArmed && r.2 != 0
      let y := if low then { r.1 with lowHit := true, lowArmed := false } else r.1
      let s1 := (s.setArena ctx j y).setFlight a.key (a.fl.setAccess i (some { e with done := some r.2 }))
      if low then s1.irqRaise x.source (some (s.ctx ctx).part) else s1
    | _ => s
  | none => s

/-! ## MEMORY_ACCESS_RETURN (05 R132, R144, R145) -/

/-- An access returns: the register is written and no longer awaited. -/
def State.accessDone (s : State) (k i sd : Nat) (v : Word) : State :=
  let f := s.flight k
  (s.setCell k ((s.cell k).setS sd v)).setFlight k { f.setAccess i none with busy := clearBit f.busy sd }

/-- An access fails: the cell traps and the register is not written (05 R145). -/
def State.accessFail (s : State) (c : CellRef) (i sd pc code : Nat) : State :=
  let k := s.cellKey c
  let f := s.flight k
  (s.setFlight k { f.setAccess i none with busy := clearBit f.busy sd }).trapCell c code 0 pc

/-- The newest buffered byte of the cell at a place, ahead of an access (07 R208). -/
def Flight.buffered (f : Flight) (id : Nat) (p : Place) : Option Byte :=
  f.stbuf.foldl (fun acc e =>
    if e.id < id then
      match (List.range e.size).find? fun j => e.place.add j == p with
      | some j => some (BitVec.ofNat 8 (e.value / 256 ^ j))
      | none => acc
    else acc) none

/-- A piece of a load takes its bytes: its granule at hand, the cell's own buffered stores on top; poison fails the load, and the last piece gives it its value (05 R145, 07 R206, R208). -/
def State.takePiece (s : State) (c : CellRef) (a : At) (e : LoadEntry) (sx : Bool) (h : HostAnswer) (q : Nat × Nat) : State :=
  let ps := (List.range q.2).map fun i => s.bytePlace c.core a.eng.ctx e.va e.place .read (q.1 + i)
  match s.ensureAll c.core false h ((ps.map fun p => p.granule.1).eraseDups) with
  | none => s
  | some t =>
    match ps.findSome? fun p => t.poisonAt c.core p with
    | some code => (ps.foldl (fun u p => u.consumeAt c.core a.eng.ctx p) t).accessFail c e.id e.sd e.pc code
    | none =>
      let got := e.got ++ [(q.1, ps.map fun p => (a.fl.buffered e.id p).getD (t.byteAt c.core p))]
      if (pieces e.va e.size).all fun p => got.any fun g => g.1 == p.1 then
        let v := ofBytes ((pieces e.va e.size).flatMap fun p => ((got.find? fun g => g.1 == p.1).map fun g => g.2).getD [])
        t.accessDone a.key e.id e.sd (extend sx e.size v)
      else t.setFlight a.key (a.fl.setAccess e.id (some { e with got := got }))

/-- The pieces of a load that have not been taken and are at hand. -/
def State.piecesReady (s : State) (c : CellRef) (a : At) (e : LoadEntry) (h : HostAnswer) : List (Nat × Nat) :=
  (pieces e.va e.size).filter fun q => !(e.got.any fun g => g.1 == q.1) &&
    (s.ensureAll c.core false h (((List.range q.2).map fun i => (s.bytePlace c.core a.eng.ctx e.va e.place .read (q.1 + i)).granule.1).eraseDups)).isSome

/-- A load takes one of its pieces, whichever comes first (07 R206); an aligned load has one, and returns with it. -/
def State.loadReturn (s : State) (c : CellRef) (a : At) (e : LoadEntry) (sx : Bool) (h : HostAnswer) : State :=
  match s.piecesReady c a e h with
  | [] => s
  | [q] => s.takePiece c a e sx h q
  | l => (s.drew 1).takePiece c a e sx h ((l[s.draw % l.length]?).getD (0, 0))

/-- The line of a reserved pair is exclusive in the core cache, or at its home where it is a saved copy of a Relief page (06 R178, 07 R204); a granule is at its bank. -/
def State.reserveReady (s : State) (core : Nat) (p : Place) : Option State :=
  match p with
  | .stack x =>
    if (s.mem.cline? core (x / 64)).any (fun l => l.st = .exclusive ∨ l.st = .modified) then some s
    else if ¬ s.mem.free (x / 64) then none
    else if (s.savedBank x).isSome then some s
    else if s.mem.roomFor core (x / 64) then some (s.ownOp core (x / 64))
    else none
  | _ => some s

/-- LR sets the cell's reservation, replacing any earlier one; a fifth reservation of a bank displaces the oldest (05 R144, 07 R223). -/
def State.reserve (s : State) (k : Nat) (p : Place) : State :=
  let s1 := s.dropResv k
  let g := p.granule.1
  let s2 := s1.setCell k { s1.cell k with resv := some g }
  match g with
  | .bank b off =>
    let l := (s2.bank b).resv
    let s3 := if 4 ≤ l.length then
        match l.head? with
        | some e => s2.setCell e.1 { s2.cell e.1 with resv := none }
        | none => s2
      else s2
    s3.setBank b { s3.bank b with resv := keepLast 4 (l ++ [(k, off / 64)]) }
  | _ => s2

/-- The cell's reservation covers a place (05 R144, 07 R223). -/
def State.reserved (s : State) (k : Nat) (p : Place) : Bool :=
  (s.cell k).resv == some p.granule.1 &&
    match p.granule.1 with
    | .bank b off => (s.bank b).resv.contains (k, off / 64)
    | _ => true

/-- SC: it writes where the reservation holds, answers 0 or 1, and the reservation is cleared; on part of a poisoned granule or line it is not performed and its failure returns later (05 R144, R145). -/
def State.scReturn (s : State) (c : CellRef) (a : At) (e : LoadEntry) (new : Nat) : State :=
  let pk := corePage c.core 2
  if s.reserved a.key e.place then
    match s.reserveReady c.core e.place with
    | none => s
    | some t =>
      let g := e.place.granule
      match t.storeAt c.core a.eng.ctx false none g.1 ((2 ^ e.size - 1) * 2 ^ g.2) (BitVec.ofNat 512 (new * 256 ^ g.2)) with
      | .wait => s
      | .done u none _ => ((u.dropResv a.key).accessDone a.key e.id e.sd 0).bumpCore c.core pk .ccCntRsv Fld.ccCntRsv_scOk 1
      | .done u (some _) _ =>
        let v := u.dropResv a.key
        let f := v.flight a.key
        v.setFlight a.key { f.setAccess e.id none with storeFail := f.storeFail <|> some (e.pc, e.sd) }
  else ((s.dropResv a.key).accessDone a.key e.id e.sd 1).bumpCore c.core pk .ccCntRsv Fld.ccCntRsv_scFail 1

/-- MEMORY_ACCESS_RETURN: an outstanding load, atomic, LR or SC returns its value or its failure (05 R132, R144, R145). -/
def opMemoryAccessReturn (c : CellRef) (i : Nat) (h : HostAnswer) (s : State) : State :=
  let a := s.at c
  match a.fl.access i with
  | some e =>
    if ¬ s.cellWorks c then s
    else if e.failed ≠ 0 then s.accessFail c i e.sd e.pc e.failed
    else
      match e.done with
      | some v => s.accessDone a.key i e.sd (Word.ofNat v)
      | none =>
        if e.place.isArena ∨ ¬ s.mayPerform c.core a.key e.acc then s
        else
          match e.kind with
          | .ld sx => s.loadReturn c a e sx h
          | .lr =>
            match s.reserveReady c.core e.place with
            | none => s
            | some t =>
              match t.poisonAt c.core e.place with
              | some code => (t.consumeAt c.core a.eng.ctx e.place).accessFail c i e.sd e.pc code
              | none =>
                let v := ofBytes ((List.range e.size).map fun j => t.byteAt c.core (e.place.add j))
                (t.reserve a.key e.place).accessDone a.key i e.sd (Word.ofNat v)
          | .sc new => s.scReturn c a e new
          | _ => s
  | none => s

/-! ## The store buffer (07 R208, 05 R145) -/

/-- A buffered store, or a piece of one, leaves for the core cache, its bank or the host-line cache, where it can be taken now. -/
def State.drainStore (s : State) (c : CellRef) (a : At) (e : StoreEntry) : Option State :=
  let g := e.place.granule
  match s.storeAt c.core a.eng.ctx false (some a.key) g.1 ((2 ^ e.size - 1) * 2 ^ g.2) (BitVec.ofNat 512 (e.value * 256 ^ g.2)) with
  | .wait => none
  | .done t code early =>
    let f := t.flight a.key
    let f1 := { f with stbuf := f.stbuf.erase e, storeFail := if code.isSome then f.storeFail <|> some (e.pc, 0) else f.storeFail }
    some (t.setFlight a.key (f1.noteEarly e.tag (some (e.place, e.size)) early.toList))

/-- STORE_BUFFER_DRAIN: a buffered store leaves in the order of R207; of the pieces of an unaligned one, whichever comes first; poison refuses it (07 R206, R208, R209, 05 R145). -/
def opStoreBufferDrain (c : CellRef) (i : Nat) (s : State) : State :=
  let a := s.at c
  let l := (a.fl.stbuf.filter fun e => e.id == i && s.cellWorks c && s.mayPerform c.core a.key e.acc).filterMap fun e => s.drainStore c a e
  match l with
  | [] => s
  | [t] => t
  | _ => ((l[s.draw % l.length]?).getD s).drew 1

/-- STORE_POISON_RETURN: the failure of a store or SC that met poison returns, and the cell traps with ECC_UNCORR; until then an SC's register is awaited (05 R145). -/
def opStorePoisonReturn (c : CellRef) (s : State) : State :=
  let a := s.at c
  match a.fl.storeFail with
  | some (pc, sd) =>
    if s.cellWorks c then (s.setFlight a.key { a.fl with storeFail := none, busy := if sd = 0 then a.fl.busy else clearBit a.fl.busy sd }).trapCell c 7 0 pc else s
  | none => s

/-! ## ACVT (05 R146) -/

/-- The aperture of a context that maps a host virtual address. -/
def State.aptOfHost (s : State) (ctx hva : Nat) : Option Nat :=
  (List.range 64).find? fun i =>
    let x := s.apt ctx i
    (x.state == 1 || x.state == 2) && decide (x.hbase ≤ hva) && decide (hva < x.hbase + x.length)

/-- The converted address, none where no aperture holds it; zero converts to zero. -/
def State.convert (s : State) (ctx : Nat) (toHost : Bool) (x : Nat) : Option Nat :=
  if x = 0 then some 0
  else if toHost then (s.aptOf ctx x).map fun i => x - (s.apt ctx i).dbase + (s.apt ctx i).hbase
  else (s.aptOfHost ctx x).map fun i => x - (s.apt ctx i).hbase + (s.apt ctx i).dbase

/-- ACVT: conversion between host and device addresses (05 R146). -/
def opAcvt (c : CellRef) (w : Word) (s : State) : State :=
  s.issue c (opOf w == 0x16) (zeroFld w 0 44) [sdOf w, saOf w] fun a =>
    match s.convert a.eng.ctx (w.bit 45) (a.cell.s (saOf w)).toNat with
    | some x => s.setCell a.key (a.cell.setS (sdOf w) (Word.ofNat x)).next
    | none => if w.bit 44 then s.trapAt a 6 else s.setCell a.key (a.cell.setS (sdOf w) 0).next

/-! ## FENCE (05 R147, R148, 07 R215, R216) -/

/-- FENCE: issue stalls until the fence is complete (05 R148). -/
def opFence (c : CellRef) (w : Word) (s : State) : State :=
  s.issue c (opOf w == 0x18) (w.fld 54 2 != 3 && zeroFld w 16 38) []
    fun a => s.blockAt a (.fence (w.fld 56 2) (w.fld 54 2) (w.fld 0 16) a.fl.seq)

/-- The conditions of a fence hold at its scope (07 R212, R215, R216). Kinds: 0 full, 1 acquire, 2 release, which also waits for the writes of other cells that the cell may have observed; a full fence leaves those to its later writes. -/
def State.fenceHolds (s : State) (core k scope kind mask : Nat) : Bool :=
  let f := s.flight k
  !(f.mq.any fun o => match o.kind with
      | .mvdm .. => true
      | _ => false)
    && !(f.raccs.any fun o => match o.kind with
      | .racc _ _ tag _ _ => inTags mask tag
      | _ => false)
    && !(f.loads.any fun e => inTags mask e.tag)
    && (kind == 1 ||
      (!(f.stbuf.any fun e => inTags mask e.tag)
        && !(f.early.any fun e => inTags mask e.tag && decide ((if e.host then 3 else 2) ≤ scope) && s.earlyOpen core e)
        && (kind != 2 || decide (scope < 2) || (s.othersEarly core k (decide (3 ≤ scope))).isEmpty)))

/-- FENCE_COMPLETE: a fence's conditions hold, and the cell resumes issue (07 R216). -/
def opFenceComplete (c : CellRef) (s : State) : State :=
  let a := s.at c
  match a.cell.phase with
  | .blocked (.fence scope kind mask _) =>
    if s.cellBlocked c && s.fenceHolds c.core a.key scope kind mask then
      let found := if kind = 0 ∧ 2 ≤ scope then (s.othersEarly c.core a.key (decide (3 ≤ scope))).map fun l => (l.1, l.2, mask) else []
      (s.setCell a.key a.cell.resume).setFlight a.key
        { a.fl with
          early := a.fl.early.filter fun e => s.earlyOpen c.core e
          debts := (a.fl.debts.filter fun d => s.lineEarly c.core d.1 d.2.1) ++ found }
    else s
  | _ => s

/-! ## Meanings: each command answers the next state that its operation gives. -/

/-- The meaning of LD. -/
def execLd (c : CellRef) (w : Word) (s : State) : Host.Outcome State Fault Refusal := .next (opLd c w s)
/-- The meaning of ST. -/
def execSt (c : CellRef) (w : Word) (s : State) : Host.Outcome State Fault Refusal := .next (opSt c w s)
/-- The meaning of AMO. -/
def execAmo (c : CellRef) (w : Word) (s : State) : Host.Outcome State Fault Refusal := .next (opAmo c w s)
/-- The meaning of CAS. -/
def execCas (c : CellRef) (w : Word) (s : State) : Host.Outcome State Fault Refusal := .next (opCas c w s)
/-- The meaning of LR. -/
def execLr (c : CellRef) (w : Word) (s : State) : Host.Outcome State Fault Refusal := .next (opLr c w s)
/-- The meaning of SC. -/
def execSc (c : CellRef) (w : Word) (s : State) : Host.Outcome State Fault Refusal := .next (opSc c w s)
/-- The meaning of FSIG. -/
def execFsig (c : CellRef) (w : Word) (s : State) : Host.Outcome State Fault Refusal := .next (opFsig c w s)
/-- The meaning of ARENA_CURSOR_READ. -/
def execArenaCursorRead (c : CellRef) (i : Nat) (s : State) : Host.Outcome State Fault Refusal := .next (opArenaCursorRead c i s)
/-- The meaning of ARENA_ALLOC. -/
def execArenaAlloc (c : CellRef) (i : Nat) (s : State) : Host.Outcome State Fault Refusal := .next (opArenaAlloc c i s)
/-- The meaning of STORE_POISON_RETURN. -/
def execStorePoisonReturn (c : CellRef) (s : State) : Host.Outcome State Fault Refusal := .next (opStorePoisonReturn c s)
/-- The meaning of ACVT. -/
def execAcvt (c : CellRef) (w : Word) (s : State) : Host.Outcome State Fault Refusal := .next (opAcvt c w s)
/-- The meaning of FENCE. -/
def execFence (c : CellRef) (w : Word) (s : State) : Host.Outcome State Fault Refusal := .next (opFence c w s)
/-- The meaning of FENCE_COMPLETE. -/
def execFenceComplete (c : CellRef) (s : State) : Host.Outcome State Fault Refusal := .next (opFenceComplete c s)

end Sys2Proof.Machine
end

