-- ==== Sys2Proof/Machine/Relief.lean ====
section
/-! DEFINITION. Relief commands, recipes and remote accumulation (06 R184 to R201). -/

namespace Sys2Proof.Machine

/-! ## FP32 operations with their flags (06 R188) -/

/-- An FP32 pattern with the flags raised on the way to it. -/
abbrev FVal := Nat × Nat

/-- One operation's exact result, rounded to nearest even, on top of the operands' flags. -/
def fRound (z : Num × Nat) (fl : Nat) : FVal :=
  let p := toF32 .rne 0 z.1
  (p.1, p.2 ||| z.2 ||| fl)

/-- FP32 addition. -/
def fAdd (a b : FVal) : FVal := fRound ((f32 a.1).add (f32 b.1)) (a.2 ||| b.2)
/-- FP32 subtraction. -/
def fSub (a b : FVal) : FVal := fRound ((f32 a.1).add (f32 b.1).neg) (a.2 ||| b.2)
/-- FP32 multiplication. -/
def fMul (a b : FVal) : FVal := fRound ((f32 a.1).mul (f32 b.1)) (a.2 ||| b.2)
/-- FP32 division. -/
def fDiv (a b : FVal) : FVal := fRound ((f32 a.1).div (f32 b.1)) (a.2 ||| b.2)
/-- FP32 square root. -/
def fSqrt (a : FVal) : FVal := fRound (f32 a.1).sqrt a.2
/-- The FP32 pattern of 1. -/
def fOne : FVal := (0x3F800000, 0)

/-! ## Issue (06 R184, R185, R187) -/

/-- MINOR of a Relief command. -/
def rMinor (w : Word) : Nat := w.fld 45 4
/-- SA of a Relief command. -/
def rSa (w : Word) : Nat := w.fld 19 6
/-- FN of a Relief command. -/
def rFn (w : Word) : Nat := w.fld 13 6

/-- FP32, BF16 or FP16. -/
def Tile.plainFloat (t : Tile) : Bool := decide (t.fmt ≤ 2)

/-- What every Relief tile meets: TRANS and SPARSE clear, and the rows and columns of another (06 R187). -/
def Tile.reliefOk (t u : Tile) : Bool := !t.trans && !t.sparse && t.rows == u.rows && t.cols == u.cols

/-- The source tiles an EW operation reads: DA, and DB and DC where FN names them (06 R186). -/
def ewReads (fn : Nat) : List Nat :=
  if fn = 3 then [37, 33, 29] else if fn ≤ 2 ∨ (4 ≤ fn ∧ fn ≤ 6) then [37, 33] else [37]

/-- The tiles a recipe reads or writes, by their fields: W, G, M and V (06 R192). -/
def recipeTiles (fn : Nat) : List Nat :=
  match fn with
  | 0 => [37, 33]
  | 1 => [37, 33, 29]
  | 2 => [37, 33, 29, 41]
  | _ => [37, 29]

/-- The tiles of a Relief command with their checks (06 R187). -/
def reliefTiles (minor fn : Nat) (w : Word) (a : At) : List TileUse :=
  let at_ := fun lo => a.cell.tile (descAt w lo)
  let use := fun lo ok => (⟨descAt w lo, at_ lo, 1, ok⟩ : TileUse)
  let d := at_ 41
  match minor with
  | 0 => use 41 (d.reliefOk d && d.plainFloat) :: (ewReads fn).map fun lo => use lo ((at_ lo).reliefOk d && (at_ lo).plainFloat)
  | 1 => [use 41 (d.reliefOk d), use 37 ((at_ 37).reliefOk d)]
  | 2 =>
    let s := at_ 37
    [use 41 (!d.trans && !d.sparse && d.fmt == 0 && d.cols == 1 && d.rows == s.rows), use 37 (s.reliefOk s && s.plainFloat)]
  | 3 =>
    let first := match recipeTiles fn with
      | lo :: _ => at_ lo
      | [] => d
    (recipeTiles fn).map fun lo => use lo ((at_ lo).reliefOk first && (at_ lo).plainFloat)
  | 5 => [use 41 (d.reliefOk d && (decide (d.fmt ≤ 4) || d.fmt == 0xC))]
  | _ => []

/-- A Relief command issues into the Relief unit's queue (06 R184, R191). `legal` is its FN rule, `scalar` whether it reads s[SA], `aligned` what the address in s[SA] must be a multiple of (0: none). -/
def State.issueRelief (s : State) (c : CellRef) (w : Word) (minor : Nat) (legal scalar : Bool) (aligned : Nat) : State :=
  s.issueAsync c w (opOf w == 0x3C && rMinor w == minor) (zeroFld w 0 13 && rndCode (w.fld 26 3) && legal)
    (if scalar then [rSa w] else [])
    (fun a =>
      let sa := (a.cell.s (rSa w)).toNat
      let ts := reliefTiles minor (rFn w) w a
      if aligned ≠ 0 ∧ ¬ (sa % aligned = 0 ∧ sa < opBytes) then [⟨0, a.cell.tile 0, 3, false⟩] else ts)
    fun a =>
      let t := fun lo => a.cell.tile (descAt w lo)
      let sa := if aligned ≠ 0 then (a.cell.s (rSa w)).toNat else (a.cell.s (rSa w)).fld 0 32
      .relief minor (t 41) (t 37) (t 33) (t 29) (a.cell.rnd (w.fld 26 3)) (w.fld 25 1) sa (rFn w)

/-- EW: an elementwise operation (06 R185, R186). -/
def opEw (c : CellRef) (w : Word) (s : State) : State :=
  s.issueRelief c w 0 (decide (rFn w ≤ 10)) (rFn w == 4 || rFn w == 8) 0

/-- CAST: conversion to DD's format (06 R185). -/
def opCastOp (c : CellRef) (w : Word) (s : State) : State := s.issueRelief c w 1 (decide (rFn w ≤ 1)) (rFn w == 1) 0

/-- RED: reduction of each row (06 R185). -/
def opRed (c : CellRef) (w : Word) (s : State) : State := s.issueRelief c w 2 (decide (rFn w ≤ 4)) false 0

/-- RECIPE: an optimizer step in place (06 R185, R192). -/
def opRecipe (c : CellRef) (w : Word) (s : State) : State := s.issueRelief c w 3 (decide (rFn w ≤ 3)) true 64

/-- FLAGRD: the bank's flag word to the operand store (06 R185). -/
def opFlagrd (c : CellRef) (w : Word) (s : State) : State := s.issueRelief c w 4 (decide (rFn w ≤ 1)) true 8

/-- FILL: every element takes α (06 R185). -/
def opFill (c : CellRef) (w : Word) (s : State) : State := s.issueRelief c w 5 (rFn w == 0) true 0

/-! ## The arithmetic of the Relief unit (06 R186, R188, R192) -/

/-- Element (r, n) of a tile as the FP32 pattern the unit works on, with the flags of reading it; a value that FP32 cannot hold is rounded to nearest even (06 R188, 03 R88, R89; log 24). -/
def Tile.reliefVal (rd : Nat → Byte) (t : Tile) (r n : Nat) : FVal :=
  let v := t.value rd r n
  let z := toF32 .rne 0 v.1
  (z.1, v.2 ||| z.2)

/-- The value of EW (06 R186). -/
def ewValue (fn : Nat) (al a b c : FVal) : FVal :=
  match fn with
  | 0 => fAdd a b
  | 1 => fSub a b
  | 2 => fMul a b
  | 3 => fRound (Num.fma (f32 a.1) (f32 b.1) (f32 c.1)) (a.2 ||| b.2 ||| c.2)
  | 4 => fAdd (fMul al a) b
  | 5 => fRound ((f32 a.1).max (f32 b.1), 0) (a.2 ||| b.2)
  | 6 => fRound ((f32 a.1).min (f32 b.1), 0) (a.2 ||| b.2)
  | 7 => fRound ((f32 a.1).abs, 0) a.2
  | 8 => fMul al a
  | 9 => fMul a a
  | _ => a

/-- The FP32 value of a row's reduction, with its flags (06 R185, R188): SUM, MAX, MIN, AMAX, or the sum of squares. -/
def redValue (free : Nat → Nat) (fn : Nat) (xs : List FVal) : FVal :=
  let fl := xs.foldl (fun a x => a ||| x.2) 0
  let ys := if fn = 4 then xs.map fun x => fMul (x.1, 0) (x.1, 0) else xs
  let fl1 := ys.foldl (fun a x => a ||| x.2) fl
  let z := vredValue free .rne (match fn with
    | 1 => 1
    | 2 => 2
    | 3 => 3
    | _ => 0) (ys.map Prod.fst)
  (z.1, z.2 ||| fl1)

/-- The steps of a recipe on one element: new W, M and V (06 R192, R193). Parameters in order η, β₁, β₂, ε, λ, c₁, c₂, α, g. -/
def recipeStep (fn : Nat) (ps : List Nat) (w g m v : FVal) : FVal × FVal × FVal :=
  let p := fun i => (((ps[i]?).getD 0, 0) : FVal)
  let g1 := fMul (p 8) g
  match fn with
  | 0 => (fAdd w (fMul (p 7) g1), m, v)
  | 1 =>
    let g2 := fAdd g1 (fMul (p 4) w)
    let m1 := fAdd (fMul (p 1) m) g2
    (fSub w (fMul (p 0) m1), m1, v)
  | 2 =>
    let m1 := fAdd (fMul (p 1) m) (fMul (fSub fOne (p 1)) g1)
    let v1 := fAdd (fMul (p 2) v) (fMul (fSub fOne (p 2)) (fMul g1 g1))
    let q := fDiv (fMul (p 5) m1) (fAdd (fSqrt (fMul (p 6) v1)) (p 3))
    (fSub w (fMul (p 0) (fAdd q (fMul (p 4) w))), m1, v1)
  | _ => (w, fAdd (fMul (p 1) m) (fMul (fSub fOne (p 1)) w), v)

/-- The bytes that an unscaled element of a tile takes from an FP32 value, with the flags of the conversion. -/
def Tile.putPlain (t : Tile) (rnd : Rnd) (u : Nat) (r n : Nat) (x : FVal) : List (Nat × Byte) × Nat :=
  let z := encodeUnscaled t.fmt rnd u (f32 x.1)
  let w := fmtBits t.fmt / 8
  let a := t.base + r * t.stride + n * w
  (((List.range w).map fun i => (a + i, BitVec.ofNat 8 (z.1 / 256 ^ i))), z.2 ||| x.2)

/-- A recipe over the elements in order, each step on the bytes the earlier ones left: every byte written, and the flags (06 "Recipes"). -/
def recipeWrites (free : Nat → Nat) (data : Mem) (fn : Nat) (ps : List Nat) (rnd : Rnd) (w g m v : Tile) : List (Nat × Byte) × Nat :=
  let r := ((List.range w.rows).flatMap fun r => (List.range w.cols).map fun n => (r, n)).foldl
    (fun (acc : Mem × List (Nat × Byte) × Nat) e =>
      let rd := acc.1.read
      let el := fun (t : Tile) on => if on then t.reliefVal rd e.1 e.2 else ((0, 0) : FVal)
      let z := recipeStep fn ps (el w true) (el g (fn != 3)) (el m (fn != 0)) (el v (fn == 2))
      let i := e.1 * w.cols + e.2
      let out := fun (t : Tile) k (x : FVal) on => if on then t.putPlain rnd (roundDraw free (i + k * 2 ^ 24)) e.1 e.2 x else ([], 0)
      let a := out w 0 z.1 (fn != 3)
      let b := out m 1 z.2.1 (fn != 0)
      let c := out v 2 z.2.2 (fn == 2)
      let ws := a.1 ++ b.1 ++ c.1
      (ws.foldl (fun d p => d.write p.1 p.2) acc.1, acc.2.1 ++ ws, acc.2.2 ||| a.2 ||| b.2 ||| c.2)) (data, [], 0)
  (r.2.1, r.2.2)

/-- What a Relief command writes to its bank, with its flags, from the bank's bytes (06 R185, R186, R192). -/
def reliefWrites (free : Nat → Nat) (data : Mem) (ps : List Nat) (minor : Nat) (dd da db dc : Tile) (rnd : Rnd) (srule sa fn : Nat) :
    List (Nat × Byte) × Nat :=
  let al : FVal := (sa, 0)
  let val := fun (t : Tile) r n => t.reliefVal data.read r n
  let done := fun (f : Nat → Nat → FVal) =>
    let z := dd.writes rnd srule (roundDraw free) fun r n => f32 (f r n).1
    (z.1, (List.range dd.rows).foldl (fun a r => (List.range dd.cols).foldl (fun b n => b ||| (f r n).2) a) z.2)
  match minor with
  | 0 =>
    let on := fun lo => (ewReads fn).contains lo
    done fun r n => ewValue fn al (val da r n) (if on 33 then val db r n else (0, 0)) (if on 29 then val dc r n else (0, 0))
  | 1 => done fun r n => if fn = 1 then fMul al (val da r n) else val da r n
  | 2 => done fun r _ => redValue (fun d => free (2 * (r * da.cols) + d)) fn ((List.range da.cols).map (val da r))
  | 3 => recipeWrites free data fn ps rnd da db dc dd
  | 5 => done fun _ _ => al
  | _ => ([], 0)

/-! ## Granules and poison (06 R190, R199, R200) -/

/-- The granules of element (r, n): its bits, and its block's scale. -/
def Tile.elemGranules (t : Tile) (r n : Nat) : List Nat :=
  let w := fmtBits t.fmt
  linesOf (t.base + r * t.stride + n * w / 8) ((n * w % 8 + w + 7) / 8)
    ++ (if fmtBlock t.fmt = 0 then [] else [(t.sbase + r * t.spitch + n / fmtBlock t.fmt) / 64])

/-- The source tiles and the destination tiles of a Relief command. -/
def reliefRoles (minor fn : Nat) (dd da db dc : Tile) : List Tile × List Tile :=
  match minor with
  | 0 => ((ewReads fn).map fun lo => if lo = 37 then da else if lo = 33 then db else dc, [dd])
  | 1 => ([da], [dd])
  | 2 => ([da], [dd])
  | 3 =>
    match fn with
    | 0 => ([da, db], [da])
    | 1 => ([da, db, dc], [da, dc])
    | 2 => ([da, db, dc, dd], [da, dc, dd])
    | _ => ([da, dc], [dc])
  | 5 => ([], [dd])
  | _ => ([], [])

/-- Destination granules that take a value from a poisoned source granule: element by element, a scaled destination by block, a reduction by row. -/
def reliefHurt (b : Bank) (minor : Nat) (srcs dsts : List Tile) : List Nat :=
  let bad := fun (t : Tile) r n => (t.elemGranules r n).any b.poisoned
  (dsts.flatMap fun d =>
    (List.range d.rows).flatMap fun r => (List.range d.cols).flatMap fun n =>
      let blk := fmtBlock d.fmt
      let from_ := fun (t : Tile) =>
        if minor = 2 then (List.range t.cols).any (bad t r)
        else if blk = 0 then bad t r n
        else (List.range blk).any fun j => bad t r (n / blk * blk + j)
      if srcs.any from_ then d.elemGranules r n else []).eraseDups

/-- Writes to a bank by granule: each granule takes its bytes in one access; where any granule fails, each other one is old or new, and none whose source was poisoned is written (04 R110). The result says whether all were written. -/
def Bank.applyWrites (b : Bank) (free : Nat → Nat) (hurt : List Nat) (ws : List (Nat × Byte)) : Bank × Bool :=
  let gs := byGranule ws
  let ok := gs.all fun e => !hurt.contains e.1 && (b.writeGranule e.1 e.2.1 (BitVec.ofNat 512 e.2.2)).2
  let take := fun (e : Nat × Nat × Nat) => ok || (!hurt.contains e.1 && free (2 ^ 25 + e.1) % 2 == 1)
  ((gs.filter take).foldl (fun (k : Bank) e => ((k.clearResv (64 * e.1) 64 none).writeGranule e.1 e.2.1 (BitVec.ofNat 512 e.2.2)).1) b, ok)

/-- RELIEF_CMD_COMPLETE: the running Relief command has written its granules, or fails on poison (06 R190, R191, R199, R200). `bad` are the granules in which its reads found an uncorrectable error. Flags of a failed command are those of the granules it came to: a free part of all. -/
def opReliefCmdComplete (c : CellRef) (bad : List Nat) (s : State) : State :=
  let a := s.at c
  match a.fl.rq with
  | [] => s
  | o :: _ =>
    match o.kind with
    | .relief minor dd da db dc rnd srule sa fn =>
      if ¬ (s.cellWorks c && o.started) then s
      else
        let free := fun n => Config.freeNat (s.draws + n)
        if minor = 4 then
          let b := s.bank a.key
          let s1 := s.setCell a.key (o.effect free a.cell fun k => { k with ops := k.ops.writeLE sa 8 b.flags.toNat })
          ((if fn = 1 then s1.setBank a.key { b with flags := 0 } else s1).opDone a.key o 0).drew drawSpan
        else
          let roles := reliefRoles minor fn dd da db dc
          let reads := fun g => roles.1.any fun t => t.runs.any fun p => (linesOf p.1 p.2).contains g
          let s1 := (bad.filter reads).foldl (fun t g => t.bankError a.key g .data) s
          let b := s1.bank a.key
          let z := reliefWrites free b.data o.params minor dd da db dc rnd srule sa fn
          let r := b.applyWrites free (reliefHurt b minor roles.1 roles.2) z.1
          let fl := if r.2 then z.2 else ((Word.ofNat z.2) &&& (Word.ofNat (free (2 ^ 25 + 2 ^ 16)))).toNat
          ((s1.setBank a.key (r.1.flag fl)).opDone a.key o (if r.2 then 0 else 7)).drew drawSpan
    | _ => s

/-! ## Remote accumulation (06 R194 to R196) -/

/-- RACC: remote accumulation of a tile (06 R194). -/
def opRacc (c : CellRef) (w : Word) (s : State) : State :=
  s.issueAsync c w (opOf w == 0x3D) (zeroFld w 0 34 && w.fld 34 2 != 3) []
    (fun a =>
      let x := a.cell.tile (descAt w 45)
      let y := a.cell.tile (descAt w 41)
      [⟨descAt w 45, x, 0, decide (x.fmt ≤ 1) && x.reliefOk y⟩,
       ⟨descAt w 41, y, 2, decide (y.fmt ≤ 1) && y.reliefOk y && y.base % 64 == 0 && y.stride % 64 == 0 && y.rowBytes % 64 == 0⟩])
    fun a => .racc (a.cell.tile (descAt w 45)) (a.cell.tile (descAt w 41)) (w.fld 37 4) (w.bit 36) (w.fld 34 2)

/-- Granules of a RACC's destination, row by row. -/
def Tile.granuleCount (t : Tile) : Nat := t.rows * (t.rowBytes / 64)

/-- A destination element after a contribution: formed in FP32 and rounded to nearest even into the format (06 R195). -/
def raccElem (op fmt : Nat) (old src : Nat) : Nat × Nat :=
  let x := (elemValue fmt false old).1
  let y := f32 src
  let z := fRound (if op = 0 then x.add y else if op = 1 then (x.max y, 0) else (x.min y, 0)) 0
  let e := encodeUnscaled fmt .rne 0 (f32 z.1)
  (e.1, e.2 ||| z.2)

/-- The 64 bytes of a granule after a contribution, with its flags. -/
def raccGranule (op fmt : Nat) (old : Line) (src : Nat → Nat) : Line × Nat :=
  let w := fmtBits fmt
  (List.range (512 / w)).foldl (fun (acc : Line × Nat) j =>
    let z := raccElem op fmt (nbits old.toNat (w * j) w) (src j)
    (acc.1 ||| BitVec.ofNat 512 (z.1 * 2 ^ (w * j)), acc.2 ||| z.2)) (0, 0)

/-- The place of a granule of a RACC's destination, or the code it fails with: it must lie in a Relief page of the context with the atomic right, outside code regions (06 R195, 02 R29, 10 R568). -/
def State.raccPlace (s : State) (core ctx va : Nat) : Except Nat Place :=
  if s.codeHit ctx va 64 then .error 6
  else
    match s.xlCell core ctx va .atomic with
    | .ok p => if s.inRelief core ctx va .atomic then .ok p else .error 6
    | .poison _ => .error 7
    | _ => .error 6

/-- The granule at a place: its bytes, or none where it is poisoned or out of service. -/
def State.raccRead (s : State) (p : Place) : Option Line :=
  match p with
  | .bank k off => if (s.bank k).poisoned (off / 64) then none else some (BitVec.ofNat 512 ((s.bank k).data.readLE off 64))
  | .stack x => if s.mem.homePoison (x / 64) then none else some (s.mem.homeLine (x / 64))
  | _ => none

/-- The granule at a place is written whole. -/
def State.raccWrite (s : State) (p : Place) (data : Line) : State :=
  match p with
  | .bank k off => (s.bankWrite k off (bytesOf 64 data.toNat) none).1
  | .stack x => (s.homeWrite (x / 64) (2 ^ 64 - 1) data).1
  | _ => s

/-- A place can be served now. -/
def State.raccFree (s : State) (p : Place) : Bool :=
  match p with
  | .stack x => s.mem.free (x / 64)
  | _ => true

/-- RACC_APPLY: a destination granule takes its contribution indivisibly, or the RACC fails (06 R195, R199, R200). The order of R207 and the token wait come first. -/
def opRaccApply (c : CellRef) (i : Nat) (granule : Nat) (err : MemErr) (s : State) : State :=
  let a := s.at c
  match findOp a.fl.raccs i with
  | some o =>
    match o.kind with
    | .racc ds dm _ _ op =>
      if ¬ (s.cellWorks c && a.fl.waitMet o && decide (granule < dm.granuleCount) && !o.applied.contains granule
          && (match o.acc with
            | some x => s.mayPerform c.core a.key x
            | none => true)) then s
      else
        let per := dm.rowBytes / 64
        let row := granule / per
        let va := dm.base + row * dm.stride + 64 * (granule % per)
        let s1 := s.xlCellFill c.core a.eng.ctx va .atomic
        match s.raccPlace c.core a.eng.ctx va with
        | .error code => s1.opDone a.key o code
        | .ok p =>
          if ¬ s1.raccFree p then s
          else
            let s2 := match p with
              | .bank k off => s1.bankError k (off / 64) err
              | .stack x => s1.stackRead (x / 64) err
              | _ => s1
            match s2.raccRead p with
            | none => s2.opDone a.key o 7
            | some old =>
              let n0 := granule % per * (512 / fmtBits dm.fmt)
              let seen := o.view (fun n => Config.freeNat (s2.draws + n)) a.cell
              let z := raccGranule op dm.fmt old fun j => (toF32 .rne 0 (ds.value seen.read row (n0 + j)).1).1
              let s3 := ((s2.raccWrite p z.1).reliefFlag p z.2).drew (if o.snap.all fun m => m == a.cell.ops then 0 else drawSpan)
              let f := s3.flight a.key
              s3.setFlight a.key { f with raccs := f.raccs.map fun q => if q.id = i then { q with started := true, applied := granule :: q.applied } else q }
    | _ => s
  | none => s

/-- RACC_COMPLETE: every destination granule has been applied (06 R196). -/
def opRaccComplete (c : CellRef) (i : Nat) (s : State) : State :=
  let a := s.at c
  match findOp a.fl.raccs i with
  | some o =>
    match o.kind with
    | .racc _ dm _ _ _ => if s.cellWorks c && (List.range dm.granuleCount).all o.applied.contains then s.opDone a.key o 0 else s
    | _ => s
  | none => s

/-! ## Meanings: each command answers the next state that its operation gives. -/

/-- The meaning of EW. -/
def execEw (c : CellRef) (w : Word) (s : State) : Host.Outcome State Fault Refusal := .next (opEw c w s)
/-- The meaning of CAST. -/
def execCastOp (c : CellRef) (w : Word) (s : State) : Host.Outcome State Fault Refusal := .next (opCastOp c w s)
/-- The meaning of RED. -/
def execRed (c : CellRef) (w : Word) (s : State) : Host.Outcome State Fault Refusal := .next (opRed c w s)
/-- The meaning of RECIPE. -/
def execRecipe (c : CellRef) (w : Word) (s : State) : Host.Outcome State Fault Refusal := .next (opRecipe c w s)
/-- The meaning of FLAGRD. -/
def execFlagrd (c : CellRef) (w : Word) (s : State) : Host.Outcome State Fault Refusal := .next (opFlagrd c w s)
/-- The meaning of FILL. -/
def execFill (c : CellRef) (w : Word) (s : State) : Host.Outcome State Fault Refusal := .next (opFill c w s)
/-- The meaning of RELIEF_CMD_COMPLETE. -/
def execReliefCmdComplete (c : CellRef) (bad : List Nat) (s : State) : Host.Outcome State Fault Refusal := .next (opReliefCmdComplete c bad s)
/-- The meaning of RACC. -/
def execRacc (c : CellRef) (w : Word) (s : State) : Host.Outcome State Fault Refusal := .next (opRacc c w s)
/-- The meaning of RACC_APPLY. -/
def execRaccApply (c : CellRef) (i : Nat) (granule : Nat) (err : MemErr) (s : State) : Host.Outcome State Fault Refusal := .next (opRaccApply c i granule err s)
/-- The meaning of RACC_COMPLETE. -/
def execRaccComplete (c : CellRef) (i : Nat) (s : State) : Host.Outcome State Fault Refusal := .next (opRaccComplete c i s)

end Sys2Proof.Machine
end

