-- ==== Sys2Proof/Machine/Sync.lean ====
section
/-! DEFINITION. Signal counters, barriers, fence waits, monitor slots and the watchdogs (08). -/

namespace Sys2Proof.Machine

/-! ## Maps (08 R237 to R241) -/

/-- The device physical address of word `i` of a context's core map: 1,024 signal entries, then two words for each barrier (08 R237). -/
def State.cmapAddr (s : State) (ctx core i : Nat) : Nat := (s.ctx ctx).cmapBase + 8704 * core + 8 * i

/-- The key under which a core caches a map word: core-map words by index, monitor entries after them. -/
def mapKey (ctx i : Nat) : Nat := 2 ^ 20 * ctx + i

/-- The index at which cached monitor entries begin. -/
def monWord (i : Nat) : Nat := 4096 + i

/-- The address of a cached word. -/
def State.mapAddr (s : State) (ctx core i : Nat) : Nat :=
  if 4096 ≤ i then (s.ctx ctx).monBase + 8 * (i - 4096) else s.cmapAddr ctx core i

/-- A map word as the core reads it: cached, or from its home; a poisoned line fails with ECC_UNCORR (08 R239, R241). -/
def State.mapWord (s : State) (ctx core i : Nat) : Except Nat Word :=
  match (s.core core).mapCache.find? (mapKey ctx i) with
  | some w => .ok w
  | none =>
    let a := s.mapAddr ctx core i
    if s.mem.homePoison (a / 64) then .error 7 else .ok (s.mem.homeWord a)

/-- A map word can be read now. -/
def State.mapReady (s : State) (ctx core i : Nat) : Bool :=
  ((s.core core).mapCache.find? (mapKey ctx i)).isSome || s.mem.free (s.mapAddr ctx core i / 64)

/-- A map word that has been read is cached (08 R241). -/
def State.mapFill (s : State) (ctx core i : Nat) : State :=
  match s.mapWord ctx core i with
  | .ok w =>
    let k := s.core core
    let t := if (k.mapCache.find? (mapKey ctx i)).isSome then s else s.snoopRead (s.mapAddr ctx core i / 64)
    let k := t.core core
    t.setCore core { k with mapCache := k.mapCache.insert (mapKey ctx i) w }
  | .error _ => s

/-- A signal entry's VALID, with its reserved bits clear (08 R238, R239). -/
def sigOk (w : Word) : Bool := w.bit 63 && w.fld 10 6 == 0 && w.fld 26 6 == 0

/-- A signal identifier translated: physical counter, DEPTH and the partner's counter; or PROTECTION or ECC_UNCORR (08 R239). -/
def State.sigEntry (s : State) (ctx core v : Nat) : Except Nat (Nat × Nat × Nat) :=
  if ¬ (s.ctx ctx).cores.testBit core then .error 6
  else
    match s.mapWord ctx core v with
    | .error e => .error e
    | .ok w =>
      if ¬ sigOk w then .error 6
      else if w.fld 32 31 = 0 then .ok (w.fld 0 10, 0, 0)
      else
        match s.mapWord ctx core (w.fld 16 10) with
        | .error e => .error e
        | .ok p => if sigOk p then .ok (w.fld 0 10, w.fld 32 31, p.fld 0 10) else .error 6

/-- The map words that translating a signal identifier reads. -/
def State.sigWords (s : State) (ctx core v : Nat) : List Nat :=
  match s.mapWord ctx core v with
  | .ok w => if sigOk w && w.fld 32 31 != 0 then [v, w.fld 16 10] else [v]
  | .error _ => [v]

/-- The first map word of a barrier entry. -/
def barWord (bid : Nat) : Nat := 1024 + 2 * bid

/-- A barrier identifier translated for an engine: physical unit and MASK (08 R238, R239). -/
def State.barEntry (s : State) (ctx core eng bid : Nat) : Except Nat (Nat × Nat) :=
  if ¬ (s.ctx ctx).cores.testBit core then .error 6
  else
    match s.mapWord ctx core (barWord bid), s.mapWord ctx core (barWord bid + 1) with
    | .ok a, .ok m => if a.bit 63 && a.fld 5 58 == 0 && m != 0 && m.bit eng then .ok (a.fld 0 5, m.toNat) else .error 6
    | _, _ => .error 7

/-- A monitor identifier translated: the physical slot (08 R238, R239). -/
def State.monEntry (s : State) (ctx core v : Nat) : Except Nat Nat :=
  if (s.ctx ctx).monLen ≤ v then .error 6
  else
    match s.mapWord ctx core (monWord v) with
    | .error e => .error e
    | .ok w =>
      let m := s.mon (w.fld 0 16)
      if w.bit 63 && w.fld 16 47 == 0 && m.assigned && m.part == (s.ctx ctx).part then .ok (w.fld 0 16) else .error 6

/-- An identifier is translated for an instruction: its words are read and cached, a failure traps, and the body follows; words that cannot be read yet stall it. -/
def State.withMap {α : Type} (s : State) (a : At) (words : List Nat) (entry : State → Except Nat α) (body : State → α → State) : State :=
  if words.all (s.mapReady a.eng.ctx a.ref.core) then
    let t := words.foldl (fun u i => u.mapFill a.eng.ctx a.ref.core i) s
    match entry s with
    | .ok x => body t x
    | .error code => t.trapAt a code
  else s

/-! ## Signal counters (08 R242 to R245) -/

/-- The synchronisation page of a core. -/
def syncPage (core : Nat) : Nat := corePage core 3

/-- A counter's word. -/
def State.counter (s : State) (core phys : Nat) : Word := (s.core core).counters.at 0 phys

/-- Replacing a counter's word. -/
def State.setCounter (s : State) (core phys : Nat) (w : Word) : State :=
  let k := s.core core
  s.setCore core { k with counters := k.counters.put 0 phys w }

/-- An amount is added to a counter (08 R243): it saturates and sets SAT, and a saturated counter changes nothing. -/
def State.sigAddOp (s : State) (core phys amount : Nat) : State :=
  let w := s.counter core phys
  if w.bit 63 then s
  else if 2 ^ 63 ≤ w.toNat + amount then
    (s.setCounter core phys (BitVec.allOnes 64)).bumpCore core (syncPage core) .syncCnt Fld.syncCnt_satEvents 1
  else s.setCounter core phys (Word.ofNat (w.toNat + amount))

/-- A counter satisfies a target (08 R244). -/
def State.counterMet (s : State) (core phys target : Nat) : Bool :=
  (s.counter core phys).bit 63 || decide (target ≤ (s.counter core phys).fld 0 63)

/-- An ADDB would be admitted (08 R245). -/
def State.addbFits (s : State) (core phys amount partner depth : Nat) : Bool :=
  let c := s.counter core phys
  let p := s.counter core partner
  c.bit 63 || p.bit 63 || decide (c.fld 0 63 + amount ≤ depth + p.fld 0 63)

/-- CTR of a SIG word. -/
def sigCtr (w : Word) : Nat := w.fld 44 10
/-- SA of a SIG word. -/
def sigSa (w : Word) : Nat := w.fld 38 6
/-- SD of a SIG word. -/
def sigSd (w : Word) : Nat := w.fld 32 6
/-- The amount of a SIG ADD or ADDB: the exact sum s[SA] + IMM (08 R243). -/
def sigAmount (w : Word) (k : Cell) : Nat := (k.s (sigSa w)).toNat + w.fld 0 16

/-- An engine's barrier arrivals have been made: no instance that all its cells have issued waits to reach its unit, and none of its entries is stalled. A cell performs its next synchronisation operation only then, in program order (08 R246, R260; log 87). -/
def State.syncReady (s : State) (core eng : Nat) : Bool :=
  let e := s.engine core eng
  (e.barAt.all fun x => decide (s.barFull core e (x.1 / 2 ^ 32) ≤ x.1 % 2 ^ 32))
    && (s.core core).bars.all fun u => u.2.stalled.all fun x => x.1 != eng

/-- A SIG of a minor: its counter is translated, and the body follows. -/
def State.issueSig (s : State) (c : CellRef) (w : Word) (minor : Nat) (regs : List Nat) (body : At → State → Nat × Nat × Nat → State) : State :=
  s.issue c (opOf w == 0x19 && minorOf w == minor) (zeroFld w 16 16) regs fun a =>
    if ¬ s.syncReady c.core c.eng then s
    else s.withMap a (s.sigWords a.eng.ctx c.core (sigCtr w)) (fun t => t.sigEntry a.eng.ctx c.core (sigCtr w)) (body a)

/-- SIG ADD (05 R149, 08 R243). -/
def opSigAdd (c : CellRef) (w : Word) (s : State) : State :=
  s.issueSig c w 0 [sigSa w] fun a t e => (t.sigAddOp c.core e.1 (sigAmount w a.cell)).setCell a.key a.cell.next

/-- SIG WAIT (05 R149, 08 R244). -/
def opSigWait (c : CellRef) (w : Word) (s : State) : State :=
  s.issueSig c w 1 [sigSa w] fun a t e =>
    let target := (a.cell.s (sigSa w)).toNat
    if t.counterMet c.core e.1 target then t.setCell a.key a.cell.next else t.blockAt a (.sigWait e.1 target)

/-- SIG READ (05 R149, 08 R244). -/
def opSigRead (c : CellRef) (w : Word) (s : State) : State :=
  s.issueSig c w 2 [sigSd w] fun a t e => t.setCell a.key (a.cell.setS (sigSd w) (t.counter c.core e.1)).next

/-- SIG ADDB (05 R149, 08 R245). -/
def opSigAddb (c : CellRef) (w : Word) (s : State) : State :=
  s.issueSig c w 3 [sigSa w] fun a t e =>
    let amount := sigAmount w a.cell
    let k := t.core c.core
    let q := k.addbQ.at [] e.1
    if e.2.1 = 0 then (t.sigAddOp c.core e.1 amount).setCell a.key a.cell.next
    else if e.2.1 < amount then t.trapAt a 5
    else if q.isEmpty && t.addbFits c.core e.1 amount e.2.2 e.2.1 then (t.sigAddOp c.core e.1 amount).setCell a.key a.cell.next
    else (t.setCore c.core { k with addbQ := k.addbQ.put [] e.1 (q ++ [a.key]) }).blockAt a (.addb e.1 amount e.2.2 e.2.1)

/-- SIG_WAIT_SATISFIED: a blocked SIG WAIT resumes once its counter meets the target (08 R244). -/
def opSigWaitSatisfied (c : CellRef) (s : State) : State :=
  let a := s.at c
  match a.cell.phase with
  | .blocked (.sigWait phys target) =>
    if s.cellBlocked c && s.counterMet c.core phys target then s.setCell a.key a.cell.resume else s
  | _ => s

/-- ADDB_ADMITTED: the oldest blocked ADDB of a counter is admitted and advances it in the same step (08 R245). -/
def opAddbAdmitted (c : CellRef) (s : State) : State :=
  let a := s.at c
  match a.cell.phase with
  | .blocked (.addb phys amount partner depth) =>
    if s.cellBlocked c && ((s.core c.core).addbQ.at [] phys).head? == some a.key && s.addbFits c.core phys amount partner depth then
      ((s.leaveAddb c.core phys a.key).sigAddOp c.core phys amount).setCell a.key a.cell.resume
    else s
  | _ => s

/-! ## Barriers (08 R259 to R262) -/

/-- A barrier unit. -/
def State.bar (s : State) (core u : Nat) : BarUnit := (s.core core).bars.at {} u

/-- Replacing a barrier unit. -/
def State.setBar (s : State) (core u : Nat) (x : BarUnit) : State :=
  let k := s.core core
  s.setCore core { k with bars := k.bars.put {} u x }

/-- The key of an arrived instance in an engine's record. -/
def instKey (bid inst : Nat) : Nat := 2 ^ 32 * bid + inst

/-- A round is complete (08 R261). -/
def BarUnit.complete (u : BarUnit) (t : Nat) : Bool :=
  let d := (u.done + 2 ^ 32 - t % 2 ^ 32) % 2 ^ 32
  decide (0 < d) && decide (d ≤ 2 ^ 31)

/-- An engine is counted for the oldest open round it has not arrived for; a new round opens where a slot is free; else none (08 R260). The mask of a round names the engines that have arrived. -/
def BarUnit.arrive (u : BarUnit) (eng : Nat) : Option (BarUnit × Nat) :=
  match u.rounds.find? fun r => !r.2.testBit eng with
  | some r => some ({ u with rounds := u.rounds.map fun x => if x.1 = r.1 then (x.1, setBit x.2 eng) else x }, r.1)
  | none =>
    if u.rounds.length < 2 then
      some ({ u with rounds := u.rounds ++ [(u.next, 2 ^ eng)], next := (u.next + 1) % 2 ^ 32 }, u.next)
    else none

/-- The oldest round completes when every engine of the MASK has arrived (08 R259). -/
def BarUnit.settle (u : BarUnit) : BarUnit :=
  match u.rounds with
  | r :: rest => if (List.range 64).all fun e => !u.mask.testBit e || r.2.testBit e then { u with rounds := rest, done := (r.1 + 1) % 2 ^ 32 } else u
  | [] => u

/-- The stalled entries that can arrive do so, the oldest of each engine first; each arrival that was counted is reported with its round. -/
def BarUnit.drain : Nat → BarUnit → List (Nat × Nat × Nat × Nat) → BarUnit × List (Nat × Nat × Nat × Nat)
  | 0, u, out => (u, out)
  | n + 1, u, out =>
    match u.stalled.find? fun e => (u.arrive e.1).isSome with
    | none => (u, out)
    | some e =>
      match u.arrive e.1 with
      | none => (u, out)
      | some (v, r) => BarUnit.drain n { v with stalled := v.stalled.erase e }.settle (out ++ [(e.1, e.2.1, e.2.2, r)])

/-- A counted arrival gives its engine the round: a BAR ARRIVE's cells take it as their ticket (08 R260). -/
def State.giveTicket (s : State) (core : Nat) (t : Nat × Nat × Nat × Nat) : State :=
  let e := s.engine core t.1
  let s1 := s.setEngine core t.1 { e with barRound := e.barRound.put 0 (instKey t.2.1 t.2.2.1) (t.2.2.2 + 1) }
  if ¬ s.resident core t.1 then s1
  else
    (e.keys core).foldl (fun u k =>
      let f := u.flight k
      match f.arrive.find? fun x => x.1 == t.2.1 && x.2.1 == t.2.2.1 with
      | some x =>
        (u.setCell k ((u.cell k).setS x.2.2 (Word.ofNat t.2.2.2))).setFlight k
          { f with arrive := f.arrive.erase x, busy := clearBit f.busy x.2.2 }
      | none => u) s1

/-- The round an instance of an engine was counted for. -/
def Engine.roundOf (e : Engine) (bid inst : Nat) : Option Nat :=
  match e.barRound.at 0 (instKey bid inst) with
  | 0 => none
  | n + 1 => some n

/-- The cells that wait on a unit's completed rounds resume (08 R260, R261). -/
def State.barResume (s : State) (core u : Nat) : State :=
  (coreCells core).foldl (fun t k =>
    match (t.cell k).phase with
    | .blocked (.barSync p bid inst) =>
      if p = u then
        match t.engineAt core (k % 256) with
        | some e =>
          match (t.engine core e).roundOf bid inst with
          | some r => if (t.bar core u).complete r then t.setCell k (t.cell k).resume else t
          | none => t
        | none => t
      else t
    | .blocked (.barWait p ticket) => if p = u ∧ (t.bar core u).complete ticket then t.setCell k (t.cell k).resume else t
    | _ => t) s

/-- After a change of a unit, its stalled entries arrive where they can, tickets are given, and waiters of completed rounds resume. -/
def State.barDrain (s : State) (core u : Nat) : State :=
  let x := s.bar core u
  let r := BarUnit.drain (x.stalled.length + 1) x.settle []
  (r.2.foldl (fun t e => t.giveTicket core e) (s.setBar core u r.1)).barResume core u

/-- BID of a BAR word. -/
def barBid (w : Word) : Nat := w.fld 49 5
/-- SD of a BAR word. -/
def barSd (w : Word) : Nat := w.fld 43 6
/-- SA of a BAR word. -/
def barSa (w : Word) : Nat := w.fld 37 6

/-- A BAR of a minor: its unit is translated and shows the entry's MASK, and the body follows. -/
def State.issueBar (s : State) (c : CellRef) (w : Word) (minor : Nat) (regs : List Nat) (body : At → State → Nat → State) : State :=
  s.issue c (opOf w == 0x1A && minorOf w == minor) (zeroFld w 0 37) regs fun a =>
    if ¬ s.syncReady c.core c.eng then s
    else s.withMap a [barWord (barBid w), barWord (barBid w) + 1] (fun t => t.barEntry a.eng.ctx c.core c.eng (barBid w)) fun t e =>
      body a (t.setBar c.core e.1 { t.bar c.core e.1 with mask := e.2, ctx := some a.eng.ctx }) e.1

/-- A cell's instance of a barrier is issued: the state, its number among the engine's instances, and its unit. The first cell to issue an instance fixes the unit for all (08 R241). -/
def State.barIssue (s : State) (a : At) (bid u : Nat) : State × Nat × Nat :=
  let g := s.gather a.key
  let n := g.bars.at 0 bid
  let s1 := s.setGather a.key { g with bars := g.bars.put 0 bid (n + 1) }
  let e := s1.engine a.ref.core a.ref.eng
  match e.barAt.find? (2 ^ 32 * bid + n) with
  | some x => (s1, n, x.1)
  | none => (s1.setEngine a.ref.core a.ref.eng { e with barAt := e.barAt.insert (2 ^ 32 * bid + n) (u, (s1.bar a.ref.core u).mask) }, n, u)

/-- BAR SYNC: the cell's instance is issued and it blocks until the round completes (05 R150, 08 R260). -/
def opBarSync (c : CellRef) (w : Word) (s : State) : State :=
  s.issueBar c w 0 [] fun a t u =>
    let r := t.barIssue a (barBid w) u
    r.1.blockAt a (.barSync r.2.2 (barBid w) r.2.1)

/-- BAR ARRIVE: the cell's instance is issued; s[SD] is awaited until the engine's arrival is counted (05 R150, 08 R260). -/
def opBarArrive (c : CellRef) (w : Word) (s : State) : State :=
  s.issueBar c w 1 [barSd w] fun a t u =>
    let r := t.barIssue a (barBid w) u
    let f := r.1.flight a.key
    (r.1.setCell a.key a.cell.next).setFlight a.key
      { f with arrive := f.arrive ++ [(barBid w, r.2.1, barSd w)], busy := if barSd w = 0 then f.busy else setBit f.busy (barSd w) }

/-- BAR WAIT: blocks until the ticket's round is complete; a discarded round's ticket traps with WATCHDOG (05 R150, 08 R261, R264). -/
def opBarWait (c : CellRef) (w : Word) (s : State) : State :=
  s.issueBar c w 2 [barSa w] fun a t u =>
    let ticket := (a.cell.s (barSa w)).fld 0 32
    if (t.bar c.core u).lost.contains ticket then t.trapAt a 4
    else if (t.bar c.core u).complete ticket then t.setCell a.key a.cell.next
    else t.blockAt a (.barWait u ticket)

/-- BARRIER_ARRIVAL: once every cell of an engine has issued an instance, the engine's arrival reaches the unit that the instance was translated to (05 R150, 08 R241, R260); that of an engine that traps or stops meanwhile too (05 R173, 08 R262). -/
def opBarrierArrival (core eng bid : Nat) (s : State) : State :=
  let e := s.engine core eng
  let inst := e.barServed.at 0 bid
  match e.barAt.find? (instKey bid inst) with
  | none => s
  | some (u, m) =>
    if s.serving && s.resident core eng && decide (inst < s.barFull core e bid) then
      let s1 := s.setEngine core eng { e with barServed := e.barServed.put 0 bid (inst + 1), barAt := e.barAt.erase (instKey bid inst) }
      let x := s1.bar core u
      (s1.setBar core u { x with mask := m, ctx := some e.ctx, stalled := x.stalled ++ [(eng, bid, inst)] }).barDrain core u
    else s

/-! ## Fence waits (05 R152, 08 R255 to R257) -/

/-- A wait for a target ends with a value (05 R152, 08 R249): an error word, a value not less than the target, or a saturated word. -/
def fenceMet (v target : Nat) : Bool := decide (2 ^ 63 ≤ v) || decide (target ≤ v) || v == fenceTop

/-- A cell's read of the aligned word at a place as an ordinary load with no tag; none while it must wait (08 R255, 07 R207). -/
def State.fenceRead (s : State) (a : At) (p : Place) (acq : Bool) (h : HostAnswer) : Option (State × Except Nat Nat) :=
  if ¬ s.mayPerform a.ref.core a.key { id := a.fl.seq, tag := 16, acq := acq, rel := false, scalar := some (p, 8), host := p.isHost } then none
  else
    match s.ensure a.ref.core false h p.granule.1 with
    | none => none
    | some t =>
      match t.poisonAt a.ref.core p with
      | some code => some (t.consumeAt a.ref.core a.eng.ctx p, .error code)
      | none => some (t, .ok (ofBytes ((List.range 8).map fun i => t.byteAt a.ref.core (p.add i))))

/-- The cell leaves its slot, where it waits on one. -/
def State.leaveWait (s : State) (k : Nat) (slot : Option Nat) : State :=
  match slot with
  | some n => s.leaveSlot n k
  | none => s

/-- A blocked FWAIT reads its word again: it ends where `stop` says so of the value, and poison traps. -/
def State.fwaitAgain (s : State) (c : CellRef) (h : HostAnswer) (stop : Nat → Nat → Bool) : State :=
  let a := s.at c
  match a.cell.phase with
  | .blocked (.fwait sd va target _ slot acq) =>
    if ¬ s.cellBlocked c then s
    else
      s.withPlace a va 8 .read fun t p =>
        match t.fenceRead a p acq h with
        | none => s
        | some (u, .error code) => u.trapAt a code
        | some (u, .ok v) =>
          if stop v target then
            (u.leaveWait a.key slot).setCell a.key ((u.cell a.key).setS sd (Word.ofNat v)).resume
          else u
  | _ => s

/-- A monitored FWAIT takes its slot: it binds the slot or joins it; a slot bound to another word counts a conflict and is not used (08 R256, R257). -/
def State.joinSlot (s : State) (a : At) (n : Nat) (va : Nat) (p : Place) : State × Option Nat :=
  let m := s.mon n
  match m.bound with
  | none => (s.setMon n { m with bound := some p, ctx := a.eng.ctx, va := va, waiters := m.waiters ++ [a.key] }, some n)
  | some q =>
    if q = p then (s.setMon n { m with waiters := m.waiters ++ [a.key] }, some n)
    else (s.bump monPage .fsAnom Fld.fsAnom_conflicts 1, none)

/-- FWAIT: waits on a fence word by polling or through a monitor slot; the first read ends it at once where it meets the target, or where the timeout is zero (05 R152, 08 R248, R255 to R257). -/
def opFwait (c : CellRef) (w : Word) (h : HostAnswer) (s : State) : State :=
  let sd := w.fld 52 6
  let sc := w.fld 34 6
  let acq := w.bit 15
  s.issue c (opOf w == 0x1C) (decide (w.fld 32 2 ≤ 1) && zeroFld w 0 15) [sd, saOf w, sbOf w, sc] fun a =>
    let va := (a.cell.s (saOf w)).toNat
    let target := (a.cell.s (sbOf w)).toNat
    let ticks := (a.cell.s sc).toNat
    if va % 8 ≠ 0 then s.trapAt a 5
    else
      s.withPlace a va 8 .read fun t p =>
        if p.isArena || s.inRelief c.core a.eng.ctx va .read then t.trapAt a 6
        else
          let go := fun (u : State) (slot : Option Nat) =>
            let wait := fun (x : State) =>
              x.blockAt a (.fwait sd va target (if sc = 0 then none else some (s.time + ticks)) slot acq)
            match u.fenceRead a p acq h with
            | none => wait u
            | some (x, .error code) => (x.leaveWait a.key slot).trapAt a code
            | some (x, .ok v) =>
              if fenceMet v target || (sc != 0 && ticks == 0) then
                (x.leaveWait a.key slot).setCell a.key (a.cell.setS sd (Word.ofNat v)).next
              else wait x
          if w.fld 32 2 = 0 then go t none
          else
            t.withMap a (if w.fld 16 16 < (s.ctx a.eng.ctx).monLen then [monWord (w.fld 16 16)] else [])
              (fun x => x.monEntry a.eng.ctx c.core (w.fld 16 16)) fun u n =>
                let j := u.joinSlot a n va p
                go j.1 j.2

/-- FWAIT_POLL: a polling wait re-reads its word (08 R255). -/
def opFwaitPoll (c : CellRef) (h : HostAnswer) (s : State) : State :=
  match (s.at c).cell.phase with
  | .blocked (.fwait _ _ _ _ none _) => s.fwaitAgain c h fenceMet
  | _ => s

/-- FWAIT_TIMEOUT: once the time counter has counted the ticks of the timeout, the wait ends with the value of its final read (05 R152, 08 R255, R265). -/
def opFwaitTimeout (c : CellRef) (h : HostAnswer) (s : State) : State :=
  match (s.at c).cell.phase with
  | .blocked (.fwait _ _ _ (some till) _ _) => if till ≤ s.time then s.fwaitAgain c h fun _ _ => true else s
  | _ => s

/-! ## Monitor slots (08 R256, R258) -/

/-- The cell of an engine at a cell key. -/
def State.refOf (s : State) (k : Nat) : Option CellRef :=
  match s.engineAt (k / 256) (k % 256) with
  | none => none
  | some n =>
    ((List.range (s.engine (k / 256) n).size).find? fun i => (s.engine (k / 256) n).posOf i == k % 256).map fun i => ⟨k / 256, n, i⟩

/-- The word at a place as the Plinth reads it; none while it cannot, or where it is poisoned. -/
def State.plinthWord (s : State) (p : Place) (h : HostAnswer) : Option (State × Nat) :=
  match p with
  | .stack a => if s.mem.free (a / 64) && !s.mem.homePoison (a / 64) then some (s.snoopRead (a / 64), (s.mem.homeWord a).toNat) else none
  | .host a =>
    match s.hostFetch h (a / 64) with
    | some t =>
      match t.hline? (a / 64) with
      | some l => if l.poison then none else some (t, l.data.toNat / 256 ^ (a % 64) % 2 ^ 64)
      | none => none
    | none => none
  | _ => none

/-- An armed slot whose word has reached its target raises its source once and disarms; it unbinds when no waiter is left (08 R258). -/
def State.armedCheck (s : State) (n : Nat) (h : HostAnswer) : State :=
  let m := s.mon n
  match m.bound with
  | some p =>
    if m.armed then
      match s.plinthWord p h with
      | some (t, v) =>
        if fenceMet v m.target then
          (t.setMon n { m with armed := false, bound := if m.waiters.isEmpty then none else m.bound }).irqRaise m.source none
        else t
      | none => s
    else s
  | none => s

/-- MONITOR_WAKE: a write to a slot's word wakes its waiters, each of which reads it again; an armed slot compares (08 R256, R258). -/
def opMonitorWake (slot : Nat) (h : HostAnswer) (s : State) : State :=
  ((s.mon slot).waiters.foldl (fun t k =>
    match t.refOf k with
    | some c => t.fwaitAgain c h fenceMet
    | none => t) s).armedCheck slot h

/-- The place that MON_ARM_ADDR names in a context, where it may be watched (08 R258); `none` inside where its host translation is awaited. -/
def State.armPlace (s : State) (ctx va : Nat) : Option (Option Place) :=
  let x := if va < 2 ^ 51 then s.xlPlinth ctx va .read else s.xlAperture ctx va .read
  match x with
  | .ok p => if va % 8 = 0 ∧ ¬ s.inRelief 16 ctx va .read then some (some p) else none
  | .wait => some none
  | _ => none

/-- MON_ARM: MON_ARM_CTL.GO arms a slot for the host (08 R258). An address that is not a multiple of 8 is refused as one that does not translate (log 27). -/
def opMonArm (src : Nat) (v : Word) (h : HostAnswer) (s : State) : State :=
  let slot := Fld.monArmCtl_slot.get v
  let ctx := Fld.monArmCtl_context.get v
  let source := Fld.monArmCtl_source.get v
  let va := s.fld monPage .monArmAddr Fld.monArmAddr_addr
  let place := (s.armPlace ctx va).join
  let ok := fun (t : State) =>
    (s.ctx ctx).state == 1 && decide (32 ≤ source) && place.isSome && ((t.mon slot).bound.isNone || (t.mon slot).bound == place)
  if ¬ v.bit 63 then s.trigger src 0x4F0 .monArmCtl v id
  else if (s.ctx ctx).state = 1 ∧ s.armPlace ctx va = some none then s
  else
    s.triggerIf src 0x4F0 .monArmCtl v ok fun t =>
      let m := t.mon slot
      let fresh := m.bound.isNone
      (t.setMon slot { m with
        bound := place, armed := true, target := s.fld monPage .monArmTarget Fld.monArmTarget_target, source := source
        armCtx := ctx, ctx := if fresh then ctx else m.ctx, va := if fresh then va else m.va }).armedCheck slot h

/-! ## Registers of the synchronisation page (08 R241, R244, R266, R566) -/

/-- SYNC_MAPINV: a context's cached map entries are dropped; a virtual function names only contexts of its own partition (08 R241, R266). -/
def opSyncMapinv (src : Nat) (core : Nat) (v : Word) (s : State) : State :=
  let ctx := Fld.syncMapinv_context.get v
  let mine := fun (t : State) =>
    match t.funcPart src with
    | some p => (t.ctx ctx).state != 0 && (t.ctx ctx).part == p
    | none => true
  s.triggerIf src (0x1003 + 0x100 * core) .syncMapinv v mine fun t =>
    if v.bit 63 then
      let k := t.core core
      t.setCore core { k with mapCache := k.mapCache.filter fun e => e.1 / 2 ^ 20 != ctx }
    else t

/-- SIG_DATA_WRITE: sets the value and flag of the counter that SIG_IDX names (08 R241, R267). -/
def opSigDataWrite (src : Nat) (core : Nat) (v : Word) (s : State) : State :=
  let page := 0x1003 + 0x100 * core
  s.offer src page Reg.sigData.off 8 fun t =>
    let phys := t.fld (syncPage core) .sigIdx Fld.sigIdx_counter
    (t.logWrite src page Reg.sigData.off v (t.counter core phys) true).setCounter core phys v

/-- BAR_CTL_RESET: both rounds of the unit that BAR_IDX names are discarded, its numbering restarts at 0, and stalled entries arrive at once (08 R566). -/
def opBarCtlReset (src : Nat) (core : Nat) (v : Word) (s : State) : State :=
  s.trigger src (0x1003 + 0x100 * core) .barCtl v fun t =>
    if v.bit 0 then
      let u := t.fld (syncPage core) .barIdx Fld.barIdx_unit
      (t.setBar core u { t.bar core u with rounds := [], next := 0, done := 0, lost := [] }).barDrain core u
    else t

/-! ## Watchdogs (08 R263, R264) -/

/-- The blocks that the engine watchdog watches. -/
def Block.watched : Block → Bool
  | .fence .. => false
  | _ => true

/-- ENGINE_WATCHDOG: a cell blocked too long in one SIG WAIT, ADDB, BAR, FWAIT, TKOP wait or MVBC makes its engine trap with WATCHDOG (08 R263). -/
def opEngineWatchdog (c : CellRef) (s : State) : State :=
  let a := s.at c
  let on := s.fld (syncPage c.core) .syncWd Fld.syncWd_engMs != 0
  let pc := match a.cell.phase with
    | .blocked b => if b.watched then some a.cell.pc else none
    | _ => (a.fl.mq.find? fun o => match o.kind with
        | .mvbc .. => o.started
        | _ => false).map fun o => o.pc
  match pc with
  | some p =>
    if on && s.cellBlocked c && !s.board.thrReq.testBit (c.core / 4) then
      (s.bumpCore c.core (syncPage c.core) .syncCnt Fld.syncCnt_engWd 1).trapCell c 4 0 p
    else s
  | none => s

/-- An engine's cells blocked on a discarded round of a unit, or on a stalled entry of it. -/
def State.barVictims (s : State) (core u : Nat) (stalled : List (Nat × Nat × Nat)) : List Nat :=
  let x := s.bar core u
  (coreCells core).filter fun k =>
    match (s.cell k).phase with
    | .blocked (.barSync p bid inst) =>
      p == u && (match s.engineAt core (k % 256) with
        | some e =>
          stalled.contains (e, bid, inst) ||
            (match (s.engine core e).roundOf bid inst with
             | some r => x.lost.contains r
             | none => false)
        | none => false)
    | .blocked (.barWait p ticket) => p == u && x.lost.contains ticket
    | _ => false

/-- BARRIER_WATCHDOG: a round open too long: both open rounds are discarded, and every engine blocked on them or stalled traps with WATCHDOG; it counts only while the unit's context is resident (08 R263, R264, 12 R381). An engine stalled in a BAR ARRIVE alone traps at its cell 0. -/
def opBarrierWatchdog (core unit : Nat) (s : State) : State :=
  let x := s.bar core unit
  let on := s.fld (syncPage core) .syncWd Fld.syncWd_barMs != 0
  match x.rounds.getLast? with
  | some newest =>
    if on && s.serving && !s.board.thrReq.testBit (core / 4) && (match x.ctx with
        | some n => (s.core core).residents.contains n
        | none => false) then
      let s1 := s.setBar core unit { x with
        rounds := [], next := (newest.1 + 1) % 2 ^ 32, stalled := [], lost := x.lost ++ x.rounds.map Prod.fst, lostLow := newest.1 % 65536 }
      let s2 := s1.bumpCore core (syncPage core) .syncCnt Fld.syncCnt_barWd 1
      let s3 := (s2.barVictims core unit x.stalled).foldl (fun t k =>
        match t.refOf k with
        | some c => match (t.cell k).phase with
          | .blocked _ => t.trapCell c 4 0 (t.cell k).pc
          | _ => t
        | none => t) s2
      x.stalled.foldl (fun t e =>
        let g := t.engine core e.1
        if g.formed && g.stopping == 0 && (g.state == 1 || g.state == 5) then t.trapCell ⟨core, e.1, 0⟩ 4 0 (t.cell (t.cellKey ⟨core, e.1, 0⟩)).pc else t) s3
    else s
  | none => s

/-! ## Meanings: each command answers the next state that its operation gives. -/

/-- The meaning of SIG_ADD. -/
def execSigAdd (c : CellRef) (w : Word) (s : State) : Host.Outcome State Fault Refusal := .next (opSigAdd c w s)
/-- The meaning of SIG_WAIT. -/
def execSigWait (c : CellRef) (w : Word) (s : State) : Host.Outcome State Fault Refusal := .next (opSigWait c w s)
/-- The meaning of SIG_READ. -/
def execSigRead (c : CellRef) (w : Word) (s : State) : Host.Outcome State Fault Refusal := .next (opSigRead c w s)
/-- The meaning of SIG_ADDB. -/
def execSigAddb (c : CellRef) (w : Word) (s : State) : Host.Outcome State Fault Refusal := .next (opSigAddb c w s)
/-- The meaning of SIG_WAIT_SATISFIED. -/
def execSigWaitSatisfied (c : CellRef) (s : State) : Host.Outcome State Fault Refusal := .next (opSigWaitSatisfied c s)
/-- The meaning of ADDB_ADMITTED. -/
def execAddbAdmitted (c : CellRef) (s : State) : Host.Outcome State Fault Refusal := .next (opAddbAdmitted c s)
/-- The meaning of BAR_SYNC. -/
def execBarSync (c : CellRef) (w : Word) (s : State) : Host.Outcome State Fault Refusal := .next (opBarSync c w s)
/-- The meaning of BAR_ARRIVE. -/
def execBarArrive (c : CellRef) (w : Word) (s : State) : Host.Outcome State Fault Refusal := .next (opBarArrive c w s)
/-- The meaning of BAR_WAIT. -/
def execBarWait (c : CellRef) (w : Word) (s : State) : Host.Outcome State Fault Refusal := .next (opBarWait c w s)
/-- The meaning of BARRIER_ARRIVAL. -/
def execBarrierArrival (core eng bid : Nat) (s : State) : Host.Outcome State Fault Refusal := .next (opBarrierArrival core eng bid s)
/-- The meaning of FWAIT. -/
def execFwait (c : CellRef) (w : Word) (h : HostAnswer) (s : State) : Host.Outcome State Fault Refusal := .next (opFwait c w h s)
/-- The meaning of FWAIT_POLL. -/
def execFwaitPoll (c : CellRef) (h : HostAnswer) (s : State) : Host.Outcome State Fault Refusal := .next (opFwaitPoll c h s)
/-- The meaning of FWAIT_TIMEOUT. -/
def execFwaitTimeout (c : CellRef) (h : HostAnswer) (s : State) : Host.Outcome State Fault Refusal := .next (opFwaitTimeout c h s)
/-- The meaning of MONITOR_WAKE. -/
def execMonitorWake (slot : Nat) (h : HostAnswer) (s : State) : Host.Outcome State Fault Refusal := .next (opMonitorWake slot h s)
/-- The meaning of MON_ARM. -/
def execMonArm (src : Nat) (v : Word) (h : HostAnswer) (s : State) : Host.Outcome State Fault Refusal := .next (opMonArm src v h s)
/-- The meaning of SYNC_MAPINV. -/
def execSyncMapinv (src : Nat) (core : Nat) (v : Word) (s : State) : Host.Outcome State Fault Refusal := .next (opSyncMapinv src core v s)
/-- The meaning of SIG_DATA_WRITE. -/
def execSigDataWrite (src : Nat) (core : Nat) (v : Word) (s : State) : Host.Outcome State Fault Refusal := .next (opSigDataWrite src core v s)
/-- The meaning of BAR_CTL_RESET. -/
def execBarCtlReset (src : Nat) (core : Nat) (v : Word) (s : State) : Host.Outcome State Fault Refusal := .next (opBarCtlReset src core v s)
/-- The meaning of ENGINE_WATCHDOG. -/
def execEngineWatchdog (c : CellRef) (s : State) : Host.Outcome State Fault Refusal := .next (opEngineWatchdog c s)
/-- The meaning of BARRIER_WATCHDOG. -/
def execBarrierWatchdog (core unit : Nat) (s : State) : Host.Outcome State Fault Refusal := .next (opBarrierWatchdog core unit s)

end Sys2Proof.Machine
end

