-- ==== Sys2Proof/Machine/Plinth.lean ====
section
/-! DEFINITION. The Plinth's retirement points and fence writes (09 R283 to R286, 11 R354, R356, 10 R321, 08 R249 to R253). -/

namespace Sys2Proof.Machine

/-! ## Records of the queue-fetch pages and of the ATU (09 R567, 11 R373, 10 R321, R335) -/

/-- The partition of a context, when one is named. -/
def State.ctxPart (s : State) (ctx : Nat) : Nat := (s.ctx ctx).part

/-- An event of a queue is recorded in the physical function's queue-fetch copy and in its partition's (09 R567, 11 R373). -/
def State.qfEvent (s : State) (part q cause seq : Nat) : State :=
  [0, part + 1].foldl (fun t f =>
    let pk := pageKey f 0x403
    let t1 := t.wr (pk + Reg.qfErrinfo.off)
      (Word.ofNat (Fld.qfErrinfo_queue.at q + Fld.qfErrinfo_cause.at cause + Fld.qfErrinfo_time.at s.time))
    (t1.wr (pk + Reg.qfErrseq.off) (Word.ofNat seq)).bump pk .qfCnt Fld.qfCnt_bad 1) s

/-- A fetched command counts in both copies (11 R373). -/
def State.qfCount (s : State) (part : Nat) : State :=
  [0, part + 1].foldl (fun t f => t.bump (pageKey f 0x403) .qfCnt Fld.qfCnt_commands 1) s

/-- An event that the ATU records and reports: ATU_FLT_INFO, its source, and a Patina entry naming the address and the context (10 R316, R321). -/
def State.atuEvent (s : State) (addr ctx agent outcome : Nat) : State :=
  let s1 := (s.atuFault addr ctx agent outcome).atuRaise
  s1.logEvent 5 (some (s.ctxPart ctx)) 0x200 outcome addr (packFields [(2, ctx), (1, agent)])

/-- A queue stopped or a fence write dropped counts in ATU_ERR_CNT.QUEUE besides (10 R321). -/
def State.atuQueueEvent (s : State) (addr ctx agent outcome : Nat) : State :=
  (s.bump (regKey 0x200 0) .atuErrCnt Fld.atuErrCnt_queue 1).atuEvent addr ctx agent outcome

/-! ## Queues and commands -/

/-- A fetched and unretired command. -/
def State.cmd? (s : State) (q seq : Nat) : Option Cmd := (s.queue q).cmds.find? seq

/-- Replacing a fetched command. -/
def State.setCmd (s : State) (q seq : Nat) (c : Cmd) : State :=
  let x := s.queue q
  s.setQueue q { x with cmds := x.cmds.insert seq c }

/-- The retired index: the lowest unretired command begins there; with none, everything fetched below the tail (09 R283). -/
def Queue.headNow (x : Queue) : Nat :=
  match x.cmds with
  | [] => min x.fetched x.tail
  | e :: _ => e.1

/-- The fence write that a retirement owes (09 R285). -/
def Cmd.fenceOp (c : Cmd) (x : Queue) (q seq code : Nat) : FenceOp :=
  { ctx := x.ctx, host := c.fhost, va := c.faddr, code := code, value := c.fval, origin := 2
    raise := if x.irqEn then some x.irq else none, qs := some (q, seq), flist := none }

/-- A fence operation waits to be performed. -/
def State.pushFence (s : State) (op : FenceOp) : State := { s with pl := { s.pl with fenceOps := s.pl.fenceOps ++ [op] } }

/-- The users that belong to a command: its wait or pre-translation, and its streams. -/
def AtsUser.ofCmd (u : AtsUser) (q seq : Nat) : Bool :=
  match u with
  | .command a b => a == q && b == seq
  | .stream a b _ => a == q && b == seq
  | _ => false

/-- A command's waits on page requests are abandoned; a group not yet sent that has no waiter left is never sent (09 R288, 10 R327, R333). -/
def State.abandonGroups (s : State) (q seq : Nat) : State :=
  { s with pl := { s.pl with
      groups := (s.pl.groups.map fun g => { g with waiters := g.waiters.filter fun w => !w.user.ofCmd q seq }).filter fun g =>
        g.tag.isSome || !g.waiters.isEmpty } }

/-- What a retired command leaves: its ATC locks (10 R328), its place among the commands that wait for an engine (11 R358), and its waits on page requests. -/
def State.releaseCmd (s : State) (q seq : Nat) (c : Cmd) : State :=
  let s1 := if c.locks.isEmpty then s else (s.setCmd q seq { c with resv := 0, locks := [] }).relock
  let s2 := (List.range 16).foldl (fun t k =>
    let r := t.core k
    if r.waiting.contains (q, seq) then t.setCore k { r with waiting := r.waiting.erase (q, seq) } else t) s1
  s2.abandonGroups q seq

/-- A command leaves its queue: how it ended is kept, and HEAD follows (09 R283, R284). Endings: 1 by its own outcome, 2 by an abort or a destruction (R287). -/
def State.endCmd (s : State) (q seq how : Nat) : State :=
  let x := s.queue q
  let y := { x with cmds := x.cmds.erase seq, ended := x.ended.insert seq how }
  s.setQueue q { y with head := y.headNow }

/-- A retirement: the command leaves, and its fence write waits to be performed (09 R284, R285); one with LINK_LOST is counted (18 R542). -/
def State.retireOne (s : State) (q seq code how : Nat) : State :=
  match s.cmd? q seq with
  | none => s
  | some c =>
    let s1 := if code = 14 then s.bump rstPage .hlStat Fld.hlStat_lostCmds 1 else s
    ((s1.releaseCmd q seq c).endCmd q seq how).pushFence (c.fenceOp (s.queue q) q seq code)

/-- The SERIAL commands, not yet started, that fail with a command (11 R354). -/
def Queue.dependents (x : Queue) (seq : Nat) : List Nat :=
  (x.cmds.filter fun e => e.2.serial && decide (e.2.state ≠ .running) && e.2.before.contains seq).map Prod.fst

/-- A command retires by its own outcome; with an error, the SERIAL commands that were fetched while it was unretired retire at once with its code (09 R284 to R286, 11 R354). -/
def State.retire (s : State) (q seq code : Nat) : State :=
  let s1 := s.retireOne q seq code 1
  if code = 0 then s1 else ((s.queue q).dependents seq).foldl (fun t n => t.retireOne q n code 1) s1

/-- An agent reports a command's outcome; the first report stands (09 R284). -/
def State.report (s : State) (q seq code : Nat) : State :=
  match s.cmd? q seq with
  | some c => if c.report.isNone then s.setCmd q seq { c with report := some code } else s
  | none => s

/-- COMPLETION_REPORT: a report reaches the queue's retirement point, which retires the command with it (09 R284). -/
def opCompletionReport (q seq : Nat) (s : State) : State :=
  if ¬ s.serving then s
  else
    match s.cmd? q seq with
    | some c =>
      match c.report with
      | some code => s.retire q seq code
      | none => s
    | none => s

/-! ## Fence writes (09 R285, R291, 11 R356) -/

/-- What becomes of a fence operation's address: a place, a host translation to be asked for or being fetched again, or none. -/
inductive FenceAt where
  | place (p : Place)
  | ask (f pasid : Nat)
  | wait
  | none
  deriving DecidableEq, Repr

/-- The place of a fence word: a host word through the ATC with the write grant, a device word on a stack-backed page with the write right, and for a fence-list entry also a loaded aperture with W (09 R271, 11 R356, 10 R321). -/
def State.fenceAt (s : State) (op : FenceOp) : FenceAt :=
  let f := s.ctxFunc op.ctx
  let pasid := (s.ctx op.ctx).pasid
  if op.va % 8 ≠ 0 then .none
  else if op.host then
    match s.atcLook f pasid op.va true with
    | some a => .place (.host a)
    | none => .ask f pasid
  else if op.flist.isSome ∧ 2 ^ 51 ≤ op.va ∧ op.va < 2 ^ 52 then
    match s.xlAperture op.ctx op.va .write with
    | .ok p => .place p
    | .wait => .wait
    | _ => .none
  else
    match s.xlPlinth op.ctx op.va .write with
    | .ok (.stack a) => if s.inRelief 16 op.ctx op.va .write then .none else .place (.stack a)
    | _ => .none

/-- The raise that follows a fence write, or stands where it would have been made (09 R285). -/
def State.fenceRaise (s : State) (op : FenceOp) : State :=
  match op.raise with
  | some n => s.irqRaise n (some (s.ctxPart op.ctx))
  | none => s

/-- A fence that fails its check is not written: it is counted, recorded and reported (10 R321, 11 R356, R373, 09 R291). -/
def State.fenceDrop (s : State) (op : FenceOp) : State :=
  let s1 := s.atuQueueEvent op.va op.ctx 21 7
  let s2 := match op.flist, op.qs with
    | some i, _ => s1.qfEvent (s.ctxPart op.ctx) 0 5 i
    | none, some (q, n) => s1.qfEvent (s.ctxPart op.ctx) q 2 n
    | none, none => s1
  s2.fenceRaise op

/-- A host fence word is written through to host memory in the function's outbound stream (08 R253). -/
def State.writeThrough (s : State) (ctx : Nat) (p : Place) : State :=
  match p with
  | .host a =>
    match s.hline? (a / 64) with
    | some l => (s.setHline (a / 64) { l with dirty := false }).send (s.ctxFunc ctx) (.write none (a / 64 * 64) (bytesOf 64 l.data.toNat))
    | none => s
  | _ => s

/-- A fence operation is performed at its place as one atomic operation (08 R250 to R253); none while it must wait. On a poisoned line it writes nothing (14 R438). -/
def State.fencePerform (s : State) (op : FenceOp) (p : Place) (h : HostAnswer) : Option State :=
  match s.atomicReady h p 8 with
  | none => none
  | some (t, .error _) => some t
  | some (t, .ok old) =>
    let v := if op.code = 0 then signalWord old op.value else errorWord old op.code
    let t1 := (t.atomicWrite p 8 v 0).writeThrough op.ctx p
    some (if op.code = 0 then t1.noteSignal old op.value op.ctx op.origin op.va else t1)

/-- Error writes of one queue that are still owed come before this one (09 R288 step 5). -/
def State.fenceBehind (s : State) (op : FenceOp) : Bool :=
  match op.qs with
  | none => false
  | some (q, n) =>
    let earlier := fun (o : FenceOp) => o.code != 0 && (match o.qs with
      | some (a, b) => a == q && decide (b < n)
      | none => false)
    op.code != 0 && (s.pl.fenceOps.any earlier || s.pl.atsReqs.any fun r => match r.user with
      | .fence o => earlier o
      | _ => false)

/-- A command's fence waits until every host line that the context's engines wrote has been granted ownership (07 R217). -/
def State.hostWritesOpen (s : State) (op : FenceOp) : Bool :=
  op.origin == 2 && s.pl.hostWriters.any fun e => e.2.contains op.ctx && (match s.mem.hlc.find? e.1 with
    | some l => l.early != 0
    | none => false)

/-- The i-th waiting fence operation is taken up: performed, dropped, or turned into an ATS request (09 R285, 10 R321). A host word of a partition whose function is in the TDISP state ERROR is dropped and counted in HP_ERR (16 R476; log 41). -/
def State.fenceStep (s : State) (i : Nat) (h : HostAnswer) (err : Bool) : State :=
  match s.pl.fenceOps[i]? with
  | none => s
  | some op =>
    if ¬ s.serving ∨ (op.code != 0) ≠ err ∨ s.fenceBehind op ∨ s.hostWritesOpen op then s
    else
      let rest := fun (t : State) => { t with pl := { t.pl with fenceOps := s.pl.fenceOps.eraseIdx i } }
      let dev := fun (t : State) => if op.host ∨ 2 ^ 51 ≤ op.va then t else t.xlFill 16 op.ctx op.va .write 21
      if op.host ∧ (s.part (s.ctxPart op.ctx)).tdisp = 3 then ((rest s).bump plPage .hpErr Fld.hpErr_refused 1).fenceRaise op
      else match s.fenceAt op with
      | .wait => s
      | .none => (rest (dev s)).fenceDrop op
      | .ask f pasid => (rest s).atsSend f pasid op.va true (.fence op)
      | .place p =>
        let used := fun (t : State) => if op.host then t.atcTouch (s.ctxFunc op.ctx) (s.ctx op.ctx).pasid op.va else t
        match (used (dev s)).fencePerform op p h with
        | none => s
        | some t => (rest t).fenceRaise op

/-! ## Meanings: each command answers the next state that its operation gives. -/

/-- The meaning of COMPLETION_REPORT. -/
def execCompletionReport (q seq : Nat) (s : State) : Host.Outcome State Fault Refusal := .next (opCompletionReport q seq s)

end Sys2Proof.Machine
end

