-- ==== Sys2Proof/Machine/Chisel.lean ====
section
/-! DEFINITION. Chisel engines: descriptors, streams, faults and page requests, pre-emption and resumption (11 R361 to R368, 10 R322 to R332, 12 R388 to R390). -/

namespace Sys2Proof.Machine

/-! ## COPY commands and descriptors (11 R352, R361, R362) -/

/-- A BODY field of a command: offset in the entry and bytes (11 R352). -/
def Cmd.bodyAt (c : Cmd) (off n : Nat) : Nat := nbits c.body (8 * (off - 0x28)) (8 * n)
/-- ENGMASK of an ENGINE command (11 R352). -/
def Cmd.engMask (c : Cmd) : Nat := c.bodyAt 0x28 8
/-- CORE of an ENGINE command. -/
def Cmd.engCore (c : Cmd) : Nat := c.bodyAt 0x30 1
/-- DLIST. -/
def Cmd.dlist (c : Cmd) : Nat := c.bodyAt 0x28 8
/-- DCOUNT. -/
def Cmd.dcount (c : Cmd) : Nat := c.bodyAt 0x30 2
/-- CLASS: 0 CI, 1 CO, 2 CD. -/
def Cmd.cls (c : Cmd) : Nat := c.bodyAt 0x32 1
/-- CFLAGS. -/
def Cmd.cflags (c : Cmd) : Nat := c.bodyAt 0x33 1
/-- INLINE. -/
def Cmd.inlined (c : Cmd) : Bool := c.cflags.testBit 0
/-- DLHOST. -/
def Cmd.dlhost (c : Cmd) : Bool := c.cflags.testBit 1

/-- The class of a Chisel engine (11 R361, R374). -/
def chClass (n : Nat) : Nat := if n < 8 then 0 else if n < 16 then 1 else 2
/-- The engines of a class. -/
def chEngines (cls : Nat) : List Nat := (List.range 20).filter fun n => chClass n == cls
/-- The page of a Chisel engine. -/
def chPage (n : Nat) : Nat := regKey (0x300 + n) 0

/-- An address keeps the rules of R351: bits [63:57] of a host virtual address are zero, a device virtual address lies in the device half. -/
def vaRule (host : Bool) (a : Nat) : Bool := if host then decide (a < 2 ^ 57) else decide (a < 2 ^ 51)

/-- The descriptor in 64 bytes (11 R362). -/
def chDesc (x : Nat) : ChDesc :=
  { src := nbits x 0 64, dst := nbits x 64 64, rowBytes := nbits x 128 32, rows := nbits x 160 32, sStride := nbits x 192 64
    dStride := nbits x 256 64, tileLog2 := nbits x 320 8, zero := x.testBit 328, serial := x.testBit 329 }

/-- A descriptor passes its checks for a class (11 R362). The last byte of each side obeys the address rule too (log 28). -/
def chDescOk (cls x : Nat) : Bool :=
  let d := chDesc x
  let last := fun (a st : Nat) => a + (d.rows - 1) * st + d.rowBytes - 1
  nbits x 330 182 == 0 && d.rowBytes != 0 && between 1 d.rows (2 ^ 24) && decide (d.rows * d.rowBytes ≤ 2 ^ 48) && between 12 d.tileLog2 24
    && (!d.zero || (cls == 2 && d.src == 0)) && vaRule (cls == 1) (last d.dst d.dStride) && (d.zero || vaRule (cls == 0) (last d.src d.sStride))

/-- The bytes of a descriptor (11 R364). -/
def ChDesc.total (d : ChDesc) : Nat := d.rows * d.rowBytes
/-- The tiles of a descriptor. -/
def ChDesc.ntiles (d : ChDesc) : Nat := (d.total + 2 ^ d.tileLog2 - 1) / 2 ^ d.tileLog2
/-- The source address of byte `i`. -/
def ChDesc.srcOf (d : ChDesc) (i : Nat) : Nat := d.src + i / d.rowBytes * d.sStride + i % d.rowBytes
/-- The destination address of byte `i`. -/
def ChDesc.dstOf (d : ChDesc) (i : Nat) : Nat := d.dst + i / d.rowBytes * d.dStride + i % d.rowBytes
/-- The bytes of tiles `a` to `b - 1`. -/
def ChDesc.bytesOf (d : ChDesc) (a b : Nat) : List Nat :=
  let lo := a * 2 ^ d.tileLog2
  let hi := min d.total (b * 2 ^ d.tileLog2)
  (List.range (hi - lo)).map fun i => lo + i

/-! ## One side's access (10 R299, R304, R322, R568; 11 R341, R367; 18 R531) -/

/-- What an access of one byte found: a place, a host translation missing, or a failure. -/
inductive ChAt where
  | place (p : Place)
  | miss
  | fail (code : Nat)
  deriving DecidableEq, Repr

/-- The place of an address of one side of a context's command. -/
def State.chPlace (s : State) (ctx : Nat) (host : Bool) (va : Nat) (write : Bool) : ChAt :=
  if host then
    match s.atcLook (s.ctxFunc ctx) (s.ctx ctx).pasid va write with
    | some a => .place (.host a)
    | none => .miss
  else
    match s.xlPlinth ctx va (if write then .write else .read) with
    | .ok p => .place p
    | .poison _ => .fail 7
    | _ => .fail 6

/-- A byte of host memory as RdCurr returns it: the host-line cache's where it owns the line, else the host's answer; none while it has not returned; a poisoned completion is ECC_UNCORR, a failed request LINK_LOST (11 R341, 18 R531). -/
def State.hostByte (s : State) (h : HostAnswer) (a : Nat) : Option (Except Nat Byte) :=
  let own := match s.hline? (a / 64) with
    | some l => if l.owned then some (l.data, l.poison) else none
    | none => none
  match own with
  | some (d, p) => some (if p then .error 7 else .ok (BitVec.ofNat 8 (d.toNat / 256 ^ (a % 64))))
  | none =>
    if h.failed.contains (a / 64) then some (.error 14)
    else if s.linkUp then
      (hostLineOf h (a / 64)).map fun x => if x.2 then .error 7 else .ok (BitVec.ofNat 8 (x.1.toNat / 256 ^ (a % 64)))
    else none

/-- A source byte as a non-allocating snooping read gives it; none while it must wait (07 R220 to R222, 11 R367). -/
def State.chByte (s : State) (h : HostAnswer) (p : Place) : Option (Except Nat Byte) :=
  match p with
  | .stack a =>
    if ¬ s.mem.free (a / 64) then none
    else if s.mem.homePoison (a / 64) then some (.error (s.poisonCode a))
    else some (.ok (s.mem.homeByte a))
  | .bank k off => some (if (s.bank k).poisoned (off / 64) then .error 7 else .ok ((s.bank k).data.read off))
  | .host a => s.hostByte h a
  | .arena _ _ => some (.error 6)

/-- A whole host line as RdOwn gives it, with the bytes the host-line cache accepted early on top, and whether it is poisoned; none while it has not come; a failed request is LINK_LOST (11 R341, 18 R531). -/
def State.hostWhole (s : State) (h : HostAnswer) (line : Nat) : Option (Except Nat (Line × Bool)) :=
  match s.hline? line with
  | some l =>
    if l.owned then some (.ok (l.data, l.poison))
    else if h.failed.contains line then some (.error 14)
    else if s.linkUp then (hostLineOf h line).map fun x => .ok (mergeLine x.1 l.data l.early, x.2)
    else none
  | none =>
    if h.failed.contains line then some (.error 14)
    else if s.linkUp then (hostLineOf h line).map fun x => .ok x
    else none

/-- The device lines that hold some places. -/
def placeLines (ps : List Place) : List Nat :=
  (ps.filterMap fun p => match p with
    | .stack a => some (a / 64)
    | _ => none).eraseDups

/-- A destination can be written now: a stack line that is free, a host line while the link is up, with its other bytes at hand where the write is partial (11 R341). -/
def State.chDstReady (s : State) (h : HostAnswer) (p : Place) (mask : Nat) : Bool :=
  match p with
  | .stack a => s.mem.free (a / 64)
  | .host a => mask == 2 ^ 64 - 1 || (s.hostWhole h (a / 64)).isSome
  | _ => true

/-- A granule is written by a non-allocating write, or leaves as a whole host line in the function's outbound stream: a partial write takes the line with RdOwn, merges, and writes it back, poisoned if it was (07 R220, R227, 11 R341, R366). The code is that of a refused partial write of poison (14 R438, 06 R200), or of a RdOwn that failed (18 R531). -/
def State.chStore (s : State) (ctx : Nat) (h : HostAnswer) (g : Place) (mask : Nat) (data : Line) : State × Nat :=
  match g with
  | .stack a =>
    let r := s.homeWrite (a / 64) mask data
    (r.1, if r.2 then 0 else 7)
  | .bank k off =>
    let b := (s.bank k).clearResv off 64 none
    let r := b.writeGranule (off / 64) mask data
    (s.setBank k r.1, if r.2 then 0 else 7)
  | .host a =>
    let line := a / 64
    let gone := { s with mem := { s.mem with hlc := s.mem.hlc.erase line }, pl := { s.pl with hostWriters := s.pl.hostWriters.put [] line [] } }.clearHostResv line 0x10000
    let put := fun (d : Line) (p : Bool) => gone.send (s.ctxFunc ctx) (.write none (line * 64) (bytesOf 64 d.toNat) p)
    if mask = 2 ^ 64 - 1 then (put data false, 0)
    else
      match s.hostWhole h line with
      | some (.ok (d, p)) => (put (mergeLine d data mask) p, 0)
      | some (.error c) => (s, c)
      | none => (s, 14)
  | .arena _ _ => (s, 6)

/-- What moving bytes came to: writes whose bytes are at hand, the first failure, and whether something must be waited for. -/
structure ChPlan where
  writes : List (Place × Byte)
  fail : Nat := 0
  wait : Bool := false

/-- The plan of a stream's bytes (11 R362, R366, R367). -/
def State.chPlan (s : State) (h : HostAnswer) (ctx cls : Nat) (d : ChDesc) (is : List Nat) : ChPlan :=
  is.foldr (fun i (p : ChPlan) =>
    let src : Option (Except Nat Byte) :=
      if d.zero then some (.ok 0)
      else
        match s.chPlace ctx (cls == 0) (d.srcOf i) false with
        | .place x => s.chByte h x
        | .miss => none
        | .fail c => some (.error c)
    match src, s.chPlace ctx (cls == 1) (d.dstOf i) true with
    | some (.error c), _ => { p with fail := c }
    | _, .fail c => { p with fail := c }
    | some (.ok b), .place x => { p with writes := (x, b) :: p.writes }
    | _, _ => { p with wait := true }) { writes := [] }

/-- The places a descriptor's bytes are read from. -/
def State.chSources (s : State) (ctx cls : Nat) (d : ChDesc) (is : List Nat) : List Place :=
  if d.zero then []
  else is.filterMap fun i =>
    match s.chPlace ctx (cls == 0) (d.srcOf i) false with
    | .place x => some x
    | _ => none

/-- The writes with the choices that the spec leaves open: bytes of an overlap of source and destination are unspecified, and of several writes of one byte any may come last (11 R366, R367). -/
def chOpen (free : Nat → Nat) (srcs : List Place) (ws : List (Place × Byte)) : List (Place × Byte) :=
  let xs := ws.mapIdx fun j w => (j, w)
  (xs.filter fun x => free (2 * x.1) % 2 == 1 || !((xs.take x.1).any fun y => y.2.1 == x.2.1)).map fun x =>
    (x.2.1, if srcs.contains x.2.1 then BitVec.ofNat 8 (free (2 * x.1 + 1)) else x.2.2)

/-- How many bytes a mask names. -/
def maskSize (mask : Nat) : Nat := ((List.range 64).filter mask.testBit).length

/-- The granules of a write list are stored; with `cut`, each is old or new by a free choice. The code is the first refusal's, and the last part how many bytes were written (11 R366, R374, 09 R288, R289). -/
def State.chApply (s : State) (ctx : Nat) (h : HostAnswer) (cut : Bool) (ws : List (Place × Byte)) : State × Nat × Nat :=
  let gs := gatherPlaces ws
  let r := (gs.mapIdx fun j g => (j, g)).foldl (fun (r : State × Nat × Nat) x =>
    if cut && Config.freeNat (s.draws + x.1) % 2 == 0 then r
    else
      let w := r.1.chStore ctx h x.2.1 x.2.2.1 (BitVec.ofNat 512 x.2.2.2)
      (w.1, if r.2.1 = 0 then w.2 else r.2.1, if w.2 = 0 then r.2.2 + maskSize x.2.2.1 else r.2.2)) (s, 0, 0)
  (r.1.drew gs.length, r.2)

/-! ## Streams (11 R365, R366, R368) -/

/-- The key of a stream slot. -/
def streamKey (n slot : Nat) : Nat := 16 * n + slot

/-- The stream in a slot. -/
def State.stream? (s : State) (n slot : Nat) : Option Stream := s.pl.streams.find? (streamKey n slot)

/-- Replacing a stream slot; a stream that is active makes its context resident (17 R516). -/
def State.setStream (s : State) (k : Nat) (x : Option Stream) : State :=
  match x with
  | some y => { s.noteUse y.ctx with pl := { s.pl with streams := s.pl.streams.insert k y } }
  | none => { s with pl := { s.pl with streams := s.pl.streams.erase k } }

/-- Active streams of an engine. -/
def State.activeStreams (s : State) (n : Nat) : Nat := (s.pl.streams.filter fun e => e.1 / 16 == n).length

/-- A free slot of an engine. -/
def State.freeSlot (s : State) (n : Nat) : Option Nat := (List.range 16).find? fun k => (s.stream? n k).isNone

/-- A stream belongs to a command. -/
def Stream.ofCmd (x : Stream) (q seq : Nat) : Bool := x.q == q && x.seq == seq

/-- The bytes a stream has yet to move. -/
def Stream.rest (x : Stream) (d : ChDesc) : List Nat :=
  (d.bytesOf x.tiles d.ntiles).filter fun i => decide (x.pos ≤ i) && !x.ahead.contains i

/-- A stream that has moved some bytes: how far everything has been moved, and the tiles that this makes whole (11 R364, R366, R368). -/
def Stream.moved (x : Stream) (d : ChDesc) (is : List Nat) : Stream :=
  let all := x.ahead ++ is
  let pos := x.pos + ((List.range (d.total - x.pos)).takeWhile fun j => all.contains (x.pos + j)).length
  { x with pos := pos, ahead := all.filter fun i => decide (pos ≤ i)
           tiles := max x.tiles (if pos = d.total then d.ntiles else pos / 2 ^ d.tileLog2) }

/-- A stream that begins again at the first byte of the tile after the last whole one (11 R368, 12 R389). -/
def Stream.atTile (x : Stream) (tiles : Nat) : Stream :=
  { x with tiles := tiles, pos := (x.desc.map fun d => tiles * 2 ^ d.tileLog2).getD 0, ahead := [] }

/-- The device TLB fills as a stream's device accesses do, and failures are recorded (10 R308, R335). -/
def State.chFill (s : State) (n ctx cls : Nat) (d : ChDesc) (is : List Nat) : State :=
  let pages := fun (l : List Nat) => (l.map fun a => a / 0x2000000).eraseDups.map fun p => (l.find? fun a => a / 0x2000000 == p).getD 0
  let s1 := if cls = 0 ∨ d.zero then s else (pages (is.map d.srcOf)).foldl (fun t a => t.xlFill 16 ctx a .read n) s
  if cls = 1 then s1 else (pages (is.map d.dstOf)).foldl (fun t a => t.xlFill 16 ctx a .write n) s1

/-- Bytes that an engine has written are counted (11 R374). -/
def State.chBytes (s : State) (n bytes : Nat) : State := if bytes = 0 then s else s.bump (chPage n) .chCnt Fld.chCnt_bytes bytes

/-- A stream is cut: each granule of what it had left to write is old or new (09 R288 step 3, R289). -/
def State.cutStream (s : State) (h : HostAnswer) (k : Nat) (x : Stream) : State :=
  let s1 := match x.desc with
    | some d =>
      let r := s.chApply x.ctx h true (s.chPlan h x.ctx x.cls d (x.rest d)).writes
      r.1.chBytes (k / 16) r.2.2
    | none => s
  s1.setStream k none

/-- A saved stream's record in its context's stream table (12 R389): progress, command, class, state (0 free, 1 ready, 2 awaiting a response) and tag. -/
def Stream.record (x : Stream) (state tag : Nat) : List Byte :=
  bytesOf 8 (x.index % 65536 + (x.tiles % 2 ^ 40) * 65536 + 2 ^ 63) ++ bytesOf 8 x.seq ++ bytesOf 2 x.q ++ bytesOf 1 x.cls ++ bytesOf 1 state
    ++ bytesOf 2 tag ++ bytesOf 10 0

/-- A saved stream's record is written to its entry (12 R385, R389). -/
def State.putRecord (s : State) (x : Stream) (state tag : Nat) : State :=
  (s.homeWriteBytes ((s.ctx x.ctx).saveBase + 0x1000 + 32 * x.entry) (x.record state tag)).1

/-- Every stream of a command is cut or its saved record freed, and its page requests are abandoned (09 R288, 12 R391). -/
def State.cutStreams (s : State) (h : HostAnswer) (q seq : Nat) : State :=
  let s1 := (s.pl.streams.filter fun e => e.2.ofCmd q seq).foldl (fun t e => t.cutStream h e.1 e.2) s
  let s2 := (s1.pl.saved.filter fun x => x.ofCmd q seq).foldl (fun t x => t.putRecord x 0 0) s1
  ({ s2 with pl := { s2.pl with saved := s2.pl.saved.filter fun x => !x.ofCmd q seq } }).abandonGroups q seq

/-- A Chisel failure counts in its engine's page (11 R374). -/
def State.chCount (s : State) (n code : Nat) : State :=
  let f := if code = 6 then some Fld.chErr_prot else if code = 12 then some Fld.chErr_unresolved
    else if code = 7 ∨ code = 8 then some Fld.chErr_poison else none
  match f with
  | some x => s.bump (chPage n) .chErr x 1
  | none => s

/-- A command's stream fails: the command ends with the code, its other streams are cut, and the failure is reported (11 R363, R367, 10 R322, R324). -/
def State.chFail (s : State) (h : HostAnswer) (q seq n code : Nat) : State :=
  ((s.chCount n code).cutStreams h q seq).report q seq code

/-- The engine a command runs on, or the first of its class while none is chosen (log 29). -/
def Cmd.agent (c : Cmd) : Nat := c.chisel.getD (8 * c.cls)

/-! ## Page requests (10 R323 to R326) -/

/-- The page tags of a function that are in use, or that a late response may still name (10 R324, R326). -/
def State.tagsOf (s : State) (f : Nat) : List Nat :=
  ((s.pl.groups.filter fun g => g.f == f).filterMap fun g => g.tag) ++ (s.pl.lateTags.filter fun t => t.1 == f).map fun t => t.2

/-- A function may have another page request outstanding: it has fewer than the host's allocation allows (10 R326). -/
def State.pageRoom (s : State) (f : Nat) : Bool := decide ((s.tagsOf f).length < (s.cfg f).priAlloc)

/-- The group's request can be sent: no group of its region has one outstanding (10 R325). -/
def State.mayPage (s : State) (g : PageGroup) : Bool :=
  g.tag.isNone && !(s.pl.groups.any fun x => x.tag.isSome && x.f == g.f && x.pasid == g.pasid && x.region == g.region)

/-- The group's saved waiters hold its tag in their records (12 R389, R390). -/
def State.tagRecords (s : State) (g : PageGroup) (tag : Nat) : State :=
  (s.pl.saved.filter fun x => g.waiters.any fun r => r.user == .stream x.q x.seq x.index).foldl (fun t x => t.putRecord x 2 tag) s

/-- Groups that wait for a tag are sent, in order, while tags are free and the host's allocation allows it (10 R323, R326). -/
def State.sendGroups : Nat → Nat → State → State
  | 0, _, s => s
  | n + 1, f, s =>
    match s.pl.groups.find? fun g => g.f == f && s.mayPage g, (List.range 512).find? fun t => !(s.tagsOf f).contains t with
    | some g, some tag =>
      if ¬ s.pageRoom f then s
      else
        let s1 := (s.send f (.pageReq tag g.pasid (g.va / 4096 * 4096) g.read g.write)).bump (regKey 0x200 0) .atuCntPri Fld.atuCntPri_groups 1
        let s2 := { s1 with pl := { s1.pl with groups := s1.pl.groups.map fun x =>
          if x = g then { g with tag := some tag, sentWrite := g.write } else x } }
        State.sendGroups n f (s2.tagRecords g tag)
    | _, _ => s

/-- Groups of a function are sent while they can be. -/
def State.pageSend (s : State) (f : Nat) : State := State.sendGroups s.pl.groups.length f s

/-- A waiter's command: queue and sequence number. -/
def AtsUser.cmdOf (u : AtsUser) : Option (Nat × Nat) :=
  match u with
  | .stream q n _ => some (q, n)
  | .command q n => some (q, n)
  | _ => none

/-- The state a waiter's stream is in changes, active or saved. -/
def State.onStream (s : State) (u : AtsUser) (g : Stream → Stream) : State :=
  match u with
  | .stream q n i =>
    let f := fun (x : Stream) => if x.ofCmd q n && x.index == i then g x else x
    { s with pl := { s.pl with streams := s.pl.streams.map fun e => (e.1, f e.2), saved := s.pl.saved.map f } }
  | _ => s

/-- The saved stream a waiter names. -/
def State.savedOf (s : State) (u : AtsUser) : Option Stream :=
  match u with
  | .stream q n i => s.pl.saved.find? fun x => x.ofCmd q n && x.index == i
  | _ => none

/-- A waiter ends with a code: its command fails; a pre-translating command retires with it, and a command with a saved stream retires at once (10 R324, R328, 12 R390). -/
def State.endWaiter (s : State) (u : AtsUser) (code : Nat) : State :=
  match u.cmdOf with
  | none => s
  | some (q, n) =>
    match s.cmd? q n with
    | none => s
    | some c =>
      match u with
      | .stream _ _ _ =>
        if c.report.isSome then s
        else if (s.savedOf u).isSome then ((s.chCount c.agent code).cutStreams ⟨[], [], []⟩ q n).retire q n code
        else s.chFail ⟨[], [], []⟩ q n c.agent code
      | _ => s.retire q n code

/-- A fault sends a page request, joins a group, or waits for a tag; a fault that needs write and finds its region's group sent for read only has a group of its own, which waits for that one's response; while the function's PRI is off or has failed it ends at once (10 R323 to R326, R333). -/
def State.pageFault (s : State) (r : AtsReq) : State :=
  let cfg := s.cfg r.f
  if cfg.priFailure ∨ ¬ cfg.priEnable then s.endWaiter r.user 12
  else
    let same := fun (g : PageGroup) => g.f == r.f && g.pasid == r.pasid && g.region == r.va / 2 ^ 21
    let joins := fun (g : PageGroup) => same g && (g.tag.isNone || g.sentWrite || !r.write)
    let s1 := s.onStream r.user fun x => { x with asked := false, faulted := true }
    match s1.pl.groups.find? joins with
    | some g =>
      ({ s1 with pl := { s1.pl with groups := s1.pl.groups.map fun x =>
        if x = g then { g with waiters := g.waiters ++ [r], read := g.read || !r.write, write := g.write || r.write } else x } }).bump
        (regKey 0x200 0) .atuCntPri Fld.atuCntPri_coalesced 1
    | none =>
      let g : PageGroup := ⟨r.f, r.pasid, r.va / 2 ^ 21, r.va, none, !r.write, r.write, false, [r]⟩
      ({ s1 with pl := { s1.pl with groups := s1.pl.groups ++ [g] } }).pageSend r.f

/-- The group of a function with a tag. -/
def State.groupOf (s : State) (f tag : Nat) : Option PageGroup := s.pl.groups.find? fun g => g.f == f && g.tag == some tag

/-- A group's request succeeded: each waiter sends a new translation request; a saved stream becomes ready and sends its own when it resumes (10 R323 step 5, 12 R390). -/
def State.pageResume (s : State) (r : AtsReq) : State :=
  match s.savedOf r.user with
  | some x => (s.onStream r.user fun y => { y with faulted := false, retry := some (r.va, r.write) }).putRecord x 1 0
  | none =>
    (s.onStream r.user fun y => { y with faulted := false, asked := true }).atsSend r.f r.pasid r.va r.write r.user true

/-- Two descriptions of one group: a region has at most one group that is sent, and one that is not. -/
def PageGroup.same (a b : PageGroup) : Bool := a.f == b.f && a.pasid == b.pasid && a.region == b.region && a.tag == b.tag

/-- A group ends: it leaves, and each waiter that it still has resumes, or ends with FAULT_UNRESOLVED (10 R324, R325). -/
def State.endGroup (s : State) (g : PageGroup) (ok : Bool) : State :=
  let now := ((s.pl.groups.find? g.same).map fun x => x.waiters).getD []
  let s1 := { s with pl := { s.pl with groups := s.pl.groups.filter fun x => !g.same x } }
  now.foldl (fun t r => if ok then t.pageResume r else t.endWaiter r.user 12) s1

/-- The context and agent of a group's first waiter, for ATU_FLT_INFO. -/
def State.groupAgent (s : State) (g : PageGroup) : Nat × Nat :=
  match g.waiters.head? with
  | some r =>
    match r.user.cmdOf with
    | some (q, n) => ((s.queue q).ctx, ((s.cmd? q n).map Cmd.agent).getD 0)
    | none => (0, 0)
  | none => (0, 0)

/-- A group fails with an outcome: it is counted and recorded, and its waiters end; of one whose waiters have all been aborted only the tag is freed (10 R324, R333, R335). -/
def State.failGroup (s : State) (g : PageGroup) (outcome : Nat) (cnt : Fld) : State :=
  if g.waiters.isEmpty then s.endGroup g false
  else
    let a := s.groupAgent g
    ((s.bump (regKey 0x200 0) .atuErrCnt cnt 1).atuFault g.va a.1 a.2 outcome).endGroup g false

/-- PRG_RESPONSE: the response to a page request group; the late response to one that timed out is discarded, and its tag is free again (10 R324, R325, R333). -/
def opPrgResponse (f tag : Nat) (code : PrgCode) (s : State) : State :=
  if ¬ (s.serving ∧ s.linkUp) then s
  else
    match s.groupOf f tag with
    | none =>
      if s.pl.lateTags.contains (f, tag) then ({ s with pl := { s.pl with lateTags := s.pl.lateTags.erase (f, tag) } }).pageSend f else s
    | some g =>
      match code with
      | .success => (s.endGroup g true).pageSend f
      | .invalid => (s.failGroup g 1 Fld.atuErrCnt_failed).pageSend f
      | .failure =>
        let s1 := s.setCfg f { s.cfg f with priFailure := true }
        (s1.pl.groups.filter fun x => x.f == f).foldl (fun t x => t.failGroup x 2 Fld.atuErrCnt_failed) s1

/-- PRI_TIMEOUT: a page request unanswered within PRI_TIMEOUT fails its group; its tag is not used again before the late response has come (10 R324; log 91). -/
def opPriTimeout (f tag : Nat) (s : State) : State :=
  match s.groupOf f tag with
  | none => s
  | some g =>
    if s.serving && s.linkUp then
      let t := s.failGroup g 3 Fld.atuErrCnt_timeout
      ({ t with pl := { t.pl with lateTags := t.pl.lateTags ++ [(f, tag)] } }).pageSend f
    else s

/-! ## Starting streams (11 R363, R365) -/

/-- What reading a descriptor came to. -/
inductive ChRead where
  | desc (x : Nat)
  | miss
  | wait
  | fail (code : Nat)

/-- Descriptor `i` of a command: a payload entry, or 64 bytes of the list (11 R352, R363). -/
def State.chDescRead (s : State) (h : HostAnswer) (ctx : Nat) (c : Cmd) (i : Nat) : ChRead :=
  if c.inlined then .desc (((c.payload[i]?).getD 0).toNat)
  else
    let vas := (List.range 64).map fun j => c.dlist + 64 * i + j
    let xs := vas.map fun a => match s.chPlace ctx c.dlhost a false with
      | .place p => (s.chByte h p, false)
      | .miss => (none, true)
      | .fail code => (some (.error code), false)
    if xs.any fun x => x.2 then .miss
    else
      match xs.findSome? fun x => match x.1 with
        | some (.error e) => some e
        | _ => none with
      | some e => .fail e
      | none =>
        if xs.any fun x => x.1.isNone then .wait
        else .desc (ofBytes (xs.map fun x => match x.1 with
          | some (.ok b) => b
          | _ => 0))

/-- The device TLB fills as the read of a descriptor of a device list does, its lines are snooped, and a refused read is recorded (07 R220, 10 R308, R335, R568). -/
def State.descFill (s : State) (ctx : Nat) (c : Cmd) (i : Nat) : State :=
  if c.inlined ∨ c.dlhost then s
  else
    let a := c.dlist + 64 * i
    let t := s.xlFill 16 ctx a .read c.agent
    let u := if (a + 63) / 0x2000000 = a / 0x2000000 then t else t.xlFill 16 ctx (a + 63) .read c.agent
    u.snoopReads (placeLines ((List.range 64).filterMap fun j => match s.chPlace ctx false (a + j) false with
      | .place p => some p
      | _ => none))

/-- The commands that run on an engine and may start a stream there now (11 R365): fewer than four of their streams are under way, each with its descriptor read, and a command not yet started gives way to saved streams that are ready, but for one that a stream was pre-empted for (12 R388, R389). -/
def State.chReady (s : State) (n : Nat) : List (Nat × Nat) :=
  let ready := s.pl.saved.any fun x => x.cls == chClass n && !x.faulted
  (s.pl.queues.map fun e => (e.2.cmds.filter fun m =>
    let c := m.2
    let live := ((s.pl.streams.map fun x => x.2) ++ s.pl.saved).filter fun x => x.ofCmd e.1 m.1
    c.op == 2 && decide (c.state = .running) && c.report.isNone && c.chisel == some n && decide (c.nextDesc < c.dcount) && decide (live.length < 4)
      && live.all (fun x => x.desc.isSome) && !(ready && c.nextDesc == 0 && !c.granted)).map fun m => (e.1, m.1)).flatten

/-- The commands that a stream of an engine was pre-empted for and that have not taken it (12 R388). -/
def State.chGranted (s : State) (n : Nat) : Nat :=
  s.pl.queues.foldl (fun t e => t + (e.2.cmds.filter fun m => m.2.granted && m.2.chisel == some n && m.2.report.isNone).length) 0

/-- Prefetch of the translations that the next tiles need and the caches lack (10 R330, R331): ATS requests for the host steps of tiles `t + 1` to `t + N`, but for those that the host has refused it, and walks for their device pages. -/
def State.chPrefetch (s : State) (agent : Nat) (x : Stream) (d : ChDesc) : State :=
  let n := nbits (s.queue x.q).xlate 1 4 + 1
  let is := d.bytesOf (x.tiles + 1) (min d.ntiles (x.tiles + 1 + n))
  let f := s.ctxFunc x.ctx
  let pasid := (s.ctx x.ctx).pasid
  let vas := if x.cls = 0 then is.map d.srcOf else if x.cls = 1 then is.map d.dstOf else []
  let pages := fun (l : List Nat) => (l.map fun a => a / 0x2000000).eraseDups.map fun p => p * 0x2000000
  let walk := fun (r : Right) (t : State) (a : Nat) => if a < 2 ^ 51 then t.xlFill 16 x.ctx a r agent true else t
  let s1 := if x.cls = 0 ∨ d.zero then s else (pages (is.map d.srcOf)).foldl (walk .read) s
  let s2 := if x.cls = 1 then s1 else (pages (is.map d.dstOf)).foldl (walk .write) s1
  ((vas.map fun a => a / 2 ^ 21).eraseDups).foldl (fun t r =>
    let va := r * 2 ^ 21
    if x.tried.contains r || (t.atcLook f pasid va (x.cls == 1)).isSome
        || t.pl.atsReqs.any fun y => y.f == f && y.pasid == pasid && y.va / 2 ^ 21 == r then t
    else (t.atsSend f pasid va (x.cls == 1) (.prefetch x.q x.seq x.index)).bump (regKey 0x200 0) .atuCntAts Fld.atuCntAts_prefetch 1) s2

/-- A stream takes its descriptor: one that fails its checks ends the command with BAD_COMMAND (11 R363). -/
def State.chTake (s : State) (h : HostAnswer) (n k q seq : Nat) (x : Stream) (raw : Nat) : State :=
  let y := { x with desc := some (chDesc raw) }
  if chDescOk x.cls raw then (s.setStream k (some y)).chPrefetch n y (chDesc raw) else s.chFail h q seq n 15

/-- Every earlier descriptor of a command has completed (11 R362, R365). -/
def Cmd.descsDone (c : Cmd) (i : Nat) : Bool := (List.range i).all c.doneDescs.contains

/-- A stream whose descriptor list was being translated reads its descriptor, when it can; a SERIAL one is held until the earlier ones have completed. -/
def State.chUnread (s : State) (h : HostAnswer) (n : Nat) : Option State :=
  s.pl.streams.findSome? fun e =>
    if e.1 / 16 == n && e.2.desc.isNone && !e.2.asked && !e.2.faulted then
      match s.cmd? e.2.q e.2.seq with
      | some c =>
        let t := s.descFill e.2.ctx c e.2.index
        match s.chDescRead h e.2.ctx c e.2.index with
        | .desc raw => if (chDesc raw).serial && !c.descsDone e.2.index then none else some (t.chTake h n e.1 e.2.q e.2.seq e.2 raw)
        | .fail code => some (t.chFail h e.2.q e.2.seq n code)
        | _ => none
      | none => none
    else none

/-! ## Moving (10 R329, 11 R366, R367) -/

/-- The host steps that bytes of a descriptor use. -/
def ChDesc.hostVas (d : ChDesc) (cls : Nat) (is : List Nat) : List Nat :=
  (if cls = 0 then is.map d.srcOf else if cls = 1 then is.map d.dstOf else []).map (fun a => a / 2 ^ 21) |>.eraseDups.map fun r => r * 2 ^ 21

/-- A stream moves bytes: where nothing must be waited for they are performed, or the command fails with each granule old or new (11 R366, R367). `stay` follows where something must be waited for, `go` a success. -/
def State.chMove (s : State) (h : HostAnswer) (n k : Nat) (x : Stream) (d : ChDesc) (is : List Nat) (stay go : State → State) : State :=
  let p := s.chPlan h x.ctx x.cls d is
  let ws := chOpen (fun i => Config.freeNat (s.draws + i)) (s.chSources x.ctx x.cls d is) p.writes
  let t0 := (d.hostVas x.cls is).foldl (fun u va => u.atcTouch (s.ctxFunc x.ctx) (s.ctx x.ctx).pasid va) s
  let t := ((t0.chFill n x.ctx x.cls d is).snoopReads (placeLines (s.chSources x.ctx x.cls d is))).drew (2 * p.writes.length)
  if p.fail ≠ 0 then
    let bad := if p.fail = 7 ∧ x.cls = 0 then t.bump plPage .hpErr Fld.hpErr_poisonRx 1 else t
    let hurt := (s.chSources x.ctx x.cls d is).foldl (fun u q => match q with
      | .stack a => if u.mem.homePoison (a / 64) then u.consumePoison (a / 64) x.ctx else u
      | _ => u) bad
    let r := hurt.chApply x.ctx h true ws
    ((r.1.chBytes n r.2.2).setStream k none).chFail h x.q x.seq n p.fail
  else if p.wait ∨ ¬ (gatherPlaces p.writes).all fun g => s.chDstReady h g.1 g.2.1 then stay s
  else
    let r := t.chApply x.ctx h false ws
    if r.2.1 ≠ 0 then ((r.1.chBytes n r.2.2).setStream k none).chFail h x.q x.seq n r.2.1 else go (r.1.chBytes n p.writes.length)

/-- A byte that a stream could move now: both sides translate with the right, its source is at hand, and its destination can be written. -/
def State.chCan (s : State) (h : HostAnswer) (x : Stream) (d : ChDesc) (i : Nat) : Bool :=
  let p := s.chPlan h x.ctx x.cls d [i]
  p.fail == 0 && !p.wait && p.writes.all fun w => s.chDstReady h w.1 0

/-- An active stream goes on: of the bytes that it can move now it moves those of some lines of its destination, which ones being free (11 R366). -/
def State.chGoOn (s : State) (h : HostAnswer) (n k : Nat) : State :=
  match s.pl.streams.find? k with
  | some x =>
    match x.desc with
    | some d =>
      if x.asked ∨ x.faulted then s
      else
        let pick := fun (i : Nat) => Config.freeNat (s.draws + (d.dstOf i / 64 - d.dst / 64) % drawSpan) % 2 == 1
        let is := (x.rest d).filter fun i => pick i && s.chCan h x d i
        (s.drew drawSpan).chMove h n k x d is (fun t => t) fun t => t.setStream k (some (x.moved d is))
    | none => s
  | none => s

/-- CHISEL_STREAM_START: a descriptor's stream starts on a free stream of its command's engine (11 R363, R365). Which command of the engine goes first is a free choice. Where none can start, the engine goes on with the streams that it runs (log 92). -/
def opChiselStreamStart (n : Nat) (h : HostAnswer) (s : State) : State :=
  if ¬ s.serving then s
  else
    match s.chUnread h n with
    | some t => t
    | none =>
      let l := s.chReady n
      match l[s.draw % l.length]?, s.freeSlot n with
      | some (q, seq), some slot =>
        match s.cmd? q seq with
        | none => s
        | some c =>
          let ctx := (s.queue q).ctx
          let i := c.nextDesc
          let x : Stream := { q := q, seq := seq, ctx := ctx, cls := c.cls, index := i, desc := none, since := s.time }
          let t := s.descFill ctx c i
          let go := fun (t : State) => (t.setCmd q seq { c with nextDesc := i + 1, granted := false }).drew 1
          match s.chDescRead h ctx c i with
          | .wait => s
          | .fail code => (t.drew 1).chFail h q seq n code
          | .miss => (go s).setStream (streamKey n slot) (some x)
          | .desc raw =>
            if (chDesc raw).serial && !c.descsDone i then s
            else (go t).chTake h n (streamKey n slot) q seq x raw
      | _, _ => (((s.pl.streams.map fun e => e.1).filter fun k => k / 16 == n).foldl (fun t k => t.chGoOn h n k) s)

/-- CHISEL_FAULT: a stream's host access without a translation sends an ATS request, as step 1 of a fault (10 R322, R323). The stream has moved what precedes the access, where nothing of that had to be waited for, and the next tiles are prefetched (10 R329, R330). -/
def opChiselFault (n stream va : Nat) (write : Bool) (h : HostAnswer) (s : State) : State :=
  match s.stream? n stream with
  | none => s
  | some x =>
    match s.cmd? x.q x.seq with
    | none => s
    | some c =>
      let k := streamKey n stream
      let f := s.ctxFunc x.ctx
      let pasid := (s.ctx x.ctx).pasid
      let ask := fun (y : Stream) (t : State) => (t.setStream k (some { y with asked := true })).atsSend f pasid va write (.stream x.q x.seq x.index)
      if ¬ s.serving ∨ x.asked ∨ x.faulted ∨ (s.atcLook f pasid va write).isSome then s
      else
        match x.desc with
        | some d =>
          let side := fun (i : Nat) => if x.cls = 0 then !write && d.srcOf i == va else x.cls == 1 && write && d.dstOf i == va
          match (x.rest d).find? side with
          | none => s
          | some i0 =>
            let is := (x.rest d).filter fun i => decide (i < i0)
            s.chMove h n k x d is (ask x) fun t => (ask (x.moved d is) t).chPrefetch n (x.moved d is) d
        | none => if c.dlhost && !write && decide (c.dlist + 64 * x.index ≤ va) && decide (va < c.dlist + 64 * x.index + 64) then ask x s else s

/-- A descriptor is done: its stream ends, and the command reports once every descriptor is (11 R366). -/
def State.chDone (s : State) (k : Nat) (x : Stream) : State :=
  let s1 := s.setStream k none
  match s1.cmd? x.q x.seq with
  | none => s1
  | some c =>
    let c1 := { c with doneDescs := x.index :: c.doneDescs }
    let s2 := s1.setCmd x.q x.seq c1
    if c1.doneDescs.length = c1.dcount then s2.report x.q x.seq 0 else s2

/-- CHISEL_DESCRIPTOR_COMPLETE: every write of a stream's descriptor is performed (11 R366). -/
def opChiselDescriptorComplete (n stream : Nat) (h : HostAnswer) (s : State) : State :=
  match s.stream? n stream with
  | none => s
  | some x =>
    match x.desc with
    | none => s
    | some d =>
      if ¬ s.serving ∨ x.asked ∨ x.faulted then s
      else s.chMove h n (streamKey n stream) x d (x.rest d) (fun t => t) fun t => t.chDone (streamKey n stream) x

/-! ## Pre-emption of streams (12 R388, R389) -/

/-- The Chisel slicing page. -/
def csPage : Nat := regKey 0x404 0

/-- A started COPY command of a class that waits for a stream, which a stream of engine `n` could serve: it has no engine yet, or has started none of its streams, or has none under way on that engine; no stream has been pre-empted for it (12 R388). -/
def State.chWaits (s : State) (n q seq : Nat) (c : Cmd) : Bool :=
  c.op == 2 && decide (c.state = .running) && c.report.isNone && c.cls == chClass n && !c.granted && decide (c.nextDesc < c.dcount)
    && (c.nextDesc == 0 || c.chisel == some n) && !(s.pl.streams.any fun e => e.2.ofCmd q seq) && !(s.pl.saved.any fun x => x.ofCmd q seq)

/-- The commands that wait for a stream while every engine of the class is full (11 R365, 12 R388). -/
def State.chWaiting (s : State) (n : Nat) : List (Nat × Nat) :=
  if (chEngines (chClass n)).all fun m => s.activeStreams m == 16 then
    s.pl.queues.flatMap fun e => (e.2.cmds.filter fun m => s.chWaits n e.1 m.1 m.2).map fun m => (e.1, m.1)
  else []

/-- The freed stream of an engine goes to a waiting command; which one is free (12 R388). -/
def State.chGrant (s : State) (n : Nat) (l : List (Nat × Nat)) : State :=
  match l[s.draw % l.length]? with
  | some x =>
    match s.cmd? x.1 x.2 with
    | some c => (s.setCmd x.1 x.2 { c with chisel := some n, granted := true }).drew 1
    | none => s
  | none => s

/-- A context is sliced (12 R376). -/
def State.sliced (s : State) (ctx : Nat) : Bool := (s.ctx ctx).saveSize != 0

/-- The stream of a sliced context that has run longest. -/
def State.oldest (s : State) (cls : Nat) (x : Stream) : Bool :=
  s.pl.streams.all fun e => e.2.cls != cls || !s.sliced e.2.ctx || e.2.faulted || decide (x.since ≤ e.2.since)

/-- The first free entry of a context's stream table. -/
def State.freeEntry (s : State) (ctx : Nat) : Option Nat :=
  (List.range 16384).find? fun i => !(s.pl.saved.any fun x => x.ctx == ctx && x.entry == i)

/-- The tag of the group that a stream waits in. -/
def State.waitTag (s : State) (x : Stream) : Nat :=
  ((s.pl.groups.find? fun g => g.waiters.any fun r => r.user == .stream x.q x.seq x.index).bind fun g => g.tag).getD 0

/-- A stream has run past the quantum since it started or last resumed (12 R388). -/
def State.chExpired (s : State) (x : Stream) : Bool := decide (x.since + s.fld csPage .csCtl Fld.csCtl_quantumUs * 1000 < s.time)

/-- A stream leaves its slot for an entry of its context's stream table, to begin again at the tile after its last whole one (12 R389). -/
def State.saveStream (s : State) (k : Nat) (x : Stream) : State :=
  match s.freeEntry x.ctx with
  | none => s
  | some i =>
    let y := { x.atTile x.tiles with entry := i }
    let s1 := (s.setStream k none).putRecord y (if x.faulted then 2 else 1) (if x.faulted then s.waitTag x else 0)
    ({ s1 with pl := { s1.pl with saved := s1.pl.saved ++ [y] } }).bump csPage .csCnt Fld.csCnt_preempts 1

/-- CHISEL_STREAM_PREEMPT: a sliced context's stream that has run longest past the quantum is pre-empted at a tile boundary, after `tiles` tiles, or at once where it waits on a page request; the stream goes to a command that waits for one (12 R388, R389). -/
def opChiselStreamPreempt (n stream tiles : Nat) (h : HostAnswer) (s : State) : State :=
  match s.stream? n stream with
  | none => s
  | some x =>
    let l := s.chWaiting n
    if ¬ (s.serving && !l.isEmpty && s.sliced x.ctx && !x.asked) then s
    else if x.faulted then (s.saveStream (streamKey n stream) x).chGrant n l
    else
      match x.desc with
      | none => s
      | some d =>
        if s.oldest x.cls x && s.chExpired x && decide (x.tiles ≤ tiles) && decide (tiles < d.ntiles) then
          s.chMove h n (streamKey n stream) x d ((x.rest d).filter fun i => decide (i < tiles * 2 ^ d.tileLog2)) (fun t => t) fun t =>
            (t.saveStream (streamKey n stream) (x.atTile tiles)).chGrant n l
        else s

/-- CHISEL_STREAM_RESUME: the saved stream of the engine's class that is ready and was saved first takes a free stream that no pre-emption gave to a command; one that waited on a page request performs step 5 of its fault, and its next tiles are prefetched (12 R388 to R390, 10 R330). -/
def opChiselStreamResume (n : Nat) (s : State) : State :=
  match s.pl.saved.find? fun x => x.cls == chClass n && !x.faulted, s.freeSlot n with
  | some x, some slot =>
    if ¬ s.serving ∨ 16 ≤ s.activeStreams n + s.chGranted n then s
    else
      let y := { x with since := s.time, entry := 0, retry := none, asked := x.retry.isSome }
      let s1 := ({ s with pl := { s.pl with saved := s.pl.saved.erase x } }).setStream (streamKey n slot) (some y)
      let s2 := (s1.putRecord x 0 0).bump csPage .csCnt Fld.csCnt_resumes 1
      let s3 := match x.desc with
        | some d => s2.chPrefetch n y d
        | none => s2
      match x.retry with
      | some (va, w) => s3.atsSend (s.ctxFunc x.ctx) (s.ctx x.ctx).pasid va w (.stream x.q x.seq x.index) true
      | none => s3
  | _, _ => s

/-! ## Meanings: each command answers the next state that its operation gives. -/

/-- The meaning of PRG_RESPONSE. -/
def execPrgResponse (f tag : Nat) (code : PrgCode) (s : State) : Host.Outcome State Fault Refusal := .next (opPrgResponse f tag code s)
/-- The meaning of PRI_TIMEOUT. -/
def execPriTimeout (f tag : Nat) (s : State) : Host.Outcome State Fault Refusal := .next (opPriTimeout f tag s)
/-- The meaning of CHISEL_STREAM_START. -/
def execChiselStreamStart (n : Nat) (h : HostAnswer) (s : State) : Host.Outcome State Fault Refusal := .next (opChiselStreamStart n h s)
/-- The meaning of CHISEL_FAULT. -/
def execChiselFault (n stream : Nat) (x : ChAccess) (h : HostAnswer) (s : State) : Host.Outcome State Fault Refusal :=
  .next (opChiselFault n stream x.va x.write h s)
/-- The meaning of CHISEL_DESCRIPTOR_COMPLETE. -/
def execChiselDescriptorComplete (n stream : Nat) (h : HostAnswer) (s : State) : Host.Outcome State Fault Refusal := .next (opChiselDescriptorComplete n stream h s)
/-- The meaning of CHISEL_STREAM_PREEMPT. -/
def execChiselStreamPreempt (n stream tiles : Nat) (h : HostAnswer) (s : State) : Host.Outcome State Fault Refusal := .next (opChiselStreamPreempt n stream tiles h s)
/-- The meaning of CHISEL_STREAM_RESUME. -/
def execChiselStreamResume (n : Nat) (s : State) : Host.Outcome State Fault Refusal := .next (opChiselStreamResume n s)

end Sys2Proof.Machine
end

