-- ==== Sys2Proof/Machine/Engines.lean ====
section
/-! DEFINITION. How the engine's part of a command ends: by completion, by the drain of a trap, and the cutting of operations that a forced abort or a hard quarantine makes (04 R110, R111, 05 R169 to R173, 06 R191, 11 R358). -/

namespace Sys2Proof.Machine

/-! ## Cutting operations (04 R111, 06 R191) -/

/-- A cell whose tensor operation is cut: each granule of the operand store, each sixteen elements of an accumulator and each flag is old or new. -/
def Cell.mix (free : Nat → Nat) (o n : Cell) : Cell :=
  { n with
    ops := SMap.mix (fun a => free (a / 64) % 2 == 1) o.ops n.ops
    accs := SMap.mix (fun a => free (2 ^ 14 + a / 16) % 2 == 1) o.accs n.accs
    aflags := o.aflags ||| (n.aflags &&& Word.ofNat (free (2 ^ 15))) }

/-- A discarded or cut operation leaves its token: PENDING falls; whether DONE counts it is a free choice. -/
def Cell.tokDrop (c : Cell) (k free : Nat) : Cell :=
  if free % 2 = 1 then c.tokAdvance k 0 else c.setTok k ((c.tok k).setFld 0 8 (c.pendingOf k - 1))

/-- Granules of a bank write list kept by a free choice and written. -/
def State.cutBank (s : State) (k : Nat) (free : Nat → Nat) (hurt : List Nat) (ws : List (Nat × Byte)) : State :=
  let gs := (byGranule ws).filter fun e => !hurt.contains e.1 && free (2 ^ 25 + e.1) % 2 == 1
  s.setBank k (gs.foldl (fun (b : Bank) e => ((b.clearResv (64 * e.1) 64 none).writeGranule e.1 e.2.1 (BitVec.ofNat 512 e.2.2)).1) (s.bank k))

/-- A move to or from device memory is cut: each granule whose place and source are at hand is old or new, the others are old. -/
def State.cutMvdm (s : State) (core ctx k : Nat) (free : Nat → Nat) (dir : Bool) (op mem : Tile) (tag : Nat) (na : Bool) : State :=
  let c := s.cell k
  match s.movePlaces core ctx (if dir then .write else .read) mem.addrs with
  | none => s
  | some ps =>
    if dir then
      let good := (ps.zip op.addrs).filterMap fun p => match p.1 with
        | .ok q => some (q, c.opRd p.2)
        | .error _ => none
      let gs := ((gatherPlaces good).mapIdx fun j g => (j, g)).filter fun e => free e.1 % 2 == 1
      gs.foldl (fun t e =>
        match t.storeAt core ctx na none e.2.1 e.2.2.1 (BitVec.ofNat 512 e.2.2.2) with
        | .wait => t
        | .done u _ early => u.setFlight k ((u.flight k).noteEarly tag none early.toList)) s
    else
      let ws := (ps.zip op.addrs).filterMap fun p => match p.1 with
        | .ok q => if (s.poisonAt core q).isNone then some (p.2, s.byteAt core q) else none
        | .error _ => none
      s.setCell k (c.opWrites (chooseGranules free (fun _ => false) ws))

/-- An operation in a queue is discarded when it has not started, and cut at granule boundaries when it has (04 R111, 06 R191). What a RACC has applied stands. -/
def State.cutOp (s : State) (core eng k : Nat) (o : AsyncOp) : State :=
  let e := s.engine core eng
  let free := fun n => Config.freeNat (s.draws + n)
  let c := s.cell k
  let part : State :=
    if ¬ o.started then s
    else
      match o.kind with
      | .mvrl dir op rel =>
        if dir then s.cutBank k free [] ((moveBytes op rel).map fun p => (p.2, (o.view free c).read p.1))
        else
          let mv := (moveBytes rel op).filter fun p => !(s.bank k).poisoned (p.1 / 64)
          s.setCell k (c.opWrites (chooseGranules free (fun _ => false) (mv.map fun p => (p.2, (s.bank k).data.read p.1))))
      | .mvdm dir op mem tag _ _ na => s.cutMvdm core e.ctx k free dir op mem tag na
      | .relief minor dd da db dc rnd srule sa fn =>
        if minor = 4 then s
        else
          let roles := reliefRoles minor fn dd da db dc
          let b := s.bank k
          let z := reliefWrites free b.data o.params minor dd da db dc rnd srule sa fn
          let s1 := s.cutBank k free (reliefHurt b minor roles.1 roles.2) z.1
          s1.setBank k ((s1.bank k).flag ((Word.ofNat z.2) &&& (Word.ofNat (free (2 ^ 25 + 2 ^ 16)))).toNat)
      | .racc .. => s
      | .mvbc .. => s
      | _ => s.setCell k (Cell.mix free c (tensorEffect free c o.kind))
  let drop := fun (t : State) => (t.setCell k ((t.cell k).tokDrop o.ks (free (2 ^ 26)))).setFlight k ((t.flight k).without o.id)
  match o.kind with
  | .mvbc t _ inst => if o.started then s.cutMvbc core eng k o t inst else (drop s).serveMvbc core eng k inst
  | _ => (drop part).drew drawSpan

/-- Every operation of a cell is discarded or cut. -/
def State.cutCell (s : State) (core eng k : Nat) : State :=
  (s.flight k).ops.foldl (fun t o => t.cutOp core eng k o) s

/-- Every operation of an engine's cells is discarded or cut. -/
def State.cutEngine (s : State) (core eng : Nat) : State :=
  ((s.engine core eng).keys core).foldl (fun t k => t.cutCell core eng k) s

/-! ## Quiet engines -/

/-- A cell has nothing in flight (04 R111, 07 R232). -/
def Flight.quiet (f : Flight) : Bool := f.ops.isEmpty && f.stbuf.isEmpty && f.loads.isEmpty && f.storeFail.isNone

/-- No line of device memory still waits for ownership with a store of the cell, or with one that its fence found: its stores are performed at device scope (07 R209, R212, R232). -/
def State.committed (s : State) (core k : Nat) : Bool := !((s.flight k).early.any fun e => !e.host && s.earlyOpen core e) && !((s.flight k).debts.any fun d => !d.2.1 && s.lineEarly core d.1 false)

/-- No cell of an engine has anything in flight, and its stores have committed (04 R111, 07 R232). -/
def State.engineQuiet (s : State) (core eng : Nat) : Bool :=
  ((s.engine core eng).keys core).all fun k => (s.flight k).quiet && s.committed core k

/-- No cell of an engine holds a failed operation that has not trapped it (04 R110, 05 R172). -/
def State.engineTold (s : State) (core eng : Nat) : Bool := ((s.engine core eng).keys core).all fun k => (s.flight k).failed.isNone

/-- What a cell has in flight after its engine's part of a command has ended: nothing but the stores that wait for ownership, and the tickets of barrier instances that still arrive (08 R262). -/
def Flight.after (f : Flight) : Flight :=
  { seq := f.seq, early := f.early, arrive := f.arrive, busy := f.arrive.foldl (fun b a => setBit b a.2.2) 0 }

/-- The engines of a core that still run a command. -/
def State.enginesOf (s : State) (core q seq : Nat) : List Nat :=
  (List.range 64).filter fun n => (s.engine core n).formed && (s.engine core n).cmd == some (q, seq)

/-- An engine is stopped as in step 2 of R288, its operations discarded or cut; those of an engine that drains for a trap or a hard quarantine are cut too (04 R111). -/
def State.haltEngine (s : State) (core eng : Nat) : State :=
  let e := s.engine core eng
  if e.stopping = 0 then (s.stopEngine core eng 2).cutEngine core eng
  else if e.stopping = 2 then s
  else s.cutEngine core eng

/-- An engine's part of its command ends with a code (0 success), and the engine takes a state (0 idle, 2 faulted). The first code that is an error decides the command's; the other named engines stop; the last engine to end reports (05 R170, R172, 11 R358). -/
def State.engineEnds (s : State) (core eng code state : Nat) : State :=
  let e := s.engine core eng
  let s1 := s.setEngine core eng { e with state := state, stopping := 0, cmd := none }
  match e.cmd with
  | none => s1
  | some (q, n) =>
    match s1.cmd? q n with
    | none => s1
    | some c =>
      let c1 : Cmd := { c with engines := clearBit c.engines eng, trapped := if c.trapped = 0 then code else c.trapped }
      let s2 := s1.setCmd q n c1
      let s3 := if code ≠ 0 ∧ c.trapped = 0 then (s2.enginesOf core q n).foldl (fun t m => t.haltEngine core m) s2 else s2
      if c1.engines = 0 then s3.report q n c1.trapped else s3

/-- The cells of an engine whose operations have ended keep nothing in flight. -/
def State.clearFlights (s : State) (core eng : Nat) : State :=
  ((s.engine core eng).keys core).foldl (fun t k => t.setFlight k (t.flight k).after) s

/-- ENGINE_COMMAND_COMPLETE: every cell has ended with nothing pending, and the release at device scope is made; the engine's part is complete (05 R170). -/
def opEngineCommandComplete (core eng : Nat) (s : State) : State :=
  let e := s.engine core eng
  let ended := (e.keys core).all fun k =>
    decide ((s.cell k).phase = .ended) && (s.flight k).quiet && (s.flight k).failed.isNone && s.fenceHolds core k 2 2 0
  if s.serving && s.resident core eng && e.state == 1 && e.stopping == 0 && ended then s.engineEnds core eng 0 0 else s

/-- TRAP_DRAIN_DONE: the drain of a stopping engine has ended; its part of the command ends with the trap's code, and the engine awaits its next command (05 R172). -/
def opTrapDrainDone (core eng : Nat) (s : State) : State :=
  let e := s.engine core eng
  if s.serving && s.resident core eng && ((e.stopping == 1 && s.engineTold core eng) || (e.stopping == 2 && (match e.cmd with
      | some (q, n) => (s.cmd? q n).isSome
      | none => false))) && s.engineQuiet core eng then
    (s.clearFlights core eng).engineEnds core eng (if e.stopping = 1 then e.trapCode else 0) 0
  else s

/-! ## Meanings: each command answers the next state that its operation gives. -/

/-- The meaning of ENGINE_COMMAND_COMPLETE. -/
def execEngineCommandComplete (core eng : Nat) (s : State) : Host.Outcome State Fault Refusal := .next (opEngineCommandComplete core eng s)
/-- The meaning of TRAP_DRAIN_DONE. -/
def execTrapDrainDone (core eng : Nat) (s : State) : Host.Outcome State Fault Refusal := .next (opTrapDrainDone core eng s)

end Sys2Proof.Machine
end

