-- ==== Sys2Proof/Machine/Image.lean ====
section
/-! DEFINITION. The Ecger image: reading it, its checks in their order, and the placement of its engines (02 R36, R37, R48 to R54, 06 R181, 08 R240, 12 R376, R377). -/

namespace Sys2Proof.Machine

/-! ## Reading and writing a context's device memory for Armature (R39, R48, R64) -/

/-- Bytes of a context's device memory by non-allocating reads: none while a line cannot be served; an inner none where a byte is not mapped readable or is poisoned. -/
def State.vaRead (s : State) (ctx va n : Nat) : Option (Option (List Byte)) :=
  let xs := (List.range n).map fun i =>
    match s.chPlace ctx false (va + i) false with
    | .place p => s.chByte ⟨[], [], []⟩ p
    | .miss => some (.error 6)
    | .fail c => some (.error c)
  if xs.any fun x => x.isNone then none
  else if xs.any fun x => match x with
      | some (.error _) => true
      | _ => false then some none
  else some (some (xs.map fun x => match x with
    | some (.ok b) => b
    | _ => 0))

/-- Bytes written to a context's device memory by non-allocating writes: none while a line cannot be served; where some byte lacks a translation or the write right nothing is written (log 30). -/
def State.vaWrite (s : State) (ctx va : Nat) (bytes : List Byte) : Option State :=
  let ps := bytes.mapIdx fun i b => (s.chPlace ctx false (va + i) true, b)
  if ps.all fun p => match p.1 with
      | .place _ => true
      | _ => false then
    let ws := ps.filterMap fun p => match p.1 with
      | .place q => some (q, p.2)
      | _ => none
    let gs := gatherPlaces ws
    if gs.all fun g => s.chDstReady ⟨[], [], []⟩ g.1 g.2.1 then
      some (gs.foldl (fun t g => (t.chStore ctx ⟨[], [], []⟩ g.1 g.2.1 (BitVec.ofNat 512 g.2.2)).1) s)
    else none
  else some s

/-! ## Status codes in the order of their checks (R48) -/

/-- The place of a status in the order of checks. -/
def statusRank (code : Nat) : Nat :=
  ([0x15, 0x10, 0x11, 0x01, 0x02, 0x03, 0x09, 0x04, 0x06, 0x05, 0x07, 0x08, 0x13, 0x0A, 0x0D, 0x0E, 0x0F, 0x0C, 0x0B].findIdx? fun c => c == code).getD 32

/-- A failed check: status, the table it belongs to (0 header, 1 engine table, 2 section table), and the entry's index. -/
structure ArmFail where
  status : Nat
  table : Nat
  index : Nat
  deriving DecidableEq, Repr

/-- INDEX of a failure that belongs to no entry. -/
def noIndex : Nat := 0xFFFF

/-- One failure comes before another: by the order of the checks, then header, engine table, section table, then index (R48). -/
def ArmFail.before (a b : ArmFail) : Bool :=
  let k := fun (f : ArmFail) => (statusRank f.status * 4 + f.table) * 65536 + f.index
  decide (k a < k b)

/-- The failure that ends the request: the first in the order. -/
def firstFail (l : List ArmFail) : Option ArmFail :=
  l.foldl (fun best f =>
    match best with
    | none => some f
    | some b => if f.before b then some f else some b) none

/-- A failure where a condition holds. -/
def failIf (c : Bool) (status table index : Nat) : List ArmFail := if c then [⟨status, table, index⟩] else []

/-! ## The header (R49) -/

/-- Length of an image without its trailer. -/
def imgSize (hd : List Byte) : Nat := 0x80 + leAt hd 0x10 8
/-- FLAGS of the header. -/
def imgFlags (hd : List Byte) : Nat := leAt hd 0x0C 4
/-- Engine-table entries. -/
def imgEngines (hd : List Byte) : Nat := leAt hd 0x20 2
/-- Section-table entries. -/
def imgSections (hd : List Byte) : Nat := leAt hd 0x22 2
/-- Offset of the engine table. -/
def imgEtab (hd : List Byte) : Nat := leAt hd 0x30 8
/-- Offset of the section table. -/
def imgStab (hd : List Byte) : Nat := leAt hd 0x38 8

/-- The checks that the header alone decides: magic, version, and its own fields' ranges (R48, R49). -/
def headChecks (hd : List Byte) : List ArmFail :=
  let tab := fun (o n : Nat) => o % 64 != 0 || decide (o < 0x80) || decide (imgSize hd < o + 32 * n)
  failIf (leAt hd 0 4 != 0x52474345) 0x01 0 noIndex
    ++ failIf (leAt hd 4 2 != 1) 0x02 0 noIndex
    ++ failIf (leAt hd 8 4 != 0x80 || leAt hd 0x10 8 % 64 != 0 || !between 1 (imgEngines hd) 64 || !between 1 (imgSections hd) 256
        || decide (32 < leAt hd 0x24 1) || decide (1024 < leAt hd 0x26 2) || decide (65536 < leAt hd 0x28 4)
        || tab (imgEtab hd) (imgEngines hd) || tab (imgStab hd) (imgSections hd)) 0x03 0 noIndex

/-! ## The tables (R50 to R52) -/

/-- An engine-table entry (R50). -/
def engEntry (tab : List Byte) (n : Nat) : EngEntry :=
  let f := fun o k => leAt tab (32 * n + o) k
  ⟨f 0 1, f 1 1, f 2 1, f 3 1, f 4 4, f 8 2, f 0xA 2, f 0xC 2, f 0x10 4, f 0x18 8⟩

/-- A section-table entry (R51). -/
def secEntry (tab : List Byte) (n : Nat) : SecEntry :=
  let f := fun o k => leAt tab (32 * n + o) k
  ⟨f 0 1, f 1 1, f 4 4, f 8 8, f 0x10 8, f 0x18 4⟩

/-- SFLAGS[0]: one piece of data for each cell. -/
def SecEntry.perCell (x : SecEntry) : Bool := x.sflags.testBit 0
/-- The bytes a preload writes in one cell (R52). -/
def SecEntry.span (x : SecEntry) : Nat := if x.perCell then x.stride else x.length

/-- The preload sections of an engine, with their indices. -/
def EngEntry.preloads (e : EngEntry) (secs : List SecEntry) : List (Nat × SecEntry) :=
  ((List.range e.preCount).map fun i => e.preFirst + i).filterMap fun k => (secs[k]?).map fun x => (k, x)

/-- Two runs, of which neither is empty, overlap. -/
def runsMeet (a b : Nat × Nat) : Bool := a.2 != 0 && b.2 != 0 && overlapN a.1 a.2 b.1 b.2

/-- The checks of one engine-table entry (R48, R50). -/
def engChecks (tab : List Byte) (secs : List SecEntry) (n : Nat) : List ArmFail :=
  let e := engEntry tab n
  let code := secs[e.codeSec]?
  let codeOk := match code with
    | some c => c.typ == 1 && decide (e.entry < c.length)
    | none => false
  let past := decide (256 < e.preCount) || (e.preCount != 0 && decide (secs.length < e.preFirst + e.preCount))
  let pres := e.preloads secs
  failIf (decide (63 < e.engine) || decide (6 < e.sizeLog2) || e.entry % 8 != 0 || !codeOk || past
      || (!past && pres.any fun p => p.2.typ != 2 && p.2.typ != 3)) 0x03 1 n
    ++ failIf (decide (1 < e.place) || (e.place == 0 && e.origin != 0) || leAt tab (32 * n + 0xE) 2 != 0 || leAt tab (32 * n + 0x14) 4 != 0) 0x09 1 n
    ++ (if past then [] else
      (pres.filter fun p => p.2.perCell && p.2.length != p.2.stride * 2 ^ min e.sizeLog2 6).map (fun p => ⟨0x03, 2, p.1⟩)
      ++ (pres.filter fun p => pres.any fun q => decide (q.1 < p.1) && q.2.typ == p.2.typ && runsMeet (q.2.dest, q.2.span) (p.2.dest, p.2.span)).map
        (fun p => ⟨0x03, 2, p.1⟩))

/-- The checks of one section-table entry (R48, R51, R52). -/
def secChecks (size : Nat) (tab : List Byte) (n : Nat) : List ArmFail :=
  let x := secEntry tab n
  let load := x.typ == 2 || x.typ == 3
  let known := between 1 x.typ 4
  failIf (!known) 0x09 2 n
    ++ failIf (x.offset % 64 != 0 || decide (x.offset < 0x80) || decide (size < x.offset + x.length)
          || (x.typ == 1 && (x.length % 8 != 0 || decide (2 ^ 20 < x.length)))
          || (load && (x.dest % 64 != 0 || (x.perCell && x.stride % 64 != 0)))) 0x03 2 n
    ++ failIf (decide (1 < x.sflags) || leAt tab (32 * n + 2) 2 != 0 || leAt tab (32 * n + 0x1C) 4 != 0
          || (known && !load && (x.dest != 0 || x.perCell)) || (!x.perCell && x.stride != 0)) 0x09 2 n

/-- Tables and sections that overlap, or a debug section without FLAGS[2] or the reverse (R48). -/
def crossChecks (hd : List Byte) (secs : List SecEntry) : List ArmFail :=
  let e := (imgEtab hd, 32 * imgEngines hd)
  let t := (imgStab hd, 32 * imgSections hd)
  let runs := secs.map fun x => (x.offset, x.length)
  let hit := fun (i : Nat) (r : Nat × Nat) => runsMeet e r || runsMeet t r || (runs.take i).any fun q => runsMeet q r
  let debug := secs.findIdx? fun x => x.typ == 4
  failIf (runsMeet e t) 0x03 0 noIndex
    ++ ((runs.mapIdx fun i r => (i, r)).filter fun p => hit p.1 p.2).map (fun p => ⟨0x03, 2, p.1⟩)
    ++ (match (imgFlags hd).testBit 2, debug with
      | true, none => [⟨0x03, 0, noIndex⟩]
      | false, some i => [⟨0x03, 2, i⟩]
      | _, _ => [])

/-- The checks of the tables, and the header's reserved fields (R48, R49). -/
def tableChecks (hd etab stab : List Byte) : List ArmFail :=
  let secs := (List.range (imgSections hd)).map (secEntry stab)
  failIf (decide (8 ≤ imgFlags hd) || leAt hd 0x1A 2 != 0 || leAt hd 0x25 1 != 0 || leAt hd 0x2C 4 != 0
      || (!(imgFlags hd).testBit 1 && leAt hd 0x40 16 != 0)) 0x09 0 noIndex
    ++ (List.range (imgEngines hd)).flatMap (engChecks etab secs)
    ++ (List.range (imgSections hd)).flatMap (secChecks (imgSize hd) stab)
    ++ crossChecks hd secs

/-! ## Digest, signature, part, firmware, Cast (R49, R53, 16 R466, R481) -/

/-- The image as it was read: the header and tables of the first two reads in place of the body's own bytes. -/
def imgBytes (hd etab stab body : List Byte) : List Byte :=
  (List.range body.length).map fun i =>
    if i < 0x80 then (hd[i]?).getD 0
    else if imgEtab hd ≤ i ∧ i < imgEtab hd + etab.length then (etab[i - imgEtab hd]?).getD 0
    else if imgStab hd ≤ i ∧ i < imgStab hd + stab.length then (stab[i - imgStab hd]?).getD 0
    else (body[i]?).getD 0

/-- The public key that a partition holds for a key identifier. -/
def Partition.keyFor (p : Partition) (id : Nat) : Option Nat := (p.keys.find? fun k => k.1 == id).map fun k => k.2

/-- A loaded Cast with an identity, admitted for a partition. -/
def State.castFor (s : State) (part id : Nat) : Bool :=
  (List.range 15).any fun n => (s.cast n).state == 2 && (s.cast n).id == id && (s.cast n).admits.testBit part

/-- The checks of the whole image, in the order of R48: trailer, digest, policy, signature, part, firmware, Cast. -/
def State.bodyChecks (s : State) (part : Nat) (img : List Byte) : List ArmFail :=
  let hd := img.take 0x80
  let tr := img.drop (imgSize hd)
  let signed := (imgFlags hd).testBit 0
  let digest := Config.sha384 (img.take 0x50 ++ (img.take (imgSize hd)).drop 0x80)
  let sigOk := match (s.part part).keyFor (leAt tr 0 16) with
    | some key => Config.ecdsaVerify key digest (leAt tr 0x20 48) (leAt tr 0x50 48)
    | none => false
  failIf (signed && (leAt tr 0x10 4 != 1 || leAt tr 0x14 12 != 0)) 0x09 0 noIndex
    ++ failIf (decide (digest ≠ BitVec.ofNat 384 (leAt hd 0x50 48))) 0x04 0 noIndex
    ++ failIf ((s.part part).requireSigned && !signed) 0x06 0 noIndex
    ++ failIf (signed && !sigOk) 0x05 0 noIndex
    ++ failIf (leAt hd 0x18 2 != 0x80) 0x07 0 noIndex
    ++ failIf (decide (s.board.fwVersion < leAt hd 0x1C 4)) 0x08 0 noIndex
    ++ failIf ((imgFlags hd).testBit 1 && !s.castFor part (leAt hd 0x40 16)) 0x13 0 noIndex

/-! ## Step 3: resources (R48, R52, 06 R181, 08 R240, 12 R376, R377) -/

/-- The formed engines of a core. -/
def State.formedOn (s : State) (core : Nat) : List Nat := (List.range 64).filter fun n => (s.engine core n).formed

/-- The positions of an engine of 2^k cells at an origin, by cell index (R36). -/
def rectOf (origin k : Nat) : List Nat := (List.range (2 ^ k)).map fun i => origin + 16 * (i / engWidth k) + i % engWidth k

/-- The positions of a formed engine. -/
def State.positions (s : State) (core n : Nat) : List Nat := rectOf (s.engine core n).origin (s.engine core n).sizeLog2

/-- A logical position is mapped to a physical cell (R30). -/
def State.posMapped (s : State) (core p : Nat) : Bool := (s.core core).map.at 0 p != 0

/-- A context's table maps a Relief block of a core (06 R181). -/
def State.reliefMapped (s : State) (ctx core block : Nat) : Bool :=
  let entry := fun (level va table : Nat) =>
    match s.ptRead 16 ctx level va table with
    | .ok e => if ptValid s.wide level e then some e else none
    | .error _ => none
  (List.range 4096).any fun i =>
    match entry 0 (i * 2 ^ 39) (s.ctx ctx).ptRoot with
    | some a =>
      a.fld 1 2 == 0 && (List.range 512).any fun j =>
        (match entry 1 (i * 2 ^ 39 + j * 2 ^ 30) (a.fld 8 32 * 256) with
         | some b =>
           b.fld 1 2 == 0 && (List.range 32).any fun k =>
             (match entry 2 (i * 2 ^ 39 + j * 2 ^ 30 + k * 2 ^ 25) (b.fld 8 32 * 256) with
              | some c => c.fld 1 2 == 2 && c.fld 8 4 == core && c.fld 12 4 == block
              | none => false)
         | none => false)
    | none => false

/-- The Relief blocks of a core that a context claims or maps. -/
def State.blocksOf (s : State) (ctx core : Nat) : List Nat :=
  (List.range 16).filter fun b => s.claimant core b == some ctx || s.reliefMapped ctx core b

/-- The positions that count as occupied for a request: unmapped, held by an engine of the requester, or of an unsliced context (12 R377). -/
def State.occupied (s : State) (r : ArmReq) (core : Nat) : List Nat :=
  if r.mode = 1 ∧ r.full then []
  else ((List.range 256).filter fun p => !s.posMapped core p)
    ++ ((s.formedOn core).filter fun n => (s.engine core n).ctx == r.ctx || !s.sliced (s.engine core n).ctx).flatMap (s.positions core)

/-- The positions where an engine with Relief may be placed: in the context's blocks, none of them claimed by another unsliced context (06 R181, 12 R377). -/
def State.reliefRoom (s : State) (r : ArmReq) (core : Nat) : List Nat :=
  let free := fun b => (r.mode == 1 && r.full) || (match s.claimant core b with
    | none => true
    | some x => x == r.ctx || s.sliced x)
  let bs := (s.blocksOf r.ctx core).filter free
  (List.range 256).filter fun p => bs.contains (blockOfPos p)

/-- The core map and monitor map of a context grant what an image requires (08 R240). -/
def State.granted (s : State) (r : ArmReq) (core : Nat) : Bool :=
  let x := s.ctx r.ctx
  let bar := fun v => match s.mapWord r.ctx core (barWord v), s.mapWord r.ctx core (barWord v + 1) with
    | .ok a, .ok m => a.bit 63 && a.fld 5 58 == 0 && m != 0
    | _, _ => false
  let ok := fun {α : Type} (z : Except Nat α) => match z with
    | .ok _ => true
    | .error _ => false
  (r.signals == 0 && r.barriers == 0 || x.cores.testBit core)
    && (List.range r.signals).all (fun v => ok (s.sigEntry r.ctx core v))
    && (List.range r.barriers).all bar
    && decide (r.monitors ≤ x.monLen) && (List.range r.monitors).all (fun v => ok (s.monEntry r.ctx core v))

/-- The checks of step 3, in order. A Relief preload past its engine's RELIEF figure is RELIEF_OVER (log 84). -/
def State.resourceChecks (s : State) (r : ArmReq) (core : Nat) : List ArmFail :=
  let full := r.mode == 1 && r.full
  let es := r.engines.mapIdx fun i e => (i, e)
  let pre := fun (t : Nat) (fig : EngEntry → Nat) => es.flatMap fun p =>
    ((p.2.preloads r.sections).filter fun q => q.2.typ == t && decide (fig p.2 < q.2.dest + q.2.span)).map fun q => q.1
  let cells := ((r.engines.filter fun e => e.relief != 0).map fun e => 2 ^ e.sizeLog2).sum
  (es.filter fun p => (!full && (s.formedOn core).contains p.2.engine) || (r.engines.take p.1).any fun q => q.engine == p.2.engine).map
      (fun p => ⟨0x0A, 1, p.1⟩)
    ++ (es.filter fun p => decide (524288 < p.2.opstore)).map (fun p => ⟨0x0D, 1, p.1⟩)
    ++ (pre 2 EngEntry.opstore).map (fun k => ⟨0x0D, 2, k⟩)
    ++ (es.filter fun p => decide (0x200000 < p.2.relief)).map (fun p => ⟨0x0E, 1, p.1⟩)
    ++ (pre 3 EngEntry.relief).map (fun k => ⟨0x0E, 2, k⟩)
    ++ failIf (cells != 0 && decide (16 * (s.blocksOf r.ctx core).length < cells)) 0x0E 3 noIndex
    ++ failIf ((s.sliced r.ctx && !(s.ctx r.ctx).cores.testBit core) || !s.granted r core) 0x0F 0 noIndex

/-! ## Step 4: placement (R37) -/

/-- An origin is aligned for a size (R36). -/
def originOk (o k : Nat) : Bool := decide (o < 256) && o % 16 % engWidth k == 0 && o / 16 % engHeight k == 0

/-- A rectangle fits: none of its positions is occupied, and with Relief all of them lie in the room. -/
def fits (occ room : List Nat) (relief : Bool) (o k : Nat) : Bool :=
  (rectOf o k).all fun p => !occ.contains p && (!relief || room.contains p)

/-- The lowest-numbered aligned origin where an engine fits. -/
def fitAt (occ room : List Nat) (relief : Bool) (k : Nat) : Option Nat :=
  (List.range 256).find? fun o => originOk o k && fits occ room relief o k

/-- The order in which engines are placed: fixed ones in table order, then free ones, largest first (R37). -/
def placeOrder (es : List EngEntry) : List Nat :=
  let idx := fun (p : EngEntry → Bool) => ((es.mapIdx fun i e => (i, e)).filter fun x => p x.2).map fun x => x.1
  idx (fun e => e.place == 1) ++ (List.range 7).reverse.flatMap fun k => idx fun e => e.place == 0 && e.sizeLog2 == k

/-- The placement of every engine, or the first that fails (R37, R48): a fixed engine whose free and aligned rectangle leaves the context's Relief blocks finds no room (06 R181). INDEX names the first engine to fail in placement order (log 84). -/
def placeAll (room : List Nat) (es : List EngEntry) : List Nat → List Nat → List (Nat × Nat) → Except ArmFail (List (Nat × Nat))
  | [], _, out => .ok out
  | n :: ns, occ, out =>
    match es[n]? with
    | none => placeAll room es ns occ out
    | some e =>
      if e.place = 1 then
        if originOk e.origin e.sizeLog2 && fits occ room (e.relief != 0) e.origin e.sizeLog2 then
          placeAll room es ns (rectOf e.origin e.sizeLog2 ++ occ) ((n, e.origin) :: out)
        else if originOk e.origin e.sizeLog2 && fits occ room false e.origin e.sizeLog2 then .error ⟨0x0B, 1, n⟩
        else .error ⟨0x0C, 1, n⟩
      else
        match fitAt occ room (e.relief != 0) e.sizeLog2 with
        | some o => placeAll room es ns (rectOf o e.sizeLog2 ++ occ) ((n, o) :: out)
        | none => .error ⟨0x0B, 1, n⟩

/-- The origins in engine-table order. -/
def originsOf (es : List EngEntry) (out : List (Nat × Nat)) : List Nat :=
  (List.range es.length).map fun n => ((out.find? fun p => p.1 == n).map fun p => p.2).getD 0xFF

/-- The positions that a placed request takes. -/
def ArmReq.positions (r : ArmReq) : List Nat := (r.engines.zip r.places).flatMap fun p => rectOf p.2 p.1.sizeLog2

/-- The Relief blocks that a placed request claims (06 R181). -/
def ArmReq.blocks (r : ArmReq) : List Nat :=
  (((r.engines.zip r.places).filter fun p => p.1.relief != 0).flatMap fun p => (rectOf p.2 p.1.sizeLog2).map blockOfPos).eraseDups

end Sys2Proof.Machine
end

