-- ==== Sys2Proof/Machine/SaveArea.lean ====
section
/-! DEFINITION. The save area of a context: cell images, the core record, and the passing of Relief blocks between contexts (12 R384 to R386; 06 R182). -/

namespace Sys2Proof.Machine

/-- The formed engines of a context on a core. -/
def State.enginesFor (s : State) (core ctx : Nat) : List Nat := (s.formedOn core).filter fun n => (s.engine core n).ctx == ctx

/-! ## The save area (R384, R385) -/

/-- Entries of a sparse map placed in a byte memory, `w` bytes each. -/
def packMap {α : Type} (w : Nat) (val : α → Nat) (base : Nat) (l : SMap α) (m : Mem) : Mem :=
  l.foldl (fun u e => u.writeLE (base + w * e.1) w (val e.2)) m

/-- The fields of `w` bytes of a byte memory that are not zero, as a sparse map. -/
def unpackMap {α : Type} (w : Nat) (mk : Nat → α) (base count : Nat) (m : Mem) : SMap α :=
  let keys := ((m.filter fun e => decide (base ≤ e.1) && decide (e.1 < base + w * count)).map fun e => (e.1 - base) / w).eraseDups
  keys.map fun i => (i, mk (m.readLE (base + w * i) w))

/-- The word of the system area that holds the program counter; R385 puts it there and names no word (log 85). -/
def pcWord : Nat := 127

/-- The image of a cell in its position slot (R385). System registers that R168 does not list hold free values. -/
def State.cellImage (s : State) (a : At) : Mem :=
  let c := a.cell
  let m0 : Mem := c.ops
  let m1 := packMap 4 BitVec.toNat 0x80000 c.accs m0
  let m2 := packMap 4 BitVec.toNat 0x90000 c.vregs m1
  let m3 := packMap 8 BitVec.toNat 0x94000 c.sregs m2
  let m4 := packMap 32 BitVec.toNat 0x94200 c.preds m3
  let m5 := packMap 16 BitVec.toNat 0x94300 c.descs m4
  let m6 := packMap 8 BitVec.toNat 0x94400 c.toks m5
  (List.range 128).foldl (fun m i =>
    m.writeLE (0x94480 + 8 * i) 8 (if i = pcWord then c.pc else if sysListed i then (s.sysValue a i).toNat else Config.freeNat (s.draws + i))) m6

/-- The state a position slot holds (R385). -/
def cellOf (m : Mem) (phase : Phase) : Cell :=
  let sys := fun i => Word.ofNat (m.readLE (0x94480 + 8 * i) 8)
  { ops := m.filter fun e => decide (e.1 < 0x80000)
    accs := unpackMap 4 (BitVec.ofNat 32) 0x80000 16384 m
    vregs := unpackMap 4 (BitVec.ofNat 32) 0x90000 4096 m
    sregs := unpackMap 8 (BitVec.ofNat 64) 0x94000 64 m
    preds := unpackMap 32 (BitVec.ofNat 256) 0x94200 8 m
    descs := unpackMap 16 (BitVec.ofNat 128) 0x94300 16 m
    toks := unpackMap 8 (BitVec.ofNat 64) 0x94400 16 m
    cycles := sys 4, aflags := sys 0x10, rmode := sys 0x11, traprec := sys 0x12, pc := (sys pcWord).toNat, phase := phase, resv := none }

/-- Lines of a region that an agent caches. -/
def State.cachedIn (s : State) (a n : Nat) : List Nat :=
  ((s.mem.caches.map fun e => e.1 % 2 ^ 34).filter fun l => decide (a ≤ 64 * l) && decide (64 * l < a + n)).eraseDups

/-- Every cached line of a region reaches its home. -/
def State.recallIn (s : State) (a n : Nat) : State := (s.cachedIn a n).foldl (fun t l => t.recall l none) s

/-- A region of device memory takes a byte memory, whole lines: poison clears in OWNED frames (14 R439); in others a poisoned line keeps its bytes. -/
def State.regionPut (s : State) (a n : Nat) (m : Mem) : State :=
  let s1 := s.recallIn a n
  let stays := (s1.mem.poison.filter fun e => decide (a ≤ 64 * e.1) && decide (64 * e.1 < a + n) && !s1.ownedFrame (64 * e.1)).map fun e => e.1
  let keep := fun (x : Nat) => stays.contains (x / 64)
  let d0 := s1.mem.dev.filter fun e => decide (e.1 < a) || decide (a + n ≤ e.1) || keep e.1
  let dev := m.foldl (fun (u : Mem) e => if e.1 < n ∧ ¬ keep (a + e.1) then u.write (a + e.1) e.2 else u) d0
  { s1 with mem := { s1.mem with
      dev := dev
      poison := s1.mem.poison.filter fun e => decide (64 * e.1 < a) || decide (a + n ≤ 64 * e.1) || stays.contains e.1 } }

/-- A region of device memory as its homes answer; poisoned lines read as free values, since no data of a failed read is used (14 R437). -/
def State.regionGet (s : State) (a n : Nat) : State × Mem :=
  let s1 := s.recallIn a n
  let d : Mem := ((s1.mem.dev.filter fun e => decide (a ≤ e.1) && decide (e.1 < a + n)).map fun e => (e.1 - a, e.2))
  let bad := (s1.mem.poison.filter fun e => decide (a ≤ 64 * e.1) && decide (64 * e.1 < a + n)).map fun e => e.1
  let m := bad.foldl (fun (u : Mem) l => (List.range 64).foldl (fun v i =>
    v.write (64 * l + i - a) (BitVec.ofNat 8 (Config.freeNat (s.draws + 64 * l + i - a)))) u) d
  (s1.drew n, m)

/-- The core record of a sliced context: ENGINES, TIME of its last save, RELIEF; its gather state belongs to the complex, and those bytes hold free values. An unsliced context has no save area (R376, R385). -/
def State.putCoreRecord (s : State) (core ctx : Nat) (engines : Nat) : State :=
  if (s.ctx ctx).saveSize = 0 then s
  else
    let relief := ((List.range 16).map fun b => if (s.core core).saved.get (fun _ => false) (16 * ctx + b) then 2 ^ b else 0).sum
    (s.homeWriteBytes ((s.ctx ctx).saveBase + 0x100 * core)
      (bytesOf 8 engines ++ bytesOf 8 ((s.core core).savedAt.at 0 ctx) ++ bytesOf 2 relief ++ bytesOf 6 0
        ++ (freeList s.draws 232).map (BitVec.ofNat 8))).1.drew 232

/-! ## Relief at a switch (R386, 06 R182) -/

/-- The positions of a Relief block, by bank index (06 R179). -/
def blockPos (b q : Nat) : Nat := (4 * (b / 4) + q / 4) * 16 + 4 * (b % 4) + q % 4

/-- A bank and its flag word are written to the holder's Relief slot; poisoned granules become poisoned lines. -/
def State.saveBank (s : State) (core ctx b q : Nat) : State :=
  let k := bankKey core (blockPos b q)
  let x := s.bank k
  let base := (s.ctx ctx).reliefSlot core b + 0x200000 * q
  let s1 := s.regionPut base 0x200000 x.data
  let bad := if x.lost then List.range 32768 else (x.poison.filter fun e => e.2).map fun e => e.1
  let s2 := { s1 with mem := { s1.mem with poison := bad.foldl (fun p g => p.set (fun _ => false) (base / 64 + g) true) s1.mem.poison } }
  let c := s2.core core
  (s2.setCore core { c with savedFlags := c.savedFlags.put 0 (16 * (16 * ctx + b) + q) x.flags }).setBank k { x with resv := [] }

/-- A bank and its flag word are loaded from a context's Relief slot. -/
def State.loadBank (s : State) (core ctx b q : Nat) : State :=
  let k := bankKey core (blockPos b q)
  let x := s.bank k
  let base := (s.ctx ctx).reliefSlot core b + 0x200000 * q
  let s1 := s.recallIn base 0x200000
  let d : Mem := (s1.mem.dev.filter fun e => decide (base ≤ e.1) && decide (e.1 < base + 0x200000)).map fun e => (e.1 - base, e.2)
  let bad : SMap Bool := (s1.mem.poison.filter fun e => decide (base ≤ 64 * e.1) && decide (64 * e.1 < base + 0x200000)).map fun e => (e.1 - base / 64, true)
  let c := s1.core core
  let fl := c.savedFlags.at 0 (16 * (16 * ctx + b) + q)
  (s1.setCore core { c with savedFlags := c.savedFlags.put 0 (16 * (16 * ctx + b) + q) 0 }).setBank k
    { x with data := d, poison := bad, flags := fl, resv := [] }

/-- Where an access to a Relief page's bank is performed once the block's contents lie in their slot, or the reverse (06 R182). -/
def Place.inSlot (core b slot : Nat) (save : Bool) : Place → Place
  | .bank k off =>
    match (List.range 16).find? fun q => bankKey core (blockPos b q) == k with
    | some q => if save then .stack (slot + 0x200000 * q + off) else .bank k off
    | none => .bank k off
  | .stack a =>
    if ¬ save ∧ slot ≤ a ∧ a < slot + 0x2000000 then .bank (bankKey core (blockPos b ((a - slot) / 0x200000))) ((a - slot) % 0x200000) else .stack a
  | p => p

/-- The accesses that a context's cells have outstanding on a block wait while it is swapped, and then reach its contents where they lie (R387, 06 R182). -/
def State.moveAccesses (s : State) (core ctx b : Nat) (save : Bool) : State :=
  let go := fun p => Place.inSlot core b ((s.ctx ctx).reliefSlot core b) save p
  { s with flights := s.flights.map fun e =>
      match s.engineAt (e.1 / 256) (e.1 % 256) with
      | some n =>
        if (s.engine (e.1 / 256) n).ctx = ctx then
          (e.1, { e.2 with
            loads := e.2.loads.map fun l => { l with place := go l.place }
            stbuf := e.2.stbuf.map fun x => { x with place := go x.place } })
        else e
      | none => e }

/-- The claim of a block passes to a context: the holder's contents are saved, and the incomer's own are loaded where they were saved; a sliced holder alone can lose a block (R386, 06 R182). -/
def State.passBlock (s : State) (core into b : Nat) : State :=
  let s1 : State :=
    match s.claimant core b with
    | some h =>
      if h = into then s
      else
        let t := (List.range 16).foldl (fun u q => u.saveBank core h b q) s
        let k := t.core core
        (t.setCore core { k with saved := k.saved.set (fun _ => false) (16 * h + b) true }).moveAccesses core h b true
    | none => s
  let s2 : State :=
    if (s1.core core).saved.get (fun _ => false) (16 * into + b) then
      let t := (List.range 16).foldl (fun u q => u.loadBank core into b q) s1
      let k := t.core core
      (t.setCore core { k with saved := k.saved.set (fun _ => false) (16 * into + b) false }).moveAccesses core into b false
    else s1
  let k := s2.core core
  let s3 := s2.setCore core { k with claims := k.claims.put 0 b (into + 1) }
  match s.claimant core b with
  | some h =>
    if h = into then s3
    else s3.putCoreRecord core h (((s3.enginesFor core h).filter fun n => !(s3.core core).residents.contains h && (s3.engine core n).formed).map fun n => 2 ^ n).sum
  | none => s3

end Sys2Proof.Machine
end

