-- ==== Sys2Proof/Machine/Armature.lean ====
section
/-! DEFINITION. Armature: forming and releasing engines, Maquette runs, and the quarantine of failing cells (02 R30 to R64). -/

namespace Sys2Proof.Machine

/-! ## Requests (R37 to R48, R64) -/

/-- The Armature page of a core. -/
def armPage (core : Nat) : Nat := corePage core 0

/-- The page number of a core's Armature. -/
def armNo (core : Nat) : Nat := 0x1000 + 0x100 * core

/-- The context of a request is live and belongs to the partition that owns the core (R39). -/
def State.armCtxOk (s : State) (core ctx : Nat) : Bool := (s.ctx ctx).state == 1 && s.coreOwner core == some (s.ctx ctx).part

/-- The result record (R64); a release writes the header alone. FREE is 0 for a release and for a request that ended before step 3, and there are no engine entries where the tables were not read (log 84). EST_NS of a Maquette run is the complex's estimate. -/
def ArmReq.resultBytes (r : ArmReq) (status index time est logseq : Nat) : List Byte :=
  let es := if r.mode = 2 then [] else r.engines
  bytesOf 1 status ++ bytesOf 1 r.mode ++ bytesOf 2 index ++ bytesOf 2 (es.map fun e => 2 ^ e.sizeLog2).sum ++ bytesOf 2 r.free
    ++ bytesOf 2 r.signals ++ bytesOf 1 r.barriers ++ bytesOf 1 es.length ++ bytesOf 4 r.monitors ++ bytesOf 8 time ++ bytesOf 8 est
    ++ bytesOf 8 logseq ++ bytesOf 24 0
    ++ (es.mapIdx fun n e => bytesOf 1 e.engine ++ bytesOf 1 e.sizeLog2 ++ bytesOf 1 ((r.places[n]?).getD 0xFF) ++ bytesOf 1 0 ++ bytesOf 4 e.opstore).flatten

/-- BUSY shows that a request is in progress or waits. -/
def State.armBusy (s : State) (core : Nat) : State :=
  let k := s.core core
  s.setFld (armPage core) .armReqStat Fld.armReqStat_busy (b2n (k.arm.isSome || !k.armQ.isEmpty))

/-- A request ends with a status: one Patina entry, the result record, ARM_REQ_STAT, and the outcome of a queue's command (R38, R44 step 7, R46, R64, 11 R359). None while the record's lines cannot be served. -/
def State.armEnd (s : State) (core : Nat) (r : ArmReq) (status index : Nat) : Option State :=
  let s1 := s.patina 2 19 (partByte (s.coreOwner core) false) (b2n (r.mode == 1 || status != 0)) (armNo core + 65536 * status)
    (if r.mode = 2 then r.mask else r.image) (packFields [(2, r.ctx), (1, r.mode)])
  let est := if r.mode = 1 then s.draw else s.time - r.start
  let out := if r.record = 0 ∨ r.record % 64 ≠ 0 ∨ (s.ctx r.ctx).state = 0 ∨ s.coreOwner core ≠ some (s.ctx r.ctx).part then some s1
    else s1.vaWrite r.ctx r.record (r.resultBytes status index s.time est s.pl.patina.count)
  out.map fun t =>
    let t1 := ((t.setCore core { t.core core with arm := none }).drew 1).armBusy core
    let pk := armPage core
    let t2 := ((t1.setFld pk .armReqStat Fld.armReqStat_done 1).setFld pk .armReqStat Fld.armReqStat_status status).setFld
      pk .armReqStat Fld.armReqStat_index index
    match r.cmd with
    | some (q, n) => t2.report q n (if status = 0 then 0 else 15)
    | none => t2

/-- A request in progress changes. -/
def State.setArm (s : State) (core : Nat) (r : ArmReq) : State := s.setCore core { s.core core with arm := some r }

/-- An engine is released: its positions become free, and a context that holds no other engine on the core leaves the rotation (R43, R54, 12 R380). -/
def State.releaseEngine (s : State) (core n : Nat) : State :=
  let x := (s.engine core n).ctx
  let k := s.core core
  let s1 := s.setCore core { k with engines := k.engines.erase n }
  if (s1.formedOn core).any fun m => (s1.engine core m).ctx == x then s1
  else
    let j := s1.core core
    s1.setCore core { j with rotation := j.rotation.erase x, residents := j.residents.erase x, expired := j.expired.erase x }

/-- Release: all of the named engines, or none (R43, R379). ENGINE_ACTIVE is judged of the context's own engines; one formed for another context is absent, running or not (log 84). -/
def State.armRelease (s : State) (core : Nat) (r : ArmReq) : Option State :=
  let ns := (List.range 64).filter fun n => r.mask.testBit n
  let mine := fun n => (s.engine core n).formed && (s.engine core n).ctx == r.ctx
  let active := fun n => (s.engine core n).cmd.isSome || (s.engine core n).state == 5 || (s.engine core n).stopping != 0
  if ns.any fun n => mine n && active n then s.armEnd core r 0x12 noIndex
  else if ns.any fun n => !mine n then s.armEnd core r 0x14 noIndex
  else (ns.foldl (fun t n => t.releaseEngine core n) s).armEnd core r 0 noIndex

/-- A request starts once Armature is free: MODE and context are checked, a release is performed, and the image checks of the others begin (R38, R39, R48). -/
def State.armStart (s : State) (core : Nat) (r0 : ArmReq) : Option State :=
  let r := { r0 with start := s.time }
  if r.mode = 3 then s.armEnd core r 0x15 noIndex
  else if ¬ s.armCtxOk core r.ctx then s.armEnd core r 0x10 noIndex
  else if r.mode = 2 then s.armRelease core r
  else some ((s.setArm core { r with step := 1 }).armBusy core)

/-- A request is submitted: it starts at once where Armature is free, and waits otherwise, behind a quarantine too (R38, R60). -/
def State.armSubmit (s : State) (core : Nat) (r : ArmReq) : State :=
  let k := s.core core
  let wait := fun (t : State) => (t.setCore core { t.core core with armQ := (t.core core).armQ ++ [r] }).armBusy core
  if k.arm.isSome || !k.armQ.isEmpty || !k.quars.isEmpty then wait s
  else
    match s.armStart core r with
    | some t => t
    | none => wait s

/-- The request that the registers hold (R63). -/
def State.armOf (s : State) (src core : Nat) (v : Word) : ArmReq :=
  let pk := armPage core
  { ctx := Fld.armReqCtl_context.get v, image := s.fld pk .armReqAddr Fld.armReqAddr_image, mode := Fld.armReqCtl_mode.get v
    full := Fld.armReqCtl_full.get v == 1, mask := s.fld pk .armReqMask Fld.armReqMask_engines
    record := s.fld pk .armResAddr Fld.armResAddr_record, cmd := none, src := src }

/-- A GO write of ARM_REQ_CTL: refused while BUSY is set (R38). -/
def State.armGo (s : State) (src core : Nat) (v : Word) : State :=
  s.triggerIf src (armNo core) .armReqCtl v (fun t => t.fld (armPage core) .armReqStat Fld.armReqStat_busy == 0)
    fun t => t.armSubmit core (t.armOf src core v)

/-- FORM: GO with MODE 0 (R37, R40). -/
def opForm (src core : Nat) (v : Word) (s : State) : State :=
  if v.bit 63 ∧ Fld.armReqCtl_mode.get v = 0 then s.armGo src core v else s

/-- MAQUETTE: GO with MODE 1 (R46, R47). -/
def opMaquette (src core : Nat) (v : Word) (s : State) : State :=
  if v.bit 63 ∧ Fld.armReqCtl_mode.get v = 1 then s.armGo src core v else s

/-- RELEASE: GO with MODE 2 (R43). -/
def opRelease (src core : Nat) (v : Word) (s : State) : State :=
  if v.bit 63 ∧ Fld.armReqCtl_mode.get v = 2 then s.armGo src core v else s

/-- ARM_QUEUED_REQUEST_START: the first waiting request starts once Armature is free and no quarantine is before it (R38, R60). -/
def opArmQueuedRequestStart (core : Nat) (s : State) : State :=
  let k := s.core core
  match k.armQ with
  | r :: rest =>
    if s.serving && k.arm.isNone && k.quars.isEmpty then ((s.setCore core { k with armQ := rest }).armStart core r).getD s else s
  | [] => s

/-- Contexts resident on a core whose cells or Relief claims stand where a placed request goes, or claims of absent ones (12 R378). -/
def State.armConflicts (s : State) (core : Nat) (r : ArmReq) : List Nat :=
  (s.core core).residents.filter fun x => x != r.ctx && (s.formedOn core).any fun n =>
    (s.engine core n).ctx == x && (s.positions core n).any r.positions.contains

/-- A block that a placed request claims is claimed by another context. -/
def State.armTakes (s : State) (core : Nat) (r : ArmReq) : Bool :=
  r.blocks.any fun b => match s.claimant core b with
    | some x => x != r.ctx
    | none => false

/-- The requesting context must be switched in before step 5 (12 R378). -/
def State.armNeedsSwitch (s : State) (core : Nat) (r : ArmReq) : Bool :=
  let k := s.core core
  k.switch.isSome || !(s.armConflicts core r).isEmpty || s.armTakes core r
    || (!k.residents.contains r.ctx && (s.formedOn core).any fun n => (s.engine core n).ctx == r.ctx)

/-- A placed form request goes on to step 5, its context resident, or waits for the switch (R44, 12 R378). -/
def State.armPlaced (s : State) (core : Nat) (r : ArmReq) : State :=
  if s.armNeedsSwitch core r then s.setArm core { r with step := 4 }
  else
    let k := s.core core
    ((s.noteUse r.ctx).setCore core { k with residents := if k.residents.contains r.ctx then k.residents else k.residents ++ [r.ctx] }).setArm core { r with step := 5 }

/-- What a failed read of a context's device memory leaves: a walk that met poison has consumed it and is recorded, as is a missing translation, and so is the poison of the data (16 R483, 10 R335, R568). -/
def State.vaConsume (s : State) (ctx va n : Nat) : State :=
  let s1 := ((List.range ((va + n - 1) / 0x2000000 + 1 - va / 0x2000000)).map fun j => max va ((va / 0x2000000 + j) * 0x2000000)).foldl
    (fun t a => if a < 2 ^ 51 then t.xlFill 16 ctx a .read 0xFF else t) s
  (List.range n).foldl (fun t i =>
    match s.chPlace ctx false (va + i) false with
    | .place (.stack a) => if t.mem.homePoison (a / 64) then t.consumePoison (a / 64) ctx else t
    | _ => t) s1

/-- A part of the image is read and used, or the request ends with IMAGE_UNREADABLE (R39, R48). -/
def State.armRead (s : State) (core : Nat) (r : ArmReq) (off n : Nat) (k : List Byte → Option State) : Option State :=
  match s.vaRead r.ctx (r.image + off) n with
  | none => none
  | some none => (s.vaConsume r.ctx (r.image + off) n).armEnd core r 0x11 noIndex
  | some (some bytes) => k bytes

/-- Steps 3 and 4 of formation (R44, R47): resources, then placement; a Maquette run ends here. -/
def State.armFit (s : State) (core : Nat) (r : ArmReq) : Option State :=
  let occ := (s.occupied r core).eraseDups
  let r1 := { r with free := 256 - occ.length }
  match firstFail (s.resourceChecks r1 core) with
  | some f => s.armEnd core r1 f.status f.index
  | none =>
    match placeAll (s.reliefRoom r1 core) r1.engines (placeOrder r1.engines) occ [] with
    | .error f => s.armEnd core r1 f.status f.index
    | .ok out =>
      let r2 := { r1 with places := originsOf r1.engines out }
      if r.mode = 1 then s.armEnd core r2 0 noIndex else some (s.armPlaced core r2)

/-- ARM_IMAGE_READ_DONE: one part of the image has been read (header, tables, then the rest), and the checks that need it run (R48). An image address that is not a multiple of 64 cannot be read: IMAGE_UNREADABLE (log 84). -/
def opArmImageReadDone (core : Nat) (s : State) : State :=
  match (s.core core).arm with
  | none => s
  | some r =>
    if ¬ s.serving then s
    else
      let out : Option State :=
        if r.step = 1 then
          if r.image % 64 ≠ 0 then s.armEnd core r 0x11 noIndex
          else s.armRead core r 0 0x80 fun hd =>
            match firstFail (headChecks hd) with
            | some f => s.armEnd core r f.status f.index
            | none => some (s.setArm core { r with step := 2, head := hd })
        else if r.step = 2 then
          s.armRead core r (imgEtab r.head) (32 * imgEngines r.head) fun et =>
            s.armRead core r (imgStab r.head) (32 * imgSections r.head) fun st =>
              let r1 := { r with
                step := 3, etab := et, stab := st, engines := (List.range (imgEngines r.head)).map (engEntry et)
                sections := (List.range (imgSections r.head)).map (secEntry st), signals := leAt r.head 0x26 2
                barriers := leAt r.head 0x24 1, monitors := leAt r.head 0x28 4 }
              match firstFail (tableChecks r.head et st) with
              | some f => s.armEnd core r1 f.status f.index
              | none => some (s.setArm core r1)
        else if r.step = 3 then
          s.armRead core r 0 (imgSize r.head + (if (imgFlags r.head).testBit 0 then 0x80 else 0)) fun body =>
            match firstFail (s.bodyChecks (s.ctx r.ctx).part (imgBytes r.head r.etab r.stab body)) with
            | some f => s.armEnd core r f.status f.index
            | none => s.armFit core r
        else none
      out.getD s

/-- A cell is cleared: registers, accumulators, predicates, descriptors, tokens and operand store are zero (R41). -/
def State.clearCell (s : State) (k : Nat) : State := (((s.dropResv k).setCell k {}).setFlight k {}).setGather k {}

/-- ARM_CELLS_CLEARED: every cell of the new engines is zero (R41, R44 step 5). -/
def opArmCellsCleared (core : Nat) (s : State) : State :=
  match (s.core core).arm with
  | some r =>
    if s.serving && r.step == 5 then (r.positions.foldl (fun t p => t.clearCell (256 * core + p)) s).setArm core { r with step := 6 } else s
  | none => s

/-- The preload sections of a request with their data: none while a line cannot be served; an inner none where one cannot be read. -/
def State.armData (s : State) (r : ArmReq) : List Nat → Option (Option (List (Nat × List Byte)))
  | [] => some (some [])
  | k :: ks =>
    match r.sections[k]? with
    | none => s.armData r ks
    | some x =>
      match s.vaRead r.ctx (r.image + x.offset) x.length with
      | none => none
      | some none => some none
      | some (some d) =>
        match s.armData r ks with
        | some (some l) => some (some ((k, d) :: l))
        | z => z

/-- One preload section is written in every cell of an engine (R51, R52). -/
def State.preload (s : State) (core origin k : Nat) (x : SecEntry) (d : List Byte) : State :=
  ((rectOf origin k).mapIdx fun i p => (i, p)).foldl (fun t e =>
    let piece := if x.perCell then (d.drop (e.1 * x.stride)).take x.stride else d
    let key := 256 * core + e.2
    if x.typ = 2 then t.setCell key { t.cell key with ops := (t.cell key).ops.writeBytes x.dest piece }
    else (t.bankWrite key x.dest piece none).1) s

/-- One engine of the image is formed (R41, R54, 06 R181). -/
def State.formEngine (s : State) (core : Nat) (r : ArmReq) (data : List (Nat × List Byte)) (e : EngEntry) (origin : Nat) : State :=
  let code := (r.sections[e.codeSec]?).getD ⟨0, 0, 0, 0, 0, 0⟩
  let s1 := (e.preloads r.sections).foldl (fun t p =>
    match data.find? fun d => d.1 == p.1 with
    | some d => t.preload core origin e.sizeLog2 p.2 d.2
    | none => t) s
  let s2 := (rectOf origin e.sizeLog2).foldl (fun t p => t.setCell (256 * core + p) { t.cell (256 * core + p) with pc := e.entry }) s1
  let k := s2.core core
  let g : Engine := { formed := true, sizeLog2 := e.sizeLog2, origin := origin, ctx := r.ctx, entry := e.entry, codeBase := r.image + code.offset
                      codeLen := code.length, opstore := e.opstore, relief := e.relief, order := k.formed + 1 }
  s2.setCore core { k with engines := k.engines.put {} e.engine g, formed := k.formed + 1 }

/-- A block that passed to the requester goes back: to the claimant before, while that context lives, else to none; the requester's own contents lie in its slot again where they did before (R40). -/
def State.untake (s : State) (core ctx : Nat) (x : Nat × Option Nat × Bool) : State :=
  let keep := fun (t : State) =>
    let k := t.core core
    t.setCore core { k with saved := k.saved.set (fun _ => false) (16 * ctx + x.1) x.2.2 }
  let none_ := fun (t : State) =>
    let u := if x.2.2 then (List.range 16).foldl (fun u q => u.saveBank core ctx x.1 q) t else t
    let k := u.core core
    keep (u.setCore core { k with claims := k.claims.put 0 x.1 0 })
  match x.2.1 with
  | some h => if (s.ctx h).state = 1 then keep (s.passBlock core h x.1) else none_ s
  | none => none_ s

/-- A formation that fails after its placement leaves the core as it was: the blocks that passed for it go back, and a context without an engine there is not resident (R40; log 84). -/
def State.armUndo (s : State) (core : Nat) (r : ArmReq) : State :=
  let s1 := r.took.foldl (fun t x => t.untake core r.ctx x) s
  if (s1.formedOn core).any fun n => (s1.engine core n).ctx == r.ctx then s1
  else
    let k := s1.core core
    s1.setCore core { k with residents := k.residents.erase r.ctx, expired := k.expired.erase r.ctx }

/-- ARM_PRELOAD_DONE: the preloads are copied, the map of engines is committed, and the request ends (R40, R41, R44 steps 6 and 7, R60, 06 R181). -/
def opArmPreloadDone (core : Nat) (s : State) : State :=
  match (s.core core).arm with
  | none => s
  | some r =>
    if ¬ s.serving ∨ r.step ≠ 6 then s
    else if r.lost then ((s.armUndo core r).armEnd core r 0x0B noIndex).getD s
    else
      match s.armData r ((r.engines.flatMap fun e => (e.preloads r.sections).map fun p => p.1).eraseDups) with
      | none => s
      | some none => ((s.armUndo core r).armEnd core r 0x11 noIndex).getD s
      | some (some data) =>
        let s1 := (r.engines.zip r.places).foldl (fun t p => t.formEngine core r data p.1 p.2) s
        let k := s1.core core
        let s2 := s1.setCore core { k with
          claims := r.blocks.foldl (fun m b => m.put 0 b (r.ctx + 1)) k.claims
          rotation := if k.rotation.contains r.ctx then k.rotation else k.rotation ++ [r.ctx] }
        (s2.armEnd core r 0 noIndex).getD s

/-! ## Quarantine (R55 to R61, 06 R199 to R202) -/

/-- The free spares of a core (R30). -/
def State.spares (s : State) (core : Nat) : List Nat :=
  if (s.core core).mapped then (List.range 272).filter fun n => (s.core core).roles.at 0 n == 0 else []

/-- The logical position over a physical cell. -/
def State.posOfCell (s : State) (core cell : Nat) : Option Nat := (List.range 256).find? fun p => (s.core core).map.at 0 p == cell + 1

/-- Every granule of a bank is poisoned (R58, 06 R199). -/
def allPoison : SMap Bool := (List.range 32768).map fun g => (g, true)

/-- A poisoned granule or a bank leaving service is recorded (06 R202). -/
def State.bankLog (s : State) (core pos granule cause : Nat) : State :=
  let pk := corePage core 1
  let s1 := (((s.setFld pk .relPlog Fld.relPlog_position pos).setFld pk .relPlog Fld.relPlog_granule granule).setFld
    pk .relPlog Fld.relPlog_cause cause).setFld pk .relPlog Fld.relPlog_time s.time
  s1.logEvent 5 (s.coreOwner core) (armNo core + 1) 7 core
    (packFields [(1, pos), (2, granule), (2, (s.claimant core (blockOfPos pos)).getD 0), (1, (s.coreOwner core).getD 16)])

/-- What happens to the bank of a position that a hard failure took (R58, 06 R201): with a spare its contents are kept, or, where the bank itself failed, every granule of the new one is poisoned, counted and recorded; without a spare it leaves service. Which of the first two is the complex's finding, a free value. -/
def State.hardBank (s : State) (core pos : Nat) (spare : Bool) : State :=
  let k := bankKey core pos
  if ¬ spare then (s.setBank k { s.bank k with lost := true, resv := [] }).bankLog core pos 0 2
  else if s.draw % 2 = 1 then
    let s1 := (s.setBank k { s.bank k with data := [], poison := allPoison, resv := [] }).bumpCore core (corePage core 1) .relErrcnt Fld.relErrcnt_uncorr 32768
    ((List.range 32768).foldl (fun t g => t.bankLog core pos g 1) s1).drew 1
  else s.drew 1

/-- A cell fails hard under an engine: the engine stops at once, a collective whose source it is and its own operations are cut, and it issues nothing further. The engine keeps its first fault code (R57, 04 R111). -/
def State.hardStop (s : State) (core n pos code : Nat) : State :=
  let e := s.engine core n
  let k := 256 * core + pos
  let i := ((List.range e.size).find? fun j => e.posOf j == pos).getD 0
  let s1 := if e.stopping = 0 then s.stopEngine core n 3 else s
  let s2 := (e.keys core).foldl (fun t c => (t.flight c).mq.foldl (fun u o => match o.kind with
    | .mvbc tl _ inst => if ((u.engine core n).mvbc.at (0, 0) inst).1 = i + 1 ∧ c ≠ k then u.cutMvbc core n c o tl inst else u
    | _ => u) t) s1
  let s3 := (s2.cutCell core n k).stopCell core k
  let s4 := s3.setFlight k { s3.flight k with failed := none }
  let g := s4.engine core n
  let first := e.stopping == 0 && e.cmd.isSome
  s4.setEngine core n { g with
    stopping := 3
    faultCode := if e.stopping = 3 ∨ e.state = 2 then g.faultCode else code
    trapCode := if first then code else g.trapCode
    trapCell := if first then i else g.trapCell
    trapPc := if first then (s.cell k).pc else g.trapPc }

/-- The cell under a position is quarantined and a spare, if there is one, mapped under it (R30, R31, R33, R57, R58, R61). Which spare is a free choice. After a hard failure the cell state at the position is cleared, unless another engine has been switched in there: that one keeps its state on the spare, and stops with CELL_LOST where none is free (12 R391). A cell that no engine holds is recorded as engine 0 (log 45). -/
def State.substitute (s : State) (core : Nat) (q : Quar) : State :=
  let sp := s.spares core
  let pick := sp[s.draw % sp.length]?
  let k := s.core core
  let roles := match pick with
    | some n => (k.roles.put 0 q.cell 3).put 0 n 1
    | none => k.roles.put 0 q.cell 3
  let s1 := ({ (s.setCore core { k with roles := roles, map := k.map.put 0 q.pos (match pick with
    | some n => n + 1
    | none => 0) }) with flash := { s.flash with quarantine := s.flash.quarantine ++ [512 * core + q.cell] } }).drew 1
  let here := s1.engineAt core q.pos
  let s2 :=
    if q.hard then
      let t := match here with
        | some m =>
          if q.holder = some m then s1.clearCell (256 * core + q.pos)
          else if pick.isNone then s1.hardStop core m q.pos 9
          else s1
        | none => s1.clearCell (256 * core + q.pos)
      t.hardBank core q.pos pick.isSome
    else s1
  let pk := armPage core
  let held := q.holder.getD 0
  let s3 := (s2.bump pk .armQcount Fld.armQcount_quarantined 1).bump pk .armQcount (if q.hard then Fld.armQcount_hard else Fld.armQcount_migrations) 1
  let s4 := s3.wr (pk + Reg.armQlog.off) (Word.ofNat (Fld.armQlog_cell.at q.cell + Fld.armQlog_trigger.at q.trigger + Fld.armQlog_engine.at held
    + Fld.armQlog_migrated.at (b2n (!q.hard)) + Fld.armQlog_time.at q.time))
  (s4.logEvent 5 (s.coreOwner core) (armNo core) q.trigger core
    (packFields [(2, q.cell), (1, q.pos), (1, q.trigger), (1, held), (1, (s.coreOwner core).getD 16)])).noteHealth

/-- A migrated engine resumes, unless another quarantine holds it (R56). -/
def State.resumeEngine (s : State) (core n : Nat) : State :=
  let e := s.engine core n
  if e.state = 5 ∧ ¬ ((s.core core).quars.any fun q => q.eng == some n) then s.setEngine core n { e with state := 1 } else s

/-- The first quarantine of a core is carried out and leaves the list; a soft one that finds no spare left only resumes its engine (R55, R56, R60). -/
def State.quarDone (s : State) (core : Nat) : State :=
  match (s.core core).quars with
  | [] => s
  | q :: rest =>
    let k := s.core core
    let s1 := s.setCore core { k with quars := rest }
    let s2 := if q.hard || !(s.spares core).isEmpty then s1.substitute core q else s1
    match q.eng with
    | some n => if q.hard then s2 else s2.resumeEngine core n
    | none => s2

/-- The first quarantine may be carried out: no request and no switch is in progress, and its engine has stopped (R56, R57, R60, 12 R391). -/
def State.quarReady (s : State) (core : Nat) : Option Quar :=
  let k := s.core core
  match k.quars with
  | [] => none
  | q :: _ =>
    let ok := match q.eng with
      | some n => if q.hard then (s.engine core n).stopping != 3 else q.drained
      | none => true
    if s.serving && k.arm.isNone && k.switch.isNone && ok then some q else none

/-- A position is being cleared or preloaded by a formation (R60). -/
def State.forming (s : State) (core pos : Nat) : Bool :=
  match (s.core core).arm with
  | some r => (r.step == 5 || r.step == 6) && r.positions.contains pos
  | none => false

/-- A cell that fails during its clearing or preload is replaced at once; without a spare the formation will end with NO_ROOM (R60). -/
def State.formSubstitute (s : State) (core : Nat) (q : Quar) : State :=
  let none? := (s.spares core).isEmpty
  let s1 := s.substitute core q
  match (s1.core core).arm with
  | some r => if none? then s1.setArm core { r with lost := true } else s1
  | none => s1

/-- A quarantine joins the core's list, in the order of detection (R60). -/
def State.addQuar (s : State) (core : Nat) (q : Quar) : State :=
  let k := s.core core
  s.setCore core { k with quars := k.quars ++ [{ q with deferred := k.arm.isSome }] }

/-- An engine leaves the core in the switch in progress. -/
def State.leaving (s : State) (core n : Nat) : Bool :=
  match (s.core core).switch with
  | some w => w.step == 1 && w.out.contains (s.engine core n).ctx
  | none => false

/-- SOFT_QUARANTINE_TRIGGER: `n` corrected errors count against the cell. Once they reach CE_THRESHOLD within CE_WINDOW, with MIGRATE set and a spare free the engine stops for a migration; one that is being pre-empted finishes that first, and its saved state moves by remapping. Otherwise the errors are only counted (R27, R55, R56, R60). -/
def opSoftQuarantineTrigger (core cell n : Nat) (s0 : State) : State :=
  let s := if s0.serving then s0.countCe core cell n else s0
  match s.posOfCell core cell with
  | none => s
  | some pos =>
    let held := s.engineAt core pos
    let q : Quar := { cell := cell, pos := pos, eng := held, trigger := 1, hard := false, time := s.time, holder := held }
    if ¬ s.serving ∨ ¬ s.ceReached core cell ∨ s.fld (armPage core) .armQpol Fld.armQpol_migrate = 0 ∨ (s.spares core).isEmpty
        ∨ (s.core core).quars.any (fun x => x.cell == cell) then s
    else if s.forming core pos then s.formSubstitute core q
    else
      match held with
      | some m =>
        if s.leaving core m then s.addQuar core { q with eng := none, drained := true }
        else
          let e := s.engine core m
          let s1 := if e.state = 1 ∧ e.stopping = 0 then s.setEngine core m { e with state := 5 } else s
          s1.addQuar core { q with drained := e.state != 1 && e.state != 5 && e.stopping == 0 }
      | none => s.addQuar core { q with drained := true }

/-- A blocked instruction that a stop abandons is issued again on resume; a monitor waiter leaves its slot, and a BAR SYNC keeps its arrival (08 R262, R265). -/
def State.abandonBlock (s : State) (core k : Nat) : State :=
  match (s.cell k).phase with
  | .blocked (.barSync _ _ _) => s
  | .blocked (.fence _ _ _ _) => s
  | .blocked _ =>
    let s1 := s.unblock core k
    s1.setCell k { s1.cell k with phase := .running }
  | _ => s

/-- An engine that is stopping has reached its instruction boundaries: nothing is in flight, and no MVBC collective waits for a cell (04 R111, 07 R232). A cell blocked in a fence ends it first. -/
def State.stoppedAt (s : State) (core n : Nat) : Bool :=
  let e := s.engine core n
  e.stopping == 0 && s.engineQuiet core n && s.mvbcMin core e == s.mvbcMax core e
    && (e.keys core).all fun k => (s.flight k).failed.isNone && (match (s.cell k).phase with
      | .blocked (.fence _ _ _ _) => false
      | _ => true)

/-- MIGRATION_DRAINED: the first quarantine's engine has stopped at instruction boundaries; its reservations are lost and its blocked instructions abandoned (R56, 05 R144, 07 R232, 08 R265). An engine whose command has ended meanwhile has stopped too. -/
def opMigrationDrained (core : Nat) (s : State) : State :=
  match (s.core core).quars with
  | q :: rest =>
    match q.eng with
    | some n =>
      if s.serving && !q.hard && !q.drained && s.stoppedAt core n then
        let s1 := ((s.engine core n).keys core).foldl (fun t k => (t.abandonBlock core k).dropResv k) s
        s1.setCore core { s1.core core with quars := { q with drained := true } :: rest }
      else s
    | none => s
  | [] => s

/-- MIGRATION_COMPLETE: the copies of state and bank end, the position is remapped, the old cell is quarantined and the engine resumes (R56, R61). -/
def opMigrationComplete (core : Nat) (s : State) : State :=
  match s.quarReady core with
  | some q => if !q.hard && !q.deferred then s.quarDone core else s
  | none => s

/-- QUARANTINE_DEFERRED_START: a quarantine that waited for an Armature request, or for one before it, is carried out (R60). -/
def opQuarantineDeferredStart (core : Nat) (s : State) : State :=
  match s.quarReady core with
  | some q => if q.hard || q.deferred then s.quarDone core else s
  | none => s

/-- A spare that fails is quarantined: nothing runs on it and no position moves (R30, R33, R55, R61). Its entries name position 0 and engine 0 (log 45). -/
def State.quarantineSpare (s : State) (core cell trigger : Nat) : State :=
  let k := s.core core
  let s1 := { s.setCore core { k with roles := k.roles.put 0 cell 3 } with flash := { s.flash with quarantine := s.flash.quarantine ++ [512 * core + cell] } }
  let pk := armPage core
  let s2 := (s1.bump pk .armQcount Fld.armQcount_quarantined 1).bump pk .armQcount Fld.armQcount_hard 1
  let s3 := s2.wr (pk + Reg.armQlog.off) (Word.ofNat (Fld.armQlog_cell.at cell + Fld.armQlog_trigger.at trigger + Fld.armQlog_time.at s.time))
  (s3.logEvent 5 (s.coreOwner core) (armNo core) trigger core (packFields [(2, cell), (1, 0), (1, trigger), (1, 0), (1, (s.coreOwner core).getD 16)])).noteHealth

/-- HARD_QUARANTINE_TRIGGER: the engine that holds the cell stops at once, the failed cell's operations are cut, and the quarantine follows (R55, R57, R60). Triggers: 2 uncorrectable (ECC_UNCORR), 3 handshake or droop self-check, 4 parity (CELL_LOST). -/
def opHardQuarantineTrigger (core cell trigger : Nat) (s : State) : State :=
  match s.posOfCell core cell with
  | none => if s.serving && between 2 trigger 4 && (s.spares core).contains cell then s.quarantineSpare core cell trigger else s
  | some pos =>
    let held := s.engineAt core pos
    let q : Quar := { cell := cell, pos := pos, eng := held, trigger := trigger, hard := true, time := s.time, holder := held }
    if ¬ s.serving ∨ ¬ between 2 trigger 4 ∨ (s.core core).quars.any (fun x => x.cell == cell && x.hard) then s
    else if s.forming core pos then s.formSubstitute core q
    else
      let s1 := match held with
        | some n => s.hardStop core n pos (if trigger = 2 then 7 else 9)
        | none => s
      let j := s1.core core
      (s1.setCore core { j with quars := j.quars.filter fun x => x.hard || (x.cell != cell && (held.isNone || x.eng != held)) }).addQuar core q

/-- ENGINE_FAULTED: every cell of the failed engine has stopped: the failed cell's state is lost, the engine is faulted, its command's part ends with the code, and the spare is substituted unless an Armature request or another quarantine comes first (R57, R60). -/
def opEngineFaulted (core eng : Nat) (s : State) : State :=
  let e := s.engine core eng
  if s.serving && s.resident core eng && e.stopping == 3 && s.engineQuiet core eng && s.engineTold core eng then
    let lost := (s.core core).quars.filter fun q => q.hard && q.eng == some eng
    let s0 := lost.foldl (fun t q => t.clearCell (256 * core + q.pos)) (s.clearFlights core eng)
    let s1 := s0.engineEnds core eng (if e.cmd.isSome then e.trapCode else 0) 2
    match s1.quarReady core with
    | some q => if q.hard && q.eng == some eng then s1.quarDone core else s1
    | none => s1
  else s

/-! ## Meanings: each command answers the next state that its operation gives. -/

/-- The meaning of FORM. -/
def execForm (src core : Nat) (v : Word) (s : State) : Host.Outcome State Fault Refusal := .next (opForm src core v s)
/-- The meaning of MAQUETTE. -/
def execMaquette (src core : Nat) (v : Word) (s : State) : Host.Outcome State Fault Refusal := .next (opMaquette src core v s)
/-- The meaning of RELEASE. -/
def execRelease (src core : Nat) (v : Word) (s : State) : Host.Outcome State Fault Refusal := .next (opRelease src core v s)
/-- The meaning of ARM_QUEUED_REQUEST_START. -/
def execArmQueuedRequestStart (core : Nat) (s : State) : Host.Outcome State Fault Refusal := .next (opArmQueuedRequestStart core s)
/-- The meaning of ARM_IMAGE_READ_DONE. -/
def execArmImageReadDone (core : Nat) (s : State) : Host.Outcome State Fault Refusal := .next (opArmImageReadDone core s)
/-- The meaning of ARM_CELLS_CLEARED. -/
def execArmCellsCleared (core : Nat) (s : State) : Host.Outcome State Fault Refusal := .next (opArmCellsCleared core s)
/-- The meaning of ARM_PRELOAD_DONE. -/
def execArmPreloadDone (core : Nat) (s : State) : Host.Outcome State Fault Refusal := .next (opArmPreloadDone core s)
/-- The meaning of SOFT_QUARANTINE_TRIGGER. -/
def execSoftQuarantineTrigger (core : Nat) (e : CellErrors) (s : State) : Host.Outcome State Fault Refusal := .next (opSoftQuarantineTrigger core e.cell e.n s)
/-- The meaning of MIGRATION_DRAINED. -/
def execMigrationDrained (core : Nat) (s : State) : Host.Outcome State Fault Refusal := .next (opMigrationDrained core s)
/-- The meaning of MIGRATION_COMPLETE. -/
def execMigrationComplete (core : Nat) (s : State) : Host.Outcome State Fault Refusal := .next (opMigrationComplete core s)
/-- The meaning of QUARANTINE_DEFERRED_START. -/
def execQuarantineDeferredStart (core : Nat) (s : State) : Host.Outcome State Fault Refusal := .next (opQuarantineDeferredStart core s)
/-- The meaning of HARD_QUARANTINE_TRIGGER. -/
def execHardQuarantineTrigger (core cell trigger : Nat) (s : State) : Host.Outcome State Fault Refusal := .next (opHardQuarantineTrigger core cell trigger s)
/-- The meaning of ENGINE_FAULTED. -/
def execEngineFaulted (core eng : Nat) (s : State) : Host.Outcome State Fault Refusal := .next (opEngineFaulted core eng s)

end Sys2Proof.Machine
end

