-- ==== Sys2Proof/Machine/Slicing.lean ====
section
/-! DEFINITION. Time-slicing of a core's contexts: quanta, the choice of a switch, the save area, the swap of Relief blocks, and the restore (12 R375 to R387, R391; 08 R262, R265). -/

namespace Sys2Proof.Machine

/-! ## Work and conflicts (R375, R377, R380) -/

/-- A context has work on a core: an ENGINE command that names one of its engines there has started and not retired; one that waits by 11 R358 has started too (R375). -/
def State.hasWork (s : State) (core ctx : Nat) : Bool :=
  ((s.enginesFor core ctx).any fun n => (s.engine core n).cmd.isSome)
    || s.pl.queues.any fun e => e.2.ctx == ctx && e.2.cmds.any fun c =>
      decide (c.2.state = .running) && c.2.op == 4 && c.2.engCore == core && (s.enginesFor core ctx).any c.2.engMask.testBit

/-- The Relief blocks on which a context has an engine with a RELIEF figure, those of a placed form request included (R386, 06 R181). -/
def State.needsBlocks (s : State) (core ctx : Nat) : List Nat :=
  let formed := ((s.enginesFor core ctx).filter fun n => (s.engine core n).relief != 0).flatMap fun n => (s.positions core n).map blockOfPos
  let coming := match (s.core core).arm with
    | some r => if r.ctx = ctx ∧ r.step = 4 then r.blocks else []
    | none => []
  (formed ++ coming).eraseDups

/-- Two contexts conflict on a core: they share a position, or a block that one claims or needs and the other needs (R375, R380). -/
def State.conflict (s : State) (core a b : Nat) : Bool :=
  let pos := fun x => (s.enginesFor core x).flatMap (s.positions core)
  let claimed := (List.range 16).filter fun k => s.claimant core k == some a
  (pos a).any (pos b).contains || (claimed ++ s.needsBlocks core a).any (s.needsBlocks core b).contains

/-- The residents that a context's switch puts out: those that conflict with it, and those where its placed form request goes (R378, R380). -/
def State.switchOut (s : State) (core ctx : Nat) : List Nat :=
  let k := s.core core
  let forming := match k.arm with
    | some r => if r.ctx = ctx ∧ r.step = 4 then s.armConflicts core r ++ k.residents.filter fun x => r.blocks.any fun b => s.claimant core b == some x else []
    | none => []
  k.residents.filter fun x => x != ctx && (s.conflict core x ctx || forming.contains x)

/-- A context may be switched in by its quantum rule: it is not resident, it has work, and every resident in conflict is sliced and has no work or an expired quantum (R376, R380). -/
def State.mayEnter (s : State) (core ctx : Nat) : Bool :=
  let k := s.core core
  k.rotation.contains ctx && !k.residents.contains ctx && s.hasWork core ctx
    && (s.switchOut core ctx).all fun x => s.sliced x && (!s.hasWork core x || k.expired.contains x)

/-- The rotation from the context after the one most recently switched in (R380). -/
def Core.order (k : Core) : List Nat :=
  match k.lastIn with
  | some x =>
    match k.rotation.findIdx? fun y => y == x with
    | some i => k.rotation.drop (i + 1) ++ k.rotation.take (i + 1)
    | none => k.rotation
  | none => k.rotation

/-- A placed form request asks for its context to be resident (R378). -/
def State.formWaits (s : State) (core ctx : Nat) : Bool :=
  match (s.core core).arm with
  | some r => r.ctx == ctx && r.step == 4
  | none => false

/-- No formation is clearing or preloading cells of the core. -/
def State.notForming (s : State) (core : Nat) : Bool :=
  match (s.core core).arm with
  | some r => r.step != 5 && r.step != 6
  | none => true

/-- QUANTUM_EXPIRY: a resident context's quantum has passed (R380). -/
def opQuantumExpiry (core ctx : Nat) (s : State) : State :=
  let k := s.core core
  if s.serving && k.residents.contains ctx && !k.expired.contains ctx then s.setCore core { k with expired := k.expired ++ [ctx] } else s

/-- SWITCH_DECIDED: the context whose turn it is, or the one that a form request needs, is to come in, and the engines in its way start to drain (R378, R380, R382 step 1). -/
def opSwitchDecided (core ctx : Nat) (s : State) : State :=
  let k := s.core core
  let turn := (k.order.find? fun x => s.mayEnter core x) == some ctx
  if s.serving && k.switch.isNone && s.notForming core && (s.switchOut core ctx).all s.sliced && (s.formWaits core ctx || turn) then
    s.setCore core { k with switch := some ⟨s.switchOut core ctx, ctx, 1, s.time⟩ }
  else s

/-! ## The save area (R384, R385) -/

/-- The position slot of a context's cell (R385). -/
def Context.slot (x : Context) (core pos : Nat) : Nat := x.saveBase + 0x100000 + 0x2A000000 * x.region core + 0xA0000 * pos

/-- One cell of an outgoing engine is saved and its position freed (R382 step 3). -/
def State.saveCell (s : State) (core n i : Nat) : State :=
  let a := s.at ⟨core, n, i⟩
  let s1 := (s.regionPut ((s.ctx a.eng.ctx).slot core (a.eng.posOf i)) 0x94880 (s.cellImage a)).drew 128
  let e := s1.engine core n
  let keep : Kept := ⟨s.gather a.key, a.fl.arrive, a.cell.phase⟩
  ((((s1.setEngine core n { e with kept := e.kept.put {} i keep }).setCell a.key {}).setFlight a.key { seq := a.fl.seq, early := a.fl.early }).setGather
    a.key {})

/-- One engine is saved: it is parked, or held while it has a command; its blocked instructions are abandoned and its reservations lost first (R379, R382 steps 2 and 3, 08 R265). -/
def State.saveEngine (s : State) (core n : Nat) : State :=
  let e := s.engine core n
  let s1 := (e.keys core).foldl (fun t k => (t.abandonBlock core k).dropResv k) s
  let s2 := (List.range e.size).foldl (fun t i => t.saveCell core n i) s1
  let g := s2.engine core n
  let s3 := s2.setEngine core n { g with state := if g.state = 2 then 2 else if g.cmd.isSome then 4 else 3 }
  if e.cmd.isSome then s3.bumpCore core (corePage core 5) .tsCnt Fld.tsCnt_preempts 1 else s3

/-- A quarantine whose engine leaves the core in a switch moves the saved state's future home by remapping alone (R391, 02 R60). -/
def State.detachQuars (s : State) (core n : Nat) : State :=
  let k := s.core core
  s.setCore core { k with quars := k.quars.map fun q => if q.eng = some n ∧ q.hard = false then { q with eng := none, drained := true } else q }

/-- Every engine of an outgoing context is saved, and its core record written (R382 step 3). -/
def State.saveContext (s : State) (core ctx : Nat) : State :=
  let ns := s.enginesFor core ctx
  let s1 := ns.foldl (fun t n => (t.saveEngine core n).detachQuars core n) s
  let k := s1.core core
  (s1.setCore core { k with residents := k.residents.erase ctx, expired := k.expired.erase ctx, savedAt := k.savedAt.put 0 ctx s.time }).putCoreRecord
    core ctx (ns.map fun n => 2 ^ n).sum

/-! ## Going out (R382 steps 2 to 4) -/

/-- SWITCH_DRAINED: the outgoing engines have stopped; their state is saved and the Relief blocks that the incoming context needs are swapped (R382 steps 2 to 4, R386). -/
def opSwitchDrained (core : Nat) (s : State) : State :=
  match (s.core core).switch with
  | none => s
  | some w =>
    if s.serving && w.step == 1 && w.out.all fun x => (s.enginesFor core x).all (s.stoppedAt core) then
      let s1 := w.out.foldl (fun t x => t.saveContext core x) s
      let bs := (s1.needsBlocks core w.into).filter fun b => s1.claimant core b != some w.into
      let s2 := bs.foldl (fun t b => t.passBlock core w.into b) s1
      let s3 := s2.setCore core { s2.core core with switch := some { w with step := 2 } }
      match (s3.core core).arm with
      | some r =>
        let took := (bs.filter fun b => r.blocks.contains b).map fun b =>
          (b, s1.claimant core b, (s1.core core).saved.get (fun _ => false) (16 * w.into + b))
        if r.ctx = w.into ∧ r.step = 4 then s3.setArm core { r with took := r.took ++ took } else s3
      | none => s3
    else s

/-! ## Coming in (R382 steps 5 and 6, R384, R391) -/

/-- One cell of an incoming engine is loaded, or cleared where its save was discarded, with no instance of a barrier or collective under way (R384, 09 R289). -/
def State.loadCell (s : State) (core n i : Nat) : State :=
  let e := s.engine core n
  let key := 256 * core + e.posOf i
  if e.blank then ((s.setCell key { pc := e.entry }).setFlight key { s.flight key with arrive := [] }).setGather key { bars := e.barServed }
  else
    let kp := e.kept.at {} i
    let r := s.regionGet ((s.ctx e.ctx).slot core (e.posOf i)) 0x94880
    ((r.1.setCell key (cellOf r.2 kp.phase)).setFlight key { s.flight key with arrive := kp.arrive, busy := kp.arrive.foldl (fun b a => setBit b a.2.2) 0 }).setGather
      key kp.gather

/-- Tickets that were counted while the engine was saved reach its cells, and a BAR SYNC whose round has completed resumes (08 R260, R262). -/
def State.catchUp (s : State) (core n : Nat) : State :=
  let e := s.engine core n
  let s1 := e.barRound.foldl (fun t r => t.giveTicket core (n, r.1 / 2 ^ 32, r.1 % 2 ^ 32, r.2 - 1)) s
  (List.range 32).foldl (fun t u => t.barResume core u) s1

/-- One engine comes in: running where it was held, idle where it was parked; on a position left unmapped it is faulted, and its command's part ends with CELL_LOST (R391). -/
def State.loadEngine (s : State) (core n : Nat) : State :=
  let e := s.engine core n
  if ¬ (s.positions core n).all (s.posMapped core) then
    let s1 := s.setEngine core n { e with faultCode := 9, trapCode := if e.cmd.isSome then 9 else e.trapCode, kept := [], blank := false }
    s1.engineEnds core n (if e.cmd.isSome then 9 else 0) 2
  else
    let s1 := (List.range e.size).foldl (fun t i => t.loadCell core n i) s
    let g := s1.engine core n
    s1.setEngine core n { g with kept := [], blank := false, barAt := if g.blank then [] else g.barAt, mvbc := if g.blank then [] else g.mvbc, state := if g.state = 2 then 2 else if g.cmd.isSome && !g.blank then 1 else 0 }

/-- SWITCH_COMPLETE: the incoming context's engines are loaded and resume, its quantum starts, and a form request that waited for it goes on (R382 steps 5 and 6, R378). -/
def opSwitchComplete (core : Nat) (s : State) : State :=
  match (s.core core).switch with
  | none => s
  | some w =>
    if ¬ (s.serving && w.step == 2) then s
    else
      let k := s.core core
      let ns := s.enginesFor core w.into
      let was := k.residents.contains w.into
      let s1 := (s.noteUse w.into).setCore core { k with
        switch := none, residents := if was then k.residents else k.residents ++ [w.into], expired := k.expired.erase w.into
        lastIn := some w.into, runs := k.runs.put 0 w.into ((k.runs.at 0 w.into + 1) % 2 ^ 32) }
      let s2 := (if was then s1 else ns.foldl (fun t n => t.loadEngine core n) s1).putCoreRecord core w.into 0
      let s3 := if was then s2 else ns.foldl (fun t n => t.catchUp core n) s2
      let pk := corePage core 5
      let s4 := (s3.bumpCore core pk .tsCnt Fld.tsCnt_switches 1).wr (pk + Reg.tsLast.off)
        (Word.ofNat (Fld.tsLast_durationNs.at (s.time - w.start) + Fld.tsLast_time.at s.time))
      let s5 := s4.logEvent 2 (s.coreOwner core) (armNo core + 5) 0 core (packFields [(2, w.into)])
      match (s5.core core).arm with
      | some r => if r.step = 4 then s5.armPlaced core r else s5
      | none => s5

/-! ## Meanings: each command answers the next state that its operation gives. -/

/-- The meaning of QUANTUM_EXPIRY. -/
def execQuantumExpiry (core ctx : Nat) (s : State) : Host.Outcome State Fault Refusal := .next (opQuantumExpiry core ctx s)
/-- The meaning of SWITCH_DECIDED. -/
def execSwitchDecided (core ctx : Nat) (s : State) : Host.Outcome State Fault Refusal := .next (opSwitchDecided core ctx s)
/-- The meaning of SWITCH_DRAINED. -/
def execSwitchDrained (core : Nat) (s : State) : Host.Outcome State Fault Refusal := .next (opSwitchDrained core s)
/-- The meaning of SWITCH_COMPLETE. -/
def execSwitchComplete (core : Nat) (s : State) : Host.Outcome State Fault Refusal := .next (opSwitchComplete core s)

end Sys2Proof.Machine
end

