-- ==== Sys2Proof/Machine/Objects.lean ====
section
/-! DEFINITION. Contexts, queues, arenas, frames and doorbell pages as objects: staging records and their checks, the operations of OBJ_CMD that need no abort, and the registers of single objects (09 R269 to R282, R295, R296, R567). -/

namespace Sys2Proof.Machine

/-! ## Requests (09 R270, R295, R567) -/

/-- The page key of a function's object page. -/
def objPage (f : Nat) : Nat := pageKey f 0x400

/-- The page key of a function's abort page. -/
def abtPage (f : Nat) : Nat := pageKey f 0x401

/-- The object a request names: a context, or 4,096 + a queue. -/
def ObjReq.key (r : ObjReq) : Nat := if r.op = 0 ∨ r.op = 1 ∨ r.op = 5 ∨ r.op = 6 ∨ r.op = 10 then r.id else 4096 + r.id

/-- A request of XL_APT_CTL names its context (10 R336; log 88). -/
def AptReq.obj (r : AptReq) : ObjReq := { op := 10, id := r.ctx, arena := 0, arg := r.index, order := r.order }

/-- The requests accepted and not yet completed, of all functions: those that wait or run, and those that forced aborts perform (09 R567). -/
def State.objReqs (s : State) : List ObjReq :=
  (s.pl.reqs.flatMap fun e => e.2.obj.toList ++ e.2.abt.toList ++ (e.2.apt.map AptReq.obj).toList) ++ s.pl.aborts.filterMap fun b => b.req

/-- The place of the next request in the order of acceptance. -/
def State.nextOrder (s : State) : Nat := s.objReqs.foldl (fun n r => max n (r.order + 1)) 0

/-- A request waits for an earlier one on the same object (09 R567); a destruction of a context that is already DYING does not, since it ends with NOT_LIVE (R290). -/
def State.objBehind (s : State) (r : ObjReq) : Bool :=
  !(r.op == 1 && (s.ctx r.id).state == 2) && s.objReqs.any fun x => x.key == r.key && decide (x.order < r.order)

/-- A function reaches a partition's objects (09 R270). -/
def State.reaches (s : State) (f : Nat) (part : Nat) : Bool := f == 0 || s.funcPart f == some part

/-- A function reaches a context: through a virtual function it must be one of its own partition (09 R270). -/
def State.reachesCtx (s : State) (f n : Nat) : Bool := f == 0 || ((s.ctx n).state != 0 && s.reaches f (s.ctx n).part)

/-- A function reaches a queue. -/
def State.reachesQueue (s : State) (f q : Nat) : Bool := f == 0 || ((s.queue q).state != 0 && s.reachesCtx f (s.queue q).ctx)

/-- A request ends: STATUS, BUSY clear, DONE set (09 R295, R296). -/
def State.objEnd (s : State) (f status : Nat) : State :=
  let pk := objPage f
  (((s.setFld pk .objStat Fld.objStat_status status).setFld pk .objStat Fld.objStat_busy 0).setFld pk .objStat Fld.objStat_done 1).setFreq f
    { s.freq f with obj := none }

/-- The complex leaves standby (17 R517). -/
def State.resume (s : State) : State := if s.standby then s.setFld (regKey 0x700 0) .pwrCtl Fld.pwrCtl_standby 0 else s

/-- A GO write of OBJ_CMD that starts a request (09 R290, R295): OP and ID in range, ARENA zero but for OP 5 and 6, and no request of the function in progress that forbids it. -/
def State.objTakes (s : State) (f : Nat) (v : Word) : Bool :=
  let op := Fld.objCmd_op.get v
  decide (op ≤ 6) && decide (Fld.objCmd_id.get v < (if 2 ≤ op ∧ op ≤ 4 then 16384 else 4096))
    && (Fld.objCmd_arena.get v == 0 || op == 5 || op == 6)
    && s.fld (objPage f) .objStat Fld.objStat_busy == 0
    && (!(op == 1 || op == 3) || s.fld (abtPage f) .abtStat Fld.abtStat_busy == 0)

/-! ## Untranslated host reads -/

/-- `n` bytes of host memory at a host address, as a staging record is read: none while the host has not answered; an inner none where a read failed or returned poison (09 R272, 18 R531). -/
def State.hostRead (s : State) (h : HostAnswer) (a n : Nat) : Option (Option (List Byte)) :=
  if 2 ^ 64 < a + n then some none
  else
    (List.range n).foldr (fun i acc =>
      match s.hostByte h (a + i), acc with
      | none, _ => none
      | _, none => none
      | some (.error _), some _ => some none
      | some (.ok _), some none => some none
      | some (.ok b), some (some l) => some (some (b :: l))) (some (some []))

/-! ## Context records (09 R271, R272, 12 R376) -/

/-- Every byte of a stretch of a record is zero. -/
def zeroBytes (l : List Byte) (off n : Nat) : Bool := (byteSlice l off n).all (· == 0)

/-- A range of device memory lies wholly in frames that a partition owns; an empty one is not checked (09 R272). -/
def State.ownedRange (s : State) (part a n : Nat) : Bool :=
  n == 0 || (decide (frameOf (a + n - 1) < devFrames)
    && (List.range (frameOf (a + n - 1) - frameOf a + 1)).all fun i => (s.frame (frameOf a + i)).state == 1 && (s.frame (frameOf a + i)).part == part)

/-- Arena entry `a` of a record. -/
def arenaOf (l : List Byte) (a : Nat) : Arena :=
  { base := leAt l (0x80 + 32 * a) 8, limit := leAt l (0x88 + 32 * a) 8, low := leAt l (0x90 + 32 * a) 8
    source := leAt l (0x98 + 32 * a) 2 % 2048, alignLog2 := leAt l (0x9A + 32 * a) 1 }

/-- The rules of arena entry `a` (09 R271). -/
def arenaRule (l : List Byte) (a : Nat) : Bool :=
  let x := arenaOf l a
  x.base != 0 && x.base % 0x2000000 == 0 && x.limit % 0x2000000 == 0 && decide (x.base + x.limit ≤ 2 ^ 51)
    && decide (leAt l (0x98 + 32 * a) 2 < 2048) && between 8 x.alignLog2 25 && zeroBytes l (0x9B + 32 * a) 5

/-- The context that a record describes, LIVE (09 R271). -/
def ctxOf (l : List Byte) : Context :=
  { state := 1, pasid := leAt l 0 4 % 2 ^ 20, part := leAt l 4 1 % 16, cores := leAt l 6 2, ptRoot := leAt l 8 8, aptBase := leAt l 0x10 8
    aptCount := leAt l 0x18 4, monLen := leAt l 0x1C 4, cmapBase := leAt l 0x20 8, monBase := leAt l 0x28 8, saveBase := leAt l 0x30 8
    saveSize := leAt l 0x38 8, flistBase := leAt l 0x40 8, flistLen := leAt l 0x48 2, arenaWin := leAt l 0x50 8
    arenas := (List.range (leAt l 5 1)).map (arenaOf l) }

/-- The number of a context's cores. -/
def Context.coreCount (x : Context) : Nat := ((List.range 16).filter fun c => x.cores.testBit c).length

/-- One more than the highest core of a context. -/
def Context.coreTop (x : Context) : Nat := (List.range 16).foldl (fun n c => if x.cores.testBit c then c + 1 else n) 0

/-- A context record keeps the rules of fields (09 R271, R272, 10 R300, R311, 12 R376). -/
def State.ctxRule (s : State) (l : List Byte) : Bool :=
  let x := ctxOf l
  let n := leAt l 5 1
  decide (leAt l 0 4 < 2 ^ 20) && decide (leAt l 4 1 < 16) && decide (n ≤ 8) && zeroBytes l 0x4A 6 && zeroBytes l 0x58 40
    && decide (x.aptCount ≤ 64) && decide (x.monLen ≤ 65536) && decide (x.flistLen ≤ 4096) && x.ptRoot % 0x8000 == 0
    && (x.cores == 0 || x.cmapBase % 64 == 0) && (x.monLen == 0 || x.monBase % 64 == 0) && (x.flistLen == 0 || x.flistBase % 8 == 0)
    && x.arenaWin % 64 == 0 && decide (x.arenaWin < 2 ^ 51) && (n == 0 || x.arenaWin != 0)
    && (x.saveSize == 0 || (x.saveBase % 0x10000 == 0 && decide (0x100000 + x.coreCount * 0x2A000000 ≤ x.saveSize)))
    && s.ownedRange x.part x.ptRoot 0x8000 && s.ownedRange x.part x.aptBase (32 * x.aptCount) && s.ownedRange x.part x.cmapBase (8704 * x.coreTop)
    && s.ownedRange x.part x.monBase (8 * x.monLen) && s.ownedRange x.part x.saveBase x.saveSize && s.ownedRange x.part x.flistBase (8 * x.flistLen)
    && (List.range 8).all fun a => if a < n then arenaRule l a else zeroBytes l (0x80 + 32 * a) 32

/-- The first check that fails gives the status; 0 where none does. -/
def firstStatus : List (Bool × Nat) → Nat
  | [] => 0
  | (ok, c) :: t => if ok then firstStatus t else c

/-- OP 0 with its staging record, or with none where the record could not be read (09 R272, R295). -/
def State.createCtx (s : State) (f n : Nat) (rec : Option (List Byte)) : Nat × State :=
  let cur := s.ctx n
  let foreign := f != 0 && cur.state != 0 && !s.reaches f cur.part
  match rec with
  | none => (if foreign then 1 else if cur.state ≠ 0 then 2 else 4, s)
  | some l =>
    let x := ctxOf l
    let st := firstStatus
      [ (!foreign && s.reaches f x.part && s.partExists x.part, 1)
      , (cur.state == 0, 2)
      , (s.ctxRule l, 5)
      , (!(s.pl.ctxs.any fun e => e.2.state != 0 && e.2.part == x.part && e.2.pasid == x.pasid), 6) ]
    (st, if st = 0 then s.setCtx n x else s)

/-! ## Queue records (09 R280, R281) -/

/-- The queue that a record describes, LIVE, with HEAD and TAIL 0. -/
def queueOf (l : List Byte) : Queue :=
  { state := 1, ring := leAt l 0 8, ctx := leAt l 8 2 % 4096, log2 := leAt l 0xA 1, xlate := leAt l 0xB 1, irq := leAt l 0xC 2 % 2048
    irqEn := decide (2 ^ 15 ≤ leAt l 0xC 2) }

/-- A queue record keeps the rules of fields (09 R280, 11 R351). -/
def queueRule (l : List Byte) : Bool :=
  let x := queueOf l
  x.ring % 4096 == 0 && vaRule true x.ring && decide (leAt l 8 2 < 4096) && between 6 x.log2 16 && decide (x.xlate < 32)
    && nbits (leAt l 0xC 2) 11 4 == 0 && zeroBytes l 0xE 50

/-- The ring entries of a context's queues that are not FREE (09 R281). -/
def State.ringTotal (s : State) (n : Nat) : Nat :=
  s.pl.queues.foldl (fun t e => if e.2.state ≠ 0 ∧ e.2.ctx = n then t + 2 ^ e.2.log2 else t) 0

/-- OP 2 with its staging record (09 R281, R295). -/
def State.createQueueOp (s : State) (f q : Nat) (rec : Option (List Byte)) : Nat × State :=
  let cur := s.queue q
  let foreign := f != 0 && cur.state != 0 && !s.reachesQueue f q
  match rec with
  | none => (if foreign then 1 else if cur.state ≠ 0 then 2 else 4, s)
  | some l =>
    let x := queueOf l
    let d := s.db (q / 64)
    let st := firstStatus
      [ (!foreign && s.reachesCtx f x.ctx, 1)
      , (cur.state == 0, 2)
      , ((s.ctx x.ctx).state == 1, 3)
      , (queueRule l, 5)
      , (d.bound && d.ctx == x.ctx, 7)
      , (decide (s.ringTotal x.ctx + 2 ^ x.log2 ≤ 262144), 8) ]
    (st, if st = 0 then s.setQueue q x else s)

/-! ## OP 4 to 6 (09 R278, R281, R287) -/

/-- OP 4: a STOPPED queue restarts; it fetches from the tail recorded at its stop. -/
def State.restartOp (s : State) (f q : Nat) : Nat × State :=
  let x := s.queue q
  let st := firstStatus [(s.reachesQueue f q, 1), (x.state == 2, 3)]
  (st, if st = 0 then s.setQueue q { x with state := 1, fetched := max x.fetched x.restart } else s)

/-- OP 5 (`low` false: the LIMIT) or OP 6 (`low` true: the cursor and flags) on an arena. -/
def State.arenaOp (s : State) (f n a arg : Nat) (reset : Bool) : Nat × State :=
  let x := s.ctx n
  match x.arenas[a]? with
  | none => (firstStatus [(s.reachesCtx f n, 1), (x.state == 1, 3), (false, 5)], s)
  | some r =>
    let st := firstStatus
      [(s.reachesCtx f n, 1), (x.state == 1, 3), (reset || (arg % 0x2000000 == 0 && decide (r.cursor ≤ arg)), 5)]
    let r1 : Arena := if reset then { r with cursor := 0, full := false, lowHit := false, lowArmed := true }
      else { r with limit := arg, full := false, lowArmed := true }
    (st, if st = 0 then s.setCtx n { x with arenas := x.arenas.set a r1 } else s)

/-! ## Doorbell pages (09 R279, 11 R345) -/

/-- The word of DB_OWNER for a doorbell page. -/
def DbPage.word (d : DbPage) : Word :=
  Word.ofNat (Fld.dbOwner_context.at d.ctx + Fld.dbOwner_bound.at (b2n d.bound) + Fld.dbOwner_partition.at d.part + Fld.dbOwner_assigned.at (b2n d.assigned))

/-- A function reaches a doorbell page: through a virtual function, one assigned to its partition (09 R270). -/
def State.reachesDb (s : State) (f p : Nat) : Bool := f == 0 || ((s.db p).assigned && s.reaches f (s.db p).part)

/-- A queue of a doorbell page is live: not FREE (09 R279). -/
def State.dbLive (s : State) (p : Nat) : Bool := (List.range 64).any fun i => (s.queue (64 * p + i)).state != 0

/-- What a write of DB_OWNER asks for: a virtual function's PARTITION and ASSIGNED are not taken (09 R296). -/
def State.dbAsked (s : State) (f p : Nat) (v : Word) : DbPage :=
  let d := s.db p
  { part := if f = 0 then Fld.dbOwner_partition.get v else d.part
    assigned := if f = 0 then Fld.dbOwner_assigned.get v == 1 else d.assigned
    ctx := Fld.dbOwner_context.get v, bound := Fld.dbOwner_bound.get v == 1 }

/-- The write is allowed (09 R279, 11 R345). -/
def State.dbAllowed (s : State) (p : Nat) (n : DbPage) : Bool :=
  let d := s.db p
  let moves := n.assigned != d.assigned || n.part != d.part
  let rebinds := n.bound != d.bound || (n.bound && n.ctx != d.ctx)
  let others := ((List.range 256).filter fun i => i != p && (s.db i).assigned && (s.db i).part == n.part).length
  !(moves && d.bound) && !(moves && n.assigned && decide (16 ≤ others)) && !(rebinds && s.dbLive p)
    && !(n.bound && !(n.assigned && (!rebinds || ((s.ctx n.ctx).state == 1 && (s.ctx n.ctx).part == n.part))))

/-! ## Frames (09 R274, R276, 14 R441, R443) -/

/-- The frame is owned, or will be when its scrub ends. -/
def Frame.owned (x : Frame) : Bool := x.state == 1 || (x.state == 2 && x.next == 1)

/-- The word of FRAME_DATA for a frame. -/
def Frame.word (x : Frame) : Word :=
  Word.ofNat (Fld.frameData_partition.at (if x.owned then x.part else 0) + Fld.frameData_owned.at (b2n x.owned) + Fld.frameData_state.at x.state)

/-- A frame enters SCRUBBING for a next state and owner; every cached translation that names it is dropped (09 R276, 14 R441). -/
def State.startScrub (s : State) (f next part : Nat) : State :=
  let s1 := (s.setFrame f { state := 2, part := part, next := next }).dropFrame f
  { s1 with pl := { s1.pl with scrubs := s1.pl.scrubs ++ [f] } }

end Sys2Proof.Machine
end

