-- ==== Sys2Proof/Machine/Aperture.lean ====
section
/-! DEFINITION. Host apertures: the checks, loads and unloads of XL_APT_CTL, and what unloads and host invalidations wait for (10 R311 to R316, R320, R333, R334; 09 R567). -/

namespace Sys2Proof.Machine

/-- The page key of a function's translation request page (10 R336). -/
def xlPage (f : Nat) : Nat := pageKey f 0x402

/-- The cells of a context's engines, with their cores. -/
def State.ctxCells (s : State) (ctx : Nat) : List Nat :=
  (List.range 16).flatMap fun c => ((s.formedOn c).filter fun n => (s.engine c n).ctx == ctx).flatMap fun n => (s.engine c n).keys c

/-- A place outside host memory. -/
def Place.onDevice : Place → Bool
  | .host _ => false
  | _ => true

/-! ## Apertures (10 R311 to R316) -/

/-- The lower of two status codes, 0 standing for none (10 R314: checks run in the table's order). -/
def lowerCode (a b : Nat) : Nat := if a = 0 then b else if b = 0 then a else min a b

/-- The rights that FLAGS ask of the host: read, write (10 R312). -/
def aptNeeds (flags : Nat) : Bool × Bool := (flags.testBit 1, flags.testBit 2 || flags.testBit 3)

/-- The 2 MiB steps of an aperture's host range. -/
def Aperture.steps (x : Aperture) : List Nat := (List.range (x.length / 2 ^ 21)).map fun i => x.hbase + i * 2 ^ 21

/-- The ATC entries that apertures hold locked, each once (10 R313). -/
def State.aptLocked (s : State) : List AtcEntry :=
  s.pl.atc.filter fun e => s.pl.apts.any fun a => a.2.locked.any fun va => s.atcFind (s.ctxFunc (a.1 / 64)) (s.ctx (a.1 / 64)).pasid va == some e

/-- The ATC entries locked by one aperture. -/
def State.aptLocks (s : State) (ctx index : Nat) : Nat :=
  (s.pl.atc.filter fun e => (s.apt ctx index).locked.any fun va => s.atcFind (s.ctxFunc ctx) (s.ctx ctx).pasid va == some e).length

/-- An aperture being loaded locks the entry of a step, within the limit of 8,192 (10 R313, R314). -/
def State.lockStep (s : State) (ctx index va : Nat) : State :=
  let x := s.apt ctx index
  let t := (s.setApt ctx index { x with locked := x.locked ++ [va] }).relock
  if t.aptLocked.length ≤ 8192 then t else s.setApt ctx index { x with fail := lowerCode x.fail 0xB }

/-- A request of XL_APT_CTL ends (10 R336). -/
def State.aptEnd (s : State) (f status : Nat) : State :=
  let pk := xlPage f
  (((s.setFld pk .xlAptStat Fld.xlAptStat_status status).setFld pk .xlAptStat Fld.xlAptStat_busy 0).setFld pk .xlAptStat Fld.xlAptStat_done 1).setFreq f
    { s.freq f with apt := none }

/-- A load ends once no translation of it is awaited: LOADED, or its locks released with the code of its failure (10 R313, R314). A context destroyed meanwhile is not LIVE. -/
def State.aptFinish (s : State) (f ctx index : Nat) : State :=
  let x := s.apt ctx index
  if s.pl.atsReqs.any fun r => r.user == .aperture f ctx index then s
  else if x.state ≠ 3 then s.aptEnd f 2
  else if x.fail = 0 then (s.setApt ctx index { x with state := 1 }).aptEnd f 0
  else ((s.setApt ctx index {}).relock).aptEnd f x.fail

/-- The aperture that a table entry describes (10 R311). -/
def aptEntry (l : List Byte) : Aperture :=
  { hbase := leAt l 0 8, dbase := leAt l 8 8, length := leAt l 0x10 8, flags := leAt l 0x18 4 }

/-- An aperture table entry keeps its rules (10 R311). -/
def aptRule (l : List Byte) : Bool :=
  let x := aptEntry l
  x.flags.testBit 0 && decide (x.flags < 16) && leAt l 0x1C 4 == 0 && x.hbase % 2 ^ 21 == 0 && decide (x.hbase + x.length ≤ 2 ^ 57)
    && decide (2 ^ 51 ≤ x.dbase) && x.dbase % 2 ^ 21 == 0 && x.length != 0 && x.length % 2 ^ 21 == 0 && decide (x.dbase + x.length ≤ 2 ^ 52)

/-- An aperture overlaps a loaded one of its context (10 R312). -/
def State.aptOverlaps (s : State) (ctx : Nat) (x : Aperture) : Bool :=
  (List.range 64).any fun i =>
    let y := s.apt ctx i
    y.state != 0 && (overlapN x.dbase x.length y.dbase y.length || overlapN x.hbase x.length y.hbase y.length)

/-- The entry of an aperture table; none where it cannot be read: in a frame that fails its check, or poisoned (10 R314). -/
def State.aptRead (s : State) (ctx index : Nat) : Option (List Byte) :=
  let x := s.ctx ctx
  let a := x.aptBase + 32 * index
  if ¬ s.framePasses x.part true (frameOf a) ∨ s.mem.homePoison (a / 64) ∨ s.mem.homePoison ((a + 31) / 64) then none
  else some ((List.range 32).map fun i => s.mem.homeByte (a + i))

/-- The checks of a load that need no host (10 R314). -/
def State.aptChecks (s : State) (f ctx index : Nat) : Nat :=
  let l := s.aptRead ctx index
  firstStatus
    [ (s.reachesCtx f ctx, 1), ((s.ctx ctx).state == 1, 2), (decide (index < (s.ctx ctx).aptCount), 3), ((s.apt ctx index).state == 0, 4)
    , (l.isSome, 5), (aptRule (l.getD []), 6), (!s.aptOverlaps ctx (aptEntry (l.getD [])), 7) ]

/-- A step of a loading aperture: locked where the ATC covers it with the rights, else asked for (10 R313). -/
def State.aptStep (s : State) (f ctx index va : Nat) : State :=
  let fn := s.ctxFunc ctx
  let pasid := (s.ctx ctx).pasid
  let n := aptNeeds (s.apt ctx index).flags
  let covered := match s.atcFind fn pasid va with
    | some e => (!n.1 || e.r) && (!n.2 || e.w)
    | none => false
  if covered then s.lockStep ctx index va else s.atsSend fn pasid va n.2 (.aperture f ctx index)

/-- A load is performed: the entry is read and checked, and every 2 MiB step of its range is translated and locked (10 R313). -/
def State.aptLoad (s : State) (f ctx index order : Nat) : State :=
  let st := s.aptChecks f ctx index
  if st ≠ 0 then s.aptEnd f st
  else
    let x := { aptEntry ((s.aptRead ctx index).getD []) with state := 3 }
    let a := (s.ctx ctx).aptBase + 32 * index
    let s1 := ((s.snoopReads [a / 64, (a + 31) / 64].eraseDups).setApt ctx index x).setFreq f { s.freq f with apt := some ⟨0, ctx, index, order, true⟩ }
    (x.steps.foldl (fun t va => t.aptStep f ctx index va) s1).aptFinish f ctx index

/-! ## Unloads (10 R313, R333) -/

/-- A host line that a cell's store has been accepted into early and that the host has not granted yet, or a store toward the host still buffered. -/
def State.hostStores (s : State) (k : Nat) : Bool :=
  let f := s.flight k
  (f.stbuf.any fun e => !e.place.onDevice) || f.early.any fun e => e.host && s.earlyOpen (k / 256) e

/-- Every access that a context's cells issued through an aperture has been performed (10 R313). -/
def State.aptQuiet (s : State) (ctx : Nat) (x : Aperture) : Bool :=
  (s.ctxCells ctx).all fun k => !((s.flight k).loads.any fun e => overlapN e.va e.size x.dbase x.length) && !s.hostStores k

/-- An unload ends once every access issued through the aperture has been performed: its ATC entries are unlocked, and it is UNLOADED (10 R313). -/
def State.aptLeave (s : State) (f : Nat) (r : AptReq) : State :=
  if r.op = 1 ∧ s.aptQuiet r.ctx (s.apt r.ctx r.index) then ((s.setApt r.ctx r.index {}).relock).aptEnd f 0 else s

/-- An unload is performed: the range leaves the copies, and the wait for the accesses issued through it begins (10 R313). -/
def State.aptUnload (s : State) (f ctx index order : Nat) : State :=
  let x := s.apt ctx index
  let st := firstStatus
    [(s.reachesCtx f ctx, 1), ((s.ctx ctx).state == 1, 2), (decide (index < (s.ctx ctx).aptCount), 3), (x.state == 1 || x.state == 2, 4)]
  if st ≠ 0 then s.aptEnd f st
  else
    let r : AptReq := ⟨1, ctx, index, order, true⟩
    ((s.setApt ctx index { x with leaving := true }).setFreq f { s.freq f with apt := some r }).aptLeave f r

/-- A request of XL_APT_CTL whose turn has come is performed (09 R567, 10 R313). -/
def State.aptRun (s : State) (f : Nat) (r : AptReq) : State :=
  if r.op = 0 then s.aptLoad f r.ctx r.index r.order else s.aptUnload f r.ctx r.index r.order

/-! ## Host invalidations that are held (10 R320) -/

/-- A host physical address lies in a dropped translation. -/
def inDrops (drops : List (Nat × Nat)) (a : Nat) : Bool := drops.any fun d => decide (d.1 ≤ a) && decide (a < d.1 + 2 ^ d.2)

/-- Nothing that cells issued with dropped translations is outstanding: no read, and no write not yet placed (10 R320). -/
def State.invQuiet (s : State) (drops : List (Nat × Nat)) : Bool :=
  let out := fun (p : Place) => match p with
    | .host a => inDrops drops a
    | _ => false
  s.flights.all fun e =>
    !(e.2.loads.any fun l => out l.place) && !(e.2.stbuf.any fun x => out x.place)
      && !(e.2.early.any fun x => x.host && inDrops drops (64 * x.line) && s.earlyOpen (e.1 / 256) x)

/-- The invalidation completions that can be sent are sent (10 R320). -/
def State.settleInvs (s : State) : State :=
  s.pl.atsInvs.foldl (fun t v =>
    if t.invQuiet v.drops then ({ t with pl := { t.pl with atsInvs := t.pl.atsInvs.erase v } }).send v.f (.atsInvDone v.pasid v.va) else t) s

end Sys2Proof.Machine
end

