-- ==== Sys2Proof/Machine/Queues.lean ====
section
/-! DEFINITION. Command queues: doorbells, the fetch of entries and its checks, waits, starts, and what the queue machinery does with each opcode (09 R282, R283, 11 R351 to R360, 10 R321). -/

namespace Sys2Proof.Machine

/-! ## Doorbells (09 R282, 11 R345) -/

/-- The doorbell page that a function's BAR2 shows in a 4 KiB slot (11 R345). -/
def State.dbPageAt (s : State) (f slot : Nat) : Option Nat :=
  if f = 0 then (if slot < 256 then some slot else none)
  else
    match s.funcPart f with
    | some p => if s.pl.sriov ∧ slot < 16 then ((List.range 256).filter fun i => (s.db i).assigned && (s.db i).part == p)[slot]? else none
    | none => none

/-- The queue of a BAR2 offset. -/
def State.dbQueue (s : State) (f off : Nat) : Option Nat := (s.dbPageAt f (off / 4096)).map fun p => 64 * p + off / 64 % 64

/-- A TAIL write is acted on: one not above the tail is ignored, one too far above HEAD sets OVERRUN, another advances the queue's producer index (09 R282, R287, R290). -/
def State.doorbellAct (s : State) (f off : Nat) (v : Word) : State :=
  match s.dbQueue f off with
  | none => s
  | some q =>
    let x := s.queue q
    if off % 64 ≠ 0 ∨ (x.state ≠ 1 ∧ x.state ≠ 2) ∨ v.toNat ≤ x.tail then s
    else if x.head + 2 ^ x.log2 < v.toNat then s.setQueue q { x with overrun := true }
    else
      let y := { x with tail := v.toNat }
      s.setQueue q { y with head := y.headNow }

/-! ## Ring entries (09 R282, 10 R321) -/

/-- What reading a ring entry came to: its 64 bytes; an ATS request to send; a wait; or a read that failed. -/
inductive RingRead where
  | got (x : Nat)
  | ask
  | wait
  | fail
  deriving DecidableEq, Repr

/-- The host virtual address of entry `i` of a queue (09 R282). -/
def Queue.slotVa (x : Queue) (i : Nat) : Nat := x.ring + 64 * (i % 2 ^ x.log2)

/-- An ATS request of a queue's fetch is outstanding. -/
def State.ringAsked (s : State) (q : Nat) : Bool := s.pl.atsReqs.any fun r => r.user == .queue q

/-- A ring entry is read through the ATC and the host-line cache; poison and a failed read count as a failed read (10 R321, 11 R341, 18 R531, log 31). -/
def State.ringRead (s : State) (h : HostAnswer) (q i : Nat) : RingRead :=
  let x := s.queue q
  match s.atcLook (s.ctxFunc x.ctx) (s.ctx x.ctx).pasid (x.slotVa i) false with
  | none => if s.ringAsked q then .wait else .ask
  | some a =>
    match s.hostFetch h (a / 64) with
    | some t =>
      match t.hline? (a / 64) with
      | some l => if l.poison then .fail else .got (nbits l.data.toNat (8 * (a % 64)) 512)
      | none => .wait
    | none => if h.failed.contains (a / 64) then .fail else .wait

/-- Entries that have been read: their ATC entries are used, and the host-line cache holds their lines (10 R319, 11 R341). -/
def State.ringUsed (s : State) (h : HostAnswer) (q i n : Nat) : State :=
  let x := s.queue q
  let f := s.ctxFunc x.ctx
  let pasid := (s.ctx x.ctx).pasid
  (List.range n).foldl (fun t j =>
    match t.atcLook f pasid (x.slotVa (i + j)) false with
    | some a =>
      let u := t.atcTouch f pasid (x.slotVa (i + j))
      (u.hostFetch h (a / 64)).getD u
    | none => t) s

/-- A ring entry that cannot be read stops its queue, with the entry unfetched (10 R321, 11 R373, 18 R531). -/
def State.ringStop (s : State) (q i seq : Nat) : State :=
  let x := s.queue q
  let s1 := if x.state = 1 then s.setQueue q { x with state := 2, restart := x.fetched } else s
  (s1.atuQueueEvent (x.slotVa i) x.ctx 20 6).qfEvent (s.ctxPart x.ctx) q 4 seq

/-- A ring entry's missing translation is asked for. -/
def State.ringAsk (s : State) (q i : Nat) : State :=
  let x := s.queue q
  s.atsSend (s.ctxFunc x.ctx) (s.ctx x.ctx).pasid (x.slotVa i) false (.queue q)

/-! ## Entries and their checks (11 R351 to R353) -/

/-- NPAY of a header entry. -/
def entNpay (e : Nat) : Nat := nbits e 16 8

/-- The entries of a command: one where NPAY breaks its rule (11 R353, log 32). -/
def Queue.entriesOf (x : Queue) (e : Nat) : Nat := if entNpay e ≤ 64 ∧ 1 + entNpay e ≤ 2 ^ x.log2 then 1 + entNpay e else 1

/-- The command in a header entry. -/
def cmdOf (entries e : Nat) (payload : List Line) : Cmd :=
  { entries := entries, op := nbits e 0 8, fhost := e.testBit 8, whost := e.testBit 9, wait := e.testBit 10, serial := e.testBit 11
    faddr := nbits e 64 64, fval := nbits e 128 64, waddr := nbits e 192 64, wtarget := nbits e 256 64, body := nbits e 320 192
    payload := payload, state := .fetched }

/-- The BODY bytes that an opcode lists (11 R352). -/
def bodyUsed (op : Nat) : Option Nat :=
  match op with
  | 1 => some 0
  | 2 => some 12
  | 3 => some 10
  | 4 => some 9
  | 5 => some 18
  | _ => none

/-- CORE names a core of the context's partition (11 R353). -/
def State.coreOf (s : State) (ctx core : Nat) : Bool := decide (core < 16) && s.coreOwner core == some (s.ctx ctx).part

/-- The rules of an operation's BODY (11 R352, R353, R357 to R359). -/
def State.bodyRule (s : State) (ctx npay : Nat) (c : Cmd) : Bool :=
  match c.op with
  | 2 =>
    decide (c.cls < 3) && decide (c.cflags < 4) && between 1 c.dcount 4096
      && (if c.inlined then c.dcount == npay && c.dlist == 0 && c.payload.all (fun l => chDescOk c.cls l.toNat) else vaRule c.dlhost c.dlist)
  | 3 => vaRule false (c.bodyAt 0x28 8) && between 1 (c.bodyAt 0x30 2) (min 4096 (64 * npay))
  | 4 => c.bodyAt 0x28 8 != 0 && decide (npay ≤ 1) && s.coreOf ctx (c.bodyAt 0x30 1)
  | 5 =>
    let m := c.bodyAt 0x39 1
    decide (m < 8) && m % 4 != 3 && vaRule false (c.bodyAt 0x30 8) && (m % 4 == 2 || vaRule false (c.bodyAt 0x28 8)) && s.coreOf ctx (c.bodyAt 0x38 1)
  | _ => true

/-- A command passes its checks at fetch (11 R353). -/
def State.cmdRule (s : State) (x : Queue) (e : Nat) (c : Cmd) : Bool :=
  match bodyUsed c.op with
  | none => false
  | some used =>
    nbits e 12 4 == 0 && nbits e 24 40 == 0 && nbits c.body (8 * used) 192 == 0 && decide (entNpay e ≤ 64) && decide (1 + entNpay e ≤ 2 ^ x.log2)
      && c.faddr % 8 == 0 && vaRule c.fhost c.faddr && decide (c.fval < 2 ^ 63)
      && (if c.wait then c.waddr % 8 == 0 && vaRule c.whost c.waddr && decide (c.wtarget < 2 ^ 63) else c.waddr == 0 && c.wtarget == 0)
      && s.bodyRule x.ctx (entNpay e) c

/-! ## Fetch (11 R353, R354, R360, 10 R328) -/

/-- The commands started and unretired: of a queue, and of the complex (11 R360). -/
def Queue.running (x : Queue) : Nat := (x.cmds.filter fun e => decide (e.2.state = .running)).length
/-- The commands started and unretired across the complex. -/
def State.runningCmds (s : State) : Nat := s.pl.queues.foldl (fun n e => n + e.2.running) 0
/-- A queue is below both limits (11 R360). -/
def State.cmdRoom (s : State) (q : Nat) : Bool := decide (s.runningCmds < 4096) && decide ((s.queue q).running < 64)

/-- A command has been read: it is kept, counted and checked; one that fails its check retires with BAD_COMMAND; a COPY of a pre-translating queue begins its pre-translation (11 R353, R373, 10 R328). -/
def State.takeCmd (s : State) (q i e : Nat) (payload : List Line) : State :=
  let x := s.queue q
  let n := x.entriesOf e
  let c0 := cmdOf n e payload
  let c : Cmd := { c0 with before := if c0.serial then x.cmds.map Prod.fst else [] }
  let s1 := (s.setQueue q { x with fetched := i + n, cmds := x.cmds.insert i c }).qfCount (s.ctxPart x.ctx)
  let good := s.cmdRule x e c
  let s2 := if ¬ good then (s1.qfEvent (s.ctxPart x.ctx) q 1 i).retire q i 15
    else if c.op = 2 ∧ x.xlate % 2 = 0 then s1.setCmd q i { c with state := .pretrans } else s1
  s2.setQueue q { s2.queue q with head := (s2.queue q).headNow }

/-- What fetching one command came to: taken; its entries are not all below the tail; a wait (with the ATS request sent, where one was needed); or a stop of the queue. -/
inductive Fetched where
  | took (s : State)
  | short
  | wait (s : State)
  | stop (s : State)

/-- The first entry of `i` to `i + n - 1` that is not at hand, with what reading it came to. -/
def State.firstMissing (s : State) (h : HostAnswer) (q i n : Nat) : Option (Nat × RingRead) :=
  ((List.range n).map fun j => (i + j, s.ringRead h q (i + j))).find? fun r => match r.2 with
    | .got _ => false
    | _ => true

/-- The entry's bytes, once it is at hand. -/
def RingRead.bits (r : RingRead) : Nat :=
  match r with
  | .got x => x
  | _ => 0

/-- A missing entry makes the fetch wait, ask, or stop the queue. -/
def State.fetchMiss (s : State) (q seq : Nat) (m : Nat × RingRead) : Fetched :=
  match m.2 with
  | .ask => .wait (s.ringAsk q m.1)
  | .fail => .stop (s.ringStop q m.1 seq)
  | _ => .wait s

/-- The next command of a queue is read and checked: its header, then its payload (11 R353, R354 item 1, 10 R321). -/
def State.fetchOne (s : State) (h : HostAnswer) (q : Nat) : Fetched :=
  let x := s.queue q
  let i := x.fetched
  if x.tail ≤ i then .short
  else
    match s.firstMissing h q i 1 with
    | some m => s.fetchMiss q i m
    | none =>
      let e := (s.ringRead h q i).bits
      let n := x.entriesOf e
      if x.tail < i + n then .short
      else
        match s.firstMissing h q (i + 1) (n - 1) with
        | some m => s.fetchMiss q i m
        | none => .took ((s.ringUsed h q i n).takeCmd q i e ((List.range (n - 1)).map fun j => BitVec.ofNat 512 (s.ringRead h q (i + 1 + j)).bits))

/-! ## Waits and starts (11 R354, R355, 09 R286) -/

/-- An abort is fetching a queue's entries and has taken this command, which starts no earlier than the abort is decided (09 R287). -/
def State.abortHolds (s : State) (q seq : Nat) : Bool :=
  s.pl.reqs.any fun e => match e.2.abt with
    | some r => r.op == 8 && r.id == q && decide (r.base ≤ seq)
    | none => false

/-- Every earlier command of the queue has started (11 R354). -/
def Queue.inTurn (x : Queue) (seq : Nat) : Bool := x.cmds.all fun e => decide (seq ≤ e.1) || decide (e.2.state = .running)

/-- Every earlier command of the queue has retired (11 R354). -/
def Queue.alone (x : Queue) (seq : Nat) : Bool := x.cmds.all fun e => decide (seq ≤ e.1)

/-- A command of a LIVE queue of a LIVE context can be started or take up its wait. -/
def State.cmdMay (s : State) (q seq : Nat) : Bool :=
  s.serving && (s.queue q).state == 1 && (s.ctx (s.queue q).ctx).state == 1 && (s.queue q).inTurn seq && !s.abortHolds q seq

/-- The command watchers in use (11 R355). -/
def State.watchers (s : State) : Nat := s.pl.queues.foldl (fun n e => n + (e.2.cmds.filter fun c => c.2.watched).length) 0

/-- A command can be started now: its wait is met, and SERIAL and the limits allow it (11 R354, R360). -/
def State.startable (s : State) (q seq : Nat) (c : Cmd) : Bool :=
  s.cmdMay q seq && (decide (c.state = .ready) || (decide (c.state = .fetched) && !c.wait)) && !(c.serial && !(s.queue q).alone seq) && s.cmdRoom q

/-- A queue's place in the round-robin order, which goes on from the queue that started a command last (11 R360). -/
def State.turnOf (s : State) (q : Nat) : Nat := (q + 16383 - s.pl.turn) % 16384

/-- No queue whose turn comes earlier has a command to start: one command per queue per turn (11 R360). -/
def State.queueTurn (s : State) (q : Nat) : Bool :=
  s.pl.queues.all fun e => decide (s.turnOf q ≤ s.turnOf e.1) || !(e.2.cmds.any fun c => s.startable e.1 c.1 c.2)

/-- COMMAND_START: a command in its turn takes up its wait, with a command watcher where one is free; one without a wait, or whose wait is met, starts, when SERIAL and the limits allow it and it is the turn of its queue (11 R354, R355, R360). -/
def opCommandStart (q seq : Nat) (s : State) : State :=
  match s.cmd? q seq with
  | none => s
  | some c =>
    if ¬ s.cmdMay q seq then s
    else
      let start :=
        if s.startable q seq c && s.queueTurn q then
          let t := s.setCmd q seq { c with state := .running, watched := false }
          { t with pl := { t.pl with turn := q } }
        else s
      match c.state with
      | .fetched => if c.wait then s.setCmd q seq { c with state := .waiting, watched := decide (s.watchers < 1024) } else start
      | .ready => start
      | _ => s

/-- The word at a place as the Plinth reads it, or the code of its poison; none while it cannot be read (11 R355, 14 R438). -/
def State.wordAt (s : State) (p : Place) (h : HostAnswer) : Option (State × Except Nat Nat) :=
  match p with
  | .stack a =>
    if ¬ s.mem.free (a / 64) then none
    else if s.mem.homePoison (a / 64) then some (s.snoopRead (a / 64), .error (s.poisonCode a)) else some (s.snoopRead (a / 64), .ok (s.mem.homeWord a).toNat)
  | .bank k off => some (s, if (s.bank k).poisoned (off / 64) then .error 7 else .ok ((s.bank k).data.readLE off 8))
  | .host a =>
    match s.hostFetch h (a / 64) with
    | none => none
    | some t =>
      match t.hline? (a / 64) with
      | none => none
      | some l => some (t, if l.poison then .error 7 else .ok (l.data.toNat / 256 ^ (a % 64) % 2 ^ 64))
  | .arena _ _ => none

/-- A wait address that does not translate ends the command (11 R355, R373). -/
def State.waitBad (s : State) (q seq : Nat) : State := (s.qfEvent (s.ctxPart (s.queue q).ctx) q 3 seq).retire q seq 15

/-- A waiting command's word is read: met, the command may start; an error word retires it with its code; poison retires it as consumed (11 R355, 09 R286, log 33). -/
def State.waitRead (s : State) (q seq : Nat) (c : Cmd) (p : Place) (h : HostAnswer) : State :=
  match s.wordAt p h with
  | none => s
  | some (t, .error code) => (match p with
      | .stack a => t.consumePoison (a / 64) (s.queue q).ctx
      | _ => t).retire q seq code
  | some (t, .ok v) =>
    if 2 ^ 63 ≤ v then t.retire q seq (v / 2 ^ 48 % 2 ^ 15)
    else if c.wtarget ≤ v then t.setCmd q seq { c with state := .ready }
    else t

/-- A waiting command's address is translated, and its word read (11 R355, 10 R321). -/
def State.waitStep (s : State) (q seq : Nat) (c : Cmd) (h : HostAnswer) : State :=
  let ctx := (s.queue q).ctx
  if c.whost then
    let f := s.ctxFunc ctx
    let pasid := (s.ctx ctx).pasid
    match s.atcLook f pasid c.waddr false with
    | some a => (s.atcTouch f pasid c.waddr).waitRead q seq c (.host a) h
    | none => if s.pl.atsReqs.any fun r => r.user == .command q seq then s else s.atsSend f pasid c.waddr false (.command q seq)
  else
    let t := s.xlFill 16 ctx c.waddr .read 20
    match s.xlPlinth ctx c.waddr .read with
    | .ok p => t.waitRead q seq c p h
    | _ => t.waitBad q seq

/-- WAIT_CONDITION_MET: a watched wait word reaches its target or becomes an error word (11 R355, 09 R286). -/
def opWaitConditionMet (q seq : Nat) (h : HostAnswer) (s : State) : State :=
  match s.cmd? q seq with
  | some c => if s.cmdMay q seq ∧ c.state = .waiting ∧ c.watched then s.waitStep q seq c h else s
  | none => s

/-- WATCHER_POLL: a command without a watcher re-reads its word (11 R355). -/
def opWatcherPoll (q seq : Nat) (h : HostAnswer) (s : State) : State :=
  match s.cmd? q seq with
  | some c => if s.cmdMay q seq ∧ c.state = .waiting ∧ ¬ c.watched then s.waitStep q seq c h else s
  | none => s

/-! ## The opcodes (11 R352, R357 to R359, R365) -/

/-- A started, unreported command of an opcode has its effect. -/
def State.runCmd (s : State) (q seq op : Nat) (act : Cmd → State) : State :=
  match s.cmd? q seq with
  | some c => if s.serving ∧ c.op = op ∧ c.state = .running ∧ c.report = none then act c else s
  | none => s

/-- NOP_COMMAND: only waits and signals (11 R352). -/
def opNopCommand (q seq : Nat) (s : State) : State := s.runCmd q seq 1 fun _ => s.report q seq 0

/-- The engine of a class with the fewest active streams, the lowest-numbered on a tie (11 R365). -/
def State.chChoose (s : State) (cls : Nat) : Option Nat :=
  (chEngines cls).foldl (fun b n =>
    match b with
    | none => some n
    | some m => if s.activeStreams n < s.activeStreams m then some n else some m) none

/-- COPY: the command is given to the engine of its class with the fewest active streams, whose streams then run its descriptors; it waits while no engine of the class has a free stream (11 R365). -/
def opCopyCmd (q seq : Nat) (s : State) : State :=
  s.runCmd q seq 2 fun c =>
    match c.chisel, s.chChoose c.cls with
    | none, some n => if s.activeStreams n < 16 then s.setCmd q seq { c with chisel := some n } else s
    | _, _ => s

/-- The bytes of a command's payload. -/
def Cmd.payloadBytes (c : Cmd) : List Byte := c.payload.flatMap fun l => bytesOf 64 l.toNat

/-- INLINE: the first LENGTH payload bytes are written at DST by non-allocating writes; a byte without the write right ends it with PROTECTION, and which other granules were written is then open (11 R357, 10 R568, log 34). -/
def opInlineCmd (q seq : Nat) (s : State) : State :=
  s.runCmd q seq 3 fun c =>
    let ctx := (s.queue q).ctx
    let dst := c.bodyAt 0x28 8
    let n := c.bodyAt 0x30 2
    let xs := (c.payloadBytes.take n).mapIdx fun i b => (s.chPlace ctx false (dst + i) true, b)
    let ws := xs.filterMap fun x => match x.1 with
      | .place p => some (p, x.2)
      | _ => none
    let bad := xs.findSome? fun x => match x.1 with
      | .fail code => some code
      | _ => none
    let pages := ((List.range n).map fun i => (dst + i) / 0x2000000).eraseDups
    let t := pages.foldl (fun u p => u.xlFill 16 ctx (max dst (p * 0x2000000)) .write 20) s
    let none' : HostAnswer := ⟨[], [], []⟩
    if ¬ ws.all (fun w => s.chDstReady none' w.1 (2 ^ 64 - 1)) then s
    else
      match bad with
      | some code => (t.chApply ctx none' true ws).1.report q seq code
      | none =>
        let r := t.chApply ctx none' false ws
        r.1.report q seq r.2.1

/-- The engines that a mask names. -/
def maskEngines (mask : Nat) : List Nat := (List.range 64).filter fun n => mask.testBit n

/-- The code with which an ENGINE command ends at once: its lowest-numbered engine that is absent or faulted decides (02 R42, 11 R358). -/
def State.engineRefusal (s : State) (ctx core mask : Nat) : Option Nat :=
  (maskEngines mask).findSome? fun n =>
    let e := s.engine core n
    if ¬ e.formed ∨ e.ctx ≠ ctx then some 10 else if e.state = 2 then some e.faultCode else none

/-- A cell as a command's start leaves it: at ENTRY, running, with ERR and CODE of every token clear (05 R169). -/
def Cell.start (c : Cell) (entry : Nat) : Cell :=
  { c with pc := entry, phase := .running
           toks := (List.range 16).foldl (fun m k => m.put 0 k ((m.at 0 k).setFld 48 16 0)) c.toks }

/-- An engine starts a command (05 R169, 11 R358). -/
def State.startEngine (s : State) (core n q seq : Nat) (args : List Word) : State :=
  let e := s.engine core n
  let s1 := (e.keys core).foldl (fun t k => t.setCell k ((t.cell k).start e.entry)) s
  s1.setEngine core n { e with state := 1, cmd := some (q, seq), args := args, stopping := 0 }

/-- The arguments of an ENGINE command (11 R358). -/
def Cmd.args (c : Cmd) : List Word := (List.range 8).map fun i => Word.ofNat (nbits ((c.payload[0]?).getD 0).toNat (64 * i) 64)

/-- A named engine can take a command now: idle, its context resident and not draining, and no quarantine has stopped it. -/
def State.engineIdle (s : State) (core n : Nat) : Bool :=
  let e := s.engine core n
  e.state == 0 && e.stopping == 0 && s.resident core n && !s.draining core n
    && !((s.core core).quars.any fun q => !q.deferred && q.eng == some n)

/-- A command that arrived earlier waits for one of the engines (11 R358). -/
def State.engineBehind (s : State) (core q seq mask : Nat) : Bool :=
  ((s.core core).waiting.takeWhile fun e => e != (q, seq)).any fun e =>
    match s.cmd? e.1 e.2 with
    | some c => c.engMask &&& mask != 0
    | none => false

/-- ENGINE: starts every named engine with the arguments, once all of them are free; where one is absent or faulted it starts none and ends with that engine's code (11 R358, 02 R42, 05 R169). -/
def opEngineCmd (q seq : Nat) (s : State) : State :=
  s.runCmd q seq 4 fun c =>
    let core := c.engCore
    if c.begun then s
    else
      match s.engineRefusal (s.queue q).ctx core c.engMask with
      | some code => s.report q seq code
      | none =>
        let k := s.core core
        let s1 := if k.waiting.contains (q, seq) then s else s.setCore core { k with waiting := k.waiting ++ [(q, seq)] }
        if (maskEngines c.engMask).all (s1.engineIdle core) && !s1.engineBehind core q seq c.engMask then
          let s2 := s1.setCore core { s1.core core with waiting := (s1.core core).waiting.erase (q, seq) }
          let s3 := (maskEngines c.engMask).foldl (fun t n => t.startEngine core n q seq c.args) s2
          s3.setCmd q seq { c with begun := true, engines := c.engMask, trapped := 0 }
        else s1

/-- The request of an ARMATURE command (11 R352, R359). -/
def Cmd.armReq (c : Cmd) (ctx q seq : Nat) : ArmReq :=
  let m := c.bodyAt 0x39 1
  let image := c.bodyAt 0x28 8
  { ctx := ctx, image := if m % 4 = 2 then 0 else image, mode := m % 4, full := m.testBit 2, mask := if m % 4 = 2 then image else 0
    record := c.bodyAt 0x30 8, cmd := some (q, seq), src := 19 }

/-- ARMATURE: submits its request to the Armature of its core, once (11 R359, 02 R38). -/
def opArmatureCmd (q seq : Nat) (s : State) : State :=
  s.runCmd q seq 5 fun c =>
    if c.begun then s
    else (s.setCmd q seq { c with begun := true }).armSubmit (c.bodyAt 0x38 1) (c.armReq (s.queue q).ctx q seq)

/-! ## Meanings: each command answers the next state that its operation gives. -/

/-- The meaning of COMMAND_START. -/
def execCommandStart (q seq : Nat) (s : State) : Host.Outcome State Fault Refusal := .next (opCommandStart q seq s)
/-- The meaning of WAIT_CONDITION_MET. -/
def execWaitConditionMet (q seq : Nat) (h : HostAnswer) (s : State) : Host.Outcome State Fault Refusal := .next (opWaitConditionMet q seq h s)
/-- The meaning of WATCHER_POLL. -/
def execWatcherPoll (q seq : Nat) (h : HostAnswer) (s : State) : Host.Outcome State Fault Refusal := .next (opWatcherPoll q seq h s)
/-- The meaning of NOP_COMMAND. -/
def execNopCommand (q seq : Nat) (s : State) : Host.Outcome State Fault Refusal := .next (opNopCommand q seq s)
/-- The meaning of COPY. -/
def execCopyCmd (q seq : Nat) (s : State) : Host.Outcome State Fault Refusal := .next (opCopyCmd q seq s)
/-- The meaning of INLINE. -/
def execInlineCmd (q seq : Nat) (s : State) : Host.Outcome State Fault Refusal := .next (opInlineCmd q seq s)
/-- The meaning of ENGINE. -/
def execEngineCmd (q seq : Nat) (s : State) : Host.Outcome State Fault Refusal := .next (opEngineCmd q seq s)
/-- The meaning of ARMATURE. -/
def execArmatureCmd (q seq : Nat) (s : State) : Host.Outcome State Fault Refusal := .next (opArmatureCmd q seq s)

end Sys2Proof.Machine
end

