-- ==== Sys2Proof/Machine/Fabric.lean ====
section
/-! DEFINITION. The fabric: ports, routing, jobs and their peers, packets, send rings and their descriptors (13). -/

namespace Sys2Proof

/-! ## Packets as bytes (R408, R414) -/

/-- The traffic class of a packet (R404). -/
def Packet.cls (p : Packet) : Nat := if p.typ = 5 then 1 else if p.typ ≤ 4 then 0 else 2

/-- The name of a packet's buffers on a virtual lane: 8 × traffic class + lane (R404). -/
def Packet.buf (p : Packet) (vl : Nat) : Nat := 8 * p.cls + vl

/-- The 48-byte header (R414). -/
def Packet.header (p : Packet) : List Byte :=
  Machine.bytesOf 1 p.typ ++ Machine.bytesOf 1 (p.vl % 8 + 8 * (p.keyIdx % 2)) ++ Machine.bytesOf 2 p.payload.length ++ Machine.bytesOf 4 (p.dst % 2 ^ 17 + 2 ^ 24 * p.ttl)
    ++ Machine.bytesOf 4 (p.src % 2 ^ 17) ++ Machine.bytesOf 2 p.job ++ Machine.bytesOf 2 p.oparg ++ Machine.bytesOf 8 (p.psn % 2 ^ 48) ++ Machine.bytesOf 8 (p.addr % 2 ^ 52)
    ++ Machine.bytesOf 4 (p.srank % 2 ^ 17) ++ Machine.bytesOf 4 0 ++ Machine.bytesOf 8 (p.ref % 2 ^ 48)

/-- A packet on a link: header, payload and tag (R414). -/
def Packet.wire (p : Packet) : List Byte := p.header ++ p.payload ++ Machine.bytesOf 16 p.tag

/-- The bytes authenticated beside the payload: the header with TTL and VL zero (R408). -/
def Packet.aad (p : Packet) : List Byte := { p with ttl := 0, vl := 0 }.header

/-- The initialisation vector (R408). -/
def Packet.iv (p : Packet) : Nat :=
  p.src % 2 ^ 17 + 2 ^ 17 * (p.dst % 2 ^ 17) + 2 ^ 34 * ((if p.cls = 2 then p.ref else p.psn) % 2 ^ 48)
    + 2 ^ 82 * (if p.typ = 5 then 1 else if p.typ = 6 then 2 else if p.typ = 7 then 3 else 0)

/-- The payload under the key stream: encrypts a plain payload and decrypts an encrypted one (R408). -/
def Packet.crypt (p : Packet) (key : Nat) : List Byte := p.payload.mapIdx fun i b => b ^^^ Config.gcmStream key p.iv i

/-- The tag of a packet whose payload is encrypted (R408). -/
def Packet.tagOf (p : Packet) (key : Nat) : Nat := Config.gcmTag key p.iv p.aad p.payload % 2 ^ 128

/-- A plain packet sealed under a key (R408). -/
def Packet.sealed (p : Packet) (key : Nat) : Packet :=
  let q := { p with payload := p.crypt key }
  { q with tag := q.tagOf key }

/-- The tag of a packet verifies under a key (R409). -/
def Packet.verifies (p : Packet) (key : Nat) : Bool := p.tag == p.tagOf key

/-- A sealed packet with its payload decrypted (R408). -/
def Packet.opened (p : Packet) (key : Nat) : Packet := { p with payload := p.crypt key }

end Sys2Proof

namespace Sys2Proof.Machine

/-- The fabric page. -/
def fabPage : Nat := regKey 0x800 0
/-- The job and ring page. -/
def jobPage : Nat := regKey 0x801 0

/-- The transport and forwarding are enabled (R421). -/
def State.fabOn (s : State) : Bool := s.serving && s.fld fabPage .fabCtl Fld.fabCtl_en == 1

/-- FAB_ID.DEVID (R399). -/
def State.devId (s : State) : Nat := s.fld fabPage .fabId Fld.fabId_devid

/-! ## Routing (R400 to R404) -/

/-- The route entry of a destination (R400). -/
def State.routeOf (s : State) (dst : Nat) : Nat :=
  s.fab.routes.at 0 (if dst / 256 ≠ s.devId / 256 then dst / 256 % 512 else 512 + dst % 256)

/-- The candidate ports of a destination that are up. -/
def State.candidates (s : State) (dst : Nat) : List Nat :=
  (List.range 16).filter fun p => (s.routeOf dst).testBit p && (s.port p).state == 2

/-- The virtual lane of a packet that leaves on a port by an entry (R404); `vl` is the lane it came on. -/
def State.laneOf (s : State) (dst port : Nat) (vl : Option Nat) : Nat :=
  let pair := nbits (s.routeOf dst) 16 2
  if (s.port port).dateline then 2 * pair + 1
  else
    match vl with
    | some v => if v / 2 = pair then v else 2 * pair
    | none => 2 * pair

/-- The lane a waiting packet takes on a port (R404). -/
def State.laneFor (s : State) (w : Waiting) (port : Nat) : Nat := s.laneOf w.pkt.dst port (w.came.map fun _ => w.pkt.vl)

/-- The free credits of a port for a packet on the lane it would take (R397, R404). -/
def State.creditsFor (s : State) (w : Waiting) (port : Nat) : Nat := (s.port port).credits.at 0 (w.pkt.buf (s.laneFor w port))

/-- The port a packet leaves on: the candidate that is up and has the most free credits for its class and lane, the lowest-numbered of equals (R400). -/
def State.bestPort (s : State) (w : Waiting) : Option Nat :=
  (s.candidates w.pkt.dst).foldl (fun best q =>
    match best with
    | none => some q
    | some b => if s.creditsFor w b < s.creditsFor w q then some q else some b) none

/-- The buffer that a packet held is free again: the port it came on gives the credit back (R397). -/
def State.freeBuffer (s : State) (came : Option Nat) (p : Packet) : State :=
  match came with
  | none => s
  | some q =>
    let x := s.port q
    s.setPort q { x with freed := x.freed.put 0 (p.buf p.vl) (x.freed.at 0 (p.buf p.vl) + 1) }

/-- A packet leaves on a port with a credit, and is kept until the neighbour acknowledges it (R397). -/
def State.leaveBy (s : State) (w : Waiting) (q : Nat) : State :=
  let x := s.port q
  let vl := s.laneFor w q
  let k := w.pkt.buf vl
  (s.setPort q { x with credits := x.credits.put 0 k (x.credits.at 0 k - 1), kept := x.kept ++ [(x.txSeq, { w.pkt with vl := vl })], txSeq := x.txSeq + 1 }).freeBuffer w.came w.pkt

/-- A packet for another complex leaves, waits for a credit, or is dropped and counted where no candidate is up (R397, R400, R401). -/
def State.route (s : State) (w : Waiting) : State :=
  match s.bestPort w with
  | none => (s.bump fabPage .fabErr Fld.fabErr_dropped 1).freeBuffer w.came w.pkt
  | some q => if s.creditsFor w q = 0 then { s with fab := { s.fab with egress := s.fab.egress ++ [w] } } else s.leaveBy w q

/-- The waiting packets are routed again, in the order in which they came (R397, R400). -/
def State.forwardAll (s : State) : State := s.fab.egress.foldl State.route { s with fab := { s.fab with egress := [] } }

/-- A packet is routed: to this complex's transport, or on toward another complex (R400). -/
def State.routePacket (s : State) (p : Packet) (came : Option Nat) : State :=
  if p.dst = s.devId then { s with fab := { s.fab with ingress := s.fab.ingress ++ [⟨came, p⟩] } } else s.route ⟨p, came⟩

/-! ## Ports (R397, R398) -/

/-- The fabric and the port are enabled (R398, 18 R534 step 11). -/
def State.portOn (s : State) (p : Nat) : Bool := s.fabOn && (s.port p).en

/-- A port with nothing on its link. -/
def Port.cleared (x : Port) : Port := { x with fails := 0, noisy := false, txSeq := 0, rxSeq := 0, kept := [], credits := [], freed := [] }

/-- Credits are added. -/
def creditsAdded (m : SMap Nat) (cs : List (Nat × Nat)) : SMap Nat := cs.foldl (fun m c => if c.1 < 24 then m.put 0 c.1 (m.at 0 c.1 + c.2) else m) m

/-- A port goes down: what is on it is lost, and it trains again at once while it is enabled (R398). -/
def State.portFall (s : State) (n : Nat) : State :=
  let x := s.port n
  (s.setPort n { x.cleared with state := if s.portOn n then 1 else 0, downs := if x.state = 2 then satAdd 65535 x.downs 1 else x.downs }).forwardAll.noteHealth

/-- PORT_DOWN: a port goes down for a cause of R398, its packets are lost, and it trains again while EN is set. -/
def opPortDown (port : Nat) (cause : PortCause) (s : State) : State :=
  let x := s.port port
  let holds : Bool := match cause with
    | .replays => decide (8 ≤ x.fails)
    | .lock | .silent => true
    | .disabled => !s.portOn port
  if ¬ s.up ∨ 16 ≤ port ∨ x.state = 0 ∨ ¬ holds then s else s.portFall port

/-- PORT_UP: a port completes training, with the credits that the neighbour gives at first (R397, R398). -/
def opPortUp (port : Nat) (credits : List (Nat × Nat)) (s : State) : State :=
  let x := s.port port
  if port < 16 ∧ s.portOn port ∧ x.state ≠ 2 then (s.setPort port { x.cleared with state := 2, credits := creditsAdded [] credits }).forwardAll else s

/-- What an accepted flit says of the link is taken: the acknowledged packets are no longer kept, and the credits are added (R397). -/
def State.linkTook (s : State) (port : Nat) (l : LinkHdr) : State :=
  let x := s.port port
  (s.setPort port { x with rxSeq := x.rxSeq + 1, kept := x.kept.filter (fun k => decide (l.ack ≤ k.1)), credits := creditsAdded x.credits l.credits }).forwardAll

/-- FLIT_REPLAY: a flit that fails its check is not used and is replayed; failed replays count toward R398, and a replayed flit that comes in link sequence order is accepted (R397, R398). -/
def opFlitReplay (port : Nat) (failed frequent : Bool) (l : LinkHdr) (s : State) : State :=
  let x := s.port port
  if port < 16 ∧ s.up ∧ x.state = 2 then
    let s1 := (s.setPort port { x with replays := satAdd 65535 x.replays 1, fails := if failed then x.fails + 1 else 0, noisy := x.noisy || frequent }).noteHealth
    if failed ∨ l.seq ≠ x.rxSeq then s1 else s1.linkTook port l
  else s

/-- PACKET_FORWARD: a packet that arrives on a port, in link sequence order, is routed by its header alone, with its TTL lowered, or dropped (R397, R400 to R402). -/
def opPacketForward (port : Nat) (l : LinkHdr) (p : Packet) (s : State) : State :=
  if ¬ s.fabOn ∨ 16 ≤ port ∨ (s.port port).state ≠ 2 ∨ l.seq ≠ (s.port port).rxSeq then s
  else
    let s1 := s.linkTook port l
    if p.dst = s.devId then s1.routePacket p (some port)
    else if p.ttl ≤ 1 then (s1.bump fabPage .fabErr Fld.fabErr_dropped 1).freeBuffer (some port) p
    else s1.routePacket { p with ttl := p.ttl - 1 } (some port)

/-! ## Peers (R406, R408, R409, R414) -/

/-- The address of a peer's entry. -/
def Job.entry (j : Job) (rank : Nat) : Nat := j.base + 32 * rank

/-- A word of a peer's entry. The complex's copy is the table itself: it writes an entry when it changes it (log 35). -/
def State.peerWord (s : State) (j : Job) (rank off : Nat) : Word := s.mem.homeWord (j.entry rank + off)

/-- DEVID of a peer. -/
def State.peerDev (s : State) (j : Job) (rank : Nat) : Nat := (s.peerWord j rank 0).fld 0 17
/-- A peer's entry is VALID. -/
def State.peerValid (s : State) (j : Job) (rank : Nat) : Bool := decide (rank < j.count) && (s.peerWord j rank 0).bit 31
/-- A peer is dead for the job. -/
def State.peerDead (s : State) (j : Job) (rank : Nat) : Bool := (s.peerWord j rank 0).fld 32 8 != 0
/-- The next sequence number to send to a peer. -/
def State.peerTx (s : State) (j : Job) (rank : Nat) : Nat := (s.peerWord j rank 8).fld 0 48

/-- A PSN is a duplicate of one accepted (R414). -/
def State.psnSeen (s : State) (j : Job) (rank psn : Nat) : Bool :=
  let h := s.peerWord j rank 0x10
  let high := h.fld 0 48
  h.bit 63 && (psn == high || decide (psn + 64 ≤ high) || (decide (psn < high) && (s.peerWord j rank 0x18).bit (high - 1 - psn)))

/-- A PSN is accepted: RX_HIGH and RX_MAP (R406). -/
def State.psnAccept (s : State) (j : Job) (rank psn : Nat) : State :=
  let h := s.peerWord j rank 0x10
  let high := h.fld 0 48
  let map := (s.peerWord j rank 0x18).toNat
  let r : Nat × Nat :=
    if ¬ h.bit 63 then (psn, 0)
    else if high < psn then (psn, if 64 < psn - high then 0 else (map * 2 ^ (psn - high) + 2 ^ (psn - high - 1)) % 2 ^ 64)
    else (high, map ||| 2 ^ (high - 1 - psn))
  (s.homeStore (j.entry rank + 0x10) 8 (r.1 + 2 ^ 63)).homeStore (j.entry rank + 0x18) 8 r.2

/-- The job slot bound to a job identifier (R405: at most one). -/
def State.slotOf (s : State) (job : Nat) : Option Nat := (List.range 256).find? fun n => (s.job n).bound && (s.job n).job == job

/-- The key that a key slot of a job holds (R407). -/
def Job.key (j : Job) (k : Nat) : Option Nat := if k = 0 then j.key0 else j.key1

/-- A key slot of a job is loaded. -/
def Job.keyOn (j : Job) (k : Nat) : Bool := (j.key k).isSome

/-! ## Sending (R407, R408, R414) -/

/-- A packet of a slot leaves this complex, sealed under the key that it names; with that key slot empty nothing can be sent (R401, R407, R408, R421; log 96). -/
def State.transmit (s : State) (slot : Nat) (p : Packet) : State :=
  match (s.job slot).key p.keyIdx with
  | some k => (s.bump fabPage .fabCnt Fld.fabCnt_tx 1).routePacket (p.sealed k) none
  | none => s

/-- A packet of a slot to a rank, not yet sealed. -/
def State.packetTo (s : State) (slot rank typ psn addr oparg ref : Nat) (payload : List Byte) : Packet :=
  let j := s.job slot
  { typ := typ, vl := 0, keyIdx := j.txKey, dst := s.peerDev j rank, ttl := 255, src := s.devId, job := j.job, oparg := oparg, psn := psn
    addr := addr, srank := j.rank, ref := ref, payload := payload, tag := 0 }

/-- The unacknowledged packets of a flow (R414). -/
def State.flowOut (s : State) (slot rank : Nat) : Nat := (s.fab.unacked.filter fun u => u.slot == slot && u.rank == rank).length

/-- A flow can send its next packet now: fewer than 64 unacknowledged, and a key to send under (R407, R414). -/
def State.flowOpen (s : State) (slot rank : Nat) : Bool := decide (s.flowOut slot rank < 64) && (s.job slot).keyOn (s.job slot).txKey

/-- A flow has used up its sequence numbers (R408). -/
def State.flowSpent (s : State) (slot rank : Nat) : Bool := decide (2 ^ 48 - 1 ≤ s.peerTx (s.job slot) rank)

/-- A sequenced packet is sent: it takes the next PSN of its flow, and waits for its acknowledgement (R414). -/
def State.sendSeq (s : State) (slot rank typ addr oparg ref : Nat) (payload : List Byte) (ring : Option (Nat × Nat)) (get : Option Nat) : State :=
  let j := s.job slot
  let psn := s.peerTx j rank
  let p := s.packetTo slot rank typ psn addr oparg ref payload
  let s1 := (s.homeStore (j.entry rank + 8) 8 (psn + 1)).transmit slot p
  { s1 with fab := { s1.fab with unacked := s1.fab.unacked ++ [⟨slot, rank, p, ring, get, 1⟩] } }

/-- An ACK (code 0) or a NAK answers a sequence number (R414, R415). -/
def State.answerPsn (s : State) (slot rank psn code : Nat) : State :=
  let s1 := s.transmit slot (s.packetTo slot rank (if code = 0 then 6 else 7) 0 0 code psn [])
  if code = 0 then s1 else { s1 with fab := { s1.fab with refused := s1.fab.refused ++ [(slot, rank, psn)] } }

/-! ## Local accesses (R411, R413, R415) -/

/-- `n` bytes of a context's device addresses as the transport reads them, by non-allocating reads: none while it must wait; the code of a failure (R411, 10 R568, 14 R438). -/
def State.fabRead (s : State) (ctx va n : Nat) : Option (Except Nat (List Byte)) :=
  (List.range n).foldr (fun i acc =>
    match s.chPlace ctx false (va + i) false with
    | .place p =>
      match s.chByte ⟨[], [], []⟩ p, acc with
      | some (.error e), _ => some (.error e)
      | none, _ => none
      | some (.ok _), none => none
      | some (.ok _), some (.error e) => some (.error e)
      | some (.ok b), some (.ok l) => some (.ok (b :: l))
    | .fail e => some (.error e)
    | .miss => none) (some (.ok []))

/-- The device TLB fills as the transport's access does, and poison that it met is consumed (10 R308, 16 R483). -/
def State.fabTouch (s : State) (ctx va n : Nat) (r : Right) : State :=
  let s0 := s.xlFill 16 ctx va r 0xFF
  let s1 := if (va + n - 1) / 0x2000000 = va / 0x2000000 then s0 else s0.xlFill 16 ctx (va + n - 1) r 0xFF
  if r = .read then
    let s2 := s1.snoopReads (placeLines ((List.range n).filterMap fun i => match s.chPlace ctx false (va + i) false with
      | .place p => some p
      | _ => none))
    match s.chPlace ctx false va false with
    | .place (.stack a) => s2.consumeRange a n ctx
    | _ => s2
  else s1

/-! ## Descriptors (R412, R413) -/

/-- A descriptor of a ring. -/
def Ring.desc? (r : Ring) (idx : Nat) : Option RingDesc := r.descs.find? fun d => d.idx == idx

/-- A descriptor of a ring changes. -/
def State.onDesc (s : State) (ring idx : Nat) (f : RingDesc → RingDesc) : State :=
  let r := s.ring ring
  (s.noteUse (s.job r.slot).ctx).setRing ring { r with descs := r.descs.map fun d => if d.idx = idx then f d else d }

/-- The amount that a descriptor has to send: bytes of a PUT or ACC, one packet of a SIG or GET. -/
def RingDesc.total (d : RingDesc) : Nat := if d.kind ≤ 2 then d.length else 1

/-- A descriptor with nothing outstanding, and failed or all sent, is done (R413, R415). -/
def RingDesc.settle (d : RingDesc) : RingDesc :=
  if d.started && d.out == 0 && (d.code != 0 || d.sent == d.total) then { d with done := true } else d

/-- A descriptor fails with its first code; the ring notes it for the next BARRIER (R413, R415). -/
def State.descFail (s : State) (ring idx code : Nat) (death : Bool) : State :=
  match (s.ring ring).desc? idx with
  | none => s
  | some d =>
    if d.code ≠ 0 ∨ d.done then s.onDesc ring idx RingDesc.settle
    else
      let s1 := s.onDesc ring idx fun x => ({ x with started := true, code := code }).settle
      let r := s1.ring ring
      s1.setRing ring { r with failures := r.failures ++ [(idx, code, death)] }

/-- The next packet of a started descriptor: its payload and the amount it takes, none while it must wait, or the code of a failure (R413, R414). A PUT or ACC is cut at every 4 KiB boundary of RADDR. -/
def State.descPiece (s : State) (ctx : Nat) (d : RingDesc) : Option (Except Nat (List Byte × Nat)) :=
  if d.kind ≤ 2 then
    let n := min (d.length - d.sent) (4096 - (d.raddr + d.sent) % 4096)
    (s.fabRead ctx (d.laddr + d.sent) n).map fun x => match x with
      | .ok l => .ok (l, n)
      | .error e => .error e
  else if d.kind = 3 then some (.ok (bytesOf 8 d.value, 1))
  else some (.ok (bytesOf 8 d.laddr ++ bytesOf 4 d.length ++ bytesOf 4 0, 1))

/-- A started descriptor sends what its flow lets it send now. -/
def State.pumpDesc : Nat → State → Nat → Nat → State
  | 0, s, _, _ => s
  | n + 1, s, ring, idx =>
    let r := s.ring ring
    match r.desc? idx with
    | none => s
    | some d =>
      if ¬ d.started ∨ d.done ∨ d.code ≠ 0 ∨ d.sent = d.total ∨ d.kind = 5 then s
      else if s.flowSpent r.slot d.peer then s.descFail ring idx 13 true
      else if ¬ s.flowOpen r.slot d.peer then s
      else
        let ctx := (s.job r.slot).ctx
        match s.descPiece ctx d with
        | none => s
        | some (.error code) => (s.fabTouch ctx (d.laddr + d.sent) (min (d.length - d.sent) 4096) .read).descFail ring idx code false
        | some (.ok (payload, k)) =>
          let s1 := if d.kind ≤ 2 then s.fabTouch ctx (d.laddr + d.sent) k .read else s
          let s2 := s1.sendSeq r.slot d.peer d.kind (if d.kind ≤ 2 then d.raddr + d.sent else d.raddr)
            (if d.kind = 2 then nbits d.dflags 1 3 else 0) 0 payload (some (ring, idx)) none
          State.pumpDesc n (s2.onDesc ring idx fun x => { x with sent := x.sent + k, out := x.out + 1 }) ring idx

/-- A GET being served sends the GETRESPs that its flow lets it send now, cut at 4 KiB boundaries of the destination (log 36); poison ends it, and when nothing is outstanding the GET is answered (R414, R415). -/
def State.pumpGet : Nat → State → Nat → Nat → Nat → State
  | 0, s, _, _, _ => s
  | n + 1, s, slot, rank, psn =>
    match s.fab.gets.find? fun g => g.slot == slot && g.rank == rank && g.psn == psn with
    | none => s
    | some g =>
      let put := fun (t : State) (x : GetServe) => { t with fab := { t.fab with gets := t.fab.gets.map fun y => if y = g then x else y } }
      let drop := fun (t : State) => { t with fab := { t.fab with gets := t.fab.gets.filter fun y => y != g } }
      if g.code ≠ 0 ∨ g.sent = g.length then
        if g.out = 0 then (drop s).answerPsn slot rank psn g.code else s
      else if s.flowSpent slot rank then put s { g with code := 13 }
      else if ¬ s.flowOpen slot rank then s
      else
        let ctx := (s.job slot).ctx
        let k := min (g.length - g.sent) (4096 - (g.dest + g.sent) % 4096)
        match s.fabRead ctx (g.addr + g.sent) k with
        | none => s
        | some (.error code) => State.pumpGet n (put (s.fabTouch ctx (g.addr + g.sent) k .read) { g with code := code }) slot rank psn
        | some (.ok l) =>
          let s1 := (s.fabTouch ctx (g.addr + g.sent) k .read).sendSeq slot rank 5 (g.dest + g.sent) 0 psn l none (some psn)
          State.pumpGet n (put s1 { g with sent := g.sent + k, out := g.out + 1 }) slot rank psn

/-- Every descriptor and every GET being served sends what it can (R413, R414). -/
def State.pumpAll (s : State) : State :=
  let s1 := (s.fab.rings.flatMap fun e => e.2.descs.map fun d => (e.1, d.idx)).foldl (fun t x => State.pumpDesc 66 t x.1 x.2) s
  (s1.fab.gets.map fun g => (g.slot, g.rank, g.psn)).foldl (fun t x => State.pumpGet 67 t x.1 x.2.1 x.2.2) s1

/-! ## Receiving (R409, R414, R415) -/

/-- A packet addressed here is taken from the arrivals, and its buffer is free (R397). -/
def State.arrived (s : State) (a : Arrival) : State :=
  State.freeBuffer { s with fab := { s.fab with ingress := s.fab.ingress.erase a } } a.port a.pkt

/-- A packet that R409 refuses is dropped without reply and counted, and is written to the Patina log unless one of its job was within the last millisecond (R409, 19 R563; log 97). -/
def State.authDrop (s : State) (a : Arrival) : State :=
  let recent := s.fab.authLog.filter fun e => decide ((s.time + 2 ^ 64 - e.2) % 2 ^ 64 < 1000000)
  let s1 := s.bump fabPage .fabErr Fld.fabErr_auth 1
  if recent.any fun e => e.1 == a.pkt.job then { s1 with fab := { s1.fab with authLog := recent } }
  else
    let part := (s.slotOf a.pkt.job).map fun n => (s.ctx (s.job n).ctx).part
    ({ s1 with fab := { s1.fab with authLog := recent ++ [(a.pkt.job, s.time)] } }).logEvent 5 part 0x801 0 a.pkt.job
      (packFields [(3, a.pkt.src), (1, a.port.getD 255)])

/-- The slot that accepts a packet by R409, but for the PSN. -/
def State.accepts (s : State) (p : Packet) : Option Nat :=
  match s.slotOf p.job with
  | some n =>
    let j := s.job n
    if (j.key p.keyIdx).any p.verifies && s.peerValid j p.srank && s.peerDev j p.srank == p.src && !s.peerDead j p.srank then some n else none
  | none => none

/-- A packet as its slot reads it: decrypted under the key that it names (R408). -/
def State.openFor (s : State) (slot : Nat) (p : Packet) : Packet :=
  match (s.job slot).key p.keyIdx with
  | some k => p.opened k
  | none => p

/-- The arrival of a packet. -/
def State.arrivalOf (s : State) (p : Packet) : Option Arrival := s.fab.ingress.find? fun a => a.pkt == p

/-- A packet of a type that has arrived for this complex, once accepted and counted, has its effect on its slot (R409, R421). -/
def State.receive (s : State) (p : Packet) (typ : Nat) (act : State → Nat → Packet → State) : State :=
  if ¬ s.fabOn ∨ p.typ ≠ typ ∨ p.dst ≠ s.devId then s
  else
    match s.arrivalOf p with
    | none => s
    | some a =>
      match s.accepts p with
      | none => (s.arrived a).authDrop a
      | some n => act (s.arrived a) n (s.openFor n p)

/-- The packet is accepted: it counts, and its sequence number is noted (R409, R414, R421). -/
def State.acceptSeq (s : State) (p : Packet) (slot : Nat) : State :=
  (s.bump fabPage .fabCnt Fld.fabCnt_rx 1).psnAccept (s.job slot) p.srank p.psn

/-- The transport serves the jobs of a context: it is LIVE, and no forced abort of it is in progress (R419). -/
def State.jobServes (s : State) (ctx : Nat) : Bool := (s.ctx ctx).state == 1 && !s.pl.aborts.any fun b => b.ctx == ctx && b.jobs

/-- A sequenced request is received: a duplicate is acknowledged once its first copy has been performed, and is not performed again; a request for the job of a context that is being aborted or destroyed is refused with OWNER_GONE; otherwise `act` performs it and answers with its code, none while it must wait (R414, R415, R419). -/
def State.receiveSeq (s : State) (pkt : Packet) (typ : Nat) (act : State → Nat → Packet → Option (State × Nat)) : State :=
  s.receive pkt typ fun t slot p =>
    let j := t.job slot
    if t.psnSeen j p.srank p.psn then
      if t.fab.refused.contains (slot, p.srank, p.psn) ∨ t.fab.gets.any (fun g => g.slot == slot && g.rank == p.srank && g.psn == p.psn) then t
      else t.answerPsn slot p.srank p.psn 0
    else if ¬ t.jobServes j.ctx then (t.acceptSeq p slot).answerPsn slot p.srank p.psn 3
    else
      match act t slot p with
      | none => s
      | some (u, code) => ((u.acceptSeq p slot).answerPsn slot p.srank p.psn code).pumpAll

/-- The places of a packet's bytes, or the code of a failure. -/
def State.fabPlaces (s : State) (ctx va : Nat) (bs : List Byte) : Except Nat (List (Place × Byte)) :=
  let xs := bs.mapIdx fun i b => (s.chPlace ctx false (va + i) true, b)
  match xs.findSome? fun x => match x.1 with
    | .fail e => some e
    | _ => none with
  | some e => .error e
  | none => .ok (xs.filterMap fun x => match x.1 with
    | .place p => some (p, x.2)
    | _ => none)

/-- Bytes are written in a context by non-allocating writes; the code of a failure, none while a line cannot be served (R415, 06 R200, 14 R438). -/
def State.fabWrite (s : State) (ctx va : Nat) (bs : List Byte) : Option (State × Nat) :=
  let t := s.fabTouch ctx va bs.length .write
  match s.fabPlaces ctx va bs with
  | .error e => some (t, e)
  | .ok ws =>
    let r := t.chApply ctx ⟨[], [], []⟩ false ws
    if ws.all (fun w => s.chDstReady ⟨[], [], []⟩ w.1 (2 ^ 64 - 1)) then some (r.1, r.2.1) else none

/-- PUT_PACKET: the payload is written at ADDR and acknowledged (R415). -/
def opPutPacket (p : Packet) (s : State) : State := s.receiveSeq p 1 fun t slot p => t.fabWrite (t.job slot).ctx p.addr p.payload

/-- A granule of an ACC: place, and the elements that come. -/
def State.accGranule (s : State) (ctx va op : Nat) (bf : Bool) (bs : List Byte) : Option (State × Nat) :=
  match s.xlPlinth ctx va .atomic with
  | .ok p =>
    if ¬ s.raccFree p then none
    else
      match s.raccRead p with
      | none => some (s, 7)
      | some old =>
        let src := fun j => if bf then leAt bs (2 * j) 2 * 65536 else leAt bs (4 * j) 4
        let z := raccGranule op (b2n bf) old src
        let t := s.raccWrite p z.1
        some (if s.reliefArith p then t.reliefFlag p z.2 else t, 0)
  | .poison _ => some (s, 7)
  | _ => some (s, 6)

/-- ACC_PACKET: every granule takes its contribution indivisibly at its home or bank (R415, 06 R195, R197). -/
def opAccPacket (p : Packet) (s : State) : State :=
  s.receiveSeq p 2 fun t slot p =>
    let ctx := (t.job slot).ctx
    (List.range (p.payload.length / 64)).foldl (fun (acc : Option (State × Nat)) i =>
      match acc with
      | none => none
      | some (u, code) =>
        (u.accGranule ctx (p.addr + 64 * i) (p.oparg % 4) (p.oparg.testBit 2) (byteSlice p.payload (64 * i) 64)).map fun r =>
          (r.1, if code = 0 then r.2 else code)) (some (t.xlFill 16 ctx p.addr .atomic 0xFF, 0))

/-- SIG_PACKET: the fence word at ADDR is signalled, with origin 3 (R415, 08 R250, R268). -/
def opSigPacket (p : Packet) (s : State) : State :=
  s.receiveSeq p 3 fun t slot p =>
    let ctx := (t.job slot).ctx
    let v := leAt p.payload 0 8
    let t1 := t.xlFill 16 ctx p.addr .atomic 0xFF
    match t.xlPlinth ctx p.addr .atomic with
    | .ok (.stack a) =>
      if t.inRelief 16 ctx p.addr .atomic ∨ p.addr % 8 ≠ 0 then some (t1, 6)
      else
        match t1.atomicReady ⟨[], [], []⟩ (.stack a) 8 with
        | none => none
        | some (u, .error code) => some (u, code)
        | some (u, .ok old) => some ((u.atomicWrite (.stack a) 8 (signalWord old v) 0).noteSignal old v ctx 3 p.addr, 0)
    | .poison _ => some (t1, 7)
    | _ => some (t1, 6)

/-- GET_PACKET: the source is checked, and its bytes are sent back as GETRESPs; the GET is answered after them (R414, R415). -/
def opGetPacket (p : Packet) (s : State) : State :=
  s.receive p 4 fun t slot p =>
    let j := t.job slot
    let n := leAt p.payload 8 4
    let serving := t.fab.gets.any fun g => g.slot == slot && g.rank == p.srank && g.psn == p.psn
    if t.psnSeen j p.srank p.psn then
      if serving ∨ t.fab.refused.contains (slot, p.srank, p.psn) then t else t.answerPsn slot p.srank p.psn 0
    else
      let u := t.acceptSeq p slot
      let pages := (List.range ((p.addr + n - 1) / 0x2000000 - p.addr / 0x2000000 + 1)).map fun i => max p.addr ((p.addr / 0x2000000 + i) * 0x2000000)
      let bad := pages.findSome? fun a => match t.chPlace j.ctx false a false with
        | .fail e => some e
        | _ => none
      if ¬ t.jobServes j.ctx then u.answerPsn slot p.srank p.psn 3
      else
        match bad with
        | some code => u.answerPsn slot p.srank p.psn code
        | none =>
          let g : GetServe := { slot := slot, rank := p.srank, psn := p.psn, addr := p.addr, dest := leAt p.payload 0 8, length := n }
          let x : State := { u with fab := { u.fab with gets := u.fab.gets ++ [g] } }
          x.pumpAll

/-- The outstanding GET of a flow that a GETRESP answers, when its bytes lie in that GET's destination (R415). -/
def State.getFor (s : State) (slot : Nat) (p : Packet) : Bool :=
  s.fab.unacked.any fun u => u.slot == slot && u.rank == p.srank && u.pkt.typ == 4 && u.pkt.psn == p.ref
    && decide (leAt u.pkt.payload 0 8 ≤ p.addr) && decide (p.addr + p.payload.length ≤ leAt u.pkt.payload 0 8 + leAt u.pkt.payload 8 4)

/-- GETRESP_PACKET: data of an outstanding GET is written at the requester; one that answers none is not accepted (R415). -/
def opGetrespPacket (p : Packet) (s : State) : State :=
  match s.slotOf p.job, s.arrivalOf p with
  | some n, some a =>
    if s.psnSeen (s.job n) p.srank p.psn ∨ s.getFor n p ∨ (s.accepts p).isNone then
      s.receiveSeq p 5 fun t slot q => t.fabWrite (t.job slot).ctx q.addr q.payload
    else if s.fabOn ∧ p.typ = 5 ∧ p.dst = s.devId then s.arrived a else s
  | _, _ => s.receive p 5 fun t _ _ => t

/-- An unacknowledged packet is answered, with a code (0 an ACK): its descriptor or the GET it serves follows (R413, R415). -/
def State.answered (s : State) (slot rank psn code : Nat) : State :=
  match s.fab.unacked.find? fun u => u.slot == slot && u.rank == rank && u.pkt.psn == psn with
  | none => s
  | some u =>
    let s1 := { s with fab := { s.fab with unacked := s.fab.unacked.erase u } }
    let s2 := match u.ring with
      | some (r, i) =>
        let t := s1.onDesc r i fun d => { d with out := d.out - 1 }
        if code = 0 then t.onDesc r i RingDesc.settle else t.descFail r i code false
      | none => s1
    match u.get with
    | some g => { s2 with fab := { s2.fab with gets := s2.fab.gets.map fun x =>
        if x.slot = slot ∧ x.rank = rank ∧ x.psn = g then { x with out := x.out - 1, code := if x.code = 0 then code else x.code } else x } }
    | none => s2

/-- ACK_PACKET: marks a packet acknowledged; a late one is discarded (R415, R419). -/
def opAckPacket (p : Packet) (s : State) : State :=
  s.receive p 6 fun t slot p => ((t.bump fabPage .fabCnt Fld.fabCnt_rx 1).answered slot p.srank p.ref 0).pumpAll

/-- NAK_PACKET: fails its descriptor with the code it carries (R415, R419). -/
def opNakPacket (p : Packet) (s : State) : State :=
  s.receive p 7 fun t slot p => ((t.bump fabPage .fabCnt Fld.fabCnt_rx 1).answered slot p.srank p.ref (max 1 p.oparg)).pumpAll

/-! ## Send rings (R410, R412, R413) -/

/-- The descriptor in 64 bytes. -/
def ringDesc (idx x : Nat) : RingDesc :=
  { idx := idx, kind := nbits x 0 8, dflags := nbits x 8 8, peer := nbits x 32 32, laddr := nbits x 64 64, raddr := nbits x 128 64
    length := nbits x 192 32, value := nbits x 256 64, faddr := nbits x 320 64, fval := nbits x 384 64 }

/-- A descriptor passes its checks; with FSIG clear, FADDR and FVAL are unused, so they are reserved (R412). -/
def ringDescOk (count x : Nat) : Bool :=
  let d := ringDesc 0 x
  let peer := decide (d.peer < count) && decide (d.peer < 2 ^ 17)
  let inHalf := fun (a n : Nat) => decide (a + n ≤ 2 ^ 51)
  let base := nbits x 16 16 == 0 && nbits x 224 32 == 0 && nbits x 448 64 == 0 && nbits d.dflags 4 4 == 0
    && (if d.dflags.testBit 0 then d.faddr % 8 == 0 && inHalf d.faddr 8 && decide (d.fval < 2 ^ 63) else d.faddr == 0 && d.fval == 0)
  base && (match d.kind with
    | 1 => nbits d.dflags 1 3 == 0 && peer && d.length != 0 && inHalf d.laddr d.length && inHalf d.raddr d.length && d.value == 0
    | 2 => decide (nbits d.dflags 1 2 < 3) && peer && d.length != 0 && d.length % 64 == 0 && d.laddr % 64 == 0 && d.raddr % 64 == 0
        && inHalf d.laddr d.length && inHalf d.raddr d.length && d.value == 0
    | 3 => nbits d.dflags 1 3 == 0 && peer && d.length == 8 && d.raddr % 8 == 0 && inHalf d.raddr 8 && d.laddr == 0 && decide (d.value < 2 ^ 63)
    | 4 => nbits d.dflags 1 3 == 0 && peer && d.length != 0 && inHalf d.laddr d.length && inHalf d.raddr d.length && d.value == 0
    | 5 => nbits d.dflags 1 3 == 0 && d.peer == 0 && d.laddr == 0 && d.raddr == 0 && d.length == 0 && d.value == 0
    | _ => false)

/-- The descriptors of a ring in progress. -/
def Ring.busy (r : Ring) : Nat := (r.descs.filter fun d => d.started && !d.done).length

/-- One ring entry is read: a descriptor that fails its checks, or whose entry cannot be read, is done at once with its code (R411, R413, 10 R568). None while it must wait. -/
def State.ringNext (s : State) (ring : Nat) : Option State :=
  let r := s.ring ring
  let j := s.job r.slot
  let va := r.base + 64 * (r.next % 2 ^ r.log2)
  match s.fabRead j.ctx va 64 with
  | none => none
  | some x =>
    let s1 := s.fabTouch j.ctx va 64 .read
    let add := fun (d : RingDesc) => s1.setRing ring { s1.ring ring with next := r.next + 1, descs := (s1.ring ring).descs ++ [d] }
    some (match x with
      | .error code => (add { ringDesc r.next 0 with kind := 0 }).descFail ring r.next code false
      | .ok l =>
        let e := ofBytes l
        let t := add (ringDesc r.next e)
        if ringDescOk j.count e then t else t.descFail ring r.next 15 false)

/-- Entries are read up to the tail. -/
def State.ringReadAll : Nat → State → Nat → State
  | 0, s, _ => s
  | n + 1, s, ring =>
    let r := s.ring ring
    if r.next < r.tail ∧ r.descs.length < 64 then
      match s.ringNext ring with
      | some t => State.ringReadAll n t ring
      | none => s
    else s

/-- RING_TAIL_ADVANCE: the transport sees the tail word and reads the descriptors below it (R410, R413; 09 R282). A tail word that cannot be read brings nothing. -/
def opRingTailAdvance (ring : Nat) (s : State) : State :=
  let r := s.ring ring
  let j := s.job r.slot
  if ¬ s.fabOn ∨ ¬ r.en ∨ r.stopped ∨ ¬ j.bound ∨ (s.ctx j.ctx).state ≠ 1 then s
  else
    match s.xlPlinth j.ctx r.tailVa .read with
    | .ok (.stack a) =>
      if ¬ s.mem.free (a / 64) ∨ s.mem.homePoison (a / 64) then s
      else
        let v := (s.mem.homeWord a).toNat
        let t := if r.tail < v ∧ v ≤ r.head + 2 ^ r.log2 then s.setRing ring { r with tail := v } else s
        State.ringReadAll 64 (t.fabTouch j.ctx r.tailVa 8 .read) ring
    | _ => s.fabTouch j.ctx r.tailVa 8 .read

/-- A descriptor may start: the earlier ones have started, no earlier BARRIER is open, and fewer than 64 are in progress (R413). -/
def Ring.mayStart (r : Ring) (d : RingDesc) : Bool :=
  !d.started && !d.done && decide (r.busy < 64) && r.descs.all fun x => decide (d.idx ≤ x.idx) || (x.started && (x.kind != 5 || x.done))

/-- A descriptor of a kind starts: one whose peer is dead, or has no valid entry, is done at once; a GET's destination needs the write right (R413, R415). -/
def State.startDesc (s : State) (ring idx kind : Nat) : State :=
  let r := s.ring ring
  let j := s.job r.slot
  match r.desc? idx with
  | none => s
  | some d =>
    if ¬ s.fabOn ∨ r.stopped ∨ ¬ j.bound ∨ d.kind ≠ kind ∨ ¬ r.mayStart d then s
    else if ¬ s.peerValid j d.peer then s.descFail ring idx 15 false
    else if s.peerDead j d.peer then s.descFail ring idx 13 true
    else
      let pages := (List.range ((d.laddr + d.length - 1) / 0x2000000 - d.laddr / 0x2000000 + 1)).map fun i => max d.laddr ((d.laddr / 0x2000000 + i) * 0x2000000)
      let bad := if kind = 4 then pages.findSome? fun a => match s.chPlace j.ctx false a true with
          | .fail e => some e
          | _ => none
        else none
      match bad with
      | some code => s.descFail ring idx code false
      | none => State.pumpDesc 66 (s.onDesc ring idx fun x => { x with started := true }) ring idx

/-- PUT_DESCRIPTOR: starts sending a PUT (R413). -/
def opPutDescriptor (ring idx : Nat) (s : State) : State := s.startDesc ring idx 1
/-- ACC_DESCRIPTOR: starts sending an ACC (R413). -/
def opAccDescriptor (ring idx : Nat) (s : State) : State := s.startDesc ring idx 2
/-- SIG_DESCRIPTOR: starts sending a SIG (R413). -/
def opSigDescriptor (ring idx : Nat) (s : State) : State := s.startDesc ring idx 3
/-- GET_DESCRIPTOR: starts a GET (R413, R415). -/
def opGetDescriptor (ring idx : Nat) (s : State) : State := s.startDesc ring idx 4

/-- The code a BARRIER takes: PEER_DEAD where a covered descriptor failed by a peer's death, else the lowest-numbered failure's, else 0 (R413). -/
def barrierCode (fs : List (Nat × Nat × Bool)) : Nat :=
  if fs.any fun f => f.2.2 then 13
  else
    match fs.foldl (fun (b : Option (Nat × Nat)) f => match b with
      | none => some (f.1, f.2.1)
      | some x => if f.1 < x.1 then some (f.1, f.2.1) else some x) none with
    | some x => x.2
    | none => 0

/-- BARRIER_DESCRIPTOR: once every earlier descriptor of the ring has completed or failed, the BARRIER completes with the code of those it covers; failures of later ones stay for the next (R413, R417). -/
def opBarrierDescriptor (ring idx : Nat) (s : State) : State :=
  let r := s.ring ring
  match r.desc? idx with
  | none => s
  | some d =>
    if s.fabOn ∧ ¬ r.stopped ∧ d.kind = 5 ∧ r.mayStart d ∧ r.descs.all (fun x => decide (idx ≤ x.idx) || x.done) then
      let s1 := s.onDesc ring idx fun x => { x with started := true, done := true, code := barrierCode (r.failures.filter fun f => decide (f.1 < idx)) }
      s1.setRing ring { s1.ring ring with failures := r.failures.filter fun f => decide (idx < f.1) }
    else s

/-- HEAD of a ring: the lowest descriptor not retired (R410, 09 R283). -/
def Ring.headNow (r : Ring) : Nat := r.descs.foldl (fun n d => min n d.idx) r.next

/-- The head word is written at device scope (R413); one that does not translate is not written. None while its line cannot be served. -/
def State.writeHead (s : State) (ring : Nat) : Option State :=
  let r := s.ring ring
  let ctx := (s.job r.slot).ctx
  match s.xlPlinth ctx r.headVa .write with
  | .ok (.stack a) => if s.mem.free (a / 64) then some ((s.fabTouch ctx r.headVa 8 .write).homeStore a 8 r.head) else none
  | _ => some (s.fabTouch ctx r.headVa 8 .write)

/-- DESCRIPTOR_RETIRE: a completed or failed descriptor retires: its fence takes its write when FSIG is set, and then HEAD is written (R413, 11 R356). -/
def opDescriptorRetire (ring idx : Nat) (s : State) : State :=
  let r := s.ring ring
  let ctx := (s.job r.slot).ctx
  match r.desc? idx with
  | none => s
  | some d =>
    if ¬ s.serving ∨ ¬ d.done then s
    else
      let op : FenceOp := { ctx := ctx, host := false, va := d.faddr, code := d.code, value := d.fval, origin := 3, raise := none, qs := none, flist := none }
      let fenced : Option State :=
        if ¬ d.dflags.testBit 0 then some s
        else
          match s.fenceAt op with
          | .place p => (s.fabTouch ctx d.faddr 8 .write).fencePerform op p ⟨[], [], []⟩
          | _ => some ((s.fabTouch ctx d.faddr 8 .write).fenceDrop op)
      match fenced with
      | none => s
      | some t =>
        let x := t.ring ring
        let y := { x with descs := x.descs.filter fun e => e.idx != idx }
        match (t.setRing ring { y with head := y.headNow }).writeHead ring with
        | some u => u
        | none => s

/-! ## Liveness (R414, R416) -/

/-- RETRANSMIT: an unacknowledged packet is sent again with its original PSN, under the current key where its own has been erased (R414, R419). -/
def opRetransmit (slot rank psn : Nat) (s : State) : State :=
  let hit := fun (u : Unacked) => u.slot == slot && u.rank == rank && u.pkt.psn == psn
  match s.fab.unacked.find? hit with
  | none => s
  | some u =>
    let j := s.job slot
    let k := if j.keyOn u.pkt.keyIdx then u.pkt.keyIdx else j.txKey
    if ¬ s.fabOn ∨ ¬ j.keyOn k then s
    else
      let p := { u.pkt with keyIdx := k }
      let s1 := { s with fab := { s.fab with unacked := s.fab.unacked.map fun x => if hit x then { x with sends := x.sends + 1, pkt := p } else x } }
      (s1.bump fabPage .fabErr Fld.fabErr_resent 1).transmit slot p

/-- A peer is declared dead for a job: the operation whose watchdog fired fails with WATCHDOG, the others to that peer with PEER_DEAD, and its packets are dropped (R416). -/
def State.peerDies (s : State) (slot rank : Nat) (fired : Option (Nat × Nat)) : State :=
  let j := s.job slot
  let dev := s.peerDev j rank
  let s1 := (s.homeStore (j.entry rank + 4) 1 1).bump fabPage .fabErr Fld.fabErr_dead 1
  let s2 := (s1.setJob slot { j with dead := j.dead + 1 }).logEvent 5 (some (s.ctx j.ctx).part) 0x801 0 j.job (packFields [(3, rank)])
  let s3 := { s2 with fab := { s2.fab with
    unacked := s2.fab.unacked.filter fun u => !(u.slot == slot && u.rank == rank)
    gets := s2.fab.gets.filter fun g => !(g.slot == slot && g.rank == rank)
    egress := s2.fab.egress.filter fun e => !(e.pkt.job == j.job && e.pkt.dst == dev && e.pkt.src == s.devId) } }
  let ops := s3.fab.rings.flatMap fun e => if e.2.slot = slot then (e.2.descs.filter fun d =>
    d.started && !d.done && d.kind != 5 && d.peer == rank).map fun d => (e.1, d.idx) else []
  (ops.foldl (fun t x => (t.onDesc x.1 x.2 fun d => { d with out := 0 }).descFail x.1 x.2 (if fired = some x then 4 else 13) true) s3).pumpAll

/-- STORE_WATCHDOG: a packet of a descriptor unacknowledged for STORE_WD_MS declares its peer dead (R416). -/
def opStoreWatchdog (slot rank psn : Nat) (s : State) : State :=
  match s.fab.unacked.find? fun u => u.slot == slot && u.rank == rank && u.pkt.psn == psn with
  | some u => if s.fabOn ∧ u.ring.isSome then s.peerDies slot rank u.ring else s
  | none => s

/-- UNREACHABLE_TIMEOUT: a peer with no candidate port up for UNREACH_MS is declared dead (R416). -/
def opUnreachableTimeout (slot rank : Nat) (s : State) : State :=
  let j := s.job slot
  if s.fabOn && j.bound && s.peerValid j rank && !s.peerDead j rank && s.peerDev j rank != s.devId && (s.candidates (s.peerDev j rank)).isEmpty then
    s.peerDies slot rank none
  else s

/-! ## Jobs and rings as objects (R405, R406, R410) -/

/-- The word of FJ_CTL for a slot. -/
def Job.ctlWord (j : Job) : Word :=
  Word.ofNat (Fld.fjCtl_jobid.at j.job + Fld.fjCtl_context.at j.ctx + Fld.fjCtl_rank.at j.rank + Fld.fjCtl_txkey.at j.txKey + Fld.fjCtl_bound.at (b2n j.bound))

/-- The fields that a write of FJ_CTL gives a slot. -/
def Job.taken (j : Job) (v : Word) : Job :=
  { j with job := Fld.fjCtl_jobid.get v, ctx := Fld.fjCtl_context.get v, rank := Fld.fjCtl_rank.get v, txKey := Fld.fjCtl_txkey.get v }

/-- Whether the tables of a context, from one of a level on, map a range of device memory with the right W or A (R405, 10 R300, R301, R305). -/
def State.tableWrites (s : State) (part base len : Nat) : Nat → Nat → Nat → Bool
  | 0, _, _ => false
  | n + 1, level, table =>
    (List.range (if level = 0 then 4096 else if level = 1 then 512 else 32)).any fun i =>
      let a := table + 8 * i
      let e := s.mem.homeWord a
      s.framePasses part false (frameOf a) && ptValid s.wide level e &&
        (if e.fld 1 2 = 0 then State.tableWrites s part base len n (level + 1) (e.fld 8 32 * 256)
         else e.fld 1 2 == 1 && (e.bit 4 || e.bit 5)
           && decide (e.fld 25 15 * 0x2000000 < base + len) && decide (base < (e.fld 25 15 + if level = 1 then 32 else 1) * 0x2000000))

/-- A context can write a range of device memory by its own addresses (R405). -/
def State.ctxWrites (s : State) (ctx base len : Nat) : Bool := s.tableWrites (s.ctx ctx).part base len 3 0 (s.ctx ctx).ptRoot

/-- A slot may be bound (R405). -/
def State.bindOk (s : State) (slot : Nat) (j : Job) : Bool :=
  let x := s.ctx j.ctx
  x.state == 1 && j.base % 64 == 0 && between 1 j.count 131072 && s.ownedRange x.part j.base (32 * j.count) && !s.ctxWrites j.ctx j.base (32 * j.count)
    && (match s.slotOf j.job with
      | some n => n == slot
      | none => true)

/-- JOB_BIND: setting FJ_CTL.BOUND binds the slot that FJ_IDX names; a bound slot takes TXKEY alone (R405). -/
def opJobBind (src : Nat) (v : Word) (s : State) : State :=
  if ¬ v.bit 63 then s
  else
    s.offer src 0x801 Reg.fjCtl.off 8 fun t =>
      let n := t.fld jobPage .fjIdx Fld.fjIdx_slot
      let j := t.job n
      let log := fun (b : Bool) => t.logWrite src 0x801 Reg.fjCtl.off v j.ctlWord b
      if j.bound then (log true).setJob n { j with txKey := Fld.fjCtl_txkey.get v }
      else if t.bindOk n (j.taken v) then (log true).setJob n { j.taken v with bound := true, dead := 0 }
      else (log false).accessErr jobPage

/-- The KIND 3 entries of the keys of a job slot that are erased (16 R488). -/
def State.logErasure (s : State) (n : Nat) (j : Job) : State :=
  let one := fun (t : State) (e : Nat × Option Nat) =>
    if e.2.isSome then t.logTrust 3 (some (s.ctx j.ctx).part) 0x801 0 n (packFields [(1, e.1)]) else t
  [(0, j.key0), (1, j.key1)].foldl one s

/-- A slot is unbound: its keys are erased, its packets are dropped, and its rings stop (R406, 16 "Keys"; log 37). -/
def State.unbindSlot (s : State) (n : Nat) : State :=
  let s1 := (s.logErasure n (s.job n)).setJob n { s.job n with bound := false, key0 := none, key1 := none }
  let s2 := { s1 with fab := { s1.fab with
    unacked := s1.fab.unacked.filter fun u => u.slot != n
    gets := s1.fab.gets.filter fun g => g.slot != n
    refused := s1.fab.refused.filter fun r => r.1 != n } }
  (s2.fab.rings.map Prod.fst).foldl (fun t r =>
    let x := t.ring r
    if x.slot = n then t.setRing r { x with en := false, descs := [], failures := [], stopped := x.en } else t) s2

/-- JOB_UNBIND: clearing BOUND unbinds the slot that FJ_IDX names (R406). -/
def opJobUnbind (src : Nat) (v : Word) (s : State) : State :=
  if v.bit 63 then s
  else
    s.offer src 0x801 Reg.fjCtl.off 8 fun t =>
      let n := t.fld jobPage .fjIdx Fld.fjIdx_slot
      let j := t.job n
      let u := t.logWrite src 0x801 Reg.fjCtl.off v j.ctlWord true
      if j.bound then (u.setJob n { j with txKey := Fld.fjCtl_txkey.get v }).unbindSlot n else u.setJob n (j.taken v)

/-- The word of FR_CTL for a ring. -/
def Ring.ctlWord (r : Ring) : Word := Word.ofNat (Fld.frCtl_slot.at r.slot + Fld.frCtl_log2Entries.at r.log2 + Fld.frCtl_en.at (b2n r.en))

/-- RING_ENABLE: FR_CTL.EN enables the ring that FR_IDX names, from entry 0, while its slot is bound, or disables it (R410, R422; log 38). -/
def opRingEnable (src : Nat) (v : Word) (s : State) : State :=
  s.offer src 0x801 Reg.frCtl.off 8 fun t =>
    let n := t.fld jobPage .frIdx Fld.frIdx_ring
    let r := t.ring n
    let slot := Fld.frCtl_slot.get v
    let log2 := Fld.frCtl_log2Entries.get v
    let u := t.logWrite src 0x801 Reg.frCtl.off v r.ctlWord true
    if v.bit 63 then
      if (t.job slot).bound ∧ between 6 log2 16 then
        if r.en then u.setRing n { r with slot := slot, log2 := log2 }
        else u.setRing n { r with en := true, slot := slot, log2 := log2, tail := 0, next := 0, head := 0, descs := [], failures := [], stopped := false }
      else (t.logWrite src 0x801 Reg.frCtl.off v r.ctlWord false).accessErr jobPage
    else u.setRing n { r with en := false, slot := slot, log2 := log2 }

/-! ## Meanings: each command answers the next state that its operation gives. -/

/-- The meaning of PORT_DOWN. -/
def execPortDown (port : Nat) (cause : PortCause) (s : State) : Host.Outcome State Fault Refusal := .next (opPortDown port cause s)
/-- The meaning of PORT_UP. -/
def execPortUp (x : PortCredits) (s : State) : Host.Outcome State Fault Refusal := .next (opPortUp x.port x.credits s)
/-- The meaning of FLIT_REPLAY. -/
def execFlitReplay (rx : LinkRx) (failed frequent : Bool) (s : State) : Host.Outcome State Fault Refusal := .next (opFlitReplay rx.port failed frequent rx.hdr s)
/-- The meaning of PACKET_FORWARD. -/
def execPacketForward (rx : LinkRx) (p : Packet) (s : State) : Host.Outcome State Fault Refusal := .next (opPacketForward rx.port rx.hdr p s)
/-- The meaning of PUT_PACKET. -/
def execPutPacket (p : Packet) (s : State) : Host.Outcome State Fault Refusal := .next (opPutPacket p s)
/-- The meaning of ACC_PACKET. -/
def execAccPacket (p : Packet) (s : State) : Host.Outcome State Fault Refusal := .next (opAccPacket p s)
/-- The meaning of SIG_PACKET. -/
def execSigPacket (p : Packet) (s : State) : Host.Outcome State Fault Refusal := .next (opSigPacket p s)
/-- The meaning of GET_PACKET. -/
def execGetPacket (p : Packet) (s : State) : Host.Outcome State Fault Refusal := .next (opGetPacket p s)
/-- The meaning of GETRESP_PACKET. -/
def execGetrespPacket (p : Packet) (s : State) : Host.Outcome State Fault Refusal := .next (opGetrespPacket p s)
/-- The meaning of ACK_PACKET. -/
def execAckPacket (p : Packet) (s : State) : Host.Outcome State Fault Refusal := .next (opAckPacket p s)
/-- The meaning of NAK_PACKET. -/
def execNakPacket (p : Packet) (s : State) : Host.Outcome State Fault Refusal := .next (opNakPacket p s)
/-- The meaning of RING_TAIL_ADVANCE. -/
def execRingTailAdvance (ring : Nat) (s : State) : Host.Outcome State Fault Refusal := .next (opRingTailAdvance ring s)
/-- The meaning of PUT_DESCRIPTOR. -/
def execPutDescriptor (ring idx : Nat) (s : State) : Host.Outcome State Fault Refusal := .next (opPutDescriptor ring idx s)
/-- The meaning of ACC_DESCRIPTOR. -/
def execAccDescriptor (ring idx : Nat) (s : State) : Host.Outcome State Fault Refusal := .next (opAccDescriptor ring idx s)
/-- The meaning of SIG_DESCRIPTOR. -/
def execSigDescriptor (ring idx : Nat) (s : State) : Host.Outcome State Fault Refusal := .next (opSigDescriptor ring idx s)
/-- The meaning of GET_DESCRIPTOR. -/
def execGetDescriptor (ring idx : Nat) (s : State) : Host.Outcome State Fault Refusal := .next (opGetDescriptor ring idx s)
/-- The meaning of BARRIER_DESCRIPTOR. -/
def execBarrierDescriptor (ring idx : Nat) (s : State) : Host.Outcome State Fault Refusal := .next (opBarrierDescriptor ring idx s)
/-- The meaning of DESCRIPTOR_RETIRE. -/
def execDescriptorRetire (ring idx : Nat) (s : State) : Host.Outcome State Fault Refusal := .next (opDescriptorRetire ring idx s)
/-- The meaning of RETRANSMIT. -/
def execRetransmit (slot rank psn : Nat) (s : State) : Host.Outcome State Fault Refusal := .next (opRetransmit slot rank psn s)
/-- The meaning of STORE_WATCHDOG. -/
def execStoreWatchdog (slot rank psn : Nat) (s : State) : Host.Outcome State Fault Refusal := .next (opStoreWatchdog slot rank psn s)
/-- The meaning of UNREACHABLE_TIMEOUT. -/
def execUnreachableTimeout (slot rank : Nat) (s : State) : Host.Outcome State Fault Refusal := .next (opUnreachableTimeout slot rank s)
/-- The meaning of JOB_BIND. -/
def execJobBind (src : Nat) (v : Word) (s : State) : Host.Outcome State Fault Refusal := .next (opJobBind src v s)
/-- The meaning of JOB_UNBIND. -/
def execJobUnbind (src : Nat) (v : Word) (s : State) : Host.Outcome State Fault Refusal := .next (opJobUnbind src v s)
/-- The meaning of RING_ENABLE. -/
def execRingEnable (src : Nat) (v : Word) (s : State) : Host.Outcome State Fault Refusal := .next (opRingEnable src v s)

end Sys2Proof.Machine
end

