-- ==== Sys2Proof/Machine/Aborts.lean ====
section
/-! DEFINITION. Aborts and destructions: the requests of OBJ_CMD and ABT_REQ, the forced abort in its steps, and the teardown of a context (09 R281, R284 to R292, R295, R567). -/

namespace Sys2Proof.Machine

/-! ## Retiring by an abort (09 R284, R287, R288 step 1) -/

/-- Armature requests of a command that have not started are withdrawn. -/
def State.withdrawArm (s : State) (q seq : Nat) : State :=
  (List.range 16).foldl (fun t k =>
    let c := t.core k
    if c.armQ.any fun r => r.cmd == some (q, seq) then (t.setCore k { c with armQ := c.armQ.filter fun r => r.cmd != some (q, seq) }).armBusy k else t) s

/-- A command is retired by an abort, with the fence write it owes after quiescence. -/
def State.abortCmd (s : State) (q seq code : Nat) : State × List FenceOp :=
  match s.cmd? q seq with
  | none => (s, [])
  | some c => (((s.releaseCmd q seq c).withdrawArm q seq).endCmd q seq 2, [c.fenceOp (s.queue q) q seq code])

/-- Every unretired command of some queues is retired by an abort. -/
def State.abortCmds (s : State) (code : Nat) (cs : List (Nat × Nat)) : State × List FenceOp :=
  cs.foldl (fun r c =>
    let x := r.1.abortCmd c.1 c.2 code
    (x.1, r.2 ++ x.2)) (s, [])

/-- The unretired commands of queues that begin below the tails given. -/
def State.unretired (s : State) (qs : List (Nat × Nat)) : List (Nat × Nat) :=
  qs.flatMap fun q => ((s.queue q.1).cmds.filter fun e => decide (e.1 < q.2)).map fun e => (q.1, e.1)

/-! ## Fabric descriptors of an aborted or dying context (13 R419) -/

/-- The fence write that an unretired descriptor of an aborted or dying context's job owes. -/
def RingDesc.goneFence (d : RingDesc) (ctx code : Nat) : List FenceOp :=
  if d.dflags.testBit 0 then
    [{ ctx := ctx, host := false, va := d.faddr, code := code, value := d.fval, origin := 3, raise := none, qs := none, flist := none }]
  else []

/-- The rings of a context's jobs. -/
def State.ringsOf (s : State) (ctx : Nat) : List Nat := (s.fab.rings.filter fun e => (s.job e.2.slot).bound && (s.job e.2.slot).ctx == ctx).map Prod.fst

/-- The job slots bound to a context. -/
def State.slotsOf (s : State) (ctx : Nat) : List Nat := (List.range 256).filter fun k => (s.job k).bound && (s.job k).ctx == ctx

/-- The rings of a context's jobs stop, their descriptors end with the fence writes they owe, and nothing further is sent for them; what the jobs serve for others ends with OWNER_GONE. -/
def State.stopRings (s : State) (ctx code : Nat) : State × List FenceOp :=
  let rs := s.ringsOf ctx
  let r := rs.foldl (fun r n =>
    let x := r.1.ring n
    (r.1.setRing n { x with stopped := true, descs := [] }, r.2 ++ x.descs.flatMap fun d => d.goneFence ctx code)) (s, ([] : List FenceOp))
  ({ r.1 with fab := { r.1.fab with
      unacked := r.1.fab.unacked.filter fun u => match u.ring with
        | some x => !rs.contains x.1
        | none => true
      gets := r.1.fab.gets.map fun g => if g.code = 0 ∧ (s.slotsOf ctx).contains g.slot then { g with code := 3 } else g } }, r.2)

/-- The fence writes of a ring's descriptors that were below its tail and not yet read; none while an entry cannot be read yet. -/
def State.unreadDescs (s : State) (ctx n code : Nat) : Option (List FenceOp) :=
  let r := s.ring n
  (List.range (r.tail - r.next)).foldl (fun acc i =>
    match acc, s.fabRead ctx (r.base + 64 * ((r.next + i) % 2 ^ r.log2)) 64 with
    | some l, some (.ok e) => some (l ++ (ringDesc (r.next + i) (ofBytes e)).goneFence ctx code)
    | some l, some (.error _) => some l
    | _, _ => none) (some [])

/-- The fence writes of all unread descriptors of a context's rings. -/
def State.unreadRings (s : State) (ctx code : Nat) : Option (List FenceOp) :=
  (s.ringsOf ctx).foldl (fun acc n =>
    match acc, s.unreadDescs ctx n code with
    | some l, some m => some (l ++ m)
    | _, _ => none) (some [])

/-- The queues of a context that are not FREE. -/
def State.queuesOf (s : State) (ctx : Nat) : List Nat := (s.pl.queues.filter fun e => e.2.state != 0 && e.2.ctx == ctx).map Prod.fst

/-- An abort begins: queues take a state (2 STOPPED, 3 DYING) and record the tails given, their commands below them retire, and the steps of R288 follow. One that leaves no queue of its context LIVE is a forced abort of the context, whose jobs it ends (13 R419; log 98). -/
def State.abortStart (s : State) (kind f ctx : Nat) (qs : List (Nat × Nat)) (qstate code : Nat) (req : Option ObjReq) : State :=
  let s1 := qs.foldl (fun t q => t.setQueue q.1 { t.queue q.1 with state := qstate, restart := q.2 }) s
  let cs := s1.unretired qs
  let r := s1.abortCmds code cs
  let jobs := decide (3 ≤ kind) || (s1.queuesOf ctx).all fun q => (s1.queue q).state != 1
  let z := if jobs then r.1.stopRings ctx code else (r.1, [])
  let b : Abort := { kind := kind, f := f, ctx := ctx, queues := qs.map Prod.fst, code := code, cmds := cs, fences := r.2 ++ z.2, count := cs.length
                     tails := qs, req := req, jobs := jobs }
  { z.1 with pl := { z.1.pl with aborts := z.1.pl.aborts ++ [b] } }

/-! ## Requests that destroy (09 R281, R291) -/

/-- A context's destruction is accepted: step 1 of R291 (09 R291). -/
def State.dieCtx (s : State) (kind f n : Nat) (req : Option ObjReq) : State :=
  let s1 := s.setCtx n { s.ctx n with state := 2 }
  s1.abortStart kind f n ((s1.queuesOf n).map fun q => (q, (s1.queue q).tail)) 3 3 req

/-- OP 1: a context is destroyed (09 R291, R295). -/
def State.destroyCtxOp (s : State) (f n : Nat) : State :=
  let st := firstStatus [(s.reachesCtx f n, 1), ((s.ctx n).state == 1, 3)]
  if st ≠ 0 then s.objEnd f st
  else ((s.setFreq f { s.freq f with obj := none }).setFld (objPage f) .objStat Fld.objStat_step 1).dieCtx 3 f n (s.freq f).obj

/-- OP 3: a queue is destroyed (09 R281, R295). -/
def State.destroyQueueOp (s : State) (f q : Nat) : State :=
  let x := s.queue q
  let st := firstStatus [(s.reachesQueue f q, 1), (x.state == 1 || x.state == 2, 3)]
  if st ≠ 0 then s.objEnd f st else (s.setFreq f { s.freq f with obj := none }).abortStart 2 f x.ctx [(q, x.tail)] 3 1 (s.freq f).obj

/-! ## Performing object requests (09 R295, R567) -/

/-- A request ends with what an operation gives. -/
def State.objGive (f : Nat) (r : Nat × State) : State := r.2.objEnd f r.1

/-- An accepted request that reads no staging record is performed. -/
def State.objRun (s : State) (f : Nat) (r : ObjReq) : State :=
  match r.op with
  | 1 => s.destroyCtxOp f r.id
  | 3 => s.destroyQueueOp f r.id
  | 4 => State.objGive f (s.restartOp f r.id)
  | 5 => State.objGive f (s.arenaOp f r.id r.arena r.arg false)
  | 6 => State.objGive f (s.arenaOp f r.id r.arena r.arg true)
  | _ => s

/-! ## Abort requests (09 R287) -/

/-- An abort request ends with a result (09 R287, R297). -/
def State.abtEnd (s : State) (f result : Nat) : State :=
  let pk := abtPage f
  (((s.setFld pk .abtStat Fld.abtStat_result result).setFld pk .abtStat Fld.abtStat_busy 0).setFld pk .abtStat Fld.abtStat_done 1).setFreq f
    { s.freq f with abt := none }

/-- A whole-queue abort or a destruction of the queue is still to fetch entries. -/
def State.wholeOpen (s : State) (q : Nat) : Bool := s.pl.aborts.any fun b => b.kind != 0 && b.queues.contains q && decide (b.step < 3)

/-- The abort fetches the unfetched entries up to its command: the state, and whether it must still wait (1), or could not read one (2). A header at its sequence number is taken though its payload is not all below the tail: it is the first entry of a command (09 R287, log 89). -/
def State.abortFetch : Nat → State → HostAnswer → Nat → Nat → State × Nat
  | 0, s, _, _, _ => (s, 1)
  | n + 1, s, h, q, seq =>
    if seq < (s.queue q).fetched then (s, 0)
    else
      match s.fetchOne h q with
      | .took t => State.abortFetch n t h q seq
      | .short => (if (s.queue q).fetched = seq then s.takeCmd q seq (s.ringRead h q seq).bits [] else s, 0)
      | .wait t => (t, 1)
      | .stop t => (t, 2)

/-- The abort of one command is decided from the entries (09 R284, R287). SERIAL commands that depend on it fail with it (11 R354). -/
def State.abortDecide (s : State) (f q seq : Nat) : State :=
  let x := s.queue q
  match x.cmds.find? seq with
  | some _ =>
    let deps := x.dependents seq
    let r := s.abortCmd q seq 1
    let s1 := deps.foldl (fun t n => t.retireOne q n 1 1) r.1
    let b : Abort := { kind := 0, f := f, ctx := x.ctx, queues := [q], code := 1, cmds := [(q, seq)], fences := r.2, count := 1
                       req := (s.freq f).abt }
    { s1 with pl := { s1.pl with aborts := s1.pl.aborts ++ [b] } }.setFreq f { s1.freq f with abt := none }
  | none => s.abtEnd f (if seq < x.fetched then (match x.ended.find? seq with
      | some 1 => 1
      | some _ => 2
      | none => 4) else 4)

/-- An accepted abort request goes as far as it can (09 R287, R567). -/
def State.abtRun (s : State) (f : Nat) (r : ObjReq) (h : HostAnswer) : State :=
  let x := s.queue r.id
  if s.objBehind r then s
  else if ¬ (x.state = 1 ∨ x.state = 2) ∨ ¬ s.reachesQueue f r.id then s.abtEnd f 5
  else if r.op = 9 then (s.setFreq f { s.freq f with abt := none }).abortStart 1 f x.ctx [(r.id, r.arg)] 2 1 (some r)
  else if x.tail ≤ r.arg then s.abtEnd f 3
  else if s.wholeOpen r.id ∧ x.fetched ≤ r.arg then s
  else
    let y := State.abortFetch (r.arg + 1 - x.fetched) s h r.id r.arg
    match y.2 with
    | 0 => y.1.abortDecide f r.id r.arg
    | 1 => if r.arg < (y.1.queue r.id).fetched then y.1.abortDecide f r.id r.arg else y.1
    | _ => y.1.abtEnd f 6

/-! ## Teardown (09 R291 steps 6 and 7) -/

/-- What a core keeps of a context is released: its engines, its claims, its saved blocks (09 R291 step 6). -/
def State.releaseOnCore (s : State) (ctx core : Nat) : State :=
  let s1 := ((s.formedOn core).filter fun n => (s.engine core n).ctx == ctx).foldl (fun t n => t.releaseEngine core n) s
  let k := s1.core core
  s1.setCore core { k with
    claims := k.claims.filter fun e => e.2 != ctx + 1
    saved := k.saved.filter fun e => e.1 / 16 != ctx
    savedFlags := k.savedFlags.filter fun e => e.1 / 256 != ctx
    rotation := k.rotation.erase ctx
    residents := k.residents.erase ctx
    expired := k.expired.erase ctx }

/-- Monitor slots armed for the host in a context are disarmed (08 R258, 09 R291 step 6). -/
def State.disarmCtx (s : State) (ctx : Nat) : State :=
  (s.pl.mons.map Prod.fst).foldl (fun t n =>
    let m := t.mon n
    if m.armCtx = ctx ∧ m.armed then t.setMon n { m with armed := false, bound := if m.waiters.isEmpty then none else m.bound } else t) s

/-- Steps 6 and 7 of a destruction: the context's engines, claims, translations, arenas and job slots go, its queues and doorbell pages become free, and it becomes FREE, with a Patina entry that carries its energy (09 R291, 13 R419, 11 R350, 17 R516). -/
def State.teardown (s : State) (n : Nat) (qs : List Nat) : State :=
  let x := s.ctx n
  let f := s.ctxFunc n
  let s1 := (List.range 16).foldl (fun t c => t.releaseOnCore n c) s
  let s2 := (s1.disarmCtx n).dropContext n true 0 0
  let s3 := (s2.slotsOf n).foldl State.unbindSlot s2
  let s4 := { s3 with pl := { s3.pl with
    atc := s3.pl.atc.filter fun e => !(e.f == f && e.pasid == x.pasid)
    apts := s3.pl.apts.filter fun e => e.1 / 64 != n } }
  let s5 := qs.foldl (fun t q => t.setQueue q {}) s4
  let s6 := (List.range 256).foldl (fun t p => if (t.db p).bound ∧ (t.db p).ctx = n then t.setDb p { t.db p with bound := false, ctx := 0 } else t) s5
  let s7 := (List.range 17).foldl (fun t k =>
    if t.fld (funcPage k) .winCtl Fld.winCtl_context = n then t.setFld (funcPage k) .winCtl Fld.winCtl_en 0 else t) s6
  let s8 := (s7.logEvent 2 (some x.part) 0x400 1 n (packFields [(8, x.energy), (8, x.shared)])).setCtx n {}
  { s8 with board := { s8.board with seen := s8.board.seen.filter fun c => c != n } }

/-! ## Completion (09 R288 step 6) -/

/-- A fence operation belongs to an abort. -/
def Abort.owns (b : Abort) (op : FenceOp) : Bool :=
  if b.kind = 3 ∨ b.kind = 4 then op.ctx == b.ctx
  else if b.jobs ∧ op.qs = none ∧ op.ctx = b.ctx then true
  else if b.kind = 2 then (match op.qs with
    | some (q, _) => b.queues.contains q
    | none => false)
  else (match op.qs with
    | some x => b.cmds.contains x
    | none => false)

/-- No fence write of an abort is owed any more. -/
def State.abortPaid (s : State) (b : Abort) : Bool :=
  !(s.pl.fenceOps.any b.owns) && !(s.pl.atsReqs.any fun r => match r.user with
    | .fence op => b.owns op
    | _ => false)

/-- An abort completes; one that ends its context's jobs unbinds their slots and erases their keys (13 R419). -/
def State.abortDone (s : State) (b : Abort) : State :=
  let s0 := { s with pl := { s.pl with aborts := s.pl.aborts.erase b } }
  let s1 := if b.jobs then (s0.slotsOf b.ctx).foldl State.unbindSlot s0 else s0
  let part := some (s.ctx b.ctx).part
  let q := b.queues.headD 0
  match b.kind with
  | 0 => (s1.logEvent 2 part 0x401 0 q (packFields [(8, (b.cmds.headD (0, 0)).2)])).abtEnd b.f 0
  | 1 => ((s1.logEvent 2 part 0x401 0 q (packFields [(3, b.count)])).setFld (abtPage b.f) .abtStat Fld.abtStat_aborted b.count).abtEnd b.f 0
  | 2 => ((s1.logEvent 2 part 0x400 3 q 0).setQueue q {}).objEnd b.f 0
  | 3 => ((s1.teardown b.ctx b.queues).setFld (objPage b.f) .objStat Fld.objStat_step 7).objEnd b.f 0
  | _ => s1.teardown b.ctx b.queues

/-- Aborts whose error writes have all been made complete; of one queue, in order. -/
def State.settleAborts (s : State) : State :=
  s.pl.aborts.foldl (fun t b =>
    let first := (t.pl.aborts.takeWhile fun x => x != b).all fun x => x.queues.all fun q => !b.queues.contains q
    if b.step = 3 ∧ first ∧ t.abortPaid b then t.abortDone b else t) s

/-- The requests of all functions in the order of acceptance: place, function, and page (0 objects, 1 aborts, 2 apertures). -/
def State.reqOrder (s : State) : List (Nat × Nat × Nat) :=
  (s.pl.reqs.flatMap fun e =>
    e.2.obj.toList.map (fun r => (r.order, e.1, 0)) ++ e.2.abt.toList.map (fun r => (r.order, e.1, 1))
      ++ e.2.apt.toList.map fun r => (r.order, e.1, 2)).insertionSort fun a b => a.1 ≤ b.1

/-- A function's request on a page is performed as far as it can be. -/
def State.settleReq (s : State) (f kind : Nat) : State :=
  if kind = 0 then
    match (s.freq f).obj with
    | some r => if r.op ≠ 0 ∧ r.op ≠ 2 ∧ ¬ s.objBehind r then s.objRun f r else s
    | none => s
  else if kind = 1 then
    match (s.freq f).abt with
    | some r => s.abtRun f r ⟨[], [], []⟩
    | none => s
  else
    match (s.freq f).apt with
    | some r => if r.going then s.aptLeave f r else if s.objBehind r.obj then s else s.aptRun f r
    | none => s

/-- Requests that waited are performed, in the order of acceptance, once nothing earlier names their object; aborts and held invalidations complete (09 R567, 10 R320). -/
def State.settlePass (s : State) : State := ((s.reqOrder.foldl (fun t x => t.settleReq x.2.1 x.2.2) s).settleAborts).settleInvs

/-- The requests and aborts go on as far as they can. -/
def State.settle (s : State) : State := (s.settlePass).settlePass

/-- An access of a cell has been performed, or a host write placed: what an aperture unload or a host invalidation waited for may be done (10 R313, R320). -/
def State.settleAccess (s : State) : State :=
  if s.pl.atsInvs.isEmpty && !(s.pl.reqs.any fun e => e.2.apt.any fun r => r.going && r.op == 1) then s else s.settle

/-! ## The TDISP state ERROR (16 R476) -/

/-- The function of a partition that is CONFIG_LOCKED or RUN moves to ERROR: every LIVE context of the partition is destroyed, with OWNER_GONE (16 R476). -/
def State.tdispFail (s : State) (p : Nat) : State :=
  let x := s.part p
  if x.tdisp = 1 ∨ x.tdisp = 2 then
    (((s.pl.ctxs.filter fun e => e.2.state == 1 && e.2.part == p).map Prod.fst).foldl (fun t n => t.dieCtx 4 (p + 1) n none) (s.setPart p { x with tdisp := 3 })).settle
  else s

/-- The physical function takes an object away from a partition (16 R476). -/
def State.takenFrom (s : State) (src : Nat) (p : Nat) (taken : Bool) : State := if srcFunc src = 0 ∧ taken then s.tdispFail p else s

/-! ## OBJ_CMD and ABT_REQ (09 R295 to R297) -/

/-- A GO write of OBJ_CMD with an operation (09 R290, R295, 17 R517): it starts a request, or changes nothing and sets the access-error bit. -/
def State.objGo (s : State) (src op : Nat) (v : Word) : State :=
  if ¬ v.bit 63 ∨ Fld.objCmd_op.get v ≠ op then s
  else
    let f := srcFunc src
    s.triggerIf src 0x400 .objCmd v (fun t => t.objTakes f v) fun t =>
      let pk := objPage f
      let r : ObjReq := { op := op, id := Fld.objCmd_id.get v, arena := Fld.objCmd_arena.get v, arg := (t.reg pk .objArg).toNat, order := t.nextOrder }
      (((t.resume).setFld pk .objStat Fld.objStat_busy 1).setFreq f { t.freq f with obj := some r }).settle

/-- CREATE_CONTEXT: OP 0 (09 R272). -/
def opCreateContext (src : Nat) (v : Word) (s : State) : State := s.objGo src 0 v
/-- DESTROY_CONTEXT: OP 1 (09 R291). -/
def opDestroyContext (src : Nat) (v : Word) (s : State) : State := s.objGo src 1 v
/-- CREATE_QUEUE: OP 2 (09 R281). -/
def opCreateQueue (src : Nat) (v : Word) (s : State) : State := s.objGo src 2 v
/-- DESTROY_QUEUE: OP 3 (09 R281). -/
def opDestroyQueue (src : Nat) (v : Word) (s : State) : State := s.objGo src 3 v
/-- RESTART_QUEUE: OP 4 (09 R281, R287). -/
def opRestartQueue (src : Nat) (v : Word) (s : State) : State := s.objGo src 4 v
/-- SET_ARENA_LIMIT: OP 5 (09 R278). -/
def opSetArenaLimit (src : Nat) (v : Word) (s : State) : State := s.objGo src 5 v
/-- RESET_ARENA: OP 6 (09 R278). -/
def opResetArena (src : Nat) (v : Word) (s : State) : State := s.objGo src 6 v

/-- STAGING_RECORD_READ_DONE: the record of a function's create request has been read, or could not be, and the request finishes (09 R272, R281, R295). -/
def opStagingRecordReadDone (f : Nat) (h : HostAnswer) (s : State) : State :=
  match (s.freq f).obj with
  | some r =>
    if ¬ s.serving ∨ s.objBehind r ∨ (r.op ≠ 0 ∧ r.op ≠ 2) then s
    else
      match s.hostRead h r.arg (if r.op = 0 then 384 else 64) with
      | none => s
      | some rec => (State.objGive f (if r.op = 0 then s.createCtx f r.id rec else s.createQueueOp f r.id rec)).settle
  | none => s

/-- A GO write of ABT_REQ (09 R287, R290). -/
def State.abtGo (s : State) (src : Nat) (whole : Bool) (v : Word) (h : HostAnswer) : State :=
  if ¬ v.bit 63 ∨ v.bit 14 ≠ whole then s
  else
    let f := srcFunc src
    let idle := fun (t : State) => t.fld (objPage f) .objStat Fld.objStat_busy == 0 && t.fld (abtPage f) .abtStat Fld.abtStat_busy == 0
    s.triggerIf src 0x401 .abtReq v idle fun t =>
      let pk := abtPage f
      let q := Fld.abtReq_queue.get v
      let arg := if whole then (t.queue q).tail else (t.reg pk .abtSeq).toNat
      let r : ObjReq := { op := if whole then 9 else 8, id := q, arena := 0, arg := arg, order := t.nextOrder, base := (t.queue q).fetched }
      (((t.setFld pk .abtStat Fld.abtStat_busy 1).setFreq f { t.freq f with abt := some r }).abtRun f r h).settle

/-- ABORT_COMMAND: names one command by ABT_SEQ (09 R287). -/
def opAbortCommand (src : Nat) (v : Word) (h : HostAnswer) (s : State) : State := s.abtGo src false v h
/-- ABORT_QUEUE: names every command below the tail and stops the queue (09 R287). -/
def opAbortQueue (src : Nat) (v : Word) (s : State) : State := s.abtGo src true v ⟨[], [], []⟩

/-! ## Queue fetch (11 R353, R360, 09 R287) -/

/-- A waiting abort of a function fetches entries of a queue. -/
def State.abortFetches (s : State) (q : Nat) : Bool :=
  s.pl.reqs.any fun e => match e.2.abt with
    | some r => r.op == 8 && r.id == q && !s.objBehind r
    | none => false

/-- QUEUE_FETCH: the next command below the tail is read and checked; a waiting abort of the queue goes on with what has come (11 R353, R360, 09 R287). -/
def opQueueFetch (q : Nat) (h : HostAnswer) (s : State) : State :=
  let x := s.queue q
  if ¬ s.serving then s
  else if s.abortFetches q then
    (s.pl.reqs.foldl (fun t e => match (t.freq e.1).abt with
      | some r => if r.id = q then t.abtRun e.1 r h else t
      | none => t) s).settle
  else if x.state = 1 ∧ (s.ctx x.ctx).state = 1 ∧ s.cmdRoom q then
    match s.fetchOne h q with
    | .took t => t
    | .short => s
    | .wait t => t
    | .stop t => t
  else s

/-! ## The steps of a forced abort (09 R288) -/

/-- The engines that run, or hold in a save, a command that an abort retired. -/
def State.abortEngines (s : State) (b : Abort) : List (Nat × Nat) :=
  (List.range 16).flatMap fun c => ((s.formedOn c).filter fun n => match (s.engine c n).cmd with
    | some x => b.cmds.contains x
    | none => false).map fun n => (c, n)

/-- An engine can be stopped for an abort now: no migration or switch moves it (02 R60, 12 "events"). -/
def State.abortReaches (s : State) (x : Nat × Nat) : Bool :=
  let e := s.engine x.1 x.2
  e.state != 5 && !((s.core x.1).quars.any fun q => !q.deferred && !q.hard && q.eng == some x.2)
    && (match (s.core x.1).switch with
      | some w => !w.out.contains e.ctx && w.into != e.ctx
      | none => true)

/-- An engine of an aborted command stops; one whose command was held in a save loses the save (09 R288 step 2, R289). -/
def State.abortEngine (s : State) (x : Nat × Nat) : State :=
  let e := s.engine x.1 x.2
  if e.state = 4 then s.setEngine x.1 x.2 { e with state := 3, cmd := none, blank := true }
  else s.haltEngine x.1 x.2

/-- An abort's record changes. -/
def State.onAbort (s : State) (i : Nat) (f : Abort → Abort) : State :=
  { s with pl := { s.pl with aborts := s.pl.aborts.mapIdx fun j b => if j = i then f b else b } }

/-- OBJ_STAT.STEP of a destruction (09 R291). -/
def State.destroyStep (s : State) (b : Abort) (n : Nat) : State :=
  if b.kind = 3 then s.setFld (objPage b.f) .objStat Fld.objStat_step n else s

/-- ABORT_STOP_DONE: the engines and Chisel streams of the affected commands stop, and what they had in progress is cut (09 R288 steps 2 and 3). -/
def opAbortStopDone (i : Nat) (h : HostAnswer) (s : State) : State :=
  match s.pl.aborts[i]? with
  | none => s
  | some b =>
    if ¬ s.serving ∨ b.step ≠ 1 ∨ ¬ (s.abortEngines b).all s.abortReaches then s
    else
      let s1 := (s.abortEngines b).foldl State.abortEngine s
      let s2 := b.cmds.foldl (fun t c => t.cutStreams h c.1 c.2) s1
      ((s2.onAbort i fun x => { x with step := 2, acks := s2.outWrites (s2.ctxFunc b.ctx) })).destroyStep b 4

/-- What was issued for an abort's commands has been performed: its engines are quiet with their stores performed at device scope, the host writes are acknowledged, and no Armature request of it runs; a destruction also waits for a migration or a switch of the context's engines (09 R288 step 4, R290, 02 R60). -/
def State.abortQuiet (s : State) (b : Abort) : Bool :=
  b.acks == 0 && (s.abortEngines b).all (fun x =>
      let e := s.engine x.1 x.2
      e.stopping == 2 && s.engineQuiet x.1 x.2 && (e.keys x.1).all fun k => s.fenceHolds x.1 k 2 0 0)
    && ((List.range 16).all fun c => match (s.core c).arm with
      | some r => !(decide (3 ≤ b.kind) && r.ctx == b.ctx) && (match r.cmd with
        | some x => !b.cmds.contains x
        | none => true)
      | none => true)
    && (decide (b.kind < 3) || (List.range 16).all fun c => ((s.formedOn c).filter fun n => (s.engine c n).ctx == b.ctx).all fun n => s.abortReaches (c, n))

/-- An engine of an aborted command awaits its next command (09 R289, 05 R172). -/
def State.abortFree (s : State) (x : Nat × Nat) : State :=
  let t := s.clearFlights x.1 x.2
  t.setEngine x.1 x.2 { t.engine x.1 x.2 with state := 0, stopping := 0, cmd := none }

/-- The unfetched entries of a queue below the tail that an abort recorded are read for their fence addresses: the state, the fence writes, the sequence numbers, and whether that is finished (09 R288 step 5). -/
def State.fetchFences : Nat → State → HostAnswer → Nat → Nat → Nat → State × List FenceOp × List (Nat × Nat) × Bool
  | 0, s, _, q, tail, _ => (s, [], [], decide (tail ≤ (s.queue q).fetched))
  | n + 1, s, h, q, tail, code =>
    let x := s.queue q
    let i := x.fetched
    if tail ≤ i then (s, [], [], true)
    else
      match s.ringRead h q i with
      | .got e =>
        let op := (cmdOf 1 e []).fenceOp x q i code
        let y := { x with fetched := min tail (i + x.entriesOf e), ended := x.ended.insert i 2 }
        let r := State.fetchFences n ((s.ringUsed h q i 1).setQueue q { y with head := y.headNow }) h q tail code
        (r.1, op :: r.2.1, (q, i) :: r.2.2.1, r.2.2.2)
      | .ask => (s.ringAsk q i, [], [], false)
      | .wait => (s, [], [], false)
      | .fail =>
        let t := s.ringStop q i i
        (t.setQueue q { t.queue q with fetched := tail, head := tail }, [], [], true)

/-- The fence writes of a context's fence list: every valid entry takes OWNER_GONE (09 R271, R291 step 5). An entry in a poisoned line is passed over (log 39). -/
def State.fenceList (s : State) (n code : Nat) : List FenceOp :=
  let x := s.ctx n
  (List.range x.flistLen).flatMap fun i =>
    let a := x.flistBase + 8 * i
    let w := s.mem.homeWord a
    if w.bit 63 ∧ ¬ s.mem.homePoison (a / 64) then
      [{ ctx := n, host := false, va := w.fld 0 52, code := code, value := 0, origin := 2, raise := none, qs := none, flist := some i }]
    else []

/-- An earlier abort of one of the queues is still to issue its error writes: those come first (09 R288 step 5, R290). -/
def State.abortBehind (s : State) (i : Nat) (b : Abort) : Bool :=
  (s.pl.aborts.take i).any fun x => decide (x.step < 3) && x.queues.any fun q => b.queues.contains q

/-- ABORT_QUIESCED: issued accesses have been performed; the engines await their next command, unfetched entries are read for their fences, and the error writes are issued (09 R288 steps 4 and 5, R291). -/
def opAbortQuiesced (i : Nat) (h : HostAnswer) (s : State) : State :=
  match s.pl.aborts[i]? with
  | none => s
  | some b =>
    if ¬ s.serving ∨ b.step ≠ 2 ∨ ¬ s.abortQuiet b ∨ s.abortBehind i b then s
    else
      let s1 := (s.abortEngines b).foldl State.abortFree s
      let r := (if b.kind = 0 then [] else b.tails).foldl (fun (acc : State × List FenceOp × List (Nat × Nat) × Bool) q =>
        let y := State.fetchFences (q.2 - (acc.1.queue q.1).fetched) acc.1 h q.1 q.2 b.code
        (y.1, acc.2.1 ++ y.2.1, acc.2.2.1 ++ y.2.2.1, acc.2.2.2 && y.2.2.2)) (s1, [], [], true)
      let s2 := r.1.onAbort i fun x => { x with cmds := x.cmds ++ r.2.2.1, fences := x.fences ++ r.2.1, count := x.count + r.2.1.length }
      match r.2.2.2, if b.jobs then s2.unreadRings b.ctx b.code else some [] with
      | true, some unread =>
        let own := unread ++ if 3 ≤ b.kind then s2.fenceList b.ctx b.code else []
        let all := ((s2.pl.aborts[i]?).map Abort.fences).getD [] ++ own
        let s3 := s2.onAbort i fun x => { x with step := 3, fences := [] }
        (({ s3 with pl := { s3.pl with fenceOps := s3.pl.fenceOps ++ all } }).destroyStep b 5).settle
      | _, _ => s2

/-! ## Fence writes (09 R285, 08 R250 to R253) -/

/-- FENCE_SIGNAL: a signal takes the maximum into its fence word (08 R250, R251, R253; 09 R285). -/
def opFenceSignal (i : Nat) (h : HostAnswer) (s : State) : State := (s.fenceStep i h false).settle

/-- FENCE_ERROR_WRITE: an error word is written into a fence word unless one is already there (08 R252; 09 R285, R288 step 5). -/
def opFenceErrorWrite (i : Nat) (h : HostAnswer) (s : State) : State := (s.fenceStep i h true).settle

/-! ## Meanings: each command answers the next state that its operation gives. -/

/-- The meaning of CREATE_CONTEXT. -/
def execCreateContext (src : Nat) (v : Word) (s : State) : Host.Outcome State Fault Refusal := .next (opCreateContext src v s)
/-- The meaning of DESTROY_CONTEXT. -/
def execDestroyContext (src : Nat) (v : Word) (s : State) : Host.Outcome State Fault Refusal := .next (opDestroyContext src v s)
/-- The meaning of CREATE_QUEUE. -/
def execCreateQueue (src : Nat) (v : Word) (s : State) : Host.Outcome State Fault Refusal := .next (opCreateQueue src v s)
/-- The meaning of DESTROY_QUEUE. -/
def execDestroyQueue (src : Nat) (v : Word) (s : State) : Host.Outcome State Fault Refusal := .next (opDestroyQueue src v s)
/-- The meaning of RESTART_QUEUE. -/
def execRestartQueue (src : Nat) (v : Word) (s : State) : Host.Outcome State Fault Refusal := .next (opRestartQueue src v s)
/-- The meaning of SET_ARENA_LIMIT. -/
def execSetArenaLimit (src : Nat) (v : Word) (s : State) : Host.Outcome State Fault Refusal := .next (opSetArenaLimit src v s)
/-- The meaning of RESET_ARENA. -/
def execResetArena (src : Nat) (v : Word) (s : State) : Host.Outcome State Fault Refusal := .next (opResetArena src v s)
/-- The meaning of STAGING_RECORD_READ_DONE. -/
def execStagingRecordReadDone (f : Nat) (h : HostAnswer) (s : State) : Host.Outcome State Fault Refusal := .next (opStagingRecordReadDone f h s)
/-- The meaning of ABORT_COMMAND. -/
def execAbortCommand (src : Nat) (v : Word) (h : HostAnswer) (s : State) : Host.Outcome State Fault Refusal := .next (opAbortCommand src v h s)
/-- The meaning of ABORT_QUEUE. -/
def execAbortQueue (src : Nat) (v : Word) (s : State) : Host.Outcome State Fault Refusal := .next (opAbortQueue src v s)
/-- The meaning of QUEUE_FETCH. -/
def execQueueFetch (q : Nat) (h : HostAnswer) (s : State) : Host.Outcome State Fault Refusal := .next (opQueueFetch q h s)
/-- The meaning of ABORT_STOP_DONE. -/
def execAbortStopDone (i : Nat) (h : HostAnswer) (s : State) : Host.Outcome State Fault Refusal := .next (opAbortStopDone i h s)
/-- The meaning of ABORT_QUIESCED. -/
def execAbortQuiesced (i : Nat) (h : HostAnswer) (s : State) : Host.Outcome State Fault Refusal := .next (opAbortQuiesced i h s)
/-- The meaning of FENCE_SIGNAL. -/
def execFenceSignal (i : Nat) (h : HostAnswer) (s : State) : Host.Outcome State Fault Refusal := .next (opFenceSignal i h s)
/-- The meaning of FENCE_ERROR_WRITE. -/
def execFenceErrorWrite (i : Nat) (h : HostAnswer) (s : State) : Host.Outcome State Fault Refusal := .next (opFenceErrorWrite i h s)

end Sys2Proof.Machine
end

