-- ==== Sys2Proof/Machine/Xlate.lean ====
section
/-! DEFINITION. Translation as commands: page walks, device invalidations, aperture loads and unloads, ATS completions and invalidations, pre-translation, and failures of host-link requests (10 R302, R310 to R333, 18 R531). -/

namespace Sys2Proof.Machine

/-! ## Page walks (10 R302, R306 to R308) -/

/-- PAGE_WALK: a walk for a read fills a core's caches (units 0 to 15) or the device TLB (10 R302, R308). -/
def opPageWalk (unit ctx va : Nat) (s : State) : State :=
  let u := min unit 16
  if s.serving ∧ (s.ctx ctx).state = 1 ∧ va < 2 ^ 51 ∧ (u = 16 ∨ (s.ctx ctx).cores.testBit u) then s.xlFill u ctx va .read 0xFF true else s

/-! ## Device invalidation (10 R309, R310, R334) -/

/-- The range of XL_INV_CTL and XL_INV_ADDR keeps its rule (10 R334). -/
def invRule (addr : Nat) (v : Word) : Bool :=
  Fld.xlInvCtl_all.get v == 1
    || (addr % 0x2000000 == 0 && decide (addr < 2 ^ 51) && decide (addr + (Fld.xlInvCtl_countM1.get v + 1) * 0x2000000 ≤ 2 ^ 51))

/-- A request of the translation request page is in progress (09 R567, 10 R334). -/
def State.xlBusy (s : State) (f : Nat) : Bool :=
  s.fld (xlPage f) .xlInvStat Fld.xlInvStat_busy == 1 || s.fld (xlPage f) .xlAptStat Fld.xlAptStat_busy == 1

/-- DEVICE_INVALIDATE: the matching translations are dropped, and the wait for the accesses issued with them begins (10 R310). Through a virtual function a context of another partition is not reached (09 R270). -/
def opDeviceInvalidate (src : Nat) (v : Word) (s : State) : State :=
  if ¬ v.bit 63 then s
  else
    let f := srcFunc src
    let pk := xlPage f
    s.triggerIf src 0x402 .xlInvCtl v
      (fun t => !t.xlBusy f && invRule (t.reg pk .xlInvAddr).toNat v) fun t =>
      let n := Fld.xlInvCtl_context.get v
      let all := Fld.xlInvCtl_all.get v == 1
      let first := (t.reg pk .xlInvAddr).toNat / 0x2000000
      let count := Fld.xlInvCtl_countM1.get v + 1
      let t1 := (t.setFld pk .xlInvStat Fld.xlInvStat_busy 1).setFreq f { t.freq f with inval := some (n, all, first, count) }
      if t.reachesCtx f n then t1.dropContext n all first count else t1

/-- An address lies in an invalidated range. -/
def invHits (all : Bool) (first count va : Nat) : Bool :=
  decide (va < 2 ^ 51) && (all || (decide (first ≤ va / 0x2000000) && decide (va / 0x2000000 < first + count)))

/-- Every access that a context's cells issued to a device range has been performed (10 R310). -/
def State.deviceQuiet (s : State) (ctx : Nat) (all : Bool) (first count : Nat) : Bool :=
  (s.ctxCells ctx).all fun k =>
    let f := s.flight k
    !(f.loads.any fun e => invHits all first count e.va || invHits all first count (e.va + (e.size - 1)))
      && !(f.stbuf.any fun e => e.place.onDevice) && s.committed (k / 256) k

/-- DEVICE_INVALIDATE_DONE: the accesses issued with the dropped translations have been performed, and DONE is set (10 R310, R335). -/
def opDeviceInvalidateDone (f : Nat) (s : State) : State :=
  match (s.freq f).inval with
  | none => s
  | some (n, all, first, count) =>
    let pk := xlPage f
    let near := s.reachesCtx f n
    if ¬ s.serving ∨ (near ∧ ¬ s.deviceQuiet n all first count) then s
    else
      let s1 := ((s.setFld pk .xlInvStat Fld.xlInvStat_busy 0).setFld pk .xlInvStat Fld.xlInvStat_done 1).setFreq f { s.freq f with inval := none }
      if near then s1.bump (regKey 0x200 0) .atuCntInv Fld.atuCntInv_device 1 else s1

/-! ## Apertures (10 R313, R316, R334) -/

/-- A GO write of XL_APT_CTL with an operation, while its function has no request of the page in progress: it is accepted, and performed in its turn (09 R567, 10 R313, R334). -/
def State.aptGo (s : State) (src op : Nat) (v : Word) : State :=
  if ¬ v.bit 63 ∨ Fld.xlAptCtl_op.get v ≠ op then s
  else
    let f := srcFunc src
    s.triggerIf src 0x402 .xlAptCtl v (fun t => !t.xlBusy f) fun t =>
      let r : AptReq := ⟨op, Fld.xlAptCtl_context.get v, Fld.xlAptCtl_index.get v, t.nextOrder, false⟩
      ((t.setFld (xlPage f) .xlAptStat Fld.xlAptStat_busy 1).setFreq f { t.freq f with apt := some r }).settle

/-- LOAD_APERTURE: every 2 MiB step of the range is translated and locked (10 R313). -/
def opLoadAperture (src : Nat) (v : Word) (s : State) : State := s.aptGo src 0 v

/-- UNLOAD_APERTURE: the aperture leaves the copies at once; once every access issued through it has been performed its ATC entries are unlocked, and it is UNLOADED (10 R313, R333). -/
def opUnloadAperture (src : Nat) (v : Word) (s : State) : State := s.aptGo src 1 v

/-- A loaded aperture becomes BROKEN: recorded, raised and written to the Patina log (10 R316). -/
def State.aptBreak (s : State) (ctx index va : Nat) : State :=
  let x := s.apt ctx index
  if x.state = 1 then (s.setApt ctx index { x with state := 2 }).atuEvent va ctx 22 8 else s

/-! ## ATS completions (10 R318, R321 to R324) -/

/-- The rights a request needs of the host: read, write. -/
def State.atsNeeds (s : State) (r : AtsReq) : Bool × Bool :=
  match r.user with
  | .aperture _ ctx i => aptNeeds (s.apt ctx i).flags
  | .rebind ctx i => aptNeeds (s.apt ctx i).flags
  | _ => (!r.write, r.write)

/-- A stream or a pre-translating command still waits for a translation. -/
def State.atsWaits (s : State) (u : AtsUser) : Bool :=
  match u with
  | .stream q n i => s.pl.streams.any fun e => e.2.ofCmd q n && e.2.index == i && e.2.asked
  | .command q n => (s.cmd? q n).any fun c => decide (c.state = .pretrans)
  | _ => false

/-- The tail below which the first open whole-queue abort of a queue still fetches entries (09 R288 step 5). -/
def State.wholeTail (s : State) (q : Nat) : Option Nat :=
  (s.pl.aborts.find? fun b => b.kind != 0 && b.queues.contains q && decide (b.step < 3)).bind fun b =>
    (b.tails.find? fun t => t.1 == q).map fun t => t.2

/-- A queue's entry cannot be translated: the queue stops; an abort that was fetching its entries goes on without them, or could not decide (10 R321, 09 R287, R288). -/
def State.ringLost (s : State) (q va : Nat) : State :=
  let x := s.queue q
  if x.state = 0 then s
  else
    let j := ((List.range (x.tail - x.fetched)).find? fun j => x.slotVa (x.fetched + j) == va).getD 0
    let s1 := s.ringStop q (x.fetched + j) x.fetched
    let s2 := match s1.wholeTail q with
      | some n =>
        let y := { s1.queue q with fetched := max x.fetched n }
        s1.setQueue q { y with head := y.headNow }
      | none => s1
    s2.pl.reqs.foldl (fun t e => match e.2.abt with
      | some r => if r.op = 8 ∧ r.id = q ∧ ¬ t.objBehind r then t.abtEnd e.1 6 else t
      | none => t) s2

/-- The answer to a request has come: `code` is 0 for a usable translation, else 8 not present, 9 smaller than 2 MiB, 0xA without a right (10 R314). -/
def State.atsAnswer (s : State) (r : AtsReq) (code : Nat) : State :=
  match r.user with
  | .aperture f ctx i =>
    let x := s.apt ctx i
    let s1 := if x.state ≠ 3 then s else if code = 0 then s.lockStep ctx i r.va else s.setApt ctx i { x with fail := lowerCode x.fail code }
    s1.aptFinish f ctx i
  | .rebind ctx i => if code = 0 then s else s.aptBreak ctx i r.va
  | .stream q n _ =>
    if ¬ s.atsWaits r.user then s
    else if code = 0 then s.onStream r.user fun x => { x with asked := false }
    else if r.again then
      let agent := ((s.cmd? q n).map Cmd.agent).getD 0
      ((if code = 9 then s.atuFault r.va (s.queue q).ctx agent 4 else s).endWaiter r.user 12)
    else s.pageFault r
  | .command q n =>
    if code = 0 then s
    else if s.atsWaits r.user then
      (if r.again then (if code = 9 then s.atuFault r.va (s.queue q).ctx (((s.cmd? q n).map Cmd.agent).getD 0) 4 else s).endWaiter r.user 12 else s.pageFault r)
    else if (s.cmd? q n).any fun c => decide (c.state = .waiting) then s.waitBad q n
    else s
  | .queue q => if code = 0 then s else s.ringLost q r.va
  | .fence op => if code = 0 then { s with pl := { s.pl with fenceOps := op :: s.pl.fenceOps } } else s.fenceDrop op
  | .prefetch q n i => if code = 0 then s else s.onStream (.stream q n i) fun x => { x with tried := x.tried ++ [r.va / 2 ^ 21] }

/-- ATS_COMPLETION: the host answers a translation request; one of 2 MiB or more with the right is cached, and its user goes on (10 R318). -/
def opAtsCompletion (f pasid va : Nat) (r : AtsReply) (s : State) : State :=
  match s.pl.atsReqs.find? fun x => x.f == f && x.pasid == pasid && x.va == va with
  | none => s
  | some q =>
    if ¬ (s.serving ∧ s.linkUp) then s
    else
      let need := s.atsNeeds q
      let code := if ¬ r.present then 8 else if r.log2 < 21 then 9 else if (need.1 ∧ ¬ r.r) ∨ (need.2 ∧ ¬ r.w) then 0xA else 0
      let s1 := { s with pl := { s.pl with atsReqs := s.pl.atsReqs.erase q } }
      let s2 := if code = 9 then s1.bump (regKey 0x200 0) .atuErrCnt Fld.atuErrCnt_small 1 else s1
      let s3 := if code = 0 then
          s2.atcInsert { f := f, pasid := pasid, va := va / 2 ^ r.log2 * 2 ^ r.log2, log2 := r.log2, hpa := r.hpa / 2 ^ r.log2 * 2 ^ r.log2
                         r := r.r, w := r.w, locks := 0, used := 0 }
        else s2
      (s3.atsAnswer q code).settle

/-! ## Host invalidations (10 R316, R320, R333) -/

/-- An ATC entry meets a host range. -/
def AtcEntry.meets (e : AtcEntry) (f pasid va len : Nat) : Bool := e.f == f && e.pasid == pasid && overlapN e.va (2 ^ e.log2) va len

/-- The locked steps of loaded or loading apertures that have lost their entry are asked for again (10 R316). -/
def State.aptRefetch (s : State) : State :=
  s.pl.apts.foldl (fun t e =>
    let ctx := e.1 / 64
    let i := e.1 % 64
    let x := e.2
    if x.state = 1 ∨ x.state = 3 then
      x.locked.foldl (fun u va =>
        let f := u.ctxFunc ctx
        let pasid := (u.ctx ctx).pasid
        let user : AtsUser := if x.state = 1 then .rebind ctx i else .aperture ((List.range 17).find? (fun g => (u.freq g).apt.any fun r => r.ctx == ctx && r.index == i && r.going) |>.getD 0) ctx i
        if (u.atcFind f pasid va).isSome || u.pl.atsReqs.any fun r => r.user == user && r.va == va then u
        else
          let v := if x.state = 3 then u.setApt ctx i { u.apt ctx i with locked := (u.apt ctx i).locked.erase va } else u
          v.atsSend f pasid va (aptNeeds x.flags).2 user) t
    else t) s

/-- How many ATC entries cover some host addresses. -/
def State.entriesOf (s : State) (f pasid : Nat) (vas : List Nat) : Nat := (vas.filterMap fun va => s.atcFind f pasid va).eraseDups.length

/-- A pre-translated command no longer holds the steps that a host invalidation cleared (10 R328). -/
def State.cmdRefetch (s : State) : State :=
  s.pl.queues.foldl (fun t e =>
    e.2.cmds.foldl (fun u c =>
      if c.2.locks.isEmpty then u
      else
        let f := u.ctxFunc e.2.ctx
        let pasid := (u.ctx e.2.ctx).pasid
        let held := c.2.locks.filter fun va => (u.atcFind f pasid va).isSome
        u.setCmd e.1 c.1 { c.2 with locks := held, resv := u.entriesOf f pasid held }) t) s

/-- ATC entries are dropped, locked or not. -/
def State.atcDrop (s : State) (p : AtcEntry → Bool) : State :=
  ({ s with pl := { s.pl with atc := s.pl.atc.filter fun e => !p e } }).cmdRefetch.relock

/-- ATS_INVALIDATION: every matching ATC entry is dropped at once, entries that apertures had locked are asked for again, and the completion is sent once nothing issued with a dropped one is outstanding; the ATU holds up to 32 such requests, and takes no more (10 R316, R320; log 90). -/
def opAtsInvalidation (f pasid va len : Nat) (s : State) : State :=
  let hit := fun (e : AtcEntry) => e.meets f pasid va len
  if ¬ (s.serving ∧ s.linkUp) ∨ 32 ≤ s.pl.atsInvs.length then s
  else
    let v : AtsInv := ⟨f, pasid, va, (s.pl.atc.filter hit).map fun e => (e.hpa, e.log2)⟩
    let s1 := ((s.bump (regKey 0x200 0) .atuCntInv Fld.atuCntInv_host 1).atcDrop hit).aptRefetch
    ({ s1 with pl := { s1.pl with atsInvs := s1.pl.atsInvs ++ [v] } }).settleInvs

/-- A function's translations go: its ATC entries, its page request groups, and the loaded apertures of its contexts (10 R333). -/
def State.dropAts (s : State) (f : Nat) : State :=
  let s1 := s.atcDrop fun e => e.f == f
  let s2 := (s1.pl.groups.filter fun g => g.f == f).foldl (fun t g => t.endGroup g false)
    { s1 with pl := { s1.pl with lateTags := s1.pl.lateTags.filter fun t => t.1 != f } }
  s2.pl.apts.foldl (fun t e => if t.ctxFunc (e.1 / 64) = f then t.aptBreak (e.1 / 64) (e.1 % 64) e.2.hbase else t) s2

/-- HOST_DISABLES_ATS_PRI: the host disables ATS or PRI for a function (10 R333). -/
def opHostDisablesAtsPri (f : Nat) (s : State) : State := if s.serving then (s.dropAts f).settle else s

/-! ## Pre-translation (10 R328) -/

/-- The lock counts that pre-translated commands hold or have reserved (10 R328). -/
def State.preHeld (s : State) : Nat := s.pl.queues.foldl (fun n e => n + (e.2.cmds.foldl (fun m c => m + c.2.resv) 0)) 0

/-- The aligned blocks of `2 ^ b` bytes that the rows of one side name, each once, in order. -/
def rowBlocks (b base stride rows bytes : Nat) : List Nat :=
  ((List.range rows).flatMap fun i =>
    let lo := (base + i * stride) / 2 ^ b
    let hi := (base + i * stride + bytes - 1) / 2 ^ b
    (List.range (hi + 1 - lo)).map fun j => (lo + j) * 2 ^ b).eraseDups

/-- The host addresses at which the rows of one side enter each 2 MiB step. -/
def rowEntries (base stride rows bytes : Nat) : List Nat :=
  (List.range rows).flatMap fun i =>
    let lo := base + i * stride
    (List.range ((lo + bytes - 1) / 2 ^ 21 + 1 - lo / 2 ^ 21)).map fun j => if j = 0 then lo else (lo / 2 ^ 21 + j) * 2 ^ 21

/-- The host addresses at which a descriptor enters each 2 MiB step of its host side. -/
def ChDesc.hostSteps (d : ChDesc) (cls : Nat) : List Nat :=
  if cls = 0 then rowEntries d.src d.sStride d.rows d.rowBytes else if cls = 1 then rowEntries d.dst d.dStride d.rows d.rowBytes else []

/-- One address of each 2 MiB step, the first, in order. -/
def firstOfStep : List Nat → List Nat → List Nat
  | _, [] => []
  | seen, a :: l => if seen.contains (a / 2 ^ 21) then firstOfStep seen l else a :: firstOfStep (a / 2 ^ 21 :: seen) l

/-- The leading steps that need at most `n` ATC entries more than those seen; a step not yet translated needs one of its own (10 R328). -/
def State.preSteps (s : State) (f pasid : Nat) : Nat → List AtcEntry → List Nat → List Nat
  | _, _, [] => []
  | n, seen, a :: l =>
    match s.atcFind f pasid a with
    | some e =>
      if seen.contains e then a :: s.preSteps f pasid n seen l else if n = 0 then [] else a :: s.preSteps f pasid (n - 1) (e :: seen) l
    | none => if n = 0 then [] else a :: s.preSteps f pasid (n - 1) seen l

/-- The device pages that a descriptor reads and writes. -/
def ChDesc.devPages (d : ChDesc) (cls : Nat) : List (Nat × Right) :=
  (if cls = 0 ∨ d.zero then [] else (rowBlocks 25 d.src d.sStride d.rows d.rowBytes).map fun a => (a, .read))
    ++ (if cls = 1 then [] else (rowBlocks 25 d.dst d.dStride d.rows d.rowBytes).map fun a => (a, .write))

/-- The first device page of a pre-translating command that fails, with its code. -/
def State.preDevice (s : State) (ctx : Nat) (ps : List (Nat × Right)) : Option Nat :=
  ps.findSome? fun p => match s.xlPlinth ctx p.1 p.2 with
    | .ok _ => none
    | .poison _ => some 7
    | _ => some 6

/-- A host step that a pre-translating command lacks is asked for, once (10 R323, R328). -/
def State.preAsk (s : State) (q seq : Nat) (write : Bool) (va : Nat) : State :=
  let ctx := (s.queue q).ctx
  let mine := fun (r : AtsReq) => r.user == .command q seq && r.va / 2 ^ 21 == va / 2 ^ 21
  if s.pl.atsReqs.any mine || s.pl.groups.any fun g => g.waiters.any mine then s
  else s.atsSend (s.ctxFunc ctx) (s.ctx ctx).pasid va write (.command q seq)

/-- What reading every descriptor of a command came to: the descriptors; the steps of the list to be asked for; a wait; or a failure. -/
inductive PreRead where
  | descs (l : List Nat)
  | miss (vas : List Nat)
  | wait
  | fail (code : Nat)

/-- The descriptors of a pre-translating command are read. -/
def State.preRead (s : State) (h : HostAnswer) (ctx : Nat) (c : Cmd) : PreRead :=
  (List.range c.dcount).foldr (fun i acc =>
    match s.chDescRead h ctx c i, acc with
    | .fail code, _ => .fail code
    | _, .fail code => .fail code
    | .miss, .miss l => .miss ((c.dlist + 64 * i) :: l)
    | .miss, _ => .miss [c.dlist + 64 * i]
    | _, .miss l => .miss l
    | .wait, _ => .wait
    | _, .wait => .wait
    | .desc x, .descs l => .descs (x :: l)) (.descs [])

/-- PRETRANSLATION_DONE: a pre-translating command reserves its lock counts, reads its descriptors, has every range they name translated, up to 256 ATC entries, and may start once the translations are present; a failure retires it (10 R328). -/
def opPretranslationDone (q seq : Nat) (h : HostAnswer) (s : State) : State :=
  match s.cmd? q seq with
  | none => s
  | some c =>
    let ctx := (s.queue q).ctx
    if ¬ s.serving ∨ c.state ≠ .pretrans ∨ (c.resv = 0 ∧ 7168 < s.preHeld + 256) then s
    else
      let s1 := (List.range c.dcount).foldl (fun t i => t.descFill ctx c i) (s.setCmd q seq { c with resv := 256 })
      match s1.preRead h ctx c with
      | .fail code => s1.retire q seq code
      | .miss vas => vas.foldl (fun t va => t.preAsk q seq false va) s1
      | .wait => s1
      | .descs l =>
        if ¬ l.all (chDescOk c.cls) then s1.retire q seq 15
        else
          let f := s1.ctxFunc ctx
          let pasid := (s1.ctx ctx).pasid
          let steps := s1.preSteps f pasid 256 [] (firstOfStep [] ((l.map chDesc).flatMap fun d => d.hostSteps c.cls))
          let pages := ((l.map chDesc).flatMap fun d => d.devPages c.cls).eraseDups
          let s2 := pages.foldl (fun t p => t.xlFill 16 ctx p.1 p.2 c.agent) s1
          match s1.preDevice ctx pages with
          | some code => s2.retire q seq code
          | none =>
            let write := c.cls == 1
            let lacks := steps.filter fun va => (s2.atcLook f pasid va write).isNone
            if lacks.isEmpty then (s2.setCmd q seq { c with state := .fetched, resv := s2.entriesOf f pasid steps, locks := steps }).relock
            else lacks.foldl (fun t va => t.preAsk q seq write va) s2

/-! ## Failures of host-link requests (18 R531) -/

/-- HOST_REQUEST_FAILURE: a host-link request that a Chisel engine or the queue machinery made for a command fails or times out, and the command retires with LINK_LOST (18 R531). -/
def opHostRequestFailure (q seq : Nat) (s : State) : State :=
  match s.cmd? q seq with
  | none => s
  | some c =>
    if ¬ (s.serving ∧ s.linkUp) then s
    else if c.op = 2 ∧ c.state = .running then ((s.cutStreams ⟨[], [], []⟩ q seq).retire q seq 14).settle
    else if c.state = .pretrans ∨ (c.state = .waiting ∧ c.whost) then (s.retire q seq 14).settle
    else s

/-! ## Meanings: each command answers the next state that its operation gives. -/

/-- The meaning of ATOMIC_AT_HOME. -/
def execAtomicAtHome (c : CellRef) (i : Nat) (h : HostAnswer) (s : State) : Host.Outcome State Fault Refusal :=
  .next (opAtomicAtHome c i h s).settleAccess
/-- The meaning of MEMORY_ACCESS_RETURN. -/
def execMemoryAccessReturn (c : CellRef) (i : Nat) (h : HostAnswer) (s : State) : Host.Outcome State Fault Refusal :=
  .next (opMemoryAccessReturn c i h s).settleAccess
/-- The meaning of STORE_BUFFER_DRAIN. -/
def execStoreBufferDrain (c : CellRef) (i : Nat) (s : State) : Host.Outcome State Fault Refusal := .next (opStoreBufferDrain c i s).settleAccess
/-- The meaning of PAGE_WALK. -/
def execPageWalk (unit ctx va : Nat) (s : State) : Host.Outcome State Fault Refusal := .next (opPageWalk unit ctx va s)
/-- The meaning of DEVICE_INVALIDATE. -/
def execDeviceInvalidate (src : Nat) (v : Word) (s : State) : Host.Outcome State Fault Refusal := .next (opDeviceInvalidate src v s)
/-- The meaning of DEVICE_INVALIDATE_DONE. -/
def execDeviceInvalidateDone (f : Nat) (s : State) : Host.Outcome State Fault Refusal := .next (opDeviceInvalidateDone f s)
/-- The meaning of LOAD_APERTURE. -/
def execLoadAperture (src : Nat) (v : Word) (s : State) : Host.Outcome State Fault Refusal := .next (opLoadAperture src v s)
/-- The meaning of UNLOAD_APERTURE. -/
def execUnloadAperture (src : Nat) (v : Word) (s : State) : Host.Outcome State Fault Refusal := .next (opUnloadAperture src v s)
/-- The meaning of ATS_COMPLETION. -/
def execAtsCompletion (f pasid va : Nat) (r : AtsReply) (s : State) : Host.Outcome State Fault Refusal := .next (opAtsCompletion f pasid va r s)
/-- The meaning of ATS_INVALIDATION. -/
def execAtsInvalidation (f pasid va len : Nat) (s : State) : Host.Outcome State Fault Refusal := .next (opAtsInvalidation f pasid va len s)
/-- The meaning of HOST_DISABLES_ATS_PRI. -/
def execHostDisablesAtsPri (f : Nat) (s : State) : Host.Outcome State Fault Refusal := .next (opHostDisablesAtsPri f s)
/-- The meaning of PRETRANSLATION_DONE. -/
def execPretranslationDone (q seq : Nat) (h : HostAnswer) (s : State) : Host.Outcome State Fault Refusal := .next (opPretranslationDone q seq h s)
/-- The meaning of HOST_REQUEST_FAILURE. -/
def execHostRequestFailure (q seq : Nat) (s : State) : Host.Outcome State Fault Refusal := .next (opHostRequestFailure q seq s)

end Sys2Proof.Machine
end

