-- ==== Sys2Proof/Machine/Window.lean ====
section
/-! DEFINITION. The window of a function, and the scrub of a frame on change of owner (11 R347 to R350, 14 R441). -/

namespace Sys2Proof.Machine

/-! ## The window (11 R347 to R350) -/

/-- The context that a function's window reaches, if any: EN set, the context LIVE and of the function's partition; the physical function reaches every partition's but a CONFIDENTIAL one's (11 R347, R349, 16 R468, R476, 18 R525). -/
def State.winCtx (s : State) (f : Nat) : Option Nat :=
  let n := s.fld (funcPage f) .winCtl Fld.winCtl_context
  let x := s.ctx n
  if s.serving && s.fld (funcPage f) .winCtl Fld.winCtl_en == 1 && x.state == 1 && !s.tdispError f
      && (if f = 0 then !s.confidential (some x.part) else s.funcPart f == some x.part) then some n else none

/-- A window access fails: its cause and offset are recorded (11 R349, R372). -/
def State.winFail (s : State) (f off cause : Nat) : State :=
  let pk := funcPage f
  let s1 := (s.setFld pk .winStat Fld.winStat_err 1).setFld pk .winStat Fld.winStat_cause cause
  s1.wr (pk + Reg.winErraddr.off) (Word.ofNat (Fld.winErraddr_offset.at off + Fld.winErraddr_time.at s.time))

/-- The pieces of a window request: offset and bytes of each, cut at every line boundary (11 R348). -/
def winPieces : Nat → Nat → Nat → List (Nat × Nat)
  | 0, _, _ => []
  | n + 1, off, len => if len = 0 then [] else
    let k := min len (64 - off % 64)
    (off, k) :: winPieces n (off + k) (len - k)

/-- The pieces of `len` bytes at an offset. -/
def piecesOf (off len : Nat) : List (Nat × Nat) := winPieces (len / 64 + 2) off len

/-- The device virtual address of a window offset (11 R347). -/
def State.winVa (s : State) (f off : Nat) : Nat := s.fld (funcPage f) .winBase Fld.winBase_base * 2 ^ 30 + off

/-- The context of a window request is still LIVE (11 R349, R350). -/
def State.winLive (s : State) (ctx : Nat) : Bool := (s.ctx ctx).state == 1

/-- The line that a piece waits for: a stack line that its home cannot serve now (07 R221, R222). -/
def State.winWaits (s : State) (ctx va : Nat) (r : Right) : Option Nat :=
  match s.xlPlinth ctx va r with
  | .ok (.stack a) => if s.mem.free (a / 64) then none else some (a / 64)
  | _ => none

/-- A piece of a read is performed: the state, its bytes, and whether they are poisoned (11 R348, R349, 10 R568). -/
def State.winReadPiece (s : State) (f ctx base : Nat) (piece : Nat × Nat) : State × List Byte × Bool :=
  let off := piece.1
  let n := piece.2
  let t := s.xlFill 16 ctx (base + off) .read 0xFF
  let ff := List.replicate n (0xFF : Byte)
  match s.xlPlinth ctx (base + off) .read with
  | .ok (.stack a) =>
    let u := t.snoopRead (a / 64)
    if s.mem.homePoison (a / 64) then ((u.consumePoison (a / 64) ctx).winFail f off 3, ff, true) else (u, s.mem.homeBytes a n, false)
  | .ok (.bank k o) => if (s.bank k).poisoned (o / 64) then (t.winFail f off 3, ff, true) else (t, s.bankRead k o n, false)
  | .poison _ => (t.winFail f off 3, ff, true)
  | _ => (t.winFail f off 2, ff, false)

/-- A piece of a write is performed, or dropped where it has no translation (11 R348, R349, 06 R200, 14 R438, R439, 10 R568). -/
def State.winWritePiece (s : State) (f ctx base off : Nat) (data : List Byte) : State :=
  let t := s.xlFill 16 ctx (base + off) .write 0xFF
  match s.xlPlinth ctx (base + off) .write with
  | .ok (.stack a) =>
    let r := t.homeWriteBytes a data
    if r.2 then r.1 else r.1.winFail f off 3
  | .ok (.bank k o) =>
    let r := t.bankWrite k o data none
    if r.2 then r.1 else r.1.winFail f off 3
  | .poison _ => t.winFail f off 3
  | _ => t.winFail f off 2

/-! ## Requests in their turn (07 R228, 11 R348, R350) -/

/-- A function's requests that wait, oldest first. -/
def State.hostReqs (s : State) (f : Nat) : List HostReq := s.pl.hostQ.at [] f

/-- A function's requests that wait are replaced. -/
def State.setHostReqs (s : State) (f : Nat) (l : List HostReq) : State := { s with pl := { s.pl with hostQ := s.pl.hostQ.put [] f l } }

/-- The oldest request of a function is replaced. -/
def State.setHostHead (s : State) (f : Nat) (x : HostReq) : State := s.setHostReqs f (x :: (s.hostReqs f).tail)

/-- A piece of a function's oldest request is performed. -/
def State.hostPiece (s : State) (f off : Nat) : State :=
  match (s.hostReqs f).head? with
  | some (.write ctx base todo) =>
    match todo.find? fun p => p.1 == off with
    | some p => (s.winWritePiece f ctx base off p.2).setHostHead f (.write ctx base (todo.filter fun q => q.1 != off))
    | none => s
  | some (.read ctx base o len port todo got bad) =>
    match todo.find? fun p => p.1 == off with
    | some p =>
      let x := s.winReadPiece f ctx base p
      x.1.setHostHead f (.read ctx base o len port (todo.filter fun q => q.1 != off) (got ++ [(off, x.2.1)]) (bad || x.2.2))
    | none => s
  | _ => s

/-- A piece is performed now, or joins the queue of its line (07 R221, R222). -/
def State.hostTry (s : State) (f ctx base off : Nat) (r : Right) : State :=
  match s.winWaits ctx (base + off) r with
  | none => s.hostPiece f off
  | some line => s.defer line (.window f off)

/-- A function's oldest request: its pieces are tried, each by itself; where its context is no longer LIVE, what is left of it fails by the first row of R349; a doorbell is acted on (07 R228, 11 R348, R350). -/
def State.hostHead (s : State) (f : Nat) : State :=
  match (s.hostReqs f).head? with
  | some (.write ctx base todo) =>
    if s.winLive ctx then todo.foldl (fun t p => t.hostTry f ctx base p.1 .write) s
    else (s.winFail f ((todo.head?.map fun p => p.1).getD 0) 1).setHostHead f (.write ctx base [])
  | some (.read ctx base off len port todo got bad) =>
    if s.winLive ctx then todo.foldl (fun t p => t.hostTry f ctx base p.1 .read) s
    else
      (s.winFail f ((todo.head?.map fun p => p.1).getD 0) 1).setHostHead f
        (.read ctx base off len port [] (got ++ todo.map fun p => (p.1, List.replicate p.2 0xFF)) bad)
  | some (.doorbell off v) => s.doorbellAct f off v
  | none => s

/-- A function's oldest request leaves when it is done; a read completes with its bytes and a last byte that is 1 where it carries the poisoned-data indication, whose data is then open (11 R348, R349). -/
def State.hostEnd (s : State) (f : Nat) : State :=
  let rest := (s.hostReqs f).tail
  match (s.hostReqs f).head? with
  | some (.write _ _ []) => s.setHostReqs f rest
  | some (.read _ _ off len port [] got bad) =>
    let t := { s.setHostReqs f rest with replyPort := port }
    if bad then { t.drew len with reply := ((freeList t.draws len).map fun x => BitVec.ofNat 8 x) ++ [1] }
    else { t with reply := ((piecesOf off len).flatMap fun p => ((got.find? fun g => g.1 == p.1).map fun g => g.2).getD []) ++ [0] }
  | some (.doorbell _ _) => s.setHostReqs f rest
  | _ => s

/-- A function's requests are performed in order, as far as they can be. -/
def State.hostRun : Nat → Nat → State → State
  | 0, _, s => s
  | n + 1, f, s =>
    if (s.hostReqs f).isEmpty then s
    else
      let t := (s.hostHead f).hostEnd f
      if (t.hostReqs f).length < (s.hostReqs f).length then State.hostRun n f t else t

/-- A request of a function is received: it is performed after the earlier ones (07 R228). -/
def State.hostReceive (s : State) (f : Nat) (x : HostReq) : State :=
  let l := s.hostReqs f
  let t := s.setHostReqs f (l ++ [x])
  if l.isEmpty then State.hostRun 1 f t else t

/-- The line of a waiting piece can serve it: the piece is performed, and the function's requests go on. -/
def State.hostServe (s : State) (f off : Nat) : State :=
  let t := (s.hostPiece f off).hostEnd f
  if (t.hostReqs f).length < (s.hostReqs f).length then State.hostRun (t.hostReqs f).length f t else t

/-- WINDOW_READ: a host read through a function's window; the reply is its bytes and a last byte for the poisoned-data indication, once every piece has been performed (11 R348, R349); a dormant function's window reads zero (11 R343). -/
def opWindowRead (f off len : Nat) (s : State) : State :=
  if ¬ s.up ∨ 2 ^ 32 < off + len ∨ len = 0 ∨ (f ≠ 0 ∧ ¬ s.pl.sriov) then s
  else if f ≠ 0 ∧ (s.funcPart f).isNone then { s with reply := List.replicate len 0 ++ [0] }
  else
    let t := s.bump (funcPage f) .winCnt Fld.winCnt_reads 1
    match s.winCtx f with
    | none => { t.winFail f off 1 with reply := List.replicate len 0xFF ++ [0] }
    | some ctx => t.hostReceive f (.read ctx (s.winVa f 0) off len s.replyPort (piecesOf off len) [] false)

/-- WINDOW_WRITE: a host write through a function's window (11 R348, R349); a dormant function's window ignores it (11 R343). -/
def opWindowWrite (f off : Nat) (data : List Byte) (s : State) : State :=
  if ¬ s.up ∨ 2 ^ 32 < off + data.length ∨ data = [] ∨ (f ≠ 0 ∧ (¬ s.pl.sriov ∨ (s.funcPart f).isNone)) then s
  else
    let t := s.bump (funcPage f) .winCnt Fld.winCnt_writes 1
    match s.winCtx f with
    | none => t.winFail f off 1
    | some ctx => t.hostReceive f (.write ctx (s.winVa f 0) ((piecesOf off data.length).map fun p => (p.1, (data.drop (p.1 - off)).take p.2)))

/-- DOORBELL_TAIL: a TAIL write takes its turn behind the function's earlier window writes (07 R228) and advances the queue's producer index; an access of another width or alignment sets the error bit of the function page (00 R8, 09 R282, R287, R290). -/
def opDoorbellTail (f off size : Nat) (v : Word) (s : State) : State :=
  if ¬ s.serving ∨ s.tdispError f ∨ (s.dbQueue f off).isNone then s
  else if size ≠ 8 ∨ off % 8 ≠ 0 then s.accessErr (funcPage f)
  else s.hostReceive f (.doorbell off v)

/-! ## The end of a mailbox request (16 R470, R495) -/

/-- The page of a function's mailbox. -/
def mbPage (f : Nat) : Nat := regKey (0x610 + f) 0

/-- Byte `i` of a function's MB_BUF is written. -/
def State.mbPut (s : State) (f i : Nat) (b : Byte) : State :=
  let k := mbPage f + Reg.mbBuf.off + i / 8 * 8
  s.wr k ((s.rd k).setFld (8 * (i % 8)) 8 b.toNat)

/-- A request ends: the response replaces the request, RLEN and STATUS are written, BUSY clears and DONE sets (16 R470). Bytes past RLEN keep what they held (log 42). -/
def State.mbEnd (s : State) (f status : Nat) (rsp : List Byte) : State :=
  let l := rsp.take 3072
  let s1 := (l.mapIdx fun i b => (i, b)).foldl (fun t x => t.mbPut f x.1 x.2) s
  s1.wr (mbPage f + Reg.mbStat.off) (Word.ofNat (Fld.mbStat_done.at 1 + Fld.mbStat_status.at status + Fld.mbStat_rlen.at l.length))

/-! ## Scrubs (09 R276, 14 R441 to R443) -/

/-- A place lies in a frame. -/
def Place.inFrame (p : Place) (f : Nat) : Bool :=
  match p with
  | .stack a => frameOf a == f
  | _ => false

/-- Every access issued to a frame has been performed: step 2 of a scrub (14 R441). -/
def State.frameQuiet (s : State) (f : Nat) : Bool :=
  (s.mem.lineQ.all fun e => frameOf (64 * e.1) != f || e.2.all fun r => match r with
    | .own _ => true
    | _ => false) &&
  s.flights.all fun e => !(e.2.loads.any fun l => l.place.inFrame f) && !(e.2.stbuf.any fun x => x.place.inFrame f)

/-- The lines of a frame leave every cache, and modified data is discarded: step 3 (14 R441). -/
def MemSys.forget (m : MemSys) (f : Nat) : MemSys :=
  let out := fun (line : Nat) => frameOf (64 * line) == f
  { m with
    caches := m.caches.filter fun e => !out (e.1 % 2 ^ 34)
    dir := m.dir.filter fun e => !out e.1
    lineQ := m.lineQ.filter fun e => !out e.1 }

/-- Every line of a frame reads as zero, not poisoned: step 4 (14 R441). -/
def MemSys.zeroFrame (m : MemSys) (f : Nat) : MemSys :=
  { m with dev := m.dev.filter fun e => frameOf e.1 != f, poison := m.poison.filter fun e => frameOf (64 * e.1) != f }

/-- Reservations on lines of a frame are lost with the lines (05 R144). -/
def State.forgetResv (s : State) (f : Nat) : State :=
  { s with cells := (s.cells.map fun e =>
      match e.2.resv with
      | some p => if p.inFrame f then (e.1, { e.2 with resv := none }) else e
      | none => e).filter fun e => e.2 ≠ {} }

/-- A Cast that is being unloaded leaves its slot once its frames have all been scrubbed, and the CAST_UNLOAD request ends (16 R482). -/
def State.castFreed (s : State) (n : Nat) : State :=
  let c := s.cast n
  if c.state = 3 ∧ (List.range c.frames).all fun i => (s.frame (c.first + i)).state != 2 then (s.setCast n {}).mbEnd 0 0 [] else s

/-- SCRUB_DONE: the steps of a frame's scrub end: its cached copies are discarded, its lines are zero, it takes its new state, and a Patina entry is written; the duration is open (14 R441, R445). -/
def opScrubDone (f : Nat) (s : State) : State :=
  let x := s.frame f
  if ¬ s.serving ∨ x.state ≠ 2 ∨ ¬ s.pl.scrubs.contains f ∨ ¬ s.frameQuiet f then s
  else
    let s1 := { s with mem := (s.mem.forget f).zeroFrame f }.forgetResv f
    let s2 := s1.setFrame f (if x.next = 0 then {} else { state := x.next, part := x.part })
    let s3 := { s2 with pl := { s2.pl with scrubs := s2.pl.scrubs.erase f } }
    let pk := regKey 0x900 0
    let s4 := ((s3.bump pk .memScrubCnt Fld.memScrubCnt_frames 1).setFld pk .memScrubCnt Fld.memScrubCnt_lastUs s.draw).drew 1
    let s5 := s4.logEvent 2 (if x.next = 1 then some x.part else none) 0x400 0 (f * 0x2000000) (packFields [(1, x.next)])
    (List.range 15).foldl State.castFreed s5

/-! ## Meanings: each command answers the next state that its operation gives. -/

/-- The meaning of DOORBELL_TAIL. -/
def execDoorbellTail (x : Sender) (off size : Nat) (v : Word) (s : State) : Host.Outcome State Fault Refusal :=
  .next (s.accept x.rq (opDoorbellTail x.src off size v))
/-- The meaning of WINDOW_READ. -/
def execWindowRead (x : Sender) (off len : Nat) (s : State) : Host.Outcome State Fault Refusal := .next (s.accept x.rq (opWindowRead x.src off len))
/-- The meaning of WINDOW_WRITE. -/
def execWindowWrite (x : Sender) (off : Nat) (data : List Byte) (s : State) : Host.Outcome State Fault Refusal :=
  .next (s.accept x.rq (opWindowWrite x.src off data))
/-- The meaning of SCRUB_DONE. -/
def execScrubDone (f : Nat) (s : State) : Host.Outcome State Fault Refusal := .next (opScrubDone f s)

end Sys2Proof.Machine
end

