-- ==== Sys2Proof/Machine/Coherence.lean ====
section
/-! DEFINITION. The coherence protocol's events (07 R217, R219 to R226): lines granted, recalled, written back and snooped at the homes, and the host-line cache's grants and snoops. -/

namespace Sys2Proof.Machine

/-- A line number of usable device memory. -/
def isLine (line : Nat) : Bool := decide (64 * line < devBytes)

/-- The granule that a line number from 2^34 up denotes: bank key and granule (07 R218: a bank is the home of its own lines). -/
def bankLine (line : Nat) : Option (Nat × Nat) :=
  if 2 ^ 34 ≤ line ∧ line < 2 ^ 34 + 4096 * 32768 then some ((line - 2 ^ 34) / 32768, (line - 2 ^ 34) % 32768) else none

/-- What a read returned: the 64 bytes of the line, then 1 where it is poisoned, else 0. -/
def lineReply (data : Line) (poison : Bool) : List Byte := bytesOf 64 data.toNat ++ [BitVec.ofNat 8 (b2n poison)]

/-- A caching agent lacks a valid copy of a line. -/
def State.lineMiss (s : State) (agent line : Nat) : Bool :=
  match s.mem.cline? agent line with
  | some c => decide (c.st = .pending)
  | none => true

/-- A non-allocating read at the home: the owner supplies the data and keeps its state (07 R220, 14 R437). -/
def State.homeRead (s : State) (line : Nat) (err : MemErr) : State :=
  let t := (s.stackRead line err).snoopRead line
  { t with reply := lineReply (t.mem.homeLine line) (t.mem.homePoison line) }

/-- A transaction is served at the home of its line (07 R220). -/
def State.serveReq (s : State) (line : Nat) (r : LineReq) : State :=
  match r with
  | .own _ => s
  | .shared a err => if s.lineMiss a line then (s.stackRead line err).readSharedOp a line else s
  | .read err => s.homeRead line err
  | .write mask data => (s.homeWrite line mask.toNat data).1
  | .atomic c i => s.atomicPerform c i ⟨[], [], []⟩
  | .window f off => s.hostServe f off

/-- A waiting transaction can be served: a request for ownership waits for its grant, and a load miss needs room for the line. -/
def State.serves (s : State) (line : Nat) (r : LineReq) : Bool :=
  match r with
  | .own _ => false
  | .shared a _ => s.mem.roomFor a line
  | _ => true

/-- The transactions that wait on a line are served in order of arrival, up to a request for ownership or while a holder is inside its minimum hold (07 R221, R222). -/
def State.drainLine : Nat → Nat → State → State
  | 0, _, s => s
  | n + 1, line, s =>
    match s.mem.queue line with
    | [] => s
    | r :: l =>
      if s.mem.held line || !s.serves line r then s
      else State.drainLine n line (({ s with mem := s.mem.setQueue line l }).serveReq line r)

/-- How many transactions a drain can meet: those that wait, and the pieces that window requests still have to perform. -/
def State.drainFuel (s : State) (line : Nat) : Nat :=
  (s.mem.queue line).length + (s.pl.hostQ.map fun e => (e.2.map fun x => match x with
    | .write _ _ todo => todo.length
    | .read _ _ _ _ _ todo _ _ => todo.length
    | .doorbell _ _ => 0).sum).sum

/-- A line's queue goes on. -/
def State.drain (s : State) (line : Nat) : State := State.drainLine (s.drainFuel line) line s

/-- A core cache may hold a line: not one of the saved copy of a Relief page (06 R178). -/
def State.mayCache (s : State) (agent line : Nat) : Bool := decide (agent < 17) && isLine line && !(agent < 16 && (s.savedBank (64 * line)).isSome)

/-- READ_SHARED: a caching agent's load miss is served at the home; on a blocked or held line it waits in arrival order (07 R220 to R222, 14 R437). -/
def opReadShared (agent line : Nat) (err : MemErr) (s : State) : State :=
  if ¬ (s.up && s.mayCache agent line && s.lineMiss agent line) then s
  else if ¬ s.mem.free line then s.defer line (.shared agent err)
  else if s.mem.roomFor agent line then (s.stackRead line err).readSharedOp agent line
  else s

/-- READ_OWN: a caching agent asks for ownership; its request joins the line's queue (07 R220, R221). -/
def opReadOwn (agent line : Nat) (s : State) : State :=
  let need := match s.mem.cline? agent line with
    | some c => decide (c.st = .pending) || decide (c.st = .shared)
    | none => true
  if ¬ (s.up && s.mayCache agent line && need) then s
  else if s.mem.free line then { s with mem := s.mem.setQueue line [.own agent] }
  else s.defer line (.own agent)

/-- OWNERSHIP_GRANT: the oldest request for a line is granted once no other agent holds it; its early-visible stores become visible, and the requests behind it go on (07 R209, R221, R222). -/
def opOwnershipGrant (agent line : Nat) (s : State) : State :=
  let q := s.mem.queue line
  let othersHold := agents.any fun a => a != agent && (match s.mem.cline? a line with
    | some c => c.held
    | none => false)
  if q.head? = some (.own agent) ∧ ¬ othersHold ∧ s.mem.roomFor agent line then
    let s1 := s.ownOp agent line
    ({ s1 with mem := s1.mem.setQueue line q.tail }).drain line
  else s

/-- WRITE_BACK: a line is evicted: a modified one is written to its stack, a shared or exclusive one is dropped silently; a line inside its minimum hold is not chosen, and one whose early stores wait for ownership stays (07 R219, R220, R222). -/
def opWriteBack (agent line : Nat) (s : State) : State :=
  match s.mem.cline? agent line with
  | some c => if s.up && decide (c.st ≠ .pending) && c.early == 0 && !c.held then s.evict agent line else s
  | none => s

/-- NONALLOC_READ: a non-allocating read is served at its home, or at the bank for a granule; nothing is recorded; on a blocked or held line it waits in arrival order (07 R220 to R222). -/
def opNonallocRead (line : Nat) (err : MemErr) (s : State) : State :=
  if ¬ s.up then s
  else
    match bankLine line with
    | some (k, g) =>
      let s1 := s.bankError k g err
      { s1 with reply := lineReply ((s1.bank k).data.readLine (64 * g)) ((s1.bank k).poisoned g) }
    | none =>
      if ¬ isLine line then s
      else if s.mem.free line then s.homeRead line err
      else s.defer line (.read err)

/-- NONALLOC_WRITE: a non-allocating write invalidates every holder and merges its bytes at the home or bank; on a blocked or held line it waits in arrival order (07 R220 to R222, R225; 06 R200, 14 R438, R439). -/
def opNonallocWrite (line : Nat) (mask : Word) (data : Line) (s : State) : State :=
  if ¬ s.up then s
  else
    match bankLine line with
    | some (k, g) =>
      let b := (s.bank k).clearResv (64 * g) 64 none
      s.setBank k (b.writeGranule g mask.toNat data).1
    | none =>
      if ¬ isLine line then s
      else if s.mem.free line then (s.homeWrite line mask.toNat data).1
      else s.defer line (.write mask data)

/-- HOLD_EXPIRY: a line's minimum hold ends, and the snoops that it deferred are answered (07 R222). -/
def opHoldExpiry (agent line : Nat) (s : State) : State :=
  match s.mem.cline? agent line with
  | some c => ({ s with mem := s.mem.setCline agent line { c with held := false } }).drain line
  | none => s.drain line

/-- DIRECTORY_RECLAIM: the home reclaims a directory entry: the line is invalidated in every agent it names, and modified data is taken back (07 R219, R225). -/
def opDirectoryReclaim (line : Nat) (s : State) : State :=
  if s.up && decide (s.mem.dirAt line ≠ {}) && s.mem.free line then
    let s1 := agents.foldl (fun t a =>
      match s.mem.cline? a line with
      | some _ => if a < 16 then t.bumpCore a (corePage a 2) .ccCntStale Fld.ccCntStale_reclaims 1 else t
      | none => t) s
    (s1.recall line none).bump (homePage (s.homeOf line)) .hmDirCnt Fld.hmDirCnt_reclaims 1
  else s

/-- CACHE_UNCORRECTABLE_ERROR: a clean line is invalidated and refetched; a modified one is written back marked poisoned (07 R226). -/
def opCacheUncorrectableError (agent line : Nat) (s : State) : State :=
  match s.mem.cline? agent line with
  | none => s
  | some c =>
    let count := fun (t : State) (f : Fld) => if agent < 16 then t.bumpCore agent (corePage agent 2) .ccErr f 1 else t
    match c.st with
    | .pending => s
    | .modified =>
      ((count { s with mem := s.mem.setCline agent line { c with poison := true } } Fld.ccErr_uncorrDirty).writeBackOp agent line).drain line
    | _ =>
      let s1 := count (({ s with mem := s.mem.giveUp agent line }).clearResv agent line) Fld.ccErr_uncorrClean
      if s1.mem.free line then s1.readSharedOp agent line else (s1.defer line (.shared agent .ok)).drain line

/-- HOST_SNOOP: the host snoops a line of the host-line cache: SnpInv takes it, SnpData shares it, SnpCur only reads it; modified data is the answer, and early-visible bytes stay, waiting for ownership (07 R217, 11 R340). -/
def opHostSnoop (line : Nat) (kind : SnoopKind) (s : State) : State :=
  match s.hline? line with
  | none => s
  | some l =>
    if ¬ s.linkUp then s
    else
      let s1 := { s with reply := if l.valid && l.dirty then lineReply l.data l.poison else [] }
      match kind with
      | .snpCur => s1
      | .snpData => s1.setHline line { l with owned := false, dirty := false }
      | .snpInv =>
        let s2 := s1.clearHostResv line 0x10000
        if l.early = 0 then { s2 with mem := { s2.mem with hlc := s2.mem.hlc.erase line } }
        else s2.setHline line { l with valid := false, owned := false, dirty := false, poison := false }

/-- HOST_ORDERED_ACK: the host acknowledges the oldest write of a function's outbound stream as globally ordered, and the next may follow it (07 R227). How many link-level replays that took is free (11 R371; log 94). -/
def opHostOrderedAck (f : Nat) (s : State) : State :=
  if s.linkUp then
    let s := (s.bump plPage .hpErr Fld.hpErr_replays s.draw).drew 1
    { s with pl := { s.pl with
      outbound := s.pl.outbound.put [] f (ackWrite (s.pl.outbound.at [] f))
      aborts := s.pl.aborts.map fun b => if s.ctxFunc b.ctx = f then { b with acks := b.acks - 1 } else b } }
  else s

/-- HOST_LINE_OWNERSHIP_GRANT: the host grants ownership of a line that the host-line cache holds without it; the stores it accepted early become visible to host agents (07 R217). -/
def opHostLineOwnershipGrant (line : Nat) (data : Line) (s : State) : State :=
  match s.hline? line with
  | none => s
  | some l =>
    if l.owned ∨ ¬ s.linkUp then s
    else
      let d := if l.valid then l.data else mergeLine data l.data l.early
      let s1 := s.setHline line { l with data := d, valid := true, owned := true, dirty := l.dirty || l.early != 0, early := 0 }
      { s1 with pl := { s1.pl with hostWriters := s1.pl.hostWriters.put [] line [] } }

/-! ## Meanings: each command answers the next state that its operation gives. -/

/-- The meaning of READ_SHARED. -/
def execReadShared (agent line : Nat) (err : MemErr) (s : State) : Host.Outcome State Fault Refusal := .next (opReadShared agent line err s)
/-- The meaning of READ_OWN. -/
def execReadOwn (agent line : Nat) (s : State) : Host.Outcome State Fault Refusal := .next (opReadOwn agent line s)
/-- The meaning of OWNERSHIP_GRANT. -/
def execOwnershipGrant (agent line : Nat) (s : State) : Host.Outcome State Fault Refusal := .next (opOwnershipGrant agent line s)
/-- The meaning of WRITE_BACK. -/
def execWriteBack (agent line : Nat) (s : State) : Host.Outcome State Fault Refusal := .next (opWriteBack agent line s)
/-- The meaning of NONALLOC_READ. -/
def execNonallocRead (line : Nat) (err : MemErr) (s : State) : Host.Outcome State Fault Refusal := .next (opNonallocRead line err s)
/-- The meaning of NONALLOC_WRITE. -/
def execNonallocWrite (line : Nat) (mask : Word) (data : Line) (s : State) : Host.Outcome State Fault Refusal := .next (opNonallocWrite line mask data s)
/-- The meaning of HOLD_EXPIRY. -/
def execHoldExpiry (agent line : Nat) (s : State) : Host.Outcome State Fault Refusal := .next (opHoldExpiry agent line s)
/-- The meaning of DIRECTORY_RECLAIM. -/
def execDirectoryReclaim (line : Nat) (s : State) : Host.Outcome State Fault Refusal := .next (opDirectoryReclaim line s)
/-- The meaning of CACHE_UNCORRECTABLE_ERROR. -/
def execCacheUncorrectableError (agent line : Nat) (s : State) : Host.Outcome State Fault Refusal := .next (opCacheUncorrectableError agent line s)
/-- The meaning of HOST_SNOOP. -/
def execHostSnoop (line : Nat) (kind : SnoopKind) (s : State) : Host.Outcome State Fault Refusal := .next (opHostSnoop line kind s)
/-- The meaning of HOST_ORDERED_ACK. -/
def execHostOrderedAck (f : Nat) (s : State) : Host.Outcome State Fault Refusal := .next (opHostOrderedAck f s)
/-- The meaning of HOST_LINE_OWNERSHIP_GRANT. -/
def execHostLineOwnershipGrant (line : Nat) (data : Line) (s : State) : Host.Outcome State Fault Refusal := .next (opHostLineOwnershipGrant line data s).settleAccess

end Sys2Proof.Machine
end

