-- ==== Sys2Proof/Machine/Interrupts.lean ====
section
/-! DEFINITION. The commands of the interrupt controller: raises, fixed conditions, service, control, targets, coalescing, MSI-X and claims (15). -/

namespace Sys2Proof.Machine

/-! ## Views of a source (15 R461) -/

/-- The word of IC_SRC_CTL for a source. -/
def IrqSource.ctlWord (x : IrqSource) : Word :=
  Word.ofNat (Fld.icSrcCtl_en.at (b2n x.en) + Fld.icSrcCtl_mask.at (b2n x.mask) + Fld.icSrcCtl_coalN.at x.coalN + Fld.icSrcCtl_coalTUs.at x.coalT
    + Fld.icSrcCtl_func.at x.func)

/-- The word of IC_SRC_TGT for a source. -/
def IrqSource.tgtWord (x : IrqSource) : Word :=
  Word.ofNat (Fld.icSrcTgt_harts.at x.harts + Fld.icSrcTgt_vecBase.at x.vecBase + Fld.icSrcTgt_vecN.at x.vecN + Fld.icSrcTgt_last.at x.last
    + Fld.icSrcTgt_lastValid.at (b2n x.lastValid))

/-- The word of IC_SRC_STAT for a source. -/
def IrqSource.statWord (x : IrqSource) : Word :=
  Word.ofNat (Fld.icSrcStat_count.at x.count + Fld.icSrcStat_ovf.at (b2n x.ovf) + Fld.icSrcStat_asserted.at (b2n x.asserted)
    + Fld.icSrcStat_inservice.at (b2n x.inService) + Fld.icSrcStat_masked.at (b2n x.masked) + Fld.icSrcStat_condition.at (b2n x.cond))

/-- The copy of IC_SRC_IDX or IC_HART_IDX that an access finds: each function has its own, and the management processors have one (15 R461; log 40). -/
def icIdxKey (src : Nat) (r : Reg) : Nat := icPage + r.off + (if src = 17 then 17 else srcFunc src) * 0x2000000

/-- The source that an access's IC_SRC_IDX names. -/
def State.icSource (s : State) (src : Nat) : Nat := Fld.icSrcIdx_source.get (s.rd (icIdxKey src .icSrcIdx))

/-- A function reaches a source: through a virtual function, one that belongs to it (15 R461, 09 R270). -/
def State.icReaches (s : State) (src n : Nat) : Bool := srcFunc src == 0 || (s.irq n).func == srcFunc src

/-! ## Raises (15 R448 to R450) -/

/-- IC_RAISE: one event on an event source, as a raise of the writing function: the source belongs to it or to the physical function, else it is discarded (15 R448, R449, R460). -/
def opIcRaise (src : Nat) (v : Word) (s : State) : State :=
  let n := Fld.icRaise_source.get v
  s.triggerIf src 0x500 .icRaise v (fun _ => decide (32 ≤ n)) fun t =>
    if (t.irq n).func = 0 ∨ (t.irq n).func = srcFunc src then t.irqEvent n else t.misroute

/-- FIXED_CONDITION_CHANGE: a fixed source's condition becomes present, which is one event, or absent (15 R448, R450). -/
def opFixedConditionChange (source : Nat) (s : State) : State :=
  let x := s.irq source
  let now := s.fixedCondition source
  if ¬ s.up ∨ now = x.cond then s
  else
    let s1 := s.setIrq source { x with cond := now }
    if now then s1.irqEvent source else s1.irqUpdate source

/-! ## Service (15 R452, R453) -/

/-- COUNT after `n` events have been served: 0 for all (15 R452). -/
def served (count n : Nat) : Nat := if n = 0 ∨ count < n then 0 else count - n

/-- IC_ACK: COUNT falls and the in-service flag clears; a source still asserted restarts its timer (15 R452, R453). -/
def opIcAck (src : Nat) (v : Word) (s : State) : State :=
  let n := Fld.icAck_source.get v
  s.trigger src 0x500 .icAck v fun t =>
    let x := t.irq n
    if t.icReaches src n then
      (t.setIrq n { x with count := served x.count (Fld.icAck_n.get v), inService := false, timer := false, due := false }).irqUpdate n
    else t

/-! ## Control and targets (15 R449, R451, R454, R457, R458, R460) -/

/-- IC_SRC_CTL_WRITE: enables, masks, coalesces or, by the physical function, reassigns the source that IC_SRC_IDX names; a FUNC other than 0 for a fixed source is refused, and so is one above 16 (15 R451, R457, R458, R460; log 40). -/
def opIcSrcCtlWrite (src : Nat) (v : Word) (s : State) : State :=
  s.offer src 0x500 Reg.icSrcCtl.off 8 fun t =>
    let n := t.icSource src
    let x := t.irq n
    let f := if srcFunc src = 0 then Fld.icSrcCtl_func.get v else x.func
    if ¬ t.icReaches src n then t.logWrite src 0x500 Reg.icSrcCtl.off v 0 false
    else if (n < 32 ∧ f ≠ 0) ∨ 16 < f then (t.logWrite src 0x500 Reg.icSrcCtl.off v x.ctlWord false).accessErr icPage
    else
      let y := if f = x.func then x else x.setFunc f
      let en := Fld.icSrcCtl_en.get v == 1
      let mask := Fld.icSrcCtl_mask.get v == 1
      let z := { y with en := en, mask := mask, masked := !en || mask, coalN := Fld.icSrcCtl_coalN.get v, coalT := Fld.icSrcCtl_coalTUs.get v }
      (((t.logWrite src 0x500 Reg.icSrcCtl.off v x.ctlWord (decide (z ≠ x))).setIrq n z).irqUpdate n).takenFrom src (x.func - 1) (x.func != 0 && f != x.func)

/-- IC_SRC_TGT_WRITE: sets a source's vectors and, by the physical function, its harts, and clears LAST_VALID (15 R454). -/
def opIcSrcTgtWrite (src : Nat) (v : Word) (s : State) : State :=
  s.offer src 0x500 Reg.icSrcTgt.off 8 fun t =>
    let n := t.icSource src
    let x := t.irq n
    if ¬ t.icReaches src n then t.logWrite src 0x500 Reg.icSrcTgt.off v 0 false
    else
      let z := { x with harts := if srcFunc src = 0 then Fld.icSrcTgt_harts.get v else x.harts
                        vecBase := Fld.icSrcTgt_vecBase.get v, vecN := Fld.icSrcTgt_vecN.get v, lastValid := false }
      ((t.logWrite src 0x500 Reg.icSrcTgt.off v x.tgtWord (decide (z ≠ x))).setIrq n z).irqUpdate n

/-- COALESCE_TIMER_EXPIRY: the coalescing time has passed, and the source becomes deliverable (15 R453). -/
def opCoalesceTimerExpiry (source : Nat) (s : State) : State :=
  let x := s.irq source
  if s.up ∧ x.timer then (s.setIrq source { x with timer := false, due := true }).irqTry source else s

/-! ## MSI-X (15 R455, R459) -/

/-- A function's vector that is unmasked and pending sends its message, while the function's MSI-X is enabled and not masked (15 R455). -/
def State.sendPending (s : State) (f v : Nat) : State :=
  let e := s.msixAt f v
  let c := s.cfg f
  if e.pending ∧ ¬ e.masked ∧ c.msixEnable ∧ ¬ c.funcMask then (s.setMsix f v { e with pending := false }).send f (.msix e.addr e.data) else s

/-- The bytes of an MSI-X table entry, as one number (15 R459). -/
def MsixEntry.bits (e : MsixEntry) : Nat := e.addr % 2 ^ 64 + e.data % 2 ^ 32 * 2 ^ 64 + b2n e.masked * 2 ^ 96

/-- An entry from its bytes: the address is a multiple of four, and of the vector control only the mask bit is kept. -/
def MsixEntry.ofBits (x : Nat) (pending : Bool) : MsixEntry :=
  { addr := nbits x 2 62 * 4, data := nbits x 64 32, masked := x.testBit 96, pending := pending }

/-- A write of `size` bytes at byte `off` of a function's MSI-X table: entries beyond the function's table ignore it (15 R459). -/
def State.msixWrite (s : State) (src off size : Nat) (v : Word) : State :=
  let f := srcFunc src
  let n := off / 16
  let page := 0x510 + off / 0x1000
  s.offer src page (off % 0x1000) size fun t =>
    if n < vectorsOf f then
      let e := t.msixAt f n
      let at0 := 8 * (off % 16)
      let x := e.bits
      let y := x - nbits x at0 (8 * size) * 2 ^ at0 + nbits v.toNat 0 (8 * size) * 2 ^ at0
      let e1 := MsixEntry.ofBits y e.pending
      ((t.logWrite src page (off % 0x1000) (v.fld 0 (8 * size) |> Word.ofNat) (Word.ofNat (nbits x at0 (8 * size))) (decide (e1 ≠ e))).setMsix f n e1).sendPending f n
    else t.logWrite src page (off % 0x1000) v 0 false

/-- MSIX_VECTOR_UNMASK: the write of an entry's vector control that clears its mask; a pending message is sent (15 R455). -/
def opMsixVectorUnmask (f vec : Nat) (v : Word) (s : State) : State :=
  if v.bit 0 ∨ 2048 ≤ vec then s else s.msixWrite f (16 * vec + 12) 4 v

/-! ## Harts (15 R456) -/

/-- IC_CLAIM: a hart's read returns and removes its oldest queued delivery; the reply is the register's 8 bytes (15 R456, R461). -/
def opIcClaim (hart : Nat) (s : State) : State :=
  if ¬ s.answers 0 0x500 then s
  else
    let h := s.hart hart
    match h.queue with
    | [] => { s with reply := bytesOf 8 0 }
    | n :: q => { s.setHart hart { h with queue := q } with reply := bytesOf 8 (Fld.icClaim_source.at n + Fld.icClaim_valid.at 1) }

/-! ## Meanings: each command answers the next state that its operation gives. -/

/-- The meaning of IC_RAISE. -/
def execIcRaise (src : Nat) (v : Word) (s : State) : Host.Outcome State Fault Refusal := .next (opIcRaise src v s)
/-- The meaning of FIXED_CONDITION_CHANGE. -/
def execFixedConditionChange (source : Nat) (s : State) : Host.Outcome State Fault Refusal := .next (opFixedConditionChange source s)
/-- The meaning of IC_ACK. -/
def execIcAck (src : Nat) (v : Word) (s : State) : Host.Outcome State Fault Refusal := .next (opIcAck src v s)
/-- The meaning of IC_SRC_CTL_WRITE. -/
def execIcSrcCtlWrite (src : Nat) (v : Word) (s : State) : Host.Outcome State Fault Refusal := .next (opIcSrcCtlWrite src v s)
/-- The meaning of IC_SRC_TGT_WRITE. -/
def execIcSrcTgtWrite (src : Nat) (v : Word) (s : State) : Host.Outcome State Fault Refusal := .next (opIcSrcTgtWrite src v s)
/-- The meaning of COALESCE_TIMER_EXPIRY. -/
def execCoalesceTimerExpiry (source : Nat) (s : State) : Host.Outcome State Fault Refusal := .next (opCoalesceTimerExpiry source s)
/-- The meaning of MSIX_VECTOR_UNMASK. -/
def execMsixVectorUnmask (f vec : Nat) (v : Word) (s : State) : Host.Outcome State Fault Refusal := .next (opMsixVectorUnmask f vec v s)
/-- The meaning of IC_CLAIM. -/
def execIcClaim (hart : Nat) (s : State) : Host.Outcome State Fault Refusal := .next (opIcClaim hart s)

end Sys2Proof.Machine
end

