-- ==== Sys2Proof/Machine/Mailbox.lean ====
section
/-! DEFINITION. The mailboxes of the root of trust: requests, status codes and responses; attestation reports, certificates and seals (16 R469 to R474, R492, R495). -/

namespace Sys2Proof.Machine

/-! ## Requests (16 R470 to R472) -/

/-- The request in the first `n` bytes of a function's MB_BUF. -/
def State.mbRequest (s : State) (f n : Nat) : List Byte :=
  (List.range n).map fun i => BitVec.ofNat 8 ((s.rd (mbPage f + Reg.mbBuf.off + i / 8 * 8)).toNat / 256 ^ (i % 8))

/-- What serving a request came to: it must wait (nothing has happened), it ends with a status and a response, it is accepted and ends later, or it makes the complex reset. -/
inductive MbOut where
  | wait
  | done (status : Nat) (rsp : List Byte) (s : State)
  | later (s : State)
  | reset (s : State)

/-- The request bytes of an opcode: a fixed number, or SPDM_RELAY's, which depends on its message (16 R471, 18 R538). -/
def mbLen (op : Nat) : Option Nat :=
  match op with
  | 0x01 | 0x03 => some 48
  | 0x02 => some 8
  | 0x10 => some 32
  | 0x11 => some 648
  | 0x20 => some 120
  | 0x21 => some 4
  | 0x22 => some 1
  | 0x23 => some 16
  | 0x31 => some 2
  | 0x40 | 0x43 | 0x44 | 0x45 | 0x47 => some 0
  | 0x41 => some 16
  | 0x42 => some 1
  | 0x46 => some 3
  | _ => none

/-- LEN is right for an opcode. -/
def mbLenOk (op : Nat) (req : List Byte) : Bool :=
  if op = 0x30 then decide (8 ≤ req.length) && req.length == 8 + leAt req 4 4 else mbLen op == some req.length

/-- The opcodes that any function may issue (16 R471, 18 R538). -/
def mbAny (op : Nat) : Bool := op == 0x01 || op == 0x02 || op == 0x03 || op == 0x40 || op == 0x45

/-- The checks of every request, in the order of the status codes: BAD_CMD, NOT_PERMITTED (16 R471, R472). Without its running firmware the root of trust serves the firmware commands alone (18 R536; log 42). -/
def State.mbCheck (s : State) (f op : Nat) (req : List Byte) : Nat :=
  if ¬ mbLenOk op req then 1 else if (f ≠ 0 ∧ ¬ mbAny op) ∨ (¬ s.ready ∧ op < 0x40) then 2 else 0

/-- A request of an opcode through function f's mailbox (16 R470): a GO while BUSY is set is ignored and sets the access-error bit; else the root of trust serves it with `act`. -/
def State.mbGo (s : State) (src f op : Nat) (v : Word) (act : State → List Byte → MbOut) : State :=
  if ¬ v.bit 63 ∨ Fld.mbCmd_op.get v ≠ op then s
  else
    s.triggerIf src (0x610 + f) .mbCmd v (fun t => t.fld (mbPage f) .mbStat Fld.mbStat_busy == 0) fun t =>
      let req := t.mbRequest f (Fld.mbCmd_len.get v)
      match t.mbCheck f op req with
      | 0 =>
        match act t req with
        | .wait => s
        | .done st rsp u => u.mbEnd f st rsp
        | .later u => u.setFld (mbPage f) .mbStat Fld.mbStat_busy 1
        | .reset u => u
      | st => t.mbEnd f st []

/-! ## Attestation (16 R471, R473, R474, R492) -/

/-- The cells of a core that are quarantined (02 R30). -/
def State.quarantined (s : State) (c : Nat) : Nat := ((s.core c).roles.filter fun e => e.2 == 3).length

/-- The LAYOUT word of a partition in a report. -/
def Partition.layoutWord (x : Partition) : Nat :=
  x.cores % 65536 + 2 ^ 16 * b2n (x.cores != 0) + 2 ^ 17 * b2n x.requireSigned + 2 ^ 18 * (x.tdisp % 8) + 2 ^ 21 * b2n x.ideIo

/-- The digest of the loaded Casts: CAST_ID and admission mask of each, in order. -/
def State.castsDigest (s : State) : BitVec 384 :=
  Config.sha384 ((List.range 15).flatMap fun n => if (s.cast n).state = 2 then bytesOf 16 (s.cast n).id ++ bytesOf 2 (s.cast n).admits else [])

/-- A bit per partition. -/
def partBits (f : Nat → Bool) : Nat := ((List.range 16).map fun p => b2n (f p) * 2 ^ p).sum

/-- FUSES of a report. -/
def Flash.fuses (x : Flash) : Nat := b2n x.production + 2 * b2n x.debugFused + 4 * b2n x.tapFused

/-- Bytes 0x000 to 0x19F of the attestation report (16 R474). -/
def State.reportBody (s : State) (f : Nat) (nonce : List Byte) : List Byte :=
  bytesOf 4 0x5450524B ++ bytesOf 2 1 ++ bytesOf 2 (if f = 0 then 0xFFFF else f - 1) ++ bytesOf 4 0x200 ++ bytesOf 4 0 ++ nonce
    ++ bytesOf 16 Config.serial.toNat ++ bytesOf 48 Config.idKeyDigest.toNat ++ bytesOf 48 Config.romDigest.toNat ++ bytesOf 48 s.board.fwDigest.toNat
    ++ bytesOf 4 s.board.fwVersion ++ bytesOf 4 s.board.fwSvn ++ bytesOf 8 s.flash.fuses
    ++ bytesOf 8 (partBits (fun p => (s.part p).debug) + 2 ^ 16 * partBits (fun p => (s.part p).confidential) + 2 ^ 32 * b2n s.board.tapOpen)
    ++ bytesOf 8 s.time ++ (List.range 16).flatMap (fun p => bytesOf 4 (s.part p).layoutWord) ++ bytesOf 48 s.castsDigest.toNat
    ++ bytesOf 8 s.patNewest ++ bytesOf 16 s.pl.patina.chain.toNat
    ++ bytesOf 8 (((List.range 16).map fun c => min 15 (s.quarantined c) * 16 ^ c).sum) ++ bytesOf 16 0

/-- A signature, r then s, under the attestation key over the SHA-384 of some bytes. -/
def State.sign (s : State) (l : List Byte) : List Byte := bytesOf 96 (Config.ecdsaSign s.board.fwDigest (Config.sha384 l))

/-- The attestation report (16 R474). -/
def State.report512 (s : State) (f : Nat) (nonce : List Byte) : List Byte := s.reportBody f nonce ++ s.sign (s.reportBody f nonce)

/-- GET_REPORT's answer. -/
def actGetReport (f : Nat) (s : State) (req : List Byte) : MbOut := .done 0 (s.report512 f req) s

/-- GET_CERTS's answer: the part of the chain that exists (16 R471; log 42). -/
def actGetCerts (s : State) (req : List Byte) : MbOut :=
  if 3072 < leAt req 4 4 then .done 3 [] s else .done 0 ((Config.certChain s.board.fwDigest |>.drop (leAt req 0 4)).take (leAt req 4 4)) s

/-- The first 80 bytes of a seal (16 R492). -/
def State.sealBody (s : State) (nonce : List Byte) : List Byte :=
  bytesOf 8 s.patNewest ++ bytesOf 8 (s.pl.patina.entries.at PatEntry.blank (s.patNewest % 65536)).time ++ bytesOf 16 s.pl.patina.chain.toNat ++ nonce

/-- PATINA_SEAL's answer (16 R492). -/
def actPatinaSeal (s : State) (req : List Byte) : MbOut := .done 0 (s.sealBody req ++ s.sign (s.sealBody req)) s

/-- GET_REPORT: returns a signed attestation report (16 R474). -/
def opGetReport (f : Nat) (v : Word) (s : State) : State := s.mbGo f f 0x01 v (actGetReport f)
/-- GET_CERTS: returns part of the slot 0 certificate chain (16 R471). -/
def opGetCerts (f : Nat) (v : Word) (s : State) : State := s.mbGo f f 0x02 v actGetCerts
/-- PATINA_SEAL: returns a signed seal of the Patina head (16 R492). -/
def opPatinaSeal (f : Nat) (v : Word) (s : State) : State := s.mbGo f f 0x03 v actPatinaSeal

/-! ## Meanings: each command answers the next state that its operation gives. -/

/-- The meaning of GET_REPORT. -/
def execGetReport (f : Nat) (v : Word) (s : State) : Host.Outcome State Fault Refusal := .next (opGetReport f v s)
/-- The meaning of GET_CERTS. -/
def execGetCerts (f : Nat) (v : Word) (s : State) : Host.Outcome State Fault Refusal := .next (opGetCerts f v s)
/-- The meaning of PATINA_SEAL. -/
def execPatinaSeal (f : Nat) (v : Word) (s : State) : Host.Outcome State Fault Refusal := .next (opPatinaSeal f v s)

end Sys2Proof.Machine
end

