-- ==== Sys2Proof/Machine/Trust.lean ====
section
/-! DEFINITION. Partitions, Casts, conversations and the TDISP states: the layout and policy commands, the Cast commands and Recast, job keys, and what the physical function takes from a partition (16 R462 to R468, R475 to R486). -/

namespace Sys2Proof.Machine

/-! ## What the physical function gives and takes (09 R274, R279, 16 R476) -/

/-- DB_OWNER_WRITE: assigns, binds or unbinds the doorbell page that OBJ_IDX names (09 R279, R296); one withdrawn from a locked partition moves its function to ERROR (16 R476). -/
def opDbOwnerWrite (src : Nat) (v : Word) (s : State) : State :=
  let f := srcFunc src
  s.offer src 0x400 Reg.dbOwner.off 8 fun t =>
    let p := t.fld (objPage f) .objIdx Fld.objIdx_dbpage
    if ¬ t.reachesDb f p then t.logWrite src 0x400 Reg.dbOwner.off v 0 false
    else
      let n := t.dbAsked f p v
      if t.dbAllowed p n then
        ((t.logWrite src 0x400 Reg.dbOwner.off v (t.db p).word (decide (n ≠ t.db p))).setDb p n).takenFrom src (t.db p).part
          ((t.db p).assigned && !(n.assigned && n.part == (t.db p).part))
      else (t.logWrite src 0x400 Reg.dbOwner.off v (t.db p).word false).accessErr (objPage f)

/-- FRAME_DATA_WRITE: a change of owner starts the frame's scrub (09 R274, 14 R443); a frame returned from a locked partition moves its function to ERROR (16 R476). -/
def opFrameDataWrite (src : Nat) (v : Word) (s : State) : State :=
  let f := srcFunc src
  s.offer src 0x400 Reg.frameData.off 8 fun t =>
    let n := t.fld (objPage f) .objIdx Fld.objIdx_frame
    let x := t.frame n
    let owned := Fld.frameData_owned.get v == 1
    let part := Fld.frameData_partition.get v
    let log := fun (changes : Bool) => t.logWrite src 0x400 Reg.frameData.off v (if f = 0 ∧ n < devFrames then x.word else 0) changes
    if f ≠ 0 ∨ devFrames ≤ n ∨ 3 ≤ x.state then log false
    else if x.state = 2 then (log false).accessErr (objPage f)
    else if owned = x.owned ∧ (¬ owned ∨ part = x.part) then log false
    else ((log true).startScrub n (b2n owned) (if owned then part else 0)).takenFrom src x.part x.owned

/-! ## The layout (16 R464, R465) -/

/-- A register word as a layout change leaves it: the Reset value, but PAGE_CTL keeps LOCK, a locked page keeps its RWL fields, and Armature's quarantine record stays (16 R465 step 2, 00 R9, R10). -/
def State.relaidWord (s : State) (key : Nat) (w : Word) : Word :=
  let off := key % 0x1000
  let lock := s.pageLock (key - off)
  if off = 0x10 then Word.ofNat (1 + 2 * b2n (w.bit 1))
  else
    match pageOf (key % 0x2000000 / 0x1000) with
    | none => w
    | some (k, _) =>
      match k.regAt off with
      | none => regDefault key
      | some r =>
        if r = .armQcount ∨ r = .armQlog then w
        else if lock then (regDefault key &&& ~~~ r.mask .rwl) ||| (w &&& r.mask .rwl)
        else regDefault key

/-- The registers of a core's pages return to their Reset values. -/
def State.relayRegs (s : State) (c : Nat) : State :=
  { s with regs := s.regs.foldl (fun m e => if e.1 / 0x100000 = 0x10 + c then m.set regDefault e.1 (s.relaidWord e.1 e.2) else m) s.regs }

/-- A core's Relief banks are zero, with flag words and poison clear, except banks out of service (06 R201). -/
def State.zeroBanks (s : State) (c : Nat) : State :=
  { s with mem := { s.mem with banks := s.mem.banks.filter fun e => e.1 / 256 != c || e.2.lost } }

/-- A waiting transaction is of a core's cache or of one of its cells. -/
def LineReq.ofCore (r : LineReq) (c : Nat) : Bool :=
  match r with
  | .own a | .shared a _ => a == c
  | .atomic x _ => x.core == c
  | _ => false

/-- A core's cache holds nothing, and modified lines are discarded. -/
def State.emptyCache (s : State) (c : Nat) : State :=
  { s with mem := { s.mem with
      caches := s.mem.caches.filter fun e => e.1 / 2 ^ 34 != c
      lineQ := (s.mem.lineQ.map fun e => (e.1, e.2.filter fun r => !r.ofCore c)).filter fun e => !e.2.isEmpty
      dir := (s.mem.dir.map fun e =>
        (e.1, ({ owner := if e.2.owner = c + 1 then 0 else e.2.owner, sharers := e.2.sharers - (if e.2.sharers.testBit c then 2 ^ c else 0) } : DirEntry))).filter
          fun e => e.2 ≠ {} } }

/-- A core that changes owner: its cells, banks, cache, counters, barrier units, TLB and walk cache are cleared, and its registers reset; Armature keeps its map and quarantine state (16 R465 step 2). -/
def State.relayCore (s : State) (c : Nat) : State :=
  let k := s.core c
  let s0 := (s.zeroBanks c).emptyCache c
  let s1 := ((s0.mem.lineQ.map fun e => e.1).foldl State.drain s0).relayRegs c
  let s2 := { s1 with
    cells := s1.cells.filter fun e => e.1 / 256 != c
    flights := s1.flights.filter fun e => e.1 / 256 != c
    gathers := s1.gathers.filter fun e => e.1 / 256 != c }
  s2.setCore c { map := k.map, roles := k.roles, mapped := k.mapped, ceLog := k.ceLog, quars := k.quars }

/-- A partition that ceases to exist: its frames are scrubbed, its doorbell pages, monitor slots and Cast admissions are withdrawn, its sources return to FUNC 0, and its key slot is erased (16 R465 step 3). A frame that was being scrubbed for it becomes FREE (log 43). -/
def State.dropPart (s : State) (q : Nat) : State :=
  let s1 := (s.mem.frames.filter fun e => e.2.state == 1 && e.2.part == q).foldl (fun t e => t.startScrub e.1 0 0) s
  let s2 := (s1.mem.frames.filter fun e => e.2.state == 2 && e.2.next == 1 && e.2.part == q).foldl (fun t e => t.setFrame e.1 { state := 2 }) s1
  let s3 := (s2.pl.dbs.filter fun e => e.2.assigned && e.2.part == q).foldl (fun t e => t.setDb e.1 {}) s2
  let s4 := (s3.pl.mons.filter fun e => e.2.assigned && e.2.part == q).foldl (fun t e => t.setMon e.1 {}) s3
  let s5 := (List.range 15).foldl (fun t n => let c := t.cast n; if c.admits.testBit q then t.setCast n { c with admits := c.admits - 2 ^ q } else t) s4
  let s6 := (s5.pl.irqs.filter fun e => e.2.func == q + 1).foldl (fun t e => (t.setIrq e.1 (e.2.setFunc 0)).irqUpdate e.1) s5
  ({ s6 with sec := { s6.sec with keySlots := s6.sec.keySlots - (if s6.sec.keySlots.testBit q then 2 ^ q else 0) } }).logTrust 3 (some q) 0x600 0 q 0

/-- A home key slot is loaded (14 R433); the Patina log records it (16 R488). -/
def State.loadKey (s : State) (slot : Nat) (part : Option Nat) : State :=
  ({ s with sec := { s.sec with keySlots := s.sec.keySlots ||| 2 ^ slot } }).logTrust 3 part 0x600 1 slot 0

/-- A home key slot is erased. -/
def State.eraseKey (s : State) (slot : Nat) (part : Option Nat) : State :=
  ({ s with sec := { s.sec with keySlots := s.sec.keySlots - (if s.sec.keySlots.testBit slot then 2 ^ slot else 0) } }).logTrust 3 part 0x600 0 slot 0

/-- The partition that a list of masks gives a core. -/
def maskOwner (ms : List Nat) (c : Nat) : Option Nat := (List.range 16).find? fun p => ((ms[p]?).getD 0).testBit c

/-- The masks of a PART_SET request. -/
def partMasks (req : List Byte) : List Nat := (List.range 16).map fun p => leAt req (2 * p) 2

/-- No core stands in two masks. -/
def disjointMasks (ms : List Nat) : Bool := (List.range 16).all fun c => decide ((ms.filter fun m => m.testBit c).length ≤ 1)

/-- A partition loses a core, or ceases to exist (16 R464). -/
def State.affected (s : State) (ms : List Nat) (p : Nat) : Bool := (List.range 16).any fun c => (s.part p).cores.testBit c && !((ms[p]?).getD 0).testBit c

/-- A context of a partition is not FREE. -/
def State.partBusy (s : State) (p : Nat) : Bool := s.pl.ctxs.any fun e => e.2.state != 0 && e.2.part == p

/-- The status of PART_SET (16 R464). -/
def State.partSetStatus (s : State) (ms : List Nat) : Nat :=
  if ¬ disjointMasks ms then 3
  else if (List.range 16).any fun p => s.affected ms p && s.partBusy p then 4
  else if (List.range 16).any fun p => s.affected ms p && (s.part p).tdisp != 0 then 5
  else 0

/-- The layout becomes what the masks say (16 R465); a source whose function is there again may have a target (15 R454). -/
def State.relay (s : State) (ms : List Nat) : State :=
  let moved := (List.range 16).filter fun c => s.coreOwner c != maskOwner ms c
  let s1 := moved.foldl State.relayCore s
  let s2 := ((List.range 16).filter fun p => s.partExists p && (ms[p]?).getD 0 == 0).foldl State.dropPart s1
  let s3 := ((List.range 16).filter fun p => !s.partExists p && (ms[p]?).getD 0 != 0).foldl (fun t p => t.loadKey p (some p)) s2
  let s4 := (List.range 16).foldl (fun t p =>
    let m := (ms[p]?).getD 0
    t.setPart p (if m = 0 then {} else if s.partExists p then { t.part p with cores := m } else { cores := m })) s3
  (moved.foldl (fun t c => t.logTrust 2 (maskOwner ms c) 0x600 0x10 c (packFields [(1, (maskOwner ms c).getD 16)])) s4).irqRetry

/-- PART_SET's answer. -/
def actPartSet (s : State) (req : List Byte) : MbOut :=
  let ms := partMasks req
  match s.partSetStatus ms with
  | 0 => .done 0 [] (s.relay ms)
  | st => .done st [] s

/-- PART_SET: changes the partition layout (16 R464, R465). -/
def opPartSet (f : Nat) (v : Word) (s : State) : State := s.mbGo f f 0x10 v actPartSet

/-! ## Policy (16 R466 to R468) -/

/-- The fields of a policy block keep their rules, of a partition that exists. -/
def State.policyRule (s : State) (l : List Byte) : Bool :=
  decide (leAt l 0 1 < 16) && decide (leAt l 1 1 < 8) && decide (leAt l 2 1 ≤ 4) && decide (leAt l 3 1 ≤ 4) && leAt l 4 4 == 0
    && !((leAt l 1 1).testBit 1 && (leAt l 1 1).testBit 2) && s.partExists (leAt l 0 1)

/-- The policy that a block sets. -/
def policyOf (l : List Byte) (x : Partition) : Partition :=
  { x with
    requireSigned := (leAt l 1 1).testBit 0, debug := (leAt l 1 1).testBit 1, confidential := (leAt l 1 1).testBit 2
    keys := (List.range (leAt l 2 1)).map fun k => (leAt l (8 + 112 * k) 16, leAt l (0x18 + 112 * k) 96)
    anchors := (List.range (leAt l 3 1)).map fun j => BitVec.ofNat 384 (leAt l (0x1C8 + 48 * j) 48) }

/-- PART_POLICY's answer: DEBUG is refused while the fuse is blown, CONFIDENTIAL while CXL.cachemem IDE is not active (16 R466 to R468). -/
def actPartPolicy (s : State) (l : List Byte) : MbOut :=
  let p := leAt l 0 1
  let fl := leAt l 1 1
  if (fl.testBit 1 ∧ s.flash.debugFused) ∨ (fl.testBit 2 ∧ (¬ s.sec.ideCache ∨ s.board.tapOpen)) then .done 2 [] s
  else if ¬ s.policyRule l then .done 3 [] s
  else if s.partBusy p then .done 4 [] s
  else if (s.part p).tdisp ≠ 0 then .done 5 [] s
  else .done 0 [] ((s.setPart p (policyOf l (s.part p))).logTrust 2 (some p) 0x600 0x11 p (packFields [(1, fl)]))

/-- PART_POLICY: sets a partition's policy (16 R466). -/
def opPartPolicy (f : Nat) (v : Word) (s : State) : State := s.mbGo f f 0x11 v actPartPolicy

/-! ## Casts (16 R478 to R482) -/

/-- The Cast page. -/
def castPage : Nat := regKey 0x603 0

/-- The offset of a Cast image's content (16 R478). -/
def castContent (r c : Nat) : Nat := (0x100 + 96 * r + 16 * c + 96 + 0xFFFF) / 0x10000 * 0x10000

/-- A header keeps the rules of its fields. -/
def castHeadRule (hd : List Byte) (len : Nat) : Bool :=
  let r := leAt hd 6 2
  let c := leAt hd 8 4
  leAt hd 0 4 == 0x5453434B && leAt hd 4 2 == 1 && between 1 r 256 && between 1 c (2 ^ 20) && leAt hd 0xC 4 == 0 && zeroBytes hd 0xC0 64
    && decide (castContent r c + 0x10000 * c ≤ len)

/-- The bytes of an image before its content end with the signature: the tag digest and the signature hold under a key. -/
def castSigned (key : Nat) (l : List Byte) (r c : Nat) : Bool :=
  let tags := byteSlice l (0x100 + 96 * r) (16 * c)
  let sg := 0x100 + 96 * r + 16 * c
  (Config.sha384 tags).toNat == leAt l 0x30 48 && Config.ecdsaVerify key (Config.sha384 (l.take sg)) (leAt l sg 48) (leAt l (sg + 48) 48)

/-- The content key that a recipient entry gives this complex. -/
def castKey (l : List Byte) (r : Nat) : Option Nat :=
  (List.range r).findSome? fun i => Config.castUnwrap (byteSlice l (0x100 + 96 * i) 96) (leAt l 0x60 96) (leAt l 0x10 16)

/-- The frames of a Cast of `c` chunks. -/
def castFrames (c : Nat) : Nat := (c + 511) / 512

/-- What reading and opening chunks came to. -/
inductive CastRead where
  | wait
  | bad (status : Nat)
  | ok (data : List Byte)

/-- Chunk `k` of an image: read by untranslated host reads, decrypted and tag-checked (16 R480). -/
def State.castChunk (s : State) (h : HostAnswer) (base key k tag : Nat) : CastRead :=
  match s.hostRead h (base + 0x10000 * k) 0x10000 with
  | none => .wait
  | some none => .bad 6
  | some (some l) =>
    match Config.castOpen key k l tag with
    | some d => .ok ((d ++ List.replicate 0x10000 0).take 0x10000)
    | none => .bad 9

/-- A chunk's content is written as whole lines, each clearing its line's poison (16 R484, 14 R439). -/
def MemSys.writeChunk (m : MemSys) (line : Nat) (d : List Byte) : MemSys :=
  (List.range 1024).foldl (fun t i => t.stackWrite (line + i) (BitVec.ofNat 512 (ofBytes (byteSlice d (64 * i) 64))) false) m

/-- The first line of a chunk of a slot. -/
def CastSlot.chunkLine (c : CastSlot) (k : Nat) : Nat := (0x2000000 * c.first + 0x10000 * k) / 64

/-- Chunks `k` on of a Cast are read and written; the status of the first failure, or a wait. -/
def State.castFill (h : HostAnswer) (c : CastSlot) : Nat → Nat → State → Option (Nat × State)
  | 0, _, s => some (0, s)
  | n + 1, k, s =>
    match s.castChunk h (c.imgAddr + c.chunk0) c.key k ((c.tags[k]?).getD 0) with
    | .wait => none
    | .bad st => some (st, s)
    | .ok d => State.castFill h c n (k + 1) { s with mem := s.mem.writeChunk (c.chunkLine k) d }

/-- The frames of a slot. -/
def CastSlot.frameList (c : CastSlot) : List Nat := (List.range c.frames).map fun i => c.first + i

/-- Steps 3 to 6 of a load: key, frames, content (16 R480). -/
def State.castInstall (s : State) (h : HostAnswer) (n : Nat) (c : CastSlot) : MbOut :=
  let s1 := (s.setCast n c).loadKey (16 + n) none
  let s2 := c.frameList.foldl (fun t f =>
    ({ t with mem := (t.mem.forget f).zeroFrame f }.setFrame f { state := 3 }).bump (regKey 0x900 0) .memScrubCnt Fld.memScrubCnt_frames 1) s1
  let s3 := (s2.setFld (regKey 0x900 0) .memScrubCnt Fld.memScrubCnt_lastUs s2.draw).drew 1
  match State.castFill h c c.chunks 0 s3 with
  | none => .wait
  | some (0, t) => .done 0 [] (t.logTrust 2 none 0x603 0x20 n (packFields [(2, c.first), (4, c.chunks)]))
  | some (st, t) =>
    .done st [] ((((c.frameList.foldl (fun u f => u.startScrub f 0 0) t).setCast n {}).eraseKey (16 + n) none).logTrust 5 none 0x603 (0x2000 + st) n 0)

/-- CAST_LOAD's answer (16 R480). A header that breaks the layout of R478, or frames past the end of memory, is BAD_ARG (log 44). -/
def actCastLoad (h : HostAnswer) (s : State) (l : List Byte) : MbOut :=
  let n := leAt l 0 1
  let first := leAt l 4 4
  let base := leAt l 8 8
  if 14 < n ∨ leAt l 1 3 ≠ 0 then .done 3 [] s
  else if (s.cast n).state ≠ 0 then .done 0xB [] s
  else
    match s.hostRead h base 0x100 with
    | none => .wait
    | some none => .done 6 [] s
    | some (some hd) =>
      let r := leAt hd 6 2
      let c := leAt hd 8 4
      if ¬ castHeadRule hd (leAt l 0x10 8) ∨ devFrames < first + castFrames c then .done 3 [] s
      else if ¬ (List.range (castFrames c)).all (fun i => (s.frame (first + i)).state == 0) then .done 0xA [] s
      else
        match s.hostRead h base (0x100 + 96 * r + 16 * c + 96) with
        | none => .wait
        | some none => .done 6 [] s
        | some (some im) =>
          if ¬ castSigned (leAt l 0x18 96) im r c then .done 7 [] s
          else
            match castKey im r with
            | none => .done 8 [] s
            | some key =>
              s.castInstall h n
                { state := 2, first := first, frames := castFrames c, id := leAt im 0x10 16, signer := BitVec.ofNat 384 (leAt im 0x20 16), imgAddr := base
                  chunks := c, chunk0 := castContent r c, key := key, tags := (List.range c).map fun k => leAt im (0x100 + 96 * r + 16 * k) 16 }

/-- CAST_LOAD: loads a sealed Cast into a slot and its frames (16 R480). -/
def opCastLoad (f : Nat) (v : Word) (h : HostAnswer) (s : State) : State := s.mbGo f f 0x20 v (actCastLoad h)

/-- The cached translations to a Cast's frames in the contexts of some partitions are dropped (16 R481, 09 R276). -/
def State.dropCast (s : State) (c : CastSlot) (gone : Nat) : State :=
  s.filterTlbs
    (fun e => !(gone.testBit (s.ctx e.ctx).part && e.leaf.fld 1 2 == 1
      && (if e.big then overlapN (e.leaf.fld 25 15) 32 c.first c.frames else decide (c.first ≤ e.leaf.fld 25 15) && decide (e.leaf.fld 25 15 < c.first + c.frames))))
    (fun w => !(gone.testBit (s.ctx w.ctx).part && (let f := frameOf (w.entry.fld 8 32 * 256); decide (c.first ≤ f) && decide (f < c.first + c.frames))))

/-- CAST_ADMIT's answer (16 R481). -/
def actCastAdmit (s : State) (l : List Byte) : MbOut :=
  let n := leAt l 0 1
  let m := leAt l 2 2
  let c := s.cast n
  let lists := fun (p : Nat) => s.partExists p && (s.part p).keys.any fun k => k.1 == c.signer.toNat
  if 14 < n ∨ leAt l 1 1 ≠ 0 then .done 3 [] s
  else if c.state ≠ 2 then .done 0xB [] s
  else if ¬ (List.range 16).all (fun p => !m.testBit p || lists p) then .done 3 [] s
  else .done 0 [] (((s.setCast n { c with admits := m }).dropCast c (c.admits - (c.admits &&& m))).logTrust 2 none 0x603 0x21 n (packFields [(2, m)]))

/-- CAST_ADMIT: replaces a Cast's admission mask (16 R481). -/
def opCastAdmit (f : Nat) (v : Word) (s : State) : State := s.mbGo f f 0x21 v actCastAdmit

/-- The consumption records of a range of lines are closed. -/
def State.closeConsumers (s : State) (line n : Nat) : State :=
  { s with sec := { s.sec with consumers := s.sec.consumers.filter fun e => !(decide (line ≤ e.1) && decide (e.1 < line + n)) } }

/-- CAST_UNLOAD's answer: accepted; it ends when the frames have been scrubbed (16 R482). -/
def actCastUnload (s : State) (l : List Byte) : MbOut :=
  let n := leAt l 0 1
  let c := s.cast n
  if 14 < n then .done 3 [] s
  else if c.state ≠ 2 then .done 0xB [] s
  else
    let s1 := { s with sec := { s.sec with recasts := s.sec.recasts.filter fun j => j.slot != n } }
    let s2 := (s1.setCast n { c with state := 3, admits := 0 }).closeConsumers (c.chunkLine 0) (c.frames * 0x80000)
    .later (((c.frameList.foldl (fun u f => u.startScrub f 0 0) s2).eraseKey (16 + n) none).logTrust 2 none 0x603 0x22 n 0)

/-- CAST_UNLOAD: unloads a Cast and scrubs its frames (16 R482). -/
def opCastUnload (f : Nat) (v : Word) (s : State) : State := s.mbGo f f 0x22 v actCastUnload

/-! ## Recast (16 R483 to R486) -/

/-- A chunk of a slot still holds poison. -/
def State.chunkPoisoned (s : State) (c : CastSlot) (k : Nat) : Bool := s.mem.poison.any fun e => e.2 && decide (c.chunkLine k ≤ e.1) && decide (e.1 < c.chunkLine k + 1024)

/-- Every chunk of a Cast that holds poison is queued (16 R485). -/
def State.sweepCast (s : State) (n : Nat) : State :=
  let c := s.cast n
  ((List.range c.chunks).filter fun k => s.chunkPoisoned c k).foldl (fun t k => t.queueRecast n k) s

/-- CAST_RESUPPLY's answer (16 R485). -/
def actCastResupply (s : State) (l : List Byte) : MbOut :=
  let n := leAt l 0 1
  let c := s.cast n
  if 14 < n ∨ leAt l 1 7 ≠ 0 then .done 3 [] s
  else if c.state ≠ 2 then .done 0xB [] s
  else .done 0 [] (((s.setCast n { c with imgAddr := leAt l 8 8 }).sweepCast n).logTrust 2 none 0x603 0x23 n 0)

/-- CAST_RESUPPLY: records a new image address and queues poisoned chunks (16 R485). -/
def opCastResupply (f : Nat) (v : Word) (s : State) : State := s.mbGo f f 0x23 v actCastResupply

/-- FAILED clears when no chunk of the Cast holds poison (16 R497). -/
def State.castHealed (s : State) (n : Nat) : State :=
  let c := s.cast n
  if c.failed ∧ ¬ (List.range c.chunks).any (s.chunkPoisoned c) then s.setCast n { c with failed := false } else s

/-- Once the queue has drained, a Cast whose poison overflowed it is swept (16 R485). -/
def State.castSweep (s : State) (n : Nat) : State :=
  let c := s.cast n
  if c.overflow ∧ s.sec.recasts.isEmpty then (s.setCast n { c with overflow := false }).sweepCast n else s

/-- The Recast at the head of the queue leaves it, or is queued again where new poison came after its step 3 had begun (16 R486). -/
def State.recastPop (s : State) : State :=
  match s.sec.recasts with
  | [] => s
  | j :: r =>
    let s1 := { s with sec := { s.sec with recasts := r ++ if j.again then [{ slot := j.slot, chunk := j.chunk }] else [] } }
    ((List.range 15).foldl State.castSweep s1).castHealed j.slot

/-- A Recast fails at step 2: the chunk stays poisoned (16 R485). -/
def State.recastFail (s : State) (j : RecastJob) : State :=
  let s1 := (s.setCast j.slot { s.cast j.slot with failed := true }).pageErr castPage 1
  ((s1.bump castPage .castRcnt Fld.castRcnt_fails 1).logTrust 5 none 0x603 0x23 j.slot (packFields [(3, j.chunk)])).recastPop

/-- RECAST: step 2 of the Recast at the head of the queue: the chunk is read from the image and its tag checked (16 R484, R485). -/
def opRecast (h : HostAnswer) (s : State) : State :=
  match s.sec.recasts with
  | [] => s
  | j :: r =>
    if ¬ s.ready ∨ j.data.isSome then s
    else
      let c := s.cast j.slot
      match s.castChunk h (c.imgAddr + c.chunk0) c.key j.chunk ((c.tags[j.chunk]?).getD 0) with
      | .wait => s
      | .bad _ => s.recastFail j
      | .ok d => { s with sec := { s.sec with recasts := { j with data := some d } :: r } }

/-- The partitions that consumed poison of a chunk. -/
def State.chunkConsumers (s : State) (line : Nat) : Nat :=
  s.sec.consumers.foldl (fun m e => if line ≤ e.1 ∧ e.1 < line + 1024 then m ||| e.2 else m) 0

/-- RECAST_COMPLETE: the chunk is written as whole lines, its poison clears, and the closing entry names the chunk and its consumers; or its read failed (16 R484, R485). -/
def opRecastComplete (ok : Bool) (s : State) : State :=
  match s.sec.recasts with
  | [] => s
  | j :: _ =>
    if ¬ s.ready then s
    else
      match ok, j.data with
      | true, some d =>
        let line := (s.cast j.slot).chunkLine j.chunk
        let who := s.chunkConsumers line
        let s1 := { s with mem := s.mem.writeChunk line d }.closeConsumers line 1024
        ((s1.bump castPage .castRcnt Fld.castRcnt_recasts 1).logTrust 5 none 0x603 0x24 j.slot (packFields [(3, j.chunk), (2, who)])).recastPop
      | false, none => s.recastFail j
      | _, _ => s

/-! ## SPDM conversations and job keys (16 R471, R475, R477) -/

/-- The key of a conversation: the relayed ones 0 to 255, function f's DOE 256 + f, MCTP 512. -/
def spdmKey : SpdmChannel → Nat
  | .relay n => n % 256
  | .doe f => 256 + f % 17
  | .mctp => 512

/-- The root of trust answers a message of a conversation. -/
def State.spdmAnswer (s : State) (k : Nat) (x : Spdm) (msg : List Byte) : List Byte × State :=
  (Config.spdmReply k x.msgs msg, { s with sec := { s.sec with spdm := s.sec.spdm.insert k { x with msgs := x.msgs + 1 } } })

/-- SPDM_RELAY's answer: a message to the responder (mode 0), to a conversation the complex started (mode 1), or the start of one (mode 2) (16 R471, R475). -/
def actSpdmRelay (s : State) (l : List Byte) : MbOut :=
  let k := leAt l 0 1
  let mode := leAt l 1 1
  let give := fun (x : Spdm) => let r := s.spdmAnswer k x (l.drop 8); MbOut.done 0 (r.1.take 3072) r.2
  if 2 < mode ∨ leAt l 2 2 ≠ 0 then .done 3 [] s
  else
    match mode, s.sec.spdm.find? k with
    | 0, none => give {}
    | 0, some x => if x.requester then .done 0xC [] s else give x
    | 1, some x => if x.requester then give x else .done 0xC [] s
    | 2, _ => give { requester := true }
    | _, _ => .done 0xC [] s

/-- SPDM_RELAY: relays an SPDM message to or from the root of trust (16 R471). -/
def opSpdmRelay (f : Nat) (v : Word) (s : State) : State := s.mbGo f f 0x30 v actSpdmRelay

/-- Bytes that stand for a message in the root of trust's answer. -/
def spdmBytes : SpdmMsg → List Byte
  | .plain l => l
  | .keyExchange m p => 1 :: BitVec.ofNat 8 (b2n m) :: bytesOf 48 p.toNat
  | .endSession => [2]
  | .ideKmCache => [3]
  | .ideKmStream => [4]

/-- A conversation after a message. -/
def Spdm.after (x : Spdm) : SpdmMsg → Spdm
  | .keyExchange m p => { x with session := true, mutualAuth := m, peer := if m then p else 0 }
  | .endSession => { x with session := false, mutualAuth := false, peer := 0 }
  | _ => x

/-- IDE_KM in a session of a function's DOE: the link's keys on the physical function's, a stream's on a function's own (16 R475). -/
def State.ideKm (s : State) (chan : SpdmChannel) (x : Spdm) (msg : SpdmMsg) : State :=
  match chan, msg with
  | .doe 0, .ideKmCache => if x.session then ({ s with sec := { s.sec with ideCache := true } }).logTrust 3 none 0x600 2 0 0 else s
  | .doe f, .ideKmStream =>
    match s.funcPart f with
    | some p => if x.session then (s.setPart p { s.part p with ideIo := true }).logTrust 3 (some p) 0x600 3 f 0 else s
    | none => s
  | _, _ => s

/-- A channel can carry a message: relayed messages come through SPDM_RELAY's conversations; a function's DOE is there while the function is (11 R343). -/
def State.chanOpen (s : State) (chan : SpdmChannel) : Bool :=
  match chan with
  | .relay n => (s.sec.spdm.find? (n % 256)).isSome
  | .doe f => f == 0 || (s.pl.sriov && (s.funcPart f).isSome)
  | .mctp => true

/-- SPDM_MESSAGE: an SPDM message arrives on a DOE, over MCTP or in a relayed conversation; the reply is the root of trust's (16 R475). -/
def opSpdmMessage (chan : SpdmChannel) (msg : SpdmMsg) (s : State) : State :=
  if ¬ s.ready ∨ ¬ s.chanOpen chan then s
  else
    let k := spdmKey chan
    let x := (s.sec.spdm.find? k).getD {}
    let r := s.spdmAnswer k (x.after msg) (spdmBytes msg)
    { r.2.ideKm chan x msg with reply := r.1 }

/-- A job slot takes a key in a key slot. -/
def Job.withKey (x : Job) (slot key : Nat) : Job := if slot = 0 then { x with key0 := some key } else { x with key1 := some key }

/-- JOB_KEYGEN's answer (16 R471, R477). -/
def actJobKeygen (s : State) (l : List Byte) : MbOut :=
  let n := leAt l 0 1
  let k := leAt l 1 1
  if 1 < k then .done 3 [] s
  else if ¬ (s.job n).bound then .done 0xB [] s
  else .done 0 [] (((s.setJob n ((s.job n).withKey k (Config.jobKey s.draws))).drew 1).logTrust 3 (some (s.ctx (s.job n).ctx).part) 0x801 0x31 n (packFields [(1, k)]))

/-- JOB_KEYGEN: generates a fabric job key into a key slot (16 R477). -/
def opJobKeygen (f : Nat) (v : Word) (s : State) : State := s.mbGo f f 0x31 v actJobKeygen

/-- A member accepts a requester: among the partition's anchors, or, with none, a Jenmaene complex with the member's own firmware (16 R477). -/
def State.keyTrusted (s : State) (slot : Nat) (req : JobKeyRequester) : Bool :=
  let p := s.part (s.ctx (s.job slot).ctx).part
  if p.anchors.isEmpty then req.jenmaene && req.fwDigest == s.board.fwDigest else p.anchors.contains req.identity

/-- Another slot than the named one is bound with a job identifier: the key belongs there, and the command names the wrong slot (log 101). -/
def State.elsewhere (s : State) (job slot : Nat) : Bool := s.fab.jobs.any fun e => e.1 != slot && e.2.bound && e.2.job == job

/-- JOB_KEY: a member receives a job key inside a session and loads it into a bound slot with that job identifier, or refuses the message and ends the conversation with SESSION, which is the reply (16 R477). -/
def opJobKey (slot keySlot : Nat) (req : JobKeyRequester) (s : State) : State :=
  match s.sec.spdm.find? (req.conv % 256) with
  | none => s
  | some x =>
    if ¬ s.ready ∨ ¬ x.session ∨ ¬ x.mutualAuth ∨ 255 < slot ∨ 1 < keySlot then s
    else if s.elsewhere req.job slot then s
    else if (s.job slot).bound ∧ (s.job slot).job = req.job ∧ s.keyTrusted slot req then
      { (s.setJob slot ((s.job slot).withKey keySlot req.key)).logTrust 3 (some (s.ctx (s.job slot).ctx).part) 0x801 0x32 slot (packFields [(1, keySlot)]) with reply := [0] }
    else { s with sec := { s.sec with spdm := s.sec.spdm.erase (req.conv % 256) }, reply := [0xC] }

/-! ## TDISP (16 R475, R476) -/

/-- The size of a function's BAR; 0 for a BAR that it does not have (11 R342). -/
def barSize (f bar : Nat) : Nat :=
  match bar with
  | 0 => 0x2000000
  | 2 => if f = 0 then 0x100000 else 0x10000
  | 4 => 0x100000000
  | _ => 0

/-- The base that a function's BAR holds. -/
def FuncCfg.barBase (c : FuncCfg) (bar : Nat) : Nat :=
  match bar with
  | 0 => c.bar0
  | 2 => c.bar2
  | 4 => c.bar4
  | _ => 0

/-- The interface report of a function: base and size of each BAR, the page of its MSI-X table and the number of its vectors, and its partition's core mask; the bytes' order is the model's (16 R476, log 102). -/
def State.interfaceReport (s : State) (f p : Nat) : List Byte :=
  let c := s.cfg f
  (([0, 2, 4] : List Nat).flatMap fun b => bytesOf 8 (c.barBase b) ++ bytesOf 8 (barSize f b)) ++ bytesOf 4 0x510 ++ bytesOf 4 (vectorsOf f)
    ++ bytesOf 2 (s.part p).cores

/-- LOCK_INTERFACE: a virtual function whose partition is CONFIDENTIAL and whose IDE stream is established becomes CONFIG_LOCKED; the reply is its interface report (16 R476). -/
def opLockInterface (f : Nat) (s : State) : State :=
  match s.funcPart f with
  | some p =>
    let x := s.part p
    if s.ready ∧ s.pl.sriov ∧ x.tdisp = 0 ∧ x.confidential ∧ x.ideIo then
      { (s.setPart p { x with tdisp := 1 }).logTrust 2 (some p) 0x600 4 f 0 with reply := s.interfaceReport f p }
    else s
  | none => s

/-- START_INTERFACE: a locked function runs (16 R476). -/
def opStartInterface (f : Nat) (s : State) : State :=
  match s.funcPart f with
  | some p => if s.ready ∧ (s.part p).tdisp = 1 then (s.setPart p { s.part p with tdisp := 2 }).logTrust 2 (some p) 0x600 5 f 0 else s
  | none => s

/-- STOP_INTERFACE: a function returns to CONFIG_UNLOCKED (16 R476). -/
def opStopInterface (f : Nat) (s : State) : State :=
  match s.funcPart f with
  | some p => if s.ready ∧ (s.part p).tdisp ≠ 0 then (s.setPart p { s.part p with tdisp := 0 }).logTrust 2 (some p) 0x600 6 f 0 else s
  | none => s

/-- IDE_INTEGRITY_FAILURE: a function's IDE stream fails an integrity check; a locked or running function moves to ERROR (16 R476). -/
def opIdeIntegrityFailure (f : Nat) (s : State) : State :=
  match s.funcPart f with
  | some p => if s.ready then s.tdispFail p else s
  | none => s

/-! ## Meanings: each command answers the next state that its operation gives. -/

/-- The meaning of DB_OWNER_WRITE. -/
def execDbOwnerWrite (src : Nat) (v : Word) (s : State) : Host.Outcome State Fault Refusal := .next (opDbOwnerWrite src v s)
/-- The meaning of FRAME_DATA_WRITE. -/
def execFrameDataWrite (src : Nat) (v : Word) (s : State) : Host.Outcome State Fault Refusal := .next (opFrameDataWrite src v s)
/-- The meaning of PART_SET. -/
def execPartSet (f : Nat) (v : Word) (s : State) : Host.Outcome State Fault Refusal := .next (opPartSet f v s)
/-- The meaning of PART_POLICY. -/
def execPartPolicy (f : Nat) (v : Word) (s : State) : Host.Outcome State Fault Refusal := .next (opPartPolicy f v s)
/-- The meaning of CAST_LOAD. -/
def execCastLoad (f : Nat) (v : Word) (h : HostAnswer) (s : State) : Host.Outcome State Fault Refusal := .next (opCastLoad f v h s)
/-- The meaning of CAST_ADMIT. -/
def execCastAdmit (f : Nat) (v : Word) (s : State) : Host.Outcome State Fault Refusal := .next (opCastAdmit f v s)
/-- The meaning of CAST_UNLOAD. -/
def execCastUnload (f : Nat) (v : Word) (s : State) : Host.Outcome State Fault Refusal := .next (opCastUnload f v s)
/-- The meaning of CAST_RESUPPLY. -/
def execCastResupply (f : Nat) (v : Word) (s : State) : Host.Outcome State Fault Refusal := .next (opCastResupply f v s)
/-- The meaning of RECAST. -/
def execRecast (h : HostAnswer) (s : State) : Host.Outcome State Fault Refusal := .next (opRecast h s)
/-- The meaning of RECAST_COMPLETE. -/
def execRecastComplete (ok : Bool) (s : State) : Host.Outcome State Fault Refusal := .next (opRecastComplete ok s)
/-- The meaning of SPDM_RELAY. -/
def execSpdmRelay (f : Nat) (v : Word) (s : State) : Host.Outcome State Fault Refusal := .next (opSpdmRelay f v s)
/-- The meaning of SPDM_MESSAGE. -/
def execSpdmMessage (chan : SpdmChannel) (msg : SpdmMsg) (s : State) : Host.Outcome State Fault Refusal := .next (opSpdmMessage chan msg s)
/-- The meaning of JOB_KEYGEN. -/
def execJobKeygen (f : Nat) (v : Word) (s : State) : Host.Outcome State Fault Refusal := .next (opJobKeygen f v s)
/-- The meaning of JOB_KEY. -/
def execJobKey (slot keySlot : Nat) (req : JobKeyRequester) (s : State) : Host.Outcome State Fault Refusal := .next (opJobKey slot keySlot req s)
/-- The meaning of LOCK_INTERFACE. -/
def execLockInterface (f : Nat) (s : State) : Host.Outcome State Fault Refusal := .next (opLockInterface f s)
/-- The meaning of START_INTERFACE. -/
def execStartInterface (f : Nat) (s : State) : Host.Outcome State Fault Refusal := .next (opStartInterface f s)
/-- The meaning of STOP_INTERFACE. -/
def execStopInterface (f : Nat) (s : State) : Host.Outcome State Fault Refusal := .next (opStopInterface f s)
/-- The meaning of IDE_INTEGRITY_FAILURE. -/
def execIdeIntegrityFailure (f : Nat) (s : State) : Host.Outcome State Fault Refusal := .next (opIdeIntegrityFailure f s)

end Sys2Proof.Machine
end

