-- ==== Sys2Proof/Machine/Power.lean ====
section
/-! DEFINITION. Clock islands and droop, the throttle handshake, the cap, thermal limits, energy and standby (17). -/

namespace Sys2Proof.Machine

/-- The power page. -/
def pwrPage : Nat := regKey 0x700 0
/-- The thermal page. -/
def thPage : Nat := regKey 0x701 0

/-! ## Islands and droop (17 R498 to R503) -/

/-- The number of an island. -/
def islandKey : Island → Nat
  | .cell c n => 512 * c + n
  | .core c => 0x10000 + c
  | .home h => 0x20000 + h

/-- The island exists (17 R498). -/
def islandOk : Island → Bool
  | .cell c n => decide (c < 16) && decide (n < 272)
  | .core c => decide (c < 16)
  | .home h => decide (h < 12)

/-- The core of an island. -/
def islandCore : Island → Option Nat
  | .cell c _ => some c
  | .core c => some c
  | .home _ => none

/-- A counter field of the island page of an island's core advances (17 R523). -/
def State.islCount (s : State) (i : Island) (r : Reg) (f : Fld) (n : Nat) : State :=
  match islandCore i with
  | some c => s.bumpCore c (corePage c 6) r f n
  | none => s

/-- Edges of a core's islands have been stretched: STRETCHED counts in thousands (17 R523). -/
def State.stretch (s : State) (i : Island) (n : Nat) : State :=
  match islandCore i with
  | none => s
  | some c =>
    let t := s.board.stretched.at 0 c + n
    { s with board := { s.board with stretched := s.board.stretched.put 0 c (t % 1000) } }.islCount i .islDroop Fld.islDroop_stretched (t / 1000)

/-- DROOP_TRIP: a detector trips, and the island's next edge is stretched (17 R501). -/
def opDroopTrip (island : Island) (s : State) : State :=
  let k := islandKey island
  if ¬ s.ready ∨ ¬ islandOk island ∨ s.board.droop.contains k then s
  else
    let s1 := { s with board := { s.board with droop := s.board.droop ++ [k] } }
    (s1.islCount island .islDroop Fld.islDroop_trips 1).stretch island 1

/-- DROOP_RECOVERY: the detector untrips; how many more edges it stretched is open (17 R501). -/
def opDroopRecovery (island : Island) (s : State) : State :=
  let k := islandKey island
  if s.board.droop.contains k then
    ({ s with board := { s.board with droop := s.board.droop.filter fun x => x != k } }.stretch island s.draw).drew 1
  else s

/-- What is charged with a timeout or a failed self-test: a cell is quarantined, a core or home island is a fatal cause (17 R500, R503, 18 R526). -/
def State.chargeIsland (s : State) (i : Island) : State :=
  match i with
  | .cell c n => opHardQuarantineTrigger c n 3 s
  | .core c => s.fatalOp 3 c
  | .home h => s.fatalOp 3 (h + 0x8000)

/-- DROOP_SELF_TEST: a detector tests itself, stretching one edge; one that fails is charged to its island (17 R503). -/
def opDroopSelfTest (island : Island) (pass : Bool) (s : State) : State :=
  if ¬ s.ready ∨ ¬ islandOk island then s
  else if pass then s.stretch island 1
  else ((s.stretch island 1).islCount island .islFault Fld.islFault_selfcheck 1).chargeIsland island

/-- HANDSHAKE_TIMEOUT: a handshake that an island started stayed unanswered: charged to the partner if it is a cell, else to the waiting cell, else to the partner (17 R500). -/
def opHandshakeTimeout (island partner : Island) (s : State) : State :=
  if ¬ s.ready ∨ ¬ islandOk island ∨ ¬ islandOk partner then s
  else
    let who := match partner, island with
      | .cell c n, _ => Island.cell c n
      | _, .cell c n => Island.cell c n
      | p, _ => p
    (s.islCount who .islFault Fld.islFault_timeouts 1).chargeIsland who

/-! ## The throttle handshake (17 R504 to R507, 19 R551) -/

/-- THROTTLE_REQ_RISE: the die's arrays stop and ACK rises; REQ rises again only after ACK has fallen (17 R504 to R506). -/
def opThrottleReqRise (die : Nat) (s : State) : State :=
  let b := s.board
  if 4 ≤ die ∨ ¬ b.pwrGood ∨ b.thrReq.testBit die ∨ b.thrAck.testBit die then s
  else
    let s1 := { s with board := { b with thrReq := setBit b.thrReq die, thrAck := setBit b.thrAck die, arraysStopped := setBit b.arraysStopped die } }
    if s.up then s1.bump pwrPage .pwrThr Fld.pwrThr_events 1 else s1

/-- THROTTLE_REQ_FALL: ACK falls and the arrays resume, unless something else keeps them stopped (17 R505). -/
def opThrottleReqFall (die : Nat) (s : State) : State :=
  let b := s.board
  if ¬ b.thrReq.testBit die then s
  else
    { s with board := { b with
      thrReq := clearBit b.thrReq die, thrAck := clearBit b.thrAck die, thrLong := clearBit b.thrLong die
      arraysStopped := if s.fatal then b.arraysStopped else clearBit b.arraysStopped die } }

/-- THROTTLE_LONG: REQ has been asserted for more than 10 ms without a break (17 R506). -/
def opThrottleLong (die : Nat) (s : State) : State :=
  if ¬ s.up ∨ ¬ s.board.thrReq.testBit die ∨ s.board.thrLong.testBit die then s
  else { s with board := { s.board with thrLong := setBit s.board.thrLong die } }.pageErr pwrPage 0

/-! ## The cap (17 R508 to R511) -/

/-- The least power of a domain: links, memory, compute (17 R509). -/
def floorOf (d : Nat) : Nat := if d = 0 then 100 else if d = 1 then 150 else 250

/-- The highest pacing setting of links or memory, in sixteenths, whose estimate fits. -/
def paceFor (d alloc demand : Nat) : Nat := ((List.range 16).map fun i => 16 - i).find? (fun k => decide (Config.powerEstimate d k demand ≤ alloc)) |>.getD 0

/-- A compute setting as one number: operating point and duty. -/
def computeSetting (point duty : Nat) : Nat := 8 * point + duty

/-- The highest operating point whose estimate fits, then the largest duty whose estimate fits (17 R510). -/
def computeFor (alloc demand : Nat) : Nat × Nat :=
  let p := ((List.range 8).find? fun p => decide (Config.powerEstimate 2 (computeSetting p 8) demand ≤ alloc)).getD 7
  (p, (((List.range 8).map fun i => 8 - i).find? fun k => decide (Config.powerEstimate 2 (computeSetting p k) demand ≤ alloc)).getD 1)

/-- What the controller has settled: the allocations and the compute setting. -/
structure CapPlan where
  alloc : List (Nat × Nat)
  /-- Pacing settings of links and memory. -/
  paces : List (Nat × Nat)
  point : Nat
  duty : Nat

/-- The division of what is left among the domains, in order (17 R510). -/
def capDivide (demand : List Nat) : List Nat → Nat → CapPlan → CapPlan
  | [], _, r => r
  | d :: rest, left, r =>
    let want := (demand[d]?).getD 0
    let a := min want (left - (rest.map floorOf).sum)
    if d = 2 then
      let x := computeFor a want
      capDivide demand rest (left - Config.powerEstimate 2 (computeSetting x.1 x.2) want) { r with alloc := r.alloc ++ [(d, a)], point := x.1, duty := x.2 }
    else
      let k := paceFor d a want
      capDivide demand rest (left - Config.powerEstimate d k want) { r with alloc := r.alloc ++ [(d, a)], paces := r.paces ++ [(d, k)] }

/-- A domain's allocation. -/
def CapPlan.of (r : CapPlan) (d : Nat) : Nat := ((r.alloc.find? fun x => x.1 == d).map Prod.snd).getD 0

/-- A domain's pacing setting. -/
def CapPlan.pace (r : CapPlan) (d : Nat) : Nat := ((r.paces.find? fun x => x.1 == d).map Prod.snd).getD 16

/-- The operating point: the lower of what the cap and the thermal limits allow (17 R511, R513). -/
def State.setPoint (s : State) : State := s.setFld pwrPage .pwrStat Fld.pwrStat_point (max s.board.capPoint s.board.thermSteps)

/-- POWER_CONTROL_STEP: the cap is divided among the domains by their demands in watts, and the settings follow (17 R510). -/
def opPowerControlStep (demand : List Nat) (s : State) : State :=
  if ¬ s.ready ∨ demand.length ≠ 3 then s
  else
    let cap := s.fld pwrPage .pwrCap Fld.pwrCap_capW
    let prio := [s.fld pwrPage .pwrCap Fld.pwrCap_prio0, s.fld pwrPage .pwrCap Fld.pwrCap_prio1, s.fld pwrPage .pwrCap Fld.pwrCap_prio2]
    let r := capDivide demand prio cap ⟨[], [], 0, 8⟩
    let s1 := s.wr (pwrPage + Reg.pwrAlloc.off) (Word.ofNat (Fld.pwrAlloc_linksW.at (r.of 0) + Fld.pwrAlloc_memoryW.at (r.of 1) + Fld.pwrAlloc_computeW.at (r.of 2)))
    { s1 with board := { s1.board with capPoint := r.point, linkPace := r.pace 0, memPace := r.pace 1 } }.setPoint.setFld pwrPage .pwrStat Fld.pwrStat_duty r.duty

/-! ## Thermal sensing (17 R512 to R514) -/

/-- The trip limit of a sensor. -/
def State.tripLimit (s : State) (n : Nat) : Nat := s.fld thPage .thLimits (if n < 120 then Fld.thLimits_dieTrip else Fld.thLimits_stkTrip)

/-- A sensor takes a reading. -/
def State.sense (s : State) (n t : Nat) : State :=
  let x := s.board.sensors.at {} n
  let s1 := { s with board := { s.board with sensors := s.board.sensors.put {} n { now := t, max := max x.max t } } }
  if 120 ≤ n then s1.setFld (regKey (0x901 + (n - 120)) 0) .hmStat Fld.hmStat_tempC t else s1

/-- The current reading of a sensor. -/
def State.temp (s : State) (n : Nat) : Nat := (s.board.sensors.at {} n).now

/-- The hottest die sensor; of equal ones the first. -/
def State.hottest (s : State) : Nat := (List.range 120).foldl (fun h n => if s.temp h < s.temp n then n else h) 0

/-- A sensor trips: THERM_TRIP is asserted, the entry names the sensor and the reading, and the cause is fatal (17 R514, 18 R526, 19 R552). -/
def State.thermTrip (s : State) (n : Nat) : State :=
  let s1 := (s.setFld thPage .thStat Fld.thStat_tripIdx n).setFld pwrPage .pwrStat Fld.pwrStat_tripped 1
  let s2 := { s1 with board := { s1.board with arraysStopped := 15 }, flash := { s1.flash with thermTrip := true } }
  (s2.logEvent 5 none 0x701 0 n (packFields [(1, s.temp n)])).fatalOp 4 n

/-- THERMAL_SAMPLE: every sensor is read; a reading above its trip limit trips (17 R512, R514). -/
def opThermalSample (readings : List Nat) (s : State) : State :=
  if ¬ s.ready ∨ readings.length ≠ 132 then s
  else
    let s1 := (List.range 132).foldl (fun t n => t.sense n (min 255 ((readings[n]?).getD 0))) s
    let h := s1.hottest
    let s2 := (s1.setFld thPage .thStat Fld.thStat_hottestC (s1.temp h)).setFld thPage .thStat Fld.thStat_hottestIdx h
    if s2.fld pwrPage .pwrStat Fld.pwrStat_tripped = 1 then s2
    else
      match (List.range 132).find? fun n => decide (s2.tripLimit n < s2.temp n) with
      | some n => s2.thermTrip n
      | none => s2

/-- Some sensor of a range reads above a limit. -/
def State.anyAbove (s : State) (first n limit : Nat) : Bool := (List.range n).any fun i => decide (limit < s.temp (first + i))

/-- Some sensor of a range reads at or above a limit. -/
def State.anyAtLeast (s : State) (first n limit : Nat) : Bool := (List.range n).any fun i => decide (limit ≤ s.temp (first + i))

/-- THERMAL_THROTTLE_STEP: each millisecond hot dies lower the operating point, a hot Plinth paces the links, a hot stack halves the homes' pacing limit; cooled by 5 °C, they recover (17 R513). -/
def opThermalThrottleStep (s : State) : State :=
  if ¬ s.ready then s
  else
    let b := s.board
    let die := s.fld thPage .thLimits Fld.thLimits_dieThr
    let stk := s.fld thPage .thLimits Fld.thLimits_stkThr
    let hot := s.anyAbove 0 112 die || (b.dieHot && s.anyAtLeast 0 112 (die - 5))
    let kp := s.anyAbove 112 8 die
    let shot := s.anyAbove 120 12 stk || (b.stkHot && s.anyAtLeast 120 12 (stk - 5))
    let point := s.fld pwrPage .pwrStat Fld.pwrStat_point
    let steps := if hot then min 7 (point + 1) else b.thermSteps - 1
    let s1 := { s with board := { b with
      dieHot := hot, stkHot := shot, linksPaced := kp, thermSteps := steps, stackPace := if shot then max 1 (b.stackPace / 2) else 16 } }
    ((s1.setPoint).setFld thPage .thStat Fld.thStat_dieThrottling (b2n (hot || kp || steps != 0))).setFld thPage .thStat Fld.thStat_stkThrottling (b2n shot)

/-! ## Energy (17 R515, R516, 19 R553) -/

/-- A rail's reading, or its last valid one; three silent samples in a row set PAGE_ERR bit 1 (19 R553). -/
def State.railSample (s : State) (n : Nat) (r : Option Nat) : State :=
  let b := s.board
  match r with
  | some v => { s with board := { b with railLast := b.railLast.put 0 n v, railSilent := b.railSilent.put 0 n 0 } }
  | none =>
    let k := b.railSilent.at 0 n + 1
    let s1 := { s with board := { b with railSilent := b.railSilent.put 0 n (min 3 k) } }
    if k = 3 then s1.pageErr pwrPage 1 else s1

/-- The contexts resident now: on a core, or through an active Chisel stream or ring descriptor (17 R516). -/
def State.residentNow (s : State) : List Nat :=
  (s.cores.flatMap (fun e => e.2.residents) ++ s.pl.streams.map (fun e => e.2.ctx)
    ++ (s.fab.rings.filter fun e => e.2.descs.any fun d => d.started && !d.done).map fun e => (s.job e.2.slot).ctx).eraseDups

/-- A sample's energy is credited to a context; SHARED too where a context of another partition was resident (17 R516). -/
def State.credit (s : State) (who : List Nat) (uj n : Nat) : State :=
  let x := s.ctx n
  if x.state = 0 then s
  else
    let shared := who.any fun m => (s.ctx m).state != 0 && (s.ctx m).part != x.part
    s.setCtx n { x with
      energy := (x.energy + uj) % 2 ^ 63
      shared := if shared then (x.shared + uj) % 2 ^ 63 else x.shared
      sharedSeen := x.sharedSeen || shared }

/-- ENERGY_SAMPLE: rail telemetry, in microjoules per rail, joins PWR_ENERGY and the records of the contexts resident during the sample (17 R515, R516). -/
def opEnergySample (rails : List (Option Nat)) (s : State) : State :=
  if ¬ s.up ∨ 48 < rails.length then s
  else
    let s1 := (rails.mapIdx fun i r => (i, r)).foldl (fun t x => t.railSample x.1 x.2) s
    let uj := ((List.range rails.length).map fun i => s1.board.railLast.at 0 i).sum
    let recent := (uj :: s1.board.recent).take 100
    let s2 := (s1.wrapUp pwrPage .pwrEnergy Fld.pwrEnergy_energyUj uj).setFld pwrPage .pwrStat Fld.pwrStat_powerW (min 4095 (recent.sum / 1000))
    let now := s2.residentNow
    let who := (s2.board.seen ++ now).eraseDups
    let s3 := who.foldl (fun t n => t.credit who uj n) s2
    { s3 with board := { s3.board with recent := recent, seen := now } }

/-! ## Standby (17 R517) -/

/-- No context is LIVE and no frame is SCRUBBING. -/
def State.mayStandby (s : State) : Bool := !(s.pl.ctxs.any fun e => e.2.state == 1) && !(s.mem.frames.any fun e => e.2.state == 2)

/-- Stores that a core cache accepted early are committed: each of their lines is granted ownership (07 R232, orderly power-state entry). -/
def State.commitEarly (s : State) : State :=
  (s.mem.caches.filter fun e => e.2.early != 0).foldl (fun t e => t.ownOp (e.1 / 2 ^ 34) (e.1 % 2 ^ 34)) s

/-- Modified lines of every cache go to their homes, and nothing stays cached; what waited at a home is served (07 R232, orderly power-state entry). -/
def State.flushCaches (s : State) : State :=
  let s1 := s.commitEarly
  let m := s1.mem.caches.foldl (fun (m : MemSys) e => m.giveUp (e.1 / 2 ^ 34) (e.1 % 2 ^ 34)) s1.mem
  let asks := fun (r : LineReq) => match r with
    | .own _ => true
    | _ => false
  let q := (m.lineQ.map fun e => (e.1, e.2.filter fun r => !asks r)).filter fun e => !e.2.isEmpty
  let s2 := { s1 with mem := { m with dir := [], lineQ := q } }
  (q.map fun e => e.1).foldl State.drain s2

/-- Bytes of a host line that the host must be given: all of an owned and modified line, the early-visible bytes of another. -/
def HostLine.due (l : HostLine) : Nat := if l.owned && l.dirty then 2 ^ 64 - 1 else l.early

/-- Modified host lines are written to host memory in the physical function's stream (07 R232; log 47); of a line that the host has not granted, the bytes that were accepted early. -/
def State.flushHost (s : State) : State :=
  s.mem.hlc.foldl (fun t e =>
    let t0 := t.setHline e.1 { e.2 with dirty := false, early := 0 }
    let t1 := { t0 with pl := { t0.pl with hostWriters := t0.pl.hostWriters.put [] e.1 [] } }
    if e.2.due = 2 ^ 64 - 1 then t1.send 0 (.write none (64 * e.1) (bytesOf 64 e.2.data.toNat))
    else (List.range 64).foldl (fun u i =>
      if e.2.due.testBit i then u.send 0 (.write none (64 * e.1 + i) [BitVec.ofNat 8 (e.2.data.toNat / 256 ^ i)]) else u) t1) s

/-- STANDBY_ENTER: setting PWR_CTL.STANDBY enters standby in order; refused while a context is LIVE or a frame SCRUBBING (17 R517). -/
def opStandbyEnter (src : Nat) (v : Word) (s : State) : State :=
  if v.bit 0 then s.triggerIf src 0x700 .pwrCtl v State.mayStandby fun t => t.flushCaches.flushHost else s

/-- STANDBY_EXIT: clearing PWR_CTL.STANDBY resumes the complex (17 R517). -/
def opStandbyExit (src : Nat) (v : Word) (s : State) : State :=
  if v.bit 0 then s else s.trigger src 0x700 .pwrCtl v fun t => t

/-! ## Meanings: each command answers the next state that its operation gives. -/

/-- The meaning of DROOP_TRIP. -/
def execDroopTrip (island : Island) (s : State) : Host.Outcome State Fault Refusal := .next (opDroopTrip island s)
/-- The meaning of DROOP_RECOVERY. -/
def execDroopRecovery (island : Island) (s : State) : Host.Outcome State Fault Refusal := .next (opDroopRecovery island s)
/-- The meaning of DROOP_SELF_TEST. -/
def execDroopSelfTest (island : Island) (pass : Bool) (s : State) : Host.Outcome State Fault Refusal := .next (opDroopSelfTest island pass s)
/-- The meaning of HANDSHAKE_TIMEOUT. -/
def execHandshakeTimeout (island partner : Island) (s : State) : Host.Outcome State Fault Refusal := .next (opHandshakeTimeout island partner s)
/-- The meaning of THROTTLE_REQ_RISE. -/
def execThrottleReqRise (die : Nat) (s : State) : Host.Outcome State Fault Refusal := .next (opThrottleReqRise die s)
/-- The meaning of THROTTLE_REQ_FALL. -/
def execThrottleReqFall (die : Nat) (s : State) : Host.Outcome State Fault Refusal := .next (opThrottleReqFall die s)
/-- The meaning of THROTTLE_LONG. -/
def execThrottleLong (die : Nat) (s : State) : Host.Outcome State Fault Refusal := .next (opThrottleLong die s)
/-- The meaning of POWER_CONTROL_STEP. -/
def execPowerControlStep (demand : List Nat) (s : State) : Host.Outcome State Fault Refusal := .next (opPowerControlStep demand s)
/-- The meaning of THERMAL_SAMPLE. -/
def execThermalSample (readings : List Nat) (s : State) : Host.Outcome State Fault Refusal := .next (opThermalSample readings s)
/-- The meaning of THERMAL_THROTTLE_STEP. -/
def execThermalThrottleStep (s : State) : Host.Outcome State Fault Refusal := .next (opThermalThrottleStep s)
/-- The meaning of ENERGY_SAMPLE. -/
def execEnergySample (rails : List (Option Nat)) (s : State) : Host.Outcome State Fault Refusal := .next (opEnergySample rails s)
/-- The meaning of STANDBY_ENTER. -/
def execStandbyEnter (src : Nat) (v : Word) (s : State) : Host.Outcome State Fault Refusal := .next (opStandbyEnter src v s)
/-- The meaning of STANDBY_EXIT. -/
def execStandbyExit (src : Nat) (v : Word) (s : State) : Host.Outcome State Fault Refusal := .next (opStandbyExit src v s)

end Sys2Proof.Machine
end

