-- ==== Sys2Proof/Machine/Reset.lean ====
section
/-! DEFINITION. Fatal causes, resets, the host link's absences, configuration requests, test access and the start-up sequence (18, 11 R338, R339, 19 R548 to R558). -/

namespace Sys2Proof.Machine

/-! ## Fatal causes as commands (18 R525 to R527, 01 R15) -/

/-- HM_STAT.FAILED of a stack is set (14 R431). -/
def State.stackFailed (s : State) (n : Nat) : State := if n < 12 then s.setFld (regKey (0x901 + n) 0) .hmStat Fld.hmStat_failed 1 else s

/-- FATAL_CAUSE: a cause of R526 is detected (18 R525). -/
def opFatalCause (code detail : Nat) (s : State) : State :=
  if ¬ s.up ∨ s.recovery ∨ ¬ between 1 code 8 ∨ s.fatal then s
  else (if code = 2 then s.stackFailed (detail % 16) else s).fatalOp code detail


/-- An agent that the supervision watchdog covers, by its number (18 R526, R527). -/
def supervised (agent : Nat) : Bool := decide (agent ≤ 22) || between 32 agent 47 || between 48 agent 59 || agent == 64 || agent == 65

/-- SUPERVISION_WATCHDOG: an agent has been wedged for LIMIT_MS of link-up time (18 R527). -/
def opSupervisionWatchdog (agent : Nat) (s : State) : State :=
  if s.serving ∧ s.linkUp ∧ supervised agent then s.fatalOp 5 agent else s

/-! ## Full resets (18 R528, R529, R558) -/

/-- A flash write that a power-on or pin reset cuts: an image fails R535 from then on; whether a record or a clearing landed is open (log 48). -/
def State.cutWrite (s : State) (w : FlashWrite) : State :=
  match w with
  | .image _ _ => { s with flash := { s.flash with image := [] } }
  | .quarantine cells => if s.draw % 2 = 1 then { s with flash := { s.flash with quarantine := s.flash.quarantine.filter fun c => !cells.contains c } }.drew 1 else s.drew 1
  | .fatal r => if s.draw % 2 = 1 then { s with flash := { s.flash with fatals := (s.flash.fatals ++ [r]).drop (s.flash.fatals.length - 2047) } }.drew 1 else s.drew 1

/-- Every flash write in progress is cut. -/
def State.cutWrites (s : State) : State :=
  let s1 := s.flash.writing.foldl State.cutWrite s
  { s1 with flash := { s1.flash with writing := [] } }

/-- A full reset: everything but the fuses, package flash and the pins returns to its state at the end of a reset, and start-up begins (18 R529). THERM_TRIP_N is released (19 R552); THROTTLE_ACK follows REQ (19 R551). -/
def State.fullReset (s : State) (cause : Nat) : State :=
  let s0 := s.cutWrites
  let b := s0.board
  let s1 := State.afterReset cause { s0.flash with starts := (s0.flash.starts + 1) % 2 ^ 32, thermTrip := false } b.thrReq s0.pending
  { s1 with
    draws := s0.draws
    board := { s1.board with pwrGood := b.pwrGood, clkLost := b.clkLost, arraysStopped := b.thrReq, ibis := b.ibis, lastHealth := b.lastHealth } }.noteHealth

/-- A full reset from a source that waits for a flash write in progress (18 R529). -/
def State.requestReset (s : State) (cause : Nat) : State :=
  if s.flash.writing.isEmpty then s.fullReset cause
  else if s.board.resetPend.isNone then { s with board := { s.board with resetPend := some cause } }
  else s

/-- PWR_GOOD_FALL: power is lost: the complex is held in reset with its outputs low, but THERM_TRIP_N keeps its state (19 R550, R558, 07 R232). -/
def opPwrGoodFall (s : State) : State :=
  if ¬ s.board.pwrGood then s
  else
    let s0 := s.cutWrites
    let s1 := State.afterReset 1 s0.flash 0 s0.pending
    { s1 with
      draws := s0.draws
      board := { s1.board with pwrGood := false, clkLost := s0.board.clkLost, thrReq := s0.board.thrReq, ibis := s0.board.ibis, lastHealth := s0.board.lastHealth } }

/-- PWR_GOOD_RISE: power-on reset (18 R528). -/
def opPwrGoodRise (s : State) : State :=
  if s.board.pwrGood then s else { s with board := { s.board with pwrGood := true } }.fullReset 1

/-- RESET_N_PULSE: a pin reset, which cuts a flash write; it has effect only while PWR_GOOD is high (18 R528, 19 R550, R558). -/
def opResetNPulse (s : State) : State := if s.board.pwrGood then s.fullReset 2 else s

/-- REFCLK_LOSS: a reference clock loses lock, which acts as RESET_N held low (19 R548). -/
def opRefclkLoss (clk : Nat) (s : State) : State :=
  if 6 ≤ clk ∨ s.board.clkLost.testBit clk then s
  else
    let s1 := if s.up then s.fullReset 2 else s
    { s1 with board := { s1.board with clkLost := setBit s1.board.clkLost clk } }

/-- REFCLK_RELOCK: the clock locks again; once every clock has, start-up begins (19 R548). -/
def opRefclkRelock (clk : Nat) (s : State) : State := { s with board := { s.board with clkLost := clearBit s.board.clkLost clk } }

/-- SOFTWARE_RESET: a write of RST_CTL with FULL set: a full reset with cause 3, or, without the key, an access error (18 R528, R541). -/
def opSoftwareReset (src : Nat) (v : Word) (s : State) : State :=
  if Fld.rstCtl_full.get v = 0 then s
  else s.triggerIf src 0x10 .rstCtl v (fun _ => Fld.rstCtl_key.get v == 0xA5) fun t => t.requestReset 3

/-- PF_FLR: a function level reset of the physical function is a full reset (18 R528). -/
def opPfFlr (s : State) : State := if s.up ∧ s.linkUp then s.requestReset 4 else s

/-- A function's configuration space and MSI-X table return to their defaults, its window and doorbell requests in flight end, and its translations go with ATS and PRI (18 R529, 10 R333). -/
def State.resetFunc (s : State) (f : Nat) : State :=
  let t := ((s.dropAts f).setCfg f {}).setHostReqs f []
  { t with pl := { t.pl with msix := t.pl.msix.filter fun e => e.1 / 2048 != f } }

/-- VF_FLR: a virtual function returns to its defaults, its window closes, its mailbox request is abandoned, its partition's LIVE contexts are destroyed with OWNER_GONE, and its interface is unlocked (18 R529); of a dormant function it has no effect (11 R343). -/
def opVfFlr (f : Nat) (s : State) : State :=
  match s.funcPart f with
  | none => s
  | some p =>
    if ¬ s.ready ∨ ¬ s.pl.sriov ∨ ¬ s.linkUp then s
    else
      let s1 := ((s.resetFunc f).setFld (funcPage f) .winCtl Fld.winCtl_en 0).setFld (mbPage f) .mbStat Fld.mbStat_busy 0
      let live := (s1.pl.ctxs.filter fun e => e.2.state == 1 && e.2.part == p).map Prod.fst
      let s2 := if s1.serving then live.foldl (fun t n => t.dieCtx 4 f n none) s1 else s1
      (s2.setPart p { s2.part p with tdisp := 0 }).settle

/-! ## The host link (11 R338, R339, 18 R530) -/

/-- The host ports have been trained since the reset: the complex is in service, in recovery, or at a failed step (18 R534, R536). -/
def State.trained (s : State) : Bool := s.ready || s.recovery || s.startFailed

/-- LINK_DOWN: host ports lose training (18 R530). -/
def opLinkDown (ports : Nat) (s : State) : State :=
  if s.trained then
    { s with board := { s.board with portsDown := s.board.portsDown ||| (ports % 16), downAt := if s.linkUp then s.time else s.board.downAt } }
  else s

/-- LINK_UP: all four ports are trained again: HP_ERR.RETRAINS advances, a Patina entry is written, and what waited goes on; the length of the interval is in whole microseconds of the time counter (18 R530, R540). -/
def opLinkUp (s : State) : State :=
  if ¬ s.trained ∨ s.linkUp then s
  else
    let us := (s.time + 2 ^ 64 - s.board.downAt) % 2 ^ 64 / 1000
    let s1 := ({ s with board := { s.board with portsDown := 0 } }.bump plPage .hpErr Fld.hpErr_retrains 1).setFld rstPage .hlStat Fld.hlStat_lastDownUs us
    s1.logEvent 5 none 0x10 0 s.board.portsDown (packFields [(4, us)])

/-- LINK_LOSS_TIMEOUT: the link has been down for more than 10 ms: a record with code 9, a Patina entry, and a reset with cause 5, which waits for the record (18 R529, R530). -/
def opLinkLossTimeout (s : State) : State :=
  if ¬ s.trained ∨ s.linkUp ∨ s.board.resetPend.isSome then s
  else ((s.flashRecord 9 s.board.portsDown).logEvent 5 none 0x10 9 s.board.portsDown 0).requestReset 5

/-- Pending messages of a function's unmasked vectors are sent. -/
def State.flushPending (s : State) (f : Nat) : State :=
  ((s.pl.msix.filter fun e => e.1 / 2048 == f && e.2.pending).map fun e => e.1 % 2048).foldl (fun t v => t.sendPending f v) s

/-- What the capability structures offer of a feature: its option or limit where it has one, else 1 where the complex supports it and 0 where it does not (11 R340). -/
def capValue (f : Nat) (c : CapItem) : Nat :=
  match c with
  | .cxlType => 1
  | .flit256 | .ats | .atsPageAligned | .pri | .priPasidRequired | .pasid | .msix | .aer | .doe | .ide | .tdisp => 1
  | .vfs => if f = 0 then 16 else 0
  | .atsQueueDepth => 32
  | .priOutstanding => 512
  | .pasidWidth => 20
  | .msixVectors => vectorsOf f
  | .maxPayload => 256
  | .cxlMem | .flit68 | .vfMigration | .pasidExecute | .pasidPrivileged | .msi | .intx | .atomicOps | .ptm | .p2pRedirect | .expansionRom | .ioBar
  | .resizableBar | .relaxedOrdering | .idOrdering => 0

/-- A BAR written: the base takes the address bits above the BAR's size. -/
def FuncCfg.setBar (c : FuncCfg) (f bar v : Nat) : FuncCfg :=
  let b := if barSize f bar = 0 then 0 else v % 2 ^ 64 / barSize f bar * barSize f bar
  match bar with
  | 0 => { c with bar0 := b }
  | 2 => { c with bar2 := b }
  | 4 => { c with bar4 := b }
  | _ => c

/-- What a read of a BAR returns: the base, with the attributes of a 64-bit memory BAR below it; BAR4 is prefetchable (11 R342, log 81). -/
def FuncCfg.barWord (c : FuncCfg) (bar : Nat) : Nat := c.barBase bar + (if bar = 4 then 12 else if bar = 0 ∨ bar = 2 then 4 else 0)

/-- A configuration request's effect on a function (11 R340, R343, 15 R454, 10 R324, R333). -/
def State.cfgApply (s : State) (f : Nat) (req : CfgReq) : State :=
  let c := s.cfg f
  match req with
  | .msixEnable on => ((s.setCfg f { c with msixEnable := on }).flushPending f).irqRetry
  | .functionMask on => ((s.setCfg f { c with funcMask := on }).flushPending f).irqRetry
  | .sriovEnable on =>
    if f ≠ 0 then s
    else if on then { s with pl := { s.pl with sriov := true } }.irqRetry
    else
      let s1 := ((List.range 16).map fun k => k + 1).foldl State.dropAts s
      { s1 with pl := { s1.pl with sriov := false } }.settle
  | .atsEnable on => if on then s.setCfg f { c with atsEnable := true } else ((s.setCfg f { c with atsEnable := false }).dropAts f).settle
  | .priEnable on => if on then s.setCfg f { c with priEnable := true } else ((s.setCfg f { c with priEnable := false }).dropAts f).settle
  | .clearPriFailure => s.setCfg f { c with priFailure := false }
  | .priAllocation n => (s.setCfg f { c with priAlloc := n % 2 ^ 32 }).settle
  | .barWrite bar v => s.setCfg f (c.setBar f bar v)
  | .barRead bar => { s with reply := bytesOf 8 (c.barWord bar) }
  | .capRead x => { s with reply := bytesOf 4 (capValue f x) }
  | .other => s

/-- CONFIGURATION_REQUEST: accepted on HP0 only; elsewhere it completes with Unsupported Request and is counted; before READY it is retried (11 R339, 18 R534 step 10). -/
def opConfigurationRequest (port f : Nat) (req : CfgReq) (s : State) : State :=
  if ¬ s.up ∨ ¬ s.linkUp ∨ 4 ≤ port ∨ 16 < f then s
  else if port ≠ 0 then { s.bump plPage .hpErr Fld.hpErr_refused 1 with reply := [], replyPort := port }
  else if ¬ s.trained ∨ (f ≠ 0 ∧ ¬ s.pl.sriov) then s
  else State.cfgApply { s with replyPort := 0 } f req

/-! ## Test access and the sideband (19 R554, R557) -/

/-- TAP_UNLOCK: test access beyond boundary scan opens: the fuse is intact, the token is accepted, and no partition is CONFIDENTIAL; a Patina entry is written (19 R557). -/
def opTapUnlock (tokenOk : Bool) (s : State) : State :=
  if ¬ s.up ∨ ¬ tokenOk ∨ s.flash.tapFused ∨ s.board.tapOpen ∨ (List.range 16).any (fun p => (s.part p).confidential) then s
  else { s with board := { s.board with tapOpen := true } }.logTrust 2 none 0x600 0x100 0 0

/-- DYNAMIC_ADDRESS_ASSIGNMENT: the I3C target answers ENTDAA with its provisional identifier and takes the address (19 R554). -/
def opDynamicAddressAssignment (addr : Nat) (s : State) : State :=
  if ¬ s.board.pwrGood ∨ 128 ≤ addr then s
  else { s with board := { s.board with i3cAddr := addr }, reply := bytesOf 6 (Config.mipiId.toNat * 2 ^ 32 + Config.serial.toNat % 2 ^ 32) }

/-! ## The firmware image (18 R535) -/

/-- The bytes of an image's body. -/
def imgBody (l : List Byte) : Nat := leAt l 0x10 8

/-- MAGIC, VERSION and BODY_SIZE are as laid out, and the image is whole. -/
def imgFormat (l : List Byte) : Bool :=
  leAt l 0 4 == 0x57464B4A && leAt l 4 2 == 1 && imgBody l % 256 == 0 && decide (imgBody l ≤ 2 ^ 24) && decide (0x100 + imgBody l + 96 ≤ l.length)

/-- DIGEST. -/
def imgDigest (l : List Byte) : BitVec 384 := BitVec.ofNat 384 (leAt l 0x30 48)

/-- DIGEST matches, and the signature over it verifies under a fused key. -/
def imgSigned (l : List Byte) : Bool :=
  Config.sha384 (l.take 0x30 ++ (l.drop 0x100).take (imgBody l)) == imgDigest l &&
    (match Config.fusedKey (leAt l 0x18 16) with
     | some key => Config.ecdsaVerify key (imgDigest l) (leAt l (0x100 + imgBody l) 48) (leAt l (0x130 + imgBody l) 48)
     | none => false)

/-- The security version of an image. -/
def imgSvn (l : List Byte) : Nat := leAt l 0xC 4

/-- The root of trust accepts an image (18 R535). -/
def imgOk (floor : Nat) (l : List Byte) : Bool := imgFormat l && imgSigned l && decide (floor ≤ imgSvn l)

/-! ## Start-up (18 R534, R536, R539) -/

/-- A step completes. -/
def State.stepDone (s : State) (n : Nat) : State := s.setFld rstPage .startStat Fld.startStat_step n

/-- The host ports that have trained. -/
def State.portsTrained (s : State) (ports : Nat) : State := { s with board := { s.board with portsDown := 15 - ports % 16 } }

/-- A step fails with a fatal cause: the complex stays there, and trains the host link as far as it allows. -/
def State.stepFailed (s : State) (n ports code detail : Nat) : State :=
  (((s.fatalOp code detail).setFld rstPage .startStat Fld.startStat_failStep n).portsTrained ports).noteHealth

/-- Step 3: the image of package flash is verified, or the complex enters recovery (18 R535, R536). -/
def State.startVerify (s : State) (ports : Nat) : State :=
  if imgOk s.flash.svnFloor s.flash.image then s.stepDone 3
  else ((s.setFld rstPage .startStat Fld.startStat_recovery 1).portsTrained ports).noteHealth

/-- Step 4: the firmware starts, the start entry is written and the firmware key is loaded (18 R534, 16 R490, 14 R433). -/
def State.startFirmware (s : State) : State :=
  let l := s.flash.image
  let s1 := { s with board := { s.board with fwVersion := leAt l 8 4, fwSvn := imgSvn l, fwDigest := imgDigest l } }
  ((s1.logTrust 4 none 0x10 4 0 (packFields [(4, leAt l 8 4), (4, imgSvn l)])).loadKey 31 none).stepDone 4

/-- The cells that the self-test newly quarantines. -/
def State.bistCells (s : State) (r : StepReport) : List (Nat × Nat × Bool) :=
  r.cells.filter fun x => decide (x.1 < 16) && decide (x.2.1 < 272) && !s.flash.fusedCells.contains (512 * x.1 + x.2.1) && !s.flash.quarantine.contains (512 * x.1 + x.2.1)

/-- Step 6: built-in self-test: failing cells join the quarantine record; any other failure is fatal (18 R539). -/
def State.startBist (s : State) (r : StepReport) : State :=
  let l := s.bistCells r
  let ks := (l.map fun x => 512 * x.1 + x.2.1).eraseDups
  let banks := ((l.filter fun x => x.2.2).map fun x => 512 * x.1 + x.2.1).eraseDups
  let s1 := s.wr (rstPage + Reg.bistStat.off) (Word.ofNat (Fld.bistStat_cells.at ks.length + Fld.bistStat_banks.at banks.length
    + Fld.bistStat_extended.at (b2n s.flash.extBist) + Fld.bistStat_shared.at (b2n r.shared.isSome)))
  let s2 := { s1 with flash := { s1.flash with quarantine := s1.flash.quarantine ++ ks, extBist := false } }
  match r.shared with
  | some d => s2.stepFailed 6 r.ports 8 d
  | none => s2.stepDone 6

/-- Positions `p` on take entries of a pool of physical cells plus one (0 none), each a free choice. -/
def drawMap (d : Nat) : Nat → Nat → List Nat → SMap Nat
  | 0, _, _ => []
  | n + 1, p, pool =>
    let i := Config.freeNat (d + p) % pool.length
    let c := (pool[i]?).getD 0
    let rest := drawMap d n (p + 1) (pool.eraseIdx i)
    if c = 0 then rest else (p, c) :: rest

/-- The role of a physical cell before mapping: 2 fused, 3 quarantined, 0 healthy (02 R30). -/
def Flash.roleOf (x : Flash) (core n : Nat) : Nat :=
  if x.fusedCells.contains (512 * core + n) then 2 else if x.quarantine.contains (512 * core + n) then 3 else 0

/-- Armature builds a core's map: every logical position onto one healthy cell, as far as they reach (02 R30, R32, R33, R59). Which is a free choice. -/
def State.buildMap (s : State) (c : Nat) : State :=
  let healthy := (List.range 272).filter fun n => s.flash.roleOf c n == 0
  let pool := healthy.map (fun n => n + 1) ++ List.replicate (256 - healthy.length) 0
  let m := drawMap s.draws 256 0 pool
  let roles : SMap Nat := (List.range 272).foldl (fun (r : SMap Nat) n =>
    let o := s.flash.roleOf c n
    r.put 0 n (if o = 0 ∧ m.any (fun e => e.2 == n + 1) then 1 else o)) []
  (s.setCore c { s.core c with map := m, roles := roles, mapped := true }).drew 256

/-- Step 7: maps. -/
def State.startMaps (s : State) : State := (((List.range 16).foldl State.buildMap s).stepDone 7).noteHealth

/-- The lanes of a pseudo-channel that spares 41 and 42 replace, each plus one (14 R430); which spare takes a single failed lane is a free choice. -/
def spareFor (d : Nat) (failed : List Nat) : Nat × Nat :=
  let bad := failed.filter fun l => decide (l ≤ 40)
  match bad with
  | [] => (0, 0)
  | [a] =>
    if failed.contains 41 then (0, a + 1) else if failed.contains 42 then (a + 1, 0)
    else if Config.freeNat d % 2 = 1 then (0, a + 1) else (a + 1, 0)
  | a :: b :: _ => if Config.freeNat d % 2 = 1 then (b + 1, a + 1) else (a + 1, b + 1)

/-- A home's training result: TRAINED, SPARED and SPARES_USED (14 R446). -/
def State.homeTrained (s : State) (n : Nat) : State :=
  let mine := s.mem.lanes.filter fun e => e.1 / 64 == n
  let used := (mine.map fun e => b2n (e.2.1 != 0) + b2n (e.2.2 != 0)).sum
  let pk := regKey (0x901 + n) 0
  ((s.setFld pk .hmStat Fld.hmStat_trained 1).setFld pk .hmStat Fld.hmStat_spared mine.length).setFld pk .hmStat Fld.hmStat_sparesUsed used

/-- The pseudo-channel or stack that failed training: the stack in the low four bits, the pseudo-channel above (14 R431, 18 R526). -/
def lanesBad (r : StepReport) : Option Nat :=
  match r.stackFail with
  | some n => some n
  | none => (r.lanes.find? fun x => decide (2 < x.2.eraseDups.length)).map fun x => x.1 / 64 + 16 * (x.1 % 64)

/-- Step 8: every pseudo-channel trained, and spares switched (14 R430, R431). -/
def State.startTrain (s : State) (r : StepReport) : State :=
  match lanesBad r with
  | some d => (s.stackFailed (d % 16)).stepFailed 8 r.ports 2 d
  | none =>
    let s1 := (r.lanes.filter fun x => decide (x.1 < 768)).foldl (fun t x =>
      ({ t with mem := { t.mem with lanes := t.mem.lanes.put (0, 0) x.1 (spareFor t.draws (x.2.eraseDups.filter fun l => decide (l < 43))) } }).drew 1) s
    let s2 := (List.range 12).foldl State.homeTrained s1
    ((s2.setFld (regKey 0x900 0) .memStat Fld.memStat_trained 0xFFF).stepDone 8).noteHealth

/-- Step 9: WIDE and ROUTE_SHIFT from the configuration record, the memory page locked, and all of memory zero (18 R534, 14 R444, 19 R556). -/
def State.startMemory (s : State) : State :=
  let c := s.flash.cfg
  let pk := regKey 0x900 0
  let s1 := if c.valid then (s.setFld pk .memCtl Fld.memCtl_wide c.wide).setFld plPage .plCtl Fld.plCtl_routeShift c.routeShift
            else s.logTrust 5 none 0x10 9 0x1100000 0
  ((s1.wr (pk + 0x10) ((s1.rd (pk + 0x10)).setFld 1 1 1)).setFld pk .memStat Fld.memStat_ready 1).stepDone 9

/-- Step 11: the functions answer (18 R534). -/
def State.startReady (s : State) (ms : Nat) : State :=
  let s1 := ((s.stepDone 11).setFld rstPage .startStat Fld.startStat_ready 1).setFld rstPage .startStat Fld.startStat_durationMs ms
  (s1.logTrust 4 none 0x10 11 0 (packFields [(4, ms)])).noteHealth

/-- START_UP_STEP_DONE: the next step of the start-up sequence ends, with what it found (18 R534). Step 6 waits while a THROTTLE_REQ is asserted (19 R558); step 10 waits until all four host ports are trained (11 R338). -/
def opStartUpStepDone (r : StepReport) (s : State) : State :=
  if ¬ s.up ∨ s.trained ∨ s.board.resetPend.isSome then s
  else
    match s.fld rstPage .startStat Fld.startStat_step with
    | 0 => s.stepDone 1
    | 1 => s.stepDone 2
    | 2 => s.startVerify r.ports
    | 3 => s.startFirmware
    | 4 =>
      match r.linkFail with
      | some l => s.stepFailed 5 r.ports 1 l
      | none => s.stepDone 5
    | 5 => if s.board.thrReq % 16 = 0 then s.startBist r else s
    | 6 => s.startMaps
    | 7 => s.startTrain r
    | 8 => s.startMemory
    | 9 => if r.ports % 16 = 15 then (s.portsTrained 15).stepDone 10 else s.portsTrained r.ports
    | 10 => s.startReady r.ms
    | _ => s

/-- INTER_DIE_LINK_FAILURE: a trained link fails beyond its replay, in service or in a later step of start-up, which then stays at the step in progress (01 R15, 18 R526, R534). The host ports that still train there, beside those that had, are open. -/
def opInterDieLinkFailure (link : Nat) (s : State) : State :=
  let n := s.fld rstPage .startStat Fld.startStat_step
  if ¬ s.up ∨ 10 ≤ link then s
  else if s.ready then s.fatalOp 1 link
  else if s.trained ∨ n < 5 then s
  else (s.stepFailed (n + 1) (15 - s.board.portsDown % 16 ||| s.draw % 16) 1 link).drew 1

/-! ## Meanings: each command answers the next state that its operation gives. -/

/-- The meaning of FATAL_CAUSE. -/
def execFatalCause (code detail : Nat) (s : State) : Host.Outcome State Fault Refusal := .next (opFatalCause code detail s)
/-- The meaning of INTER_DIE_LINK_FAILURE. -/
def execInterDieLinkFailure (link : Nat) (s : State) : Host.Outcome State Fault Refusal := .next (opInterDieLinkFailure link s)
/-- The meaning of SUPERVISION_WATCHDOG. -/
def execSupervisionWatchdog (agent : Nat) (s : State) : Host.Outcome State Fault Refusal := .next (opSupervisionWatchdog agent s)
/-- The meaning of PWR_GOOD_FALL. -/
def execPwrGoodFall (s : State) : Host.Outcome State Fault Refusal := .next (opPwrGoodFall s)
/-- The meaning of PWR_GOOD_RISE. -/
def execPwrGoodRise (s : State) : Host.Outcome State Fault Refusal := .next (opPwrGoodRise s)
/-- The meaning of RESET_N_PULSE. -/
def execResetNPulse (s : State) : Host.Outcome State Fault Refusal := .next (opResetNPulse s)
/-- The meaning of REFCLK_LOSS. -/
def execRefclkLoss (clk : Nat) (s : State) : Host.Outcome State Fault Refusal := .next (opRefclkLoss clk s)
/-- The meaning of REFCLK_RELOCK. -/
def execRefclkRelock (clk : Nat) (s : State) : Host.Outcome State Fault Refusal := .next (opRefclkRelock clk s)
/-- The meaning of SOFTWARE_RESET. -/
def execSoftwareReset (src : Nat) (v : Word) (s : State) : Host.Outcome State Fault Refusal := .next (opSoftwareReset src v s)
/-- The meaning of PF_FLR. -/
def execPfFlr (s : State) : Host.Outcome State Fault Refusal := .next (opPfFlr s)
/-- The meaning of VF_FLR. -/
def execVfFlr (f : Nat) (s : State) : Host.Outcome State Fault Refusal := .next (opVfFlr f s)
/-- The meaning of LINK_DOWN. -/
def execLinkDown (ports : Nat) (s : State) : Host.Outcome State Fault Refusal := .next (opLinkDown ports s)
/-- The meaning of LINK_UP. -/
def execLinkUp (s : State) : Host.Outcome State Fault Refusal := .next (opLinkUp s)
/-- The meaning of LINK_LOSS_TIMEOUT. -/
def execLinkLossTimeout (s : State) : Host.Outcome State Fault Refusal := .next (opLinkLossTimeout s)
/-- The meaning of CONFIGURATION_REQUEST. -/
def execConfigurationRequest (port f : Nat) (req : CfgReq) (s : State) : Host.Outcome State Fault Refusal := .next (opConfigurationRequest port f req s)
/-- The meaning of TAP_UNLOCK. -/
def execTapUnlock (tokenOk : Bool) (s : State) : Host.Outcome State Fault Refusal := .next (opTapUnlock tokenOk s)
/-- The meaning of DYNAMIC_ADDRESS_ASSIGNMENT. -/
def execDynamicAddressAssignment (addr : Nat) (s : State) : Host.Outcome State Fault Refusal := .next (opDynamicAddressAssignment addr s)
/-- The meaning of START_UP_STEP_DONE. -/
def execStartUpStepDone (r : StepReport) (s : State) : Host.Outcome State Fault Refusal := .next (opStartUpStepDone r s)

end Sys2Proof.Machine
end

