-- ==== Sys2Proof/Machine/Firmware.lean ====
section
/-! DEFINITION. The firmware mailbox commands, flash writes, and the PLDM firmware update (18 R535 to R540). -/

namespace Sys2Proof.Machine

/-! ## Firmware commands (18 R538) -/

/-- FW_INFO's answer. -/
def actFwInfo (s : State) (_ : List Byte) : MbOut :=
  .done 0 (bytesOf 4 s.board.fwVersion ++ bytesOf 4 s.board.fwSvn ++ bytesOf 4 s.flash.svnFloor ++ bytesOf 4 0 ++ bytesOf 48 s.board.fwDigest.toNat) s

/-- FW_STAGE's answer: a layout or length that R535 does not allow is BAD_ARG, an SVN below the floor NOT_PERMITTED, then BAD_SIGNATURE (log 42). -/
def actFwStage (h : HostAnswer) (s : State) (req : List Byte) : MbOut :=
  let len := leAt req 8 8
  if ¬ between 0x160 len 0x1100000 then .done 3 [] s
  else
    match s.hostRead h (leAt req 0 8) len with
    | none => .wait
    | some none => .done 6 [] s
    | some (some l) =>
      if ¬ imgFormat l ∨ len ≠ 0x160 + imgBody l then .done 3 [] s
      else if imgSvn l < s.flash.svnFloor then .done 2 [] s
      else if ¬ imgSigned l then .done 7 [] s
      else .done 0 [] ({ s with board := { s.board with staged := some l } }.logTrust 4 none 0x600 0x41 (imgSvn l) 0)

/-- The staged image is on its way to flash (18 R538 FW_COMMIT). -/
def State.commit (s : State) (l : List Byte) (raise : Bool) : State :=
  ({ s with board := { s.board with staged := none } }.flashWrite (.image l raise)).logTrust 4 none 0x600 0x42 (imgSvn l) 0

/-- FW_COMMIT's answer: it ends when the flash write does. -/
def actFwCommit (s : State) (req : List Byte) : MbOut :=
  match s.board.staged with
  | none => .done 0xB [] s
  | some l => .later (s.commit l ((leAt req 0 1).testBit 0))

/-- FW_ACTIVATE: any staged image is committed, and the complex resets with cause 6. -/
def State.activate (s : State) : State :=
  let s1 := match s.board.staged with
    | some l => s.commit l false
    | none => s
  (s1.logTrust 4 none 0x600 0x43 0 0).requestReset 6

/-- FW_ACTIVATE's answer: none comes before the reset. -/
def actFwActivate (s : State) (_ : List Byte) : MbOut := .reset (s.setFld (mbPage 0) .mbStat Fld.mbStat_busy 1).activate

/-- BIST_RUN's answer: PART_BUSY while a context is LIVE; else the next start runs the extended self-test, and the complex resets with cause 3. -/
def actBistRun (s : State) (_ : List Byte) : MbOut :=
  if s.pl.ctxs.any fun e => e.2.state == 1 then .done 4 [] s
  else .reset ({ s with flash := { s.flash with extBist := true } }.setFld (mbPage 0) .mbStat Fld.mbStat_busy 1 |>.requestReset 3)

/-- HEALTH_GET's answer. -/
def actHealthGet (s : State) (_ : List Byte) : MbOut :=
  .done 0 (bytesOf 8 s.healthWord.toNat ++ bytesOf 8 (s.reg rstPage .fatalStat).toNat ++ bytesOf 8 (s.reg rstPage .bistStat).toNat ++ bytesOf 8 (s.reg rstPage .rstCause).toNat) s

/-- QUAR_CLEAR's answer: the entries named leave the quarantine record when the flash write ends; the map changes at the next start. -/
def actQuarClear (s : State) (req : List Byte) : MbOut :=
  let c := leAt req 0 1
  let n := leAt req 1 2
  if 16 ≤ c ∨ (272 ≤ n ∧ n ≠ 0xFFFF) then .done 3 [] s
  else .later ((s.flashWrite (.quarantine (s.flash.quarantine.filter fun k => k / 512 == c && (n == 0xFFFF || k % 512 == n)))).logTrust 4 none 0x600 0x46 c (packFields [(2, n)]))

/-- A fatal record as FATAL_READ returns it. -/
def FatalRec.bytes (r : FatalRec) : List Byte :=
  bytesOf 4 r.start ++ bytesOf 1 r.cause ++ bytesOf 1 0 ++ bytesOf 2 r.detail ++ bytesOf 8 r.time ++ bytesOf 8 r.seq ++ bytesOf 8 0

/-- FATAL_READ's answer: the newest records, newest first (log 42). -/
def actFatalRead (s : State) (_ : List Byte) : MbOut := .done 0 ((s.flash.fatals.reverse.take 16).flatMap FatalRec.bytes) s

/-- FW_INFO: returns firmware version, SVN, fused floor and digest. -/
def opFwInfo (f : Nat) (v : Word) (s : State) : State := s.mbGo f f 0x40 v actFwInfo
/-- FW_STAGE: reads and verifies a firmware image into staging. -/
def opFwStage (f : Nat) (v : Word) (h : HostAnswer) (s : State) : State := s.mbGo f f 0x41 v (actFwStage h)
/-- FW_COMMIT: writes the staged image to flash. -/
def opFwCommit (f : Nat) (v : Word) (s : State) : State := s.mbGo f f 0x42 v actFwCommit
/-- FW_ACTIVATE: commits any staged image and resets with cause 6. -/
def opFwActivate (f : Nat) (v : Word) (s : State) : State := s.mbGo f f 0x43 v actFwActivate
/-- BIST_RUN: requests the extended self-test and resets. -/
def opBistRun (f : Nat) (v : Word) (s : State) : State := s.mbGo f f 0x44 v actBistRun
/-- HEALTH_GET: returns health, fatal, self-test and reset status. -/
def opHealthGet (f : Nat) (v : Word) (s : State) : State := s.mbGo f f 0x45 v actHealthGet
/-- QUAR_CLEAR: clears quarantine-record entries for the next start. -/
def opQuarClear (f : Nat) (v : Word) (s : State) : State := s.mbGo f f 0x46 v actQuarClear
/-- FATAL_READ: returns the newest fatal records. -/
def opFatalRead (f : Nat) (v : Word) (s : State) : State := s.mbGo f f 0x47 v actFatalRead

/-! ## Flash writes (18 R529, R538) -/

/-- What a flash write leaves in flash and fuses. -/
def Flash.landed (x : Flash) (w : FlashWrite) : Flash :=
  match w with
  | .image l raise => { x with image := l, svnFloor := if raise then max x.svnFloor (imgSvn l) else x.svnFloor }
  | .quarantine cells => { x with quarantine := x.quarantine.filter fun c => !cells.contains c }
  | .fatal r => { x with fatals := (x.fatals ++ [r]).drop (x.fatals.length - 2047) }

/-- The mailbox opcode that waits for a write to end. -/
def FlashWrite.op : FlashWrite → Option Nat
  | .image _ _ => some 0x42
  | .quarantine _ => some 0x46
  | .fatal _ => none

/-- The physical function's mailbox request that waits for a write ends (16 R470). -/
def State.mbFlashEnd (s : State) (w : FlashWrite) : State :=
  if s.fld (mbPage 0) .mbStat Fld.mbStat_busy = 1 ∧ some (s.fld (mbPage 0) .mbCmd Fld.mbCmd_op) = w.op then s.mbEnd 0 0 [] else s

/-- FLASH_WRITE_COMPLETE: the oldest flash write ends, and a reset that waited for the last one happens (18 R529). -/
def opFlashWriteComplete (s : State) : State :=
  match s.flash.writing with
  | [] => s
  | w :: rest =>
    let s1 := { s with flash := { s.flash.landed w with writing := rest } }.mbFlashEnd w
    match rest, s1.board.resetPend with
    | [], some c => s1.fullReset c
    | _, _ => s1.noteHealth

/-! ## PLDM firmware update (18 R536, R537; log 49) -/

/-- The management endpoint serves: in service and in recovery (18 R537). -/
def State.pldmUp (s : State) : Bool := s.ready || s.recovery

/-- A PLDM response: its completion code and what follows. -/
def State.pldmSay (s : State) (l : List Nat) : State := { s with reply := l.map fun x => BitVec.ofNat 8 x }

/-- A command that one state takes; elsewhere it is answered INVALID_STATE_FOR_COMMAND (0x84). -/
def State.pldmIn (s : State) (ok : Bool) (act : State → State) : State :=
  if ¬ s.pldmUp then s else if ok then (act s).pldmSay [0] else s.pldmSay [0x84]

/-- The update moves to a state. -/
def State.pldmTo (s : State) (p : PldmState) : State := { s with board := { s.board with pldm := p } }

/-- The state number that GetStatus reports. -/
def pldmCode : PldmState → Nat
  | .idle => 0
  | .learn => 1
  | .ready => 2
  | .download => 3
  | .verify => 4
  | .apply => 5
  | .activate => 2

/-- QUERY_DEVICE_IDENTIFIERS: answered in every state. -/
def opQueryDeviceIdentifiers (s : State) : State := if s.pldmUp then s.pldmSay [0] else s

/-- GET_FIRMWARE_PARAMETERS: answered in every state, with the active version. -/
def opGetFirmwareParameters (s : State) : State :=
  if s.pldmUp then { s with reply := [0] ++ bytesOf 4 s.board.fwVersion } else s

/-- REQUEST_UPDATE: an update of an image of `len` bytes begins; ALREADY_IN_UPDATE_MODE (0x81) while one runs. -/
def opRequestUpdate (len : Nat) (s : State) : State :=
  if ¬ s.pldmUp then s
  else if s.board.pldm ≠ .idle then s.pldmSay [0x81]
  else { s with board := { s.board with pldm := .learn, pldmLen := len, pldmData := [] } }.pldmSay [0]

/-- PASS_COMPONENT_TABLE: the one component is named. -/
def opPassComponentTable (s : State) : State := s.pldmIn (s.board.pldm == .learn) fun t => t.pldmTo .ready

/-- UPDATE_COMPONENT: the transfer of the component begins. -/
def opUpdateComponent (s : State) : State :=
  s.pldmIn (s.board.pldm == .ready) fun t => { t with board := { t.board with pldm := .download, pldmData := [] } }

/-- REQUEST_FIRMWARE_DATA: at most 4 KiB of the image arrive, in order; in recovery they go to flash as they come (18 R536, R537). -/
def opRequestFirmwareData (off : Nat) (data : List Byte) (s : State) : State :=
  let b := s.board
  s.pldmIn (b.pldm == .download && off == b.pldmData.length && between 1 data.length 4096 && decide (off + data.length ≤ b.pldmLen)) fun t =>
    let l := t.board.pldmData ++ data
    let t1 := { t with board := { t.board with pldmData := l } }
    if t.recovery then { t1 with flash := { t1.flash with image := l } } else t1

/-- TRANSFER_COMPLETE: the whole image has arrived. -/
def opTransferComplete (s : State) : State :=
  s.pldmIn (s.board.pldm == .download && s.board.pldmData.length == s.board.pldmLen) fun t => t.pldmTo .verify

/-- VERIFY_COMPLETE: the image is verified by R535; one that passes is staged, one that fails leaves the update where it began (18 R536, R537). -/
def opVerifyComplete (s : State) : State :=
  s.pldmIn (s.board.pldm == .verify) fun t =>
    if imgOk t.flash.svnFloor t.board.pldmData then
      { t with board := { t.board with pldm := .apply, staged := if t.recovery then t.board.staged else some t.board.pldmData } }
    else t.pldmTo .ready

/-- APPLY_COMPLETE: the image is committed as FW_COMMIT does; in recovery it lies in flash already (18 R536, R537). -/
def opApplyComplete (s : State) : State :=
  s.pldmIn (s.board.pldm == .apply) fun t =>
    let t1 := t.pldmTo .activate
    match t.recovery, t.board.staged with
    | false, some l => t1.commit l false
    | _, _ => t1

/-- ACTIVATE_FIRMWARE: as FW_ACTIVATE (18 R537). -/
def opActivateFirmware (s : State) : State := s.pldmIn (s.board.pldm == .activate) fun t => t.activate

/-- GET_STATUS: the state of the update. -/
def opGetStatus (s : State) : State := if s.pldmUp then s.pldmSay [0, pldmCode s.board.pldm] else s

/-- The staged image after a cancellation: an image that the update itself staged and has not applied is dropped. -/
def State.stagedLeft (s : State) : Option (List Byte) := if s.board.pldm = .apply ∧ ¬ s.recovery then none else s.board.staged

/-- CANCEL_UPDATE_COMPONENT: the transfer, verification or application of the component is given up. -/
def opCancelUpdateComponent (s : State) : State :=
  s.pldmIn (s.board.pldm == .download || s.board.pldm == .verify || s.board.pldm == .apply) fun t =>
    { t with board := { t.board with pldm := .ready, pldmData := [], staged := t.stagedLeft } }

/-- CANCEL_UPDATE: the update ends; NOT_IN_UPDATE_MODE (0x80) where none runs. -/
def opCancelUpdate (s : State) : State :=
  if ¬ s.pldmUp then s
  else if s.board.pldm = .idle then s.pldmSay [0x80]
  else { s with board := { s.board with pldm := .idle, pldmLen := 0, pldmData := [], staged := s.stagedLeft } }.pldmSay [0]

/-! ## Meanings: each command answers the next state that its operation gives. -/

/-- The meaning of FW_INFO. -/
def execFwInfo (f : Nat) (v : Word) (s : State) : Host.Outcome State Fault Refusal := .next (opFwInfo f v s)
/-- The meaning of FW_STAGE. -/
def execFwStage (f : Nat) (v : Word) (h : HostAnswer) (s : State) : Host.Outcome State Fault Refusal := .next (opFwStage f v h s)
/-- The meaning of FW_COMMIT. -/
def execFwCommit (f : Nat) (v : Word) (s : State) : Host.Outcome State Fault Refusal := .next (opFwCommit f v s)
/-- The meaning of FW_ACTIVATE. -/
def execFwActivate (f : Nat) (v : Word) (s : State) : Host.Outcome State Fault Refusal := .next (opFwActivate f v s)
/-- The meaning of BIST_RUN. -/
def execBistRun (f : Nat) (v : Word) (s : State) : Host.Outcome State Fault Refusal := .next (opBistRun f v s)
/-- The meaning of HEALTH_GET. -/
def execHealthGet (f : Nat) (v : Word) (s : State) : Host.Outcome State Fault Refusal := .next (opHealthGet f v s)
/-- The meaning of QUAR_CLEAR. -/
def execQuarClear (f : Nat) (v : Word) (s : State) : Host.Outcome State Fault Refusal := .next (opQuarClear f v s)
/-- The meaning of FATAL_READ. -/
def execFatalRead (f : Nat) (v : Word) (s : State) : Host.Outcome State Fault Refusal := .next (opFatalRead f v s)
/-- The meaning of FLASH_WRITE_COMPLETE. -/
def execFlashWriteComplete (s : State) : Host.Outcome State Fault Refusal := .next (opFlashWriteComplete s)
/-- The meaning of QUERY_DEVICE_IDENTIFIERS. -/
def execQueryDeviceIdentifiers (s : State) : Host.Outcome State Fault Refusal := .next (opQueryDeviceIdentifiers s)
/-- The meaning of GET_FIRMWARE_PARAMETERS. -/
def execGetFirmwareParameters (s : State) : Host.Outcome State Fault Refusal := .next (opGetFirmwareParameters s)
/-- The meaning of REQUEST_UPDATE. -/
def execRequestUpdate (len : Nat) (s : State) : Host.Outcome State Fault Refusal := .next (opRequestUpdate len s)
/-- The meaning of PASS_COMPONENT_TABLE. -/
def execPassComponentTable (s : State) : Host.Outcome State Fault Refusal := .next (opPassComponentTable s)
/-- The meaning of UPDATE_COMPONENT. -/
def execUpdateComponent (s : State) : Host.Outcome State Fault Refusal := .next (opUpdateComponent s)
/-- The meaning of REQUEST_FIRMWARE_DATA. -/
def execRequestFirmwareData (off : Nat) (data : List Byte) (s : State) : Host.Outcome State Fault Refusal := .next (opRequestFirmwareData off data s)
/-- The meaning of TRANSFER_COMPLETE. -/
def execTransferComplete (s : State) : Host.Outcome State Fault Refusal := .next (opTransferComplete s)
/-- The meaning of VERIFY_COMPLETE. -/
def execVerifyComplete (s : State) : Host.Outcome State Fault Refusal := .next (opVerifyComplete s)
/-- The meaning of APPLY_COMPLETE. -/
def execApplyComplete (s : State) : Host.Outcome State Fault Refusal := .next (opApplyComplete s)
/-- The meaning of ACTIVATE_FIRMWARE. -/
def execActivateFirmware (s : State) : Host.Outcome State Fault Refusal := .next (opActivateFirmware s)
/-- The meaning of GET_STATUS. -/
def execGetStatus (s : State) : Host.Outcome State Fault Refusal := .next (opGetStatus s)
/-- The meaning of CANCEL_UPDATE_COMPONENT. -/
def execCancelUpdateComponent (s : State) : Host.Outcome State Fault Refusal := .next (opCancelUpdateComponent s)
/-- The meaning of CANCEL_UPDATE. -/
def execCancelUpdate (s : State) : Host.Outcome State Fault Refusal := .next (opCancelUpdate s)

end Sys2Proof.Machine
end

