-- ==== Sys2Proof/Machine/Views.lean ====
section
/-! DEFINITION. What a read of BAR0 returns: stored registers, and the registers that show the state of a block (02 R63, 06 R203, 07 R235, 08 R267, R268, 09 R296, R297, 10 R335 to R337, 11 R371 to R374, 12 R393, R394, 13 R421, R422, 14 R445, R446, 15 R459, R461, 16 R494 to R497, 17 R520 to R523, 18 R542, 19 R561 to R564). -/

namespace Sys2Proof.Machine

/-! ## The cores' pages -/

/-- The mapped positions of a core. -/
def Core.mappedCount (k : Core) : Nat := (k.map.filter fun e => e.2 != 0).length

/-- ARM_STAT.STATE (02 R59, R63). -/
def Core.armState (k : Core) : Nat :=
  if ¬ k.mapped then 0 else if k.arm.isSome ∨ ¬ k.quars.isEmpty then 2 else if k.isShort then 3 else 1

/-- The positions of a core that no engine may take: unmapped, or under a formed engine. -/
def State.takenPositions (s : State) (c : Nat) : List Nat :=
  ((List.range 256).filter fun p => !s.posMapped c p) ++ (s.formedOn c).flatMap (s.positions c)

/-- ARM_FREE (02 R63). -/
def State.armFreeWord (s : State) (c : Nat) : Word :=
  let occ := s.takenPositions c
  let free := ((List.range 256).filter fun p => !occ.contains p).length
  let largest := (([6, 5, 4, 3, 2, 1, 0] : List Nat).find? fun k => (fitAt occ [] false k).isSome).getD 7
  Word.ofNat (Fld.armFree_free.at free + Fld.armFree_largest.at largest)

/-- ARM_MAP_DATA (02 R63). -/
def State.armMapWord (s : State) (c p : Nat) : Word :=
  let x := (s.core c).map.at 0 p
  let e := (s.engineAt c p).or ((s.formedOn c).find? fun n => (s.positions c n).contains p)
  Word.ofNat (Fld.armMapData_cell.at (x - 1) + Fld.armMapData_mapped.at (b2n (x != 0)) + Fld.armMapData_engine.at (e.getD 0) + Fld.armMapData_occupied.at (b2n e.isSome))

/-- A register of an Armature page (02 R62, R63). -/
def State.viewArmature (s : State) (f c : Nat) (r : Reg) (w : Word) : Word :=
  let k := s.core c
  match r with
  | .armStat =>
    let sp := (s.spares c).length
    Word.ofNat (Fld.armStat_healthy.at (k.mappedCount + sp) + Fld.armStat_mapped.at k.mappedCount + Fld.armStat_spares.at sp
      + Fld.armStat_engines.at (s.formedOn c).length + Fld.armStat_state.at k.armState + Fld.armStat_short.at (b2n k.isShort))
  | .armFree => s.armFreeWord c
  | .armEngines => Word.ofNat ((s.formedOn c).map fun n => 2 ^ n).sum
  | .armMapIdx | .armQlog => if f = 0 then w else 0
  | .armMapData => if f = 0 then s.armMapWord c (s.fld (armPage c) .armMapIdx Fld.armMapIdx_position) else 0
  | _ => w

/-- A register of a Relief page (06 R203). -/
def State.viewRelief (s : State) (c : Nat) (r : Reg) (w : Word) : Word :=
  match r with
  | .relStat =>
    let mine := s.mem.banks.filter fun e => e.1 / 256 == c
    let n := (mine.map fun e => if e.2.lost then 0 else (e.2.poison.filter fun g => g.2).length).sum
    Word.ofNat (Fld.relStat_inService.at (s.core c).mappedCount + Fld.relStat_poisoned.at (min 65535 n) + Fld.relStat_lost.at (b2n (mine.any fun e => e.2.lost)))
  | .relBlkData =>
    let b := s.fld (corePage c 1) .relBlkIdx Fld.relBlkIdx_block
    match s.claimant c b with
    | some x => Word.ofNat (Fld.relBlkData_context.at x + Fld.relBlkData_claimed.at 1 + Fld.relBlkData_resident.at (b2n (!(s.core c).saved.at false (16 * x + b))))
    | none => 0
  | _ => w

/-- A register of a core cache page (07 R235). -/
def State.viewCache (s : State) (c : Nat) (r : Reg) (w : Word) : Word :=
  match r with
  | .ccStat =>
    let mine := s.mem.caches.filter fun e => e.1 / 2 ^ 34 == c
    Word.ofNat (Fld.ccStat_upgrades.at (mine.filter fun e => e.2.early != 0).length + Fld.ccStat_held.at (mine.filter fun e => e.2.held).length
      + Fld.ccStat_deferred.at ((mine.filter fun e => e.2.held).map fun e => ((s.mem.queue (e.1 % 2 ^ 34)).filter fun r => r != .own c).length).sum)
  | _ => w

/-- How many bits of a mask are set. -/
def maskCount (m : Nat) : Nat := ((List.range 64).filter fun i => m.testBit i).length

/-- A register of a synchronisation page (08 R267). -/
def State.viewSync (s : State) (c : Nat) (r : Reg) (w : Word) : Word :=
  let u := s.bar c (s.fld (syncPage c) .barIdx Fld.barIdx_unit)
  match r with
  | .sigData => s.counter c (s.fld (syncPage c) .sigIdx Fld.sigIdx_counter)
  | .barMask => Word.ofNat u.mask
  | .barStat =>
    let head := u.rounds.head?
    Word.ofNat (Fld.barStat_round.at (match head with
        | some x => x.1
        | none => u.next) + Fld.barStat_open.at u.rounds.length
      + Fld.barStat_arrived.at (match head with
        | some x => maskCount x.2
        | none => 0) + Fld.barStat_stalled.at u.stalled.length + Fld.barStat_lost.at u.lostLow)
  | _ => w

/-- A register of a core slicing page (12 R393). -/
def State.viewSlicing (s : State) (c : Nat) (r : Reg) (w : Word) : Word :=
  let k := s.core c
  let x := s.fld (corePage c 5) .tsIdx Fld.tsIdx_context
  let mine := (s.enginesFor c x)
  match r with
  | .tsStat =>
    Word.ofNat (Fld.tsStat_resident.at k.residents.length
      + Fld.tsStat_waiting.at (k.rotation.filter fun n => s.hasWork c n && !k.residents.contains n).length + Fld.tsStat_switching.at (b2n k.switch.isSome))
  | .tsCtx =>
    Word.ofNat (Fld.tsCtx_state.at (if mine.isEmpty then 0 else if k.residents.contains x then 1 else 2) + Fld.tsCtx_work.at (b2n (s.hasWork c x))
      + Fld.tsCtx_unsliced.at (b2n ((s.ctx x).state != 0 && (s.ctx x).saveSize == 0)) + Fld.tsCtx_runs.at (k.runs.at 0 x))
  | .tsCtxeng => Word.ofNat (mine.map fun n => 2 ^ n).sum
  | _ => w

/-- A register of an engine page; what describes a context is hidden from the physical function in a CONFIDENTIAL partition (19 R564). -/
def State.viewEngine (s : State) (f i : Nat) (r : Reg) (w : Word) : Word :=
  let c := i / 64
  let e := s.engine c (i % 64)
  let hide := f == 0 && s.confidential (s.coreOwner c)
  match r with
  | .engStat =>
    if ¬ e.formed then 0
    else
      Word.ofNat (Fld.engStat_formed.at 1 + Fld.engStat_state.at e.state + Fld.engStat_sizeLog2.at e.sizeLog2 + Fld.engStat_origin.at e.origin
        + Fld.engStat_context.at (if hide then 0 else e.ctx))
  | .engCmd =>
    match e.cmd with
    | some (q, _) => if hide then 0 else Word.ofNat (Fld.engCmd_queue.at q + Fld.engCmd_valid.at 1)
    | none => 0
  | .engSeq => if hide then 0 else Word.ofNat ((e.cmd.map Prod.snd).getD 0)
  | .engTrap => Word.ofNat (Fld.engTrap_code.at e.trapCode + Fld.engTrap_cell.at e.trapCell + Fld.engTrap_pc.at e.trapPc)
  | _ => w

/-! ## The Plinth's pages -/

/-- A register of the monitor page (08 R268). -/
def State.viewMonitor (s : State) (r : Reg) (w : Word) : Word :=
  let m := s.mon (s.fld monPage .monIdx Fld.monIdx_slot)
  match r with
  | .monOwner => Word.ofNat (Fld.monOwner_partition.at m.part + Fld.monOwner_assigned.at (b2n m.assigned))
  | .monData =>
    let host : Bool := match m.bound with
      | some (.host _) => true
      | _ => false
    Word.ofNat (Fld.monData_bound.at (b2n m.bound.isSome) + Fld.monData_host.at (b2n host) + Fld.monData_armed.at (b2n m.armed)
      + Fld.monData_waiters.at m.waiters.length + Fld.monData_context.at m.ctx)
  | .monAddr => if m.bound.isSome then Word.ofNat (Fld.monAddr_addr.at m.va) else 0
  | _ => w

/-- A register of the objects page through function `f` (09 R270, R296). -/
def State.viewObjects (s : State) (f : Nat) (r : Reg) (w : Word) : Word :=
  let idx := fun (x : Fld) => s.fld (objPage f) .objIdx x
  match r with
  | .ctxStat =>
    let n := idx Fld.objIdx_context
    let x := s.ctx n
    if ¬ s.reachesCtx f n then 0
    else
      Word.ofNat (Fld.ctxStat_state.at x.state + Fld.ctxStat_partition.at x.part + Fld.ctxStat_queues.at (s.queuesOf n).length
        + Fld.ctxStat_ringEntries.at (s.ringTotal n) + Fld.ctxStat_engines.at ((List.range 16).map fun c => (s.enginesFor c n).length).sum)
  | .qStat =>
    let q := idx Fld.objIdx_queue
    let x := s.queue q
    if ¬ s.reachesQueue f q then 0
    else Word.ofNat (Fld.qStat_state.at x.state + Fld.qStat_overrun.at (b2n x.overrun) + Fld.qStat_context.at x.ctx + Fld.qStat_pending.at (x.tail - x.head))
  | .dbOwner =>
    let p := idx Fld.objIdx_dbpage
    if s.reachesDb f p then (s.db p).word else 0
  | .arnStat =>
    let n := idx Fld.objIdx_context
    if ¬ s.reachesCtx f n then 0
    else
      match (s.ctx n).arenas[idx Fld.objIdx_arena]? with
      | some a => Word.ofNat (Fld.arnStat_cursor.at a.cursor + Fld.arnStat_full.at (b2n a.full) + Fld.arnStat_lowhit.at (b2n a.lowHit))
      | none => 0
  | .frameData =>
    let n := idx Fld.objIdx_frame
    let x := s.frame n
    if n < devFrames ∧ (f = 0 ∨ (x.owned ∧ s.reaches f x.part)) then x.word else 0
  | _ => w

/-- A register of the translation request page through function `f` (10 R270, R336). -/
def State.viewXlat (s : State) (f : Nat) (r : Reg) (w : Word) : Word :=
  match r with
  | .xlAptStat =>
    let ctx := s.fld (xlPage f) .xlAptCtl Fld.xlAptCtl_context
    let i := s.fld (xlPage f) .xlAptCtl Fld.xlAptCtl_index
    if ¬ s.reachesCtx f ctx then w
    else
      let a := s.pl.apts.at {} (64 * ctx + i)
      Fld.xlAptStat_state.put (Fld.xlAptStat_locked.put w (s.aptLocks ctx i)) (if a.state = 3 then 0 else a.state)
  | _ => w

/-- A register of the ATU page (10 R335). -/
def State.viewAtu (s : State) (r : Reg) (w : Word) : Word :=
  match r with
  | .atuStat =>
    Word.ofNat (Fld.atuStat_atcValid.at s.pl.atc.length + Fld.atuStat_locked.at (s.pl.atc.filter fun e => e.locks != 0).length
      + Fld.atuStat_prgOut.at (s.pl.groups.filter fun g => g.tag.isSome).length)
  | _ => w

/-- A register of the Plinth page (11 R371). -/
def State.viewPlinth (s : State) (r : Reg) (w : Word) : Word :=
  match r with
  | .plStat =>
    Word.ofNat (Fld.plStat_portUp.at (15 - s.board.portsDown % 16) + Fld.plStat_linkUp.at (b2n s.linkUp)
      + Fld.plStat_outbound.at (min 65535 (s.pl.outbound.map fun e => s.outWrites e.1).sum) + Fld.plStat_watching.at s.watchers)
  | _ => w

/-- A register of a function page (11 R372). -/
def State.viewFunction (s : State) (f : Nat) (r : Reg) (w : Word) : Word :=
  match r with
  | .winStat =>
    let n := s.fld (funcPage f) .winCtl Fld.winCtl_context
    Fld.winStat_active.put w (b2n (s.fld (funcPage f) .winCtl Fld.winCtl_en == 1 && (s.ctx n).state == 1))
  | _ => w

/-- The progress word of an active stream (11 R368). -/
def Stream.progress (x : Stream) : Word := Word.ofNat (x.index % 2 ^ 16 + x.tiles % 2 ^ 40 * 2 ^ 16 + 2 ^ 63)

/-- A register of a Chisel page (11 R374). -/
def State.viewChisel (s : State) (n : Nat) (r : Reg) (w : Word) : Word :=
  let x := s.stream? n (s.fld (chPage n) .chSidx Fld.chSidx_stream)
  match r with
  | .chCap => Word.ofNat (Fld.chCap_class.at (chClass n) + Fld.chCap_streams.at 16 + Fld.chCap_rateGbps.at (if chClass n = 2 then 6000 else 256))
  | .chStat =>
    let mine := s.pl.streams.filter fun e => e.1 / 16 == n
    Word.ofNat (Fld.chStat_active.at mine.length + Fld.chStat_faulted.at (mine.filter fun e => e.2.faulted).length)
  | .chScmd =>
    match x with
    | some y => Word.ofNat (Fld.chScmd_queue.at y.q + Fld.chScmd_context.at y.ctx + Fld.chScmd_valid.at 1)
    | none => 0
  | .chSseq => Word.ofNat ((x.map fun y => y.seq).getD 0)
  | .chSprog => (x.map Stream.progress).getD 0
  | _ => w

/-- A register of the Chisel slicing page (12 R394). -/
def State.viewChSlicing (s : State) (r : Reg) (w : Word) : Word :=
  match r with
  | .csStat =>
    let waits := (s.pl.saved.filter fun x => x.faulted).length
    Word.ofNat (Fld.csStat_saved.at s.pl.saved.length + Fld.csStat_ready.at (s.pl.saved.length - waits) + Fld.csStat_faulted.at waits)
  | _ => w

/-! ## The fabric's pages (13 R421, R422) -/

/-- The route entry that FAB_RT_IDX names; none past the low table. -/
def State.routeIdx (s : State) : Option Nat :=
  let e := s.fld fabPage .fabRtIdx Fld.fabRtIdx_entry
  if s.fld fabPage .fabRtIdx Fld.fabRtIdx_low = 0 then some e else if e < 256 then some (512 + e) else none

/-- A register of the fabric page. -/
def State.viewFabric (s : State) (r : Reg) (w : Word) : Word :=
  let p := s.port (s.fld fabPage .fabPortIdx Fld.fabPortIdx_port)
  match r with
  | .fabStat =>
    Word.ofNat (Fld.fabStat_portUp.at ((List.range 16).map fun n => b2n ((s.port n).state == 2) * 2 ^ n).sum + Fld.fabStat_unacked.at (min 65535 s.fab.unacked.length))
  | .fabPortCtl => Word.ofNat (Fld.fabPortCtl_en.at (b2n p.en) + Fld.fabPortCtl_dateline.at (b2n p.dateline))
  | .fabPortStat =>
    Word.ofNat (Fld.fabPortStat_state.at p.state + Fld.fabPortStat_noisy.at (b2n p.noisy) + Fld.fabPortStat_replays.at p.replays + Fld.fabPortStat_downs.at p.downs)
  | .fabRtData => Word.ofNat ((s.routeIdx.map fun k => s.fab.routes.at 0 k).getD 0)
  | _ => w

/-- A register of the job and ring page. -/
def State.viewJobs (s : State) (r : Reg) (w : Word) : Word :=
  let j := s.job (s.fld jobPage .fjIdx Fld.fjIdx_slot)
  let x := s.ring (s.fld jobPage .frIdx Fld.frIdx_ring)
  match r with
  | .fjCtl => j.ctlWord
  | .fjPeers => Word.ofNat (Fld.fjPeers_base.at j.base + Fld.fjPeers_count.at j.count)
  | .fjStat => Word.ofNat (Fld.fjStat_keys.at (b2n j.key0.isSome + 2 * b2n j.key1.isSome) + Fld.fjStat_dead.at j.dead)
  | .frCtl => x.ctlWord
  | .frBase => Word.ofNat (Fld.frBase_addr.at x.base)
  | .frTail => Word.ofNat (Fld.frTail_addr.at x.tailVa)
  | .frHead => Word.ofNat (Fld.frHead_addr.at x.headVa)
  | .frStat => Word.ofNat (Fld.frStat_state.at (if x.stopped then 2 else b2n x.en) + Fld.frStat_inflight.at x.busy)
  | _ => w

/-! ## Memory and interrupts -/

/-- A register of the memory page (14 R445). -/
def State.viewMem (s : State) (r : Reg) (w : Word) : Word :=
  match r with
  | .memStat => Fld.memStat_scrubbing.put w (s.mem.frames.filter fun e => e.2.state == 2).length
  | _ => w

/-- A register of a home page (14 R446). -/
def State.viewHome (s : State) (h : Nat) (r : Reg) (w : Word) : Word :=
  match r with
  | .hmStat => Fld.hmStat_keys.put w s.sec.keySlots
  | .hmPoisoned => Word.ofNat (min (2 ^ 32 - 1) (s.mem.poison.filter fun e => e.2 && s.homeOf e.1 == h).length)
  | .hmLaneData =>
    let pch := s.fld (homePage h) .hmLaneIdx Fld.hmLaneIdx_pch
    let l := s.mem.lanes.at (0, 0) (64 * h + pch)
    let ce := fun (n : Nat) => (s.home h).laneCe.at 0 (64 * pch + n)
    let worst := (List.range 43).foldl (fun b n => if ce b < ce n then n else b) 0
    Word.ofNat (Fld.hmLaneData_spare0.at (l.1 - 1) + Fld.hmLaneData_spare0Used.at (b2n (l.1 != 0)) + Fld.hmLaneData_spare1.at (l.2 - 1)
      + Fld.hmLaneData_spare1Used.at (b2n (l.2 != 0)) + Fld.hmLaneData_worstLane.at worst + Fld.hmLaneData_worstCe.at (ce worst))
  | _ => w

/-- A register of the interrupt controller page as a writer or reader sees it (15 R459 to R461). -/
def State.viewIc (s : State) (src : Nat) (r : Reg) (w : Word) : Word :=
  let n := s.icSource src
  let see := fun (x : Word) => if s.icReaches src n then x else 0
  let hart := Fld.icHartIdx_hart.get (s.rd (icIdxKey src .icHartIdx))
  match r with
  | .icSrcIdx => s.rd (icIdxKey src .icSrcIdx)
  | .icSrcCtl => see (s.irq n).ctlWord
  | .icSrcTgt => see (s.irq n).tgtWord
  | .icSrcStat => see (s.irq n).statWord
  | .icHartIdx => if srcFunc src = 0 then s.rd (icIdxKey src .icHartIdx) else 0
  | .icHartCtl =>
    if srcFunc src ≠ 0 then 0
    else
      let h := s.hart hart
      Word.ofNat (Fld.icHartCtl_en.at (b2n h.en) + Fld.icHartCtl_mask.at (b2n h.mask) + Fld.icHartCtl_sleep.at (b2n h.sleep) + Fld.icHartCtl_queued.at h.queue.length)
  | .icClaim => 0
  | _ => w

/-! ## Trust, power, reset and identity -/

/-- A register of the security page (16 R494). -/
def State.viewSecurity (s : State) (r : Reg) (w : Word) : Word :=
  match r with
  | .secStat =>
    Word.ofNat (Fld.secStat_run.at (b2n (decide (4 ≤ s.fld rstPage .startStat Fld.startStat_step))) + Fld.secStat_recovery.at (b2n s.recovery)
      + Fld.secStat_production.at (b2n s.flash.production) + Fld.secStat_debugFused.at (b2n s.flash.debugFused)
      + Fld.secStat_ideCache.at (b2n s.sec.ideCache) + Fld.secStat_fwVersion.at s.board.fwVersion)
  | .partData =>
    let n := s.fld (regKey 0x600 0) .partIdx Fld.partIdx_partition
    let p := s.part n
    Word.ofNat (Fld.partData_cores.at p.cores + Fld.partData_exists.at (b2n (p.cores != 0)) + Fld.partData_confidential.at (b2n p.confidential)
      + Fld.partData_debug.at (b2n p.debug) + Fld.partData_requireSigned.at (b2n p.requireSigned) + Fld.partData_tdisp.at p.tdisp
      + Fld.partData_ideIo.at (b2n p.ideIo) + Fld.partData_keys.at p.keys.length + Fld.partData_anchors.at p.anchors.length
      + Fld.partData_casts.at ((List.range 15).map fun k => b2n ((s.cast k).admits.testBit n) * 2 ^ k).sum)
  | _ => w

/-- A register of the Patina page (16 R496). -/
def State.viewPatina (s : State) (off : Nat) (r : Reg) (w : Word) : Word :=
  match r with
  | .patSeq => Word.ofNat s.patNewest
  | .patChainLo => s.pl.patina.chain.setWidth 64
  | .patChainHi => Word.ofNat (s.pl.patina.chain.toNat / 2 ^ 64)
  | .patRdwin =>
    let e := s.pl.patina.entries.at PatEntry.blank (s.fld patPage .patRdidx Fld.patRdidx_index)
    Word.ofNat (leAt e.bytes (off - Reg.patRdwin.off) 8)
  | _ => w

/-- A register of the Cast page (16 R497). -/
def State.viewCast (s : State) (r : Reg) (w : Word) : Word :=
  let n := s.fld castPage .castIdx Fld.castIdx_slot
  let c := if n < 15 then s.cast n else {}
  match r with
  | .castStat =>
    Word.ofNat (Fld.castStat_state.at c.state + Fld.castStat_first.at c.first + Fld.castStat_frames.at c.frames + Fld.castStat_admit.at c.admits
      + Fld.castStat_failed.at (b2n c.failed) + Fld.castStat_overflow.at (b2n c.overflow))
  | .castIdLo => Word.ofNat c.id
  | .castIdHi => Word.ofNat (c.id / 2 ^ 64)
  | .castRcnt => Fld.castRcnt_pending.put w s.sec.recasts.length
  | _ => w

/-- A register of the power, thermal and energy pages (17 R520 to R522). -/
def State.viewPower (s : State) (r : Reg) (w : Word) : Word :=
  match r with
  | .pwrStat =>
    Fld.pwrStat_standby.put (Fld.pwrStat_throttle.put w s.board.thrReq) (b2n (s.standby && s.pl.outbound.all fun e => s.outWrites e.1 == 0))
  | .thData =>
    let x := s.board.sensors.at {} (s.fld thPage .thIdx Fld.thIdx_sensor)
    Word.ofNat (Fld.thData_tempC.at x.now + Fld.thData_maxC.at x.max)
  | .pwrCtxEn =>
    let x := s.ctx (s.fld (regKey 0x702 0) .pwrCtxIdx Fld.pwrCtxIdx_context)
    Word.ofNat (Fld.pwrCtxEn_energyUj.at x.energy + Fld.pwrCtxEn_sharedSeen.at (b2n x.sharedSeen))
  | .pwrCtxSh => Word.ofNat (Fld.pwrCtxSh_sharedUj.at (s.ctx (s.fld (regKey 0x702 0) .pwrCtxIdx Fld.pwrCtxIdx_context)).shared)
  | _ => w

/-- A register of the reset page (18 R542). -/
def State.viewReset (s : State) (r : Reg) (w : Word) : Word :=
  match r with
  | .hlStat => Fld.hlStat_down.put w (b2n (!s.linkUp))
  | .health => s.healthWord
  | _ => w

/-- A register of the identity page (19 R563). -/
def State.viewIdentity (s : State) (r : Reg) (w : Word) : Word :=
  match r with
  | .idPart => Fld.idPart_stepping.put w Config.stepping.toNat
  | .idSerialLo => Config.serial.setWidth 64
  | .idSerialHi => Word.ofNat (Config.serial.toNat / 2 ^ 64)
  | .time => Word.ofNat s.time
  | .clkStat => Word.ofNat (63 - s.board.clkLost % 64)
  | _ => w

/-! ## Pages -/

/-- A block-specific register of a page as a reader sees it; `w` is the stored word. -/
def State.viewReg (s : State) (src : Nat) (k : PageKind) (i off : Nat) (r : Reg) (w : Word) : Word :=
  let f := srcFunc src
  match k with
  | .armature => s.viewArmature f i r w
  | .relief => s.viewRelief i r w
  | .coreCache => s.viewCache i r w
  | .sync => s.viewSync i r w
  | .slicing => s.viewSlicing i r w
  | .engine => s.viewEngine f i r w
  | .monitor => s.viewMonitor r w
  | .objects => s.viewObjects f r w
  | .xlat => s.viewXlat f r w
  | .atu => s.viewAtu r w
  | .plinth => s.viewPlinth r w
  | .function => s.viewFunction i r w
  | .chisel => s.viewChisel i r w
  | .chiselSlicing => s.viewChSlicing r w
  | .fabric => s.viewFabric r w
  | .jobs => s.viewJobs r w
  | .extMem => s.viewMem r w
  | .home => s.viewHome i r w
  | .ic => s.viewIc src r w
  | .security => s.viewSecurity r w
  | .patina => s.viewPatina off r w
  | .cast => s.viewCast r w
  | .power | .thermal | .ctxEnergy => s.viewPower r w
  | .reset => s.viewReset r w
  | .identity => s.viewIdentity r w
  | .mailbox => if r = .mbBuf ∧ s.fld (mbPage i) .mbStat Fld.mbStat_busy = 1 then 0 else w
  | .abort | .queueFetch | .tlb | .islands | .msix => w

/-- A virtual function is shown a page of this kind (19 R559). -/
def PageKind.vfSees (k : PageKind) : Bool :=
  match k with
  | .identity | .function | .objects | .abort | .xlat | .queueFetch | .ic | .msix | .mailbox | .armature | .relief | .coreCache | .sync | .tlb
  | .slicing | .islands | .engine => true
  | _ => false

/-- A page of this kind has RWL fields. -/
def PageKind.lockable (k : PageKind) : Bool := k.regs.any fun r => r.flds.any fun f => f.acc == .rwl

/-- PAGE_STAT.BUSY (19 R561). -/
def State.pageBusy (s : State) (k : PageKind) (pk : Nat) : Bool :=
  match k with
  | .armature => s.fld pk .armReqStat Fld.armReqStat_busy == 1
  | .objects => s.fld pk .objStat Fld.objStat_busy == 1
  | .abort => s.fld pk .abtStat Fld.abtStat_busy == 1
  | .xlat => s.fld pk .xlInvStat Fld.xlInvStat_busy == 1 || s.fld pk .xlAptStat Fld.xlAptStat_busy == 1
  | .mailbox => s.fld pk .mbStat Fld.mbStat_busy == 1
  | _ => false

/-- Error bits whose condition is present now: they cannot be cleared (00 R11, 16 R497, 17 R506, 19 R553, 18 R541). -/
def State.errPresent (s : State) (k : PageKind) : Word :=
  match k with
  | .reset => Word.ofNat (b2n s.fatal)
  | .power => Word.ofNat (b2n (s.board.thrLong != 0) + 2 * b2n (s.board.railSilent.any fun e => decide (3 ≤ e.2)))
  | .cast => Word.ofNat (2 * b2n ((List.range 15).any fun n => (s.cast n).failed))
  | _ => 0

/-- A register of the common page header (19 R561, R562). -/
def State.viewHeader (s : State) (k : PageKind) (i pk page off : Nat) : Word :=
  match off with
  | 0x000 => Word.ofNat (k.blockType + i * 2 ^ 16 + 2 ^ 32)
  | 0x008 => Word.ofNat (b2n k.vfSees + 2 * b2n k.lockable)
  | 0x010 => s.rd (headKey pk + 0x10)
  | 0x018 => Word.ofNat (b2n (s.ready || s.recovery) + 2 * b2n (s.pageBusy k pk))
  | 0x020 => s.pageErrs pk ||| s.errPresent k
  | 0x028 => s.rd (headKey pk + 0x28)
  | 0x030 => s.rd (headKey pk + 0x30)
  | 0x038 => Word.ofNat ((s.pageOwner page).getD 16)
  | _ => 0

/-- Eight pending bits' worth of the PBA: word `n` of a function (15 R459). -/
def State.pbaWord (s : State) (f n : Nat) : Word :=
  Word.ofNat ((List.range 64).map fun b => b2n (decide (64 * n + b < vectorsOf f) && (s.msixAt f (64 * n + b)).pending) * 2 ^ b).sum

/-- Eight bytes of a function's MSI-X table at a byte offset. -/
def State.msixTable (s : State) (f off : Nat) : Word :=
  if off / 16 < vectorsOf f then Word.ofNat (nbits (s.msixAt f (off / 16)).bits (8 * (off % 16)) 64) else 0

/-- What an aligned 64-bit read of a page returns (19 R559 to R561; 16 R468 for the counters of a CONFIDENTIAL partition). -/
def State.view (s : State) (src page off : Nat) : Word :=
  let f := srcFunc src
  if !s.answers f page then 0
  else
    match pageOf page with
    | none => 0
    | some (.msix, i) => if i = 8 then s.pbaWord f (off / 8) else s.msixTable f (0x1000 * i + off)
    | some (k, i) =>
      let pk := pageKey f page
      if off < 0x100 then s.viewHeader k i pk page off
      else
        match k.regAt off with
        | none => 0
        | some r =>
          let x := s.viewReg src k i off r (s.rd (pk + off))
          if 0x1000 ≤ page ∧ s.confidential (s.pageOwner page) then x &&& ~~~ r.mask .rc else x

end Sys2Proof.Machine
end

