-- ==== Sys2Proof/Machine/Registers.lean ====
section
/-! DEFINITION. BAR0 writes and reads by offset: plain registers by their access codes, registers that stand for records, registers whose write is a command of its own, reads that clear, and reads that are refused (00 R8 to R11, 19 R559 to R561). -/

namespace Sys2Proof.Machine

/-- An answer of the host that carries nothing. -/
def noAnswer : HostAnswer := ⟨[], [], []⟩

/-! ## Plain registers (00 R9) -/

/-- A write of a stored register word by its access codes; FLAGS[0] tells a write that changed nothing (16 R489). -/
def State.plainWrite (s : State) (src page off : Nat) (r : Reg) (v : Word) (ok : Bool) : State :=
  s.offer src page off 8 fun t =>
    let pk := pageKey (srcFunc src) page
    let old := t.rd (pk + off)
    let new := r.written (t.pageLock pk) old v
    if srcFunc src ≠ 0 ∧ ¬ r.vfWrites then t.logWrite src page off v (t.view src page off) false
    else if ok then (t.logWrite src page off v (t.view src page off) (decide (new ≠ old))).wr (pk + off) new
    else (t.logWrite src page off v (t.view src page off) false).accessErr pk

/-- A write of a register that stands for a record: `f` gives the state after it, or none where a rule refuses it. -/
def State.recordWrite (s : State) (src page off : Nat) (v : Word) (f : State → Option State) : State :=
  s.offer src page off 8 fun t =>
    let prev := t.view src page off
    match f t with
    | some u => if u = t then t.logWrite src page off v prev false else (f (t.logWrite src page off v prev true)).getD t
    | none => (t.logWrite src page off v prev false).accessErr (pageKey (srcFunc src) page)

/-! ## The common header (19 R561) -/

/-- A header register after a write. PAGE_CTL.LOCK is only set (00 R10); an error bit whose condition is present is set again (00 R11); writes through a virtual function are ignored. -/
def State.headerWrite (s : State) (src : Nat) (k : PageKind) (page off : Nat) (v : Word) : State :=
  s.recordWrite src page off v fun t =>
    let pk := pageKey 0 page
    if srcFunc src ≠ 0 then some t
    else
      match off with
      | 0x010 => some (t.wr (pk + off) (Word.ofNat (b2n (v.bit 0) + 2 * b2n (v.bit 1 || t.pageLock pk))))
      | 0x020 => some (t.wr (pk + off) ((t.pageErrs pk &&& ~~~ v) ||| t.errPresent k))
      | 0x028 => some (t.wr (pk + off) (v &&& Word.ofNat (2 ^ 63 + 2 ^ 32 - 1)))
      | _ => some t

/-! ## Registers that stand for records -/

/-- MON_OWNER: the physical function assigns the slot that MON_IDX names (08 R268); one taken from a locked partition moves its function to ERROR (16 R476). -/
def State.monOwnerWrite (s : State) (src : Nat) (v : Word) : State :=
  s.recordWrite src 0x4F0 Reg.monOwner.off v fun t =>
    let n := t.fld monPage .monIdx Fld.monIdx_slot
    let m := t.mon n
    let part := Fld.monOwner_partition.get v
    let on := Fld.monOwner_assigned.get v == 1
    some ((t.setMon n { m with part := part, assigned := on }).takenFrom src m.part (m.assigned && !(on && part == m.part)))

/-- Q_STAT: OVERRUN is cleared by writing 1 (09 R282, R296). -/
def State.qStatWrite (s : State) (src : Nat) (v : Word) : State :=
  let f := srcFunc src
  s.recordWrite src 0x400 Reg.qStat.off v fun t =>
    let q := t.fld (objPage f) .objIdx Fld.objIdx_queue
    if t.reachesQueue f q ∧ v.bit 2 then some (t.setQueue q { t.queue q with overrun := false }) else some t

/-- IC_SRC_IDX and IC_HART_IDX: each function and each hart has its own (15 R461; log 40). -/
def State.icIdxWrite (s : State) (src : Nat) (r : Reg) (v : Word) : State :=
  s.recordWrite src 0x500 r.off v fun t =>
    if srcFunc src ≠ 0 ∧ ¬ r.vfWrites then some t
    else some (t.wr (icIdxKey src r) (r.written false (t.rd (icIdxKey src r)) v))

/-- IC_SRC_STAT: OVF is cleared by writing 1 (15 R447, R461). -/
def State.icSrcStatWrite (s : State) (src : Nat) (v : Word) : State :=
  s.recordWrite src 0x500 Reg.icSrcStat.off v fun t =>
    let n := t.icSource src
    if t.icReaches src n ∧ v.bit 8 then some (t.setIrq n { t.irq n with ovf := false }) else some t

/-- IC_HART_CTL: enables and masks the hart that IC_HART_IDX names; a newly enabled one is a target for sources that wait (15 R454, R456). -/
def State.icHartCtlWrite (s : State) (src : Nat) (v : Word) : State :=
  s.recordWrite src 0x500 Reg.icHartCtl.off v fun t =>
    if srcFunc src ≠ 0 then some t
    else
      let n := Fld.icHartIdx_hart.get (t.rd (icIdxKey src .icHartIdx))
      let h := t.hart n
      let en := Fld.icHartCtl_en.get v == 1
      let u := t.setHart n { h with en := en, mask := Fld.icHartCtl_mask.get v == 1 }
      some (if en && !h.en then u.irqRetry else u)

/-- A port that is down and enabled trains (13 R398). -/
def State.trainPort (s : State) (n : Nat) : State :=
  let p := s.port n
  if s.portOn n ∧ p.state = 0 then s.setPort n { p with state := 1 } else s

/-- FAB_PORT_CTL: enables the port that FAB_PORT_IDX names, or takes it down at once; DATELINE is fixed on a locked page (13 R398, R421). -/
def State.portCtlWrite (s : State) (src : Nat) (v : Word) : State :=
  s.recordWrite src 0x800 Reg.fabPortCtl.off v fun t =>
    let n := t.fld fabPage .fabPortIdx Fld.fabPortIdx_port
    let p := t.port n
    let u := t.setPort n { p with en := v.bit 0, dateline := if t.pageLock fabPage then p.dateline else v.bit 1 }
    some (if p.en && !v.bit 0 && p.state != 0 then u.portFall n else u.trainPort n)

/-- FAB_CTL: limits and EN; with EN set, enabled ports train (13 R398, R420, R421). -/
def State.fabCtlWrite (s : State) (src : Nat) (v : Word) : State :=
  s.recordWrite src 0x800 Reg.fabCtl.off v fun t =>
    if Reg.fabCtl.accepts v then some ((List.range 16).foldl State.trainPort (t.writeReg fabPage .fabCtl v)) else none

/-- FAB_RT_DATA: the route entry that FAB_RT_IDX names (13 R400, R421). -/
def State.routeWrite (s : State) (src : Nat) (v : Word) : State :=
  s.recordWrite src 0x800 Reg.fabRtData.off v fun t =>
    match t.routeIdx with
    | some n => some { t with fab := { t.fab with routes := t.fab.routes.put 0 n (v.fld 0 18) } }
    | none => some t

/-- FJ_PEERS: the peer table of the slot that FJ_IDX names, while it is not bound (13 R405, R422). -/
def State.peersWrite (s : State) (src : Nat) (v : Word) : State :=
  s.recordWrite src 0x801 Reg.fjPeers.off v fun t =>
    let n := t.fld jobPage .fjIdx Fld.fjIdx_slot
    let j := t.job n
    if j.bound then some t else some (t.setJob n { j with base := Fld.fjPeers_base.get v, count := Fld.fjPeers_count.get v })

/-- FR_BASE, FR_TAIL and FR_HEAD of the ring that FR_IDX names (13 R410, R422). -/
def State.ringWrite (s : State) (src : Nat) (r : Reg) (v : Word) : State :=
  s.recordWrite src 0x801 r.off v fun t =>
    let n := t.fld jobPage .frIdx Fld.frIdx_ring
    let x := t.ring n
    let a := v.fld 0 52
    some (t.setRing n (if r = .frBase then { x with base := a } else if r = .frTail then { x with tailVa := a } else { x with headVa := a }))

/-- PAT_CTL: MIRROR starts or stops the mirror (16 R491). -/
def State.patCtlWrite (s : State) (src : Nat) (v : Word) : State :=
  s.recordWrite src 0x602 Reg.patCtl.off v fun t => some (t.writeReg patPage .patCtl v).mirrorResume

/-- MB_BUF: a word of the request, while no request is in progress (16 R470, R495). -/
def State.mbBufWrite (s : State) (src i off : Nat) (v : Word) : State :=
  s.recordWrite src (0x610 + i) off v fun t => if t.fld (mbPage i) .mbStat Fld.mbStat_busy = 1 then some t else some (t.wr (mbPage i + off) v)

/-! ## Registers whose write is a command (19 R559: the row of each) -/

/-- ARM_REQ_CTL: GO is FORM, MAQUETTE or RELEASE by MODE; MODE 3 ends with BAD_MODE (02 R37, R48). -/
def State.armReqCtlWrite (s : State) (src c : Nat) (v : Word) : State :=
  if ¬ v.bit 63 then s.plainWrite src (armNo c) Reg.armReqCtl.off .armReqCtl v true
  else
    match Fld.armReqCtl_mode.get v with
    | 0 => opForm src c v s
    | 1 => opMaquette src c v s
    | 2 => opRelease src c v s
    | _ => s.armGo src c v

/-- OBJ_CMD: GO starts the request of its OP; a reserved OP is refused (09 R295). -/
def State.objCmdWrite (s : State) (src : Nat) (v : Word) : State :=
  if ¬ v.bit 63 then s.plainWrite src 0x400 Reg.objCmd.off .objCmd v true
  else
    match Fld.objCmd_op.get v with
    | 0 => opCreateContext src v s
    | 1 => opDestroyContext src v s
    | 2 => opCreateQueue src v s
    | 3 => opDestroyQueue src v s
    | 4 => opRestartQueue src v s
    | 5 => opSetArenaLimit src v s
    | 6 => opResetArena src v s
    | _ => s.triggerIf src 0x400 .objCmd v (fun _ => false) id

/-- ABT_REQ: GO aborts a command or a queue (09 R287). -/
def State.abtReqWrite (s : State) (src : Nat) (v : Word) : State :=
  if ¬ v.bit 63 then s.plainWrite src 0x401 Reg.abtReq.off .abtReq v true
  else if v.bit 14 then opAbortQueue src v s
  else opAbortCommand src v noAnswer s

/-- XL_APT_CTL: GO loads or unloads an aperture; a reserved OP is refused (10 R334). -/
def State.aptCtlWrite (s : State) (src : Nat) (v : Word) : State :=
  if ¬ v.bit 63 then s.plainWrite src 0x402 Reg.xlAptCtl.off .xlAptCtl v true
  else
    match Fld.xlAptCtl_op.get v with
    | 0 => opLoadAperture src v s
    | 1 => opUnloadAperture src v s
    | _ => s.triggerIf src 0x402 .xlAptCtl v (fun _ => false) id

/-- What the root of trust does for an opcode; a reserved one is BAD_CMD (16 R471, R472, 18 R538). -/
def mbAct (i op : Nat) : State → List Byte → MbOut :=
  match op with
  | 0x01 => actGetReport i
  | 0x02 => actGetCerts
  | 0x03 => actPatinaSeal
  | 0x10 => actPartSet
  | 0x11 => actPartPolicy
  | 0x20 => actCastLoad noAnswer
  | 0x21 => actCastAdmit
  | 0x22 => actCastUnload
  | 0x23 => actCastResupply
  | 0x30 => actSpdmRelay
  | 0x31 => actJobKeygen
  | 0x40 => actFwInfo
  | 0x41 => actFwStage noAnswer
  | 0x42 => actFwCommit
  | 0x43 => actFwActivate
  | 0x44 => actBistRun
  | 0x45 => actHealthGet
  | 0x46 => actQuarClear
  | 0x47 => actFatalRead
  | _ => fun s _ => .done 1 [] s

/-- MB_CMD: GO submits the request of its opcode (16 R470). -/
def State.mbCmdWrite (s : State) (src i : Nat) (v : Word) : State :=
  if ¬ v.bit 63 then s.plainWrite src (0x610 + i) Reg.mbCmd.off .mbCmd v true
  else s.mbGo src i (Fld.mbCmd_op.get v) v (mbAct i (Fld.mbCmd_op.get v))

/-- A write of a block-specific register. -/
def State.blockWrite (s : State) (src : Nat) (i page off : Nat) (r : Reg) (v : Word) : State :=
  match r with
  | .armReqCtl => s.armReqCtlWrite src i v
  | .syncMapinv => opSyncMapinv src i v s
  | .sigData => opSigDataWrite src i v s
  | .barCtl => opBarCtlReset src i v s
  | .monOwner => s.monOwnerWrite src v
  | .monArmCtl => opMonArm src v noAnswer s
  | .objCmd => s.objCmdWrite src v
  | .qStat => s.qStatWrite src v
  | .dbOwner => opDbOwnerWrite src v s
  | .frameData => opFrameDataWrite src v s
  | .abtReq => s.abtReqWrite src v
  | .xlInvCtl => if v.bit 63 then opDeviceInvalidate src v s else s.plainWrite src 0x402 off r v true
  | .xlAptCtl => s.aptCtlWrite src v
  | .icSrcIdx => s.icIdxWrite src .icSrcIdx v
  | .icHartIdx => s.icIdxWrite src .icHartIdx v
  | .icSrcCtl => opIcSrcCtlWrite src v s
  | .icSrcTgt => opIcSrcTgtWrite src v s
  | .icSrcStat => s.icSrcStatWrite src v
  | .icAck => opIcAck src v s
  | .icRaise => opIcRaise src v s
  | .icHartCtl => s.icHartCtlWrite src v
  | .fabPortCtl => s.portCtlWrite src v
  | .fabCtl => s.fabCtlWrite src v
  | .fabRtData => s.routeWrite src v
  | .fjCtl => if v.bit 63 then opJobBind src v s else opJobUnbind src v s
  | .fjPeers => s.peersWrite src v
  | .frCtl => opRingEnable src v s
  | .frBase => s.ringWrite src .frBase v
  | .frTail => s.ringWrite src .frTail v
  | .frHead => s.ringWrite src .frHead v
  | .patCtl => s.patCtlWrite src v
  | .mbCmd => s.mbCmdWrite src i v
  | .mbBuf => s.mbBufWrite src i off v
  | .pwrCtl => if v.bit 0 then opStandbyEnter src v s else opStandbyExit src v s
  | .rstCtl => if Fld.rstCtl_full.get v = 1 then opSoftwareReset src v s else s.plainWrite src page off r v true
  | _ => s.plainWrite src page off r v (r.accepts v)

/-- REGISTER_WRITE: a BAR0 write of `size` bytes at `off`: performed by the register's rules, or refused (00 R8 to R10, 19 R559 to R561). Its KIND 1 Patina entry comes first (16 R488). -/
def opRegisterWrite (src off size : Nat) (v : Word) (s : State) : State :=
  let page := off / 0x1000
  let o := off % 0x1000
  match pageOf page with
  | none => s
  | some (.msix, _) => s.msixWrite src (off - 0x510000) size v
  | some (k, i) =>
    match s.verdict src page o size with
    | .ignore => s
    | .error pk => s.accessErr pk
    | .perform =>
      if o < 0x100 then s.headerWrite src k page o v
      else
        match k.regAt o with
        | some r => s.blockWrite src i page o r v
        | none => s.logWrite src page o v 0 false

/-! ## Reads (00 R8, R9) -/

/-- The RC fields of a register are cleared by the read that returns them (00 R9). -/
def State.readClear (s : State) (page off : Nat) (r : Reg) : State :=
  if r = .fabPortStat then
    let n := s.fld fabPage .fabPortIdx Fld.fabPortIdx_port
    s.setPort n { s.port n with replays := 0, downs := 0 }
  else s.wr (page + off) (s.rd (page + off) &&& ~~~ r.mask .rc)

/-- REGISTER_READ_CLEAR: an aligned 64-bit read: the reply is the register's 8 bytes, and its RC fields clear with it (00 R9). A hart's read of IC_CLAIM is IC_CLAIM's. A page that does not answer reads zero (11 R344, 19 R559); no answer comes from a complex that is starting, nor to a function in ERROR (16 R476). -/
def opRegisterReadClear (src off : Nat) (s : State) : State :=
  let page := off / 0x1000
  let o := off % 0x1000
  if off % 8 ≠ 0 then s
  else if ¬ (s.ready || s.startFailed || s.recovery) ∨ s.tdispError (srcFunc src) then { s with reply := [] }
  else if ¬ s.answers (srcFunc src) page then { s with reply := bytesOf 8 0 }
  else
    let w := s.view src page o
    let put := fun (t : State) (x : Word) => { t with reply := bytesOf 8 x.toNat }
    match pageOf page with
    | none => put s w
    | some (k, _) =>
      if o < 0x100 ∨ k = .msix then put s w
      else
        match k.regAt o with
        | none => put s w
        | some r => put (s.readClear (pageKey (srcFunc src) page) o r) w

/-- What an aligned 64-bit read of a doorbell slot returns: HEAD, STATE, and zero for TAIL, for the reserved words and for a slot that shows no page (09 R282, 11 R343, R345). -/
def State.doorbellWord (s : State) (f off : Nat) : Word :=
  match s.dbQueue f off with
  | none => 0
  | some q => if off % 64 = 0x08 then Word.ofNat (s.queue q).head else if off % 64 = 0x10 then Word.ofNat (s.queue q).state else 0

/-- An aligned 64-bit read of BAR2: the reply is the slot's word; no answer comes before the functions answer, in recovery, or to a function in ERROR (09 R282, 16 R476, 18 R534, R536). -/
def opDoorbellRead (f off : Nat) (s : State) : State :=
  if off % 8 ≠ 0 then s
  else if ¬ (s.ready || s.startFailed) ∨ s.tdispError f then { s with reply := [] }
  else { s with reply := bytesOf 8 (s.doorbellWord f off).toNat }

/-- The access-error bit that a refused read sets: of the page for BAR0, of the function page for the MSI-X pages and for the doorbell slots that show a page; a page that does not answer and a slot that shows none record nothing (00 R8, 11 R343, R345, 19 R559). -/
def State.refusedAt (s : State) (src bar off : Nat) : Option Nat :=
  let f := srcFunc src
  let page := off / 0x1000
  if bar = 2 then
    if ¬ (s.ready || s.startFailed) ∨ s.tdispError f then none else (s.dbPageAt f (off / 4096)).map fun _ => funcPage f
  else if bar ≠ 0 ∨ ¬ s.answers f page then none
  else
    match pageOf page with
    | some (.msix, _) => some (funcPage f)
    | some _ => some (pageKey 0 page)
    | none => none

/-- A read whose width or alignment the space refuses: MSI-X takes aligned 32-bit reads too (00 R8, 15 R459, 09 R282). -/
def readRefused (bar off size : Nat) : Bool :=
  let msix : Bool := match pageOf (off / 0x1000) with
    | some (.msix, _) => bar == 0
    | _ => false
  !((size == 8 || (msix && size == 4)) && off % size == 0)

/-- REGISTER_READ_REFUSED: a read of the wrong width or alignment is not performed, returns zero, and sets the access-error bit (00 R8). -/
def opRegisterReadRefused (src bar off size : Nat) (s : State) : State :=
  if ¬ s.up ∨ ¬ readRefused bar off size then s
  else
    let t : State := { s with reply := bytesOf size 0 }
    match s.refusedAt src bar off with
    | some pk => t.accessErr pk
    | none => t

/-! ## Meanings: each command answers the next state that its operation gives. -/

/-- The meaning of REGISTER_WRITE. -/
def execRegisterWrite (x : Sender) (off size : Nat) (v : Word) (s : State) : Host.Outcome State Fault Refusal :=
  .next (s.accept x.rq (opRegisterWrite x.src off size v))
/-- The meaning of REGISTER_READ_CLEAR. -/
def execRegisterReadClear (x : Sender) (a : BarAddr) (s : State) : Host.Outcome State Fault Refusal :=
  .next (s.accept x.rq (if a.bar = 2 then opDoorbellRead (srcFunc x.src) a.off else if a.bar = 0 then opRegisterReadClear x.src a.off else id))
/-- The meaning of REGISTER_READ_REFUSED. -/
def execRegisterReadRefused (x : Sender) (bar off size : Nat) (s : State) : Host.Outcome State Fault Refusal :=
  .next (s.accept x.rq (opRegisterReadRefused x.src bar off size))

end Sys2Proof.Machine
end

