-- ==== Sys2Proof/Machine/Dispatch.lean ====
section
/-! DEFINITION. The command dispatch: one arm per command, each one direct call of its meaning. -/

namespace Sys2Proof.Machine

/-- The effect of a command on everything but the queue. -/
def exec (i : Instr) (s : State) : Host.Outcome State Fault Refusal :=
  match i with
  | .registerWrite x off sz v => Sys2Proof.Machine.execRegisterWrite x off sz v s
  | .registerReadClear x a => Sys2Proof.Machine.execRegisterReadClear x a s
  | .interDieLinkFailure link => Sys2Proof.Machine.execInterDieLinkFailure link s
  | .form src core v => Sys2Proof.Machine.execForm src core v s
  | .maquette src core v => Sys2Proof.Machine.execMaquette src core v s
  | .release src core v => Sys2Proof.Machine.execRelease src core v s
  | .armQueuedRequestStart core => Sys2Proof.Machine.execArmQueuedRequestStart core s
  | .armImageReadDone core => Sys2Proof.Machine.execArmImageReadDone core s
  | .armCellsCleared core => Sys2Proof.Machine.execArmCellsCleared core s
  | .armPreloadDone core => Sys2Proof.Machine.execArmPreloadDone core s
  | .softQuarantineTrigger core e => Sys2Proof.Machine.execSoftQuarantineTrigger core e s
  | .migrationDrained core => Sys2Proof.Machine.execMigrationDrained core s
  | .migrationComplete core => Sys2Proof.Machine.execMigrationComplete core s
  | .hardQuarantineTrigger core cell trigger => Sys2Proof.Machine.execHardQuarantineTrigger core cell trigger s
  | .engineFaulted core eng => Sys2Proof.Machine.execEngineFaulted core eng s
  | .quarantineDeferredStart core => Sys2Proof.Machine.execQuarantineDeferredStart core s
  | .tmma c w => Sys2Proof.Machine.execTmma c w s
  | .tmms c w => Sys2Proof.Machine.execTmms c w s
  | .tacr c w => Sys2Proof.Machine.execTacr c w s
  | .tacw c w => Sys2Proof.Machine.execTacw c w s
  | .ttrn c w => Sys2Proof.Machine.execTtrn c w s
  | .tacx c w => Sys2Proof.Machine.execTacx c w s
  | .tkopWait c w => Sys2Proof.Machine.execTkopWait c w s
  | .tkopWaitn c w => Sys2Proof.Machine.execTkopWaitn c w s
  | .tkopRead c w => Sys2Proof.Machine.execTkopRead c w s
  | .tkopTest c w => Sys2Proof.Machine.execTkopTest c w s
  | .tkopWaitEnd c => Sys2Proof.Machine.execTkopWaitEnd c s
  | .tdscLd c w => Sys2Proof.Machine.execTdscLd c w s
  | .tdscSt c w => Sys2Proof.Machine.execTdscSt c w s
  | .tdscSetw0 c w => Sys2Proof.Machine.execTdscSetw0 c w s
  | .tdscSetw1 c w => Sys2Proof.Machine.execTdscSetw1 c w s
  | .tdscGetw0 c w => Sys2Proof.Machine.execTdscGetw0 c w s
  | .tdscGetw1 c w => Sys2Proof.Machine.execTdscGetw1 c w s
  | .tdscAddi c w => Sys2Proof.Machine.execTdscAddi c w s
  | .tdscAdds c w => Sys2Proof.Machine.execTdscAdds c w s
  | .mvrl c w => Sys2Proof.Machine.execMvrl c w s
  | .mvdm c w => Sys2Proof.Machine.execMvdm c w s
  | .mvbc c w => Sys2Proof.Machine.execMvbc c w s
  | .queuedOpStart c q n => Sys2Proof.Machine.execQueuedOpStart c q n s
  | .tensorOpComplete c => Sys2Proof.Machine.execTensorOpComplete c s
  | .mvrlComplete c n bad => Sys2Proof.Machine.execMvrlComplete c n bad s
  | .mvdmComplete c n h => Sys2Proof.Machine.execMvdmComplete c n h s
  | .mvbcComplete c n => Sys2Proof.Machine.execMvbcComplete c n s
  | .sop c w => Sys2Proof.Machine.execSop c w s
  | .sopi c w => Sys2Proof.Machine.execSopi c w s
  | .smd c w => Sys2Proof.Machine.execSmd c w s
  | .movi c w => Sys2Proof.Machine.execMovi c w s
  | .movhi c w => Sys2Proof.Machine.execMovhi c w s
  | .bcc c w => Sys2Proof.Machine.execBcc c w s
  | .bcci c w => Sys2Proof.Machine.execBcci c w s
  | .jal c w => Sys2Proof.Machine.execJal c w s
  | .jalr c w => Sys2Proof.Machine.execJalr c w s
  | .nopInstr c w => Sys2Proof.Machine.execNopInstr c w s
  | .ld c w => Sys2Proof.Machine.execLd c w s
  | .st c w => Sys2Proof.Machine.execSt c w s
  | .amo c w => Sys2Proof.Machine.execAmo c w s
  | .cas c w => Sys2Proof.Machine.execCas c w s
  | .lr c w => Sys2Proof.Machine.execLr c w s
  | .sc c w => Sys2Proof.Machine.execSc c w s
  | .acvt c w => Sys2Proof.Machine.execAcvt c w s
  | .memoryAccessReturn c n h => Sys2Proof.Machine.execMemoryAccessReturn c n h s
  | .storeBufferDrain c n => Sys2Proof.Machine.execStoreBufferDrain c n s
  | .storePoisonReturn c => Sys2Proof.Machine.execStorePoisonReturn c s
  | .fence c w => Sys2Proof.Machine.execFence c w s
  | .fenceComplete c => Sys2Proof.Machine.execFenceComplete c s
  | .sigAdd c w => Sys2Proof.Machine.execSigAdd c w s
  | .sigWait c w => Sys2Proof.Machine.execSigWait c w s
  | .sigRead c w => Sys2Proof.Machine.execSigRead c w s
  | .sigAddb c w => Sys2Proof.Machine.execSigAddb c w s
  | .sigWaitSatisfied c => Sys2Proof.Machine.execSigWaitSatisfied c s
  | .addbAdmitted c => Sys2Proof.Machine.execAddbAdmitted c s
  | .barSync c w => Sys2Proof.Machine.execBarSync c w s
  | .barArrive c w => Sys2Proof.Machine.execBarArrive c w s
  | .barWait c w => Sys2Proof.Machine.execBarWait c w s
  | .barrierArrival core eng bid => Sys2Proof.Machine.execBarrierArrival core eng bid s
  | .fsig c w => Sys2Proof.Machine.execFsig c w s
  | .fwait c w h => Sys2Proof.Machine.execFwait c w h s
  | .fwaitPoll c h => Sys2Proof.Machine.execFwaitPoll c h s
  | .fwaitTimeout c h => Sys2Proof.Machine.execFwaitTimeout c h s
  | .monitorWake slot h => Sys2Proof.Machine.execMonitorWake slot h s
  | .varOp c w => Sys2Proof.Machine.execVarOp c w s
  | .vint c w => Sys2Proof.Machine.execVint c w s
  | .vcmp c w => Sys2Proof.Machine.execVcmp c w s
  | .vcvt c w => Sys2Proof.Machine.execVcvt c w s
  | .vld c w => Sys2Proof.Machine.execVld c w s
  | .vst c w => Sys2Proof.Machine.execVst c w s
  | .vred c w => Sys2Proof.Machine.execVred c w s
  | .vperm c w => Sys2Proof.Machine.execVperm c w s
  | .vacc c w => Sys2Proof.Machine.execVacc c w s
  | .vpred c w => Sys2Proof.Machine.execVpred c w s
  | .vsel c w => Sys2Proof.Machine.execVsel c w s
  | .sysr c w => Sys2Proof.Machine.execSysr c w s
  | .sysw c w => Sys2Proof.Machine.execSysw c w s
  | .endCmd c w => Sys2Proof.Machine.execEndCmd c w s
  | .trap c w => Sys2Proof.Machine.execTrap c w s
  | .brk c w => Sys2Proof.Machine.execBrk c w s
  | .engineCommandComplete core eng => Sys2Proof.Machine.execEngineCommandComplete core eng s
  | .cellTrap c cause => Sys2Proof.Machine.execCellTrap c cause s
  | .trapDrainDone core eng => Sys2Proof.Machine.execTrapDrainDone core eng s
  | .ew c w => Sys2Proof.Machine.execEw c w s
  | .castOp c w => Sys2Proof.Machine.execCastOp c w s
  | .red c w => Sys2Proof.Machine.execRed c w s
  | .recipe c w => Sys2Proof.Machine.execRecipe c w s
  | .flagrd c w => Sys2Proof.Machine.execFlagrd c w s
  | .fill c w => Sys2Proof.Machine.execFill c w s
  | .reliefCmdComplete c bad => Sys2Proof.Machine.execReliefCmdComplete c bad s
  | .racc c w => Sys2Proof.Machine.execRacc c w s
  | .raccApply c n granule err => Sys2Proof.Machine.execRaccApply c n granule err s
  | .raccComplete c n => Sys2Proof.Machine.execRaccComplete c n s
  | .readShared agent line err => Sys2Proof.Machine.execReadShared agent line err s
  | .readOwn agent line => Sys2Proof.Machine.execReadOwn agent line s
  | .ownershipGrant agent line => Sys2Proof.Machine.execOwnershipGrant agent line s
  | .writeBack agent line => Sys2Proof.Machine.execWriteBack agent line s
  | .nonallocRead line err => Sys2Proof.Machine.execNonallocRead line err s
  | .nonallocWrite line mask data => Sys2Proof.Machine.execNonallocWrite line mask data s
  | .atomicAtHome c n h => Sys2Proof.Machine.execAtomicAtHome c n h s
  | .fenceSignal n h => Sys2Proof.Machine.execFenceSignal n h s
  | .fenceErrorWrite n h => Sys2Proof.Machine.execFenceErrorWrite n h s
  | .holdExpiry agent line => Sys2Proof.Machine.execHoldExpiry agent line s
  | .directoryReclaim line => Sys2Proof.Machine.execDirectoryReclaim line s
  | .cacheUncorrectableError agent line => Sys2Proof.Machine.execCacheUncorrectableError agent line s
  | .hostSnoop line kind => Sys2Proof.Machine.execHostSnoop line kind s
  | .hostOrderedAck f => Sys2Proof.Machine.execHostOrderedAck f s
  | .syncMapinv src core v => Sys2Proof.Machine.execSyncMapinv src core v s
  | .sigDataWrite src core v => Sys2Proof.Machine.execSigDataWrite src core v s
  | .barCtlReset src core v => Sys2Proof.Machine.execBarCtlReset src core v s
  | .monArm src v h => Sys2Proof.Machine.execMonArm src v h s
  | .engineWatchdog c => Sys2Proof.Machine.execEngineWatchdog c s
  | .barrierWatchdog core unit => Sys2Proof.Machine.execBarrierWatchdog core unit s
  | .createContext src v => Sys2Proof.Machine.execCreateContext src v s
  | .destroyContext src v => Sys2Proof.Machine.execDestroyContext src v s
  | .createQueue src v => Sys2Proof.Machine.execCreateQueue src v s
  | .destroyQueue src v => Sys2Proof.Machine.execDestroyQueue src v s
  | .restartQueue src v => Sys2Proof.Machine.execRestartQueue src v s
  | .setArenaLimit src v => Sys2Proof.Machine.execSetArenaLimit src v s
  | .resetArena src v => Sys2Proof.Machine.execResetArena src v s
  | .stagingRecordReadDone f h => Sys2Proof.Machine.execStagingRecordReadDone f h s
  | .arenaCursorRead c n => Sys2Proof.Machine.execArenaCursorRead c n s
  | .arenaAlloc c n => Sys2Proof.Machine.execArenaAlloc c n s
  | .dbOwnerWrite src v => Sys2Proof.Machine.execDbOwnerWrite src v s
  | .frameDataWrite src v => Sys2Proof.Machine.execFrameDataWrite src v s
  | .doorbellTail x off sz v => Sys2Proof.Machine.execDoorbellTail x off sz v s
  | .queueFetch q h => Sys2Proof.Machine.execQueueFetch q h s
  | .commandStart q seq => Sys2Proof.Machine.execCommandStart q seq s
  | .waitConditionMet q seq h => Sys2Proof.Machine.execWaitConditionMet q seq h s
  | .watcherPoll q seq h => Sys2Proof.Machine.execWatcherPoll q seq h s
  | .nopCommand q seq => Sys2Proof.Machine.execNopCommand q seq s
  | .copyCmd q seq => Sys2Proof.Machine.execCopyCmd q seq s
  | .inlineCmd q seq => Sys2Proof.Machine.execInlineCmd q seq s
  | .engineCmd q seq => Sys2Proof.Machine.execEngineCmd q seq s
  | .armatureCmd q seq => Sys2Proof.Machine.execArmatureCmd q seq s
  | .completionReport q seq => Sys2Proof.Machine.execCompletionReport q seq s
  | .abortCommand src v h => Sys2Proof.Machine.execAbortCommand src v h s
  | .abortQueue src v => Sys2Proof.Machine.execAbortQueue src v s
  | .abortStopDone n h => Sys2Proof.Machine.execAbortStopDone n h s
  | .abortQuiesced n h => Sys2Proof.Machine.execAbortQuiesced n h s
  | .pageWalk unit ctx va => Sys2Proof.Machine.execPageWalk unit ctx va s
  | .deviceInvalidate src v => Sys2Proof.Machine.execDeviceInvalidate src v s
  | .deviceInvalidateDone f => Sys2Proof.Machine.execDeviceInvalidateDone f s
  | .loadAperture src v => Sys2Proof.Machine.execLoadAperture src v s
  | .unloadAperture src v => Sys2Proof.Machine.execUnloadAperture src v s
  | .atsCompletion f pasid va r => Sys2Proof.Machine.execAtsCompletion f pasid va r s
  | .atsInvalidation f pasid va len => Sys2Proof.Machine.execAtsInvalidation f pasid va len s
  | .chiselFault n stream x h => Sys2Proof.Machine.execChiselFault n stream x h s
  | .prgResponse f tag code => Sys2Proof.Machine.execPrgResponse f tag code s
  | .priTimeout f tag => Sys2Proof.Machine.execPriTimeout f tag s
  | .pretranslationDone q seq h => Sys2Proof.Machine.execPretranslationDone q seq h s
  | .hostDisablesAtsPri f => Sys2Proof.Machine.execHostDisablesAtsPri f s
  | .windowRead x off len => Sys2Proof.Machine.execWindowRead x off len s
  | .windowWrite x off data => Sys2Proof.Machine.execWindowWrite x off data s
  | .chiselStreamStart n h => Sys2Proof.Machine.execChiselStreamStart n h s
  | .chiselDescriptorComplete n stream h => Sys2Proof.Machine.execChiselDescriptorComplete n stream h s
  | .hostRequestFailure q seq => Sys2Proof.Machine.execHostRequestFailure q seq s
  | .quantumExpiry core ctx => Sys2Proof.Machine.execQuantumExpiry core ctx s
  | .switchDecided core ctx => Sys2Proof.Machine.execSwitchDecided core ctx s
  | .switchDrained core => Sys2Proof.Machine.execSwitchDrained core s
  | .switchComplete core => Sys2Proof.Machine.execSwitchComplete core s
  | .chiselStreamPreempt n stream tiles h => Sys2Proof.Machine.execChiselStreamPreempt n stream tiles h s
  | .chiselStreamResume n => Sys2Proof.Machine.execChiselStreamResume n s
  | .portDown port cause => Sys2Proof.Machine.execPortDown port cause s
  | .portUp x => Sys2Proof.Machine.execPortUp x s
  | .packetForward rx p => Sys2Proof.Machine.execPacketForward rx p s
  | .putPacket p => Sys2Proof.Machine.execPutPacket p s
  | .accPacket p => Sys2Proof.Machine.execAccPacket p s
  | .sigPacket p => Sys2Proof.Machine.execSigPacket p s
  | .getPacket p => Sys2Proof.Machine.execGetPacket p s
  | .getrespPacket p => Sys2Proof.Machine.execGetrespPacket p s
  | .ackPacket p => Sys2Proof.Machine.execAckPacket p s
  | .nakPacket p => Sys2Proof.Machine.execNakPacket p s
  | .ringTailAdvance ring => Sys2Proof.Machine.execRingTailAdvance ring s
  | .putDescriptor ring idx => Sys2Proof.Machine.execPutDescriptor ring idx s
  | .accDescriptor ring idx => Sys2Proof.Machine.execAccDescriptor ring idx s
  | .sigDescriptor ring idx => Sys2Proof.Machine.execSigDescriptor ring idx s
  | .getDescriptor ring idx => Sys2Proof.Machine.execGetDescriptor ring idx s
  | .barrierDescriptor ring idx => Sys2Proof.Machine.execBarrierDescriptor ring idx s
  | .descriptorRetire ring idx => Sys2Proof.Machine.execDescriptorRetire ring idx s
  | .retransmit slot rank psn => Sys2Proof.Machine.execRetransmit slot rank psn s
  | .storeWatchdog slot rank psn => Sys2Proof.Machine.execStoreWatchdog slot rank psn s
  | .unreachableTimeout slot rank => Sys2Proof.Machine.execUnreachableTimeout slot rank s
  | .jobBind src v => Sys2Proof.Machine.execJobBind src v s
  | .jobUnbind src v => Sys2Proof.Machine.execJobUnbind src v s
  | .ringEnable src v => Sys2Proof.Machine.execRingEnable src v s
  | .scrubDone frame => Sys2Proof.Machine.execScrubDone frame s
  | .icRaise src v => Sys2Proof.Machine.execIcRaise src v s
  | .fixedConditionChange source => Sys2Proof.Machine.execFixedConditionChange source s
  | .icAck src v => Sys2Proof.Machine.execIcAck src v s
  | .icSrcCtlWrite src v => Sys2Proof.Machine.execIcSrcCtlWrite src v s
  | .icSrcTgtWrite src v => Sys2Proof.Machine.execIcSrcTgtWrite src v s
  | .coalesceTimerExpiry source => Sys2Proof.Machine.execCoalesceTimerExpiry source s
  | .msixVectorUnmask f vec v => Sys2Proof.Machine.execMsixVectorUnmask f vec v s
  | .icClaim hart => Sys2Proof.Machine.execIcClaim hart s
  | .getReport f v => Sys2Proof.Machine.execGetReport f v s
  | .getCerts f v => Sys2Proof.Machine.execGetCerts f v s
  | .patinaSeal f v => Sys2Proof.Machine.execPatinaSeal f v s
  | .partSet f v => Sys2Proof.Machine.execPartSet f v s
  | .partPolicy f v => Sys2Proof.Machine.execPartPolicy f v s
  | .castLoad f v h => Sys2Proof.Machine.execCastLoad f v h s
  | .castAdmit f v => Sys2Proof.Machine.execCastAdmit f v s
  | .castUnload f v => Sys2Proof.Machine.execCastUnload f v s
  | .castResupply f v => Sys2Proof.Machine.execCastResupply f v s
  | .spdmRelay f v => Sys2Proof.Machine.execSpdmRelay f v s
  | .jobKeygen f v => Sys2Proof.Machine.execJobKeygen f v s
  | .jobKey slot keySlot req => Sys2Proof.Machine.execJobKey slot keySlot req s
  | .spdmMessage chan msg => Sys2Proof.Machine.execSpdmMessage chan msg s
  | .recast h => Sys2Proof.Machine.execRecast h s
  | .recastComplete ok => Sys2Proof.Machine.execRecastComplete ok s
  | .lockInterface f => Sys2Proof.Machine.execLockInterface f s
  | .stopInterface f => Sys2Proof.Machine.execStopInterface f s
  | .ideIntegrityFailure f => Sys2Proof.Machine.execIdeIntegrityFailure f s
  | .fwInfo f v => Sys2Proof.Machine.execFwInfo f v s
  | .fwStage f v h => Sys2Proof.Machine.execFwStage f v h s
  | .fwCommit f v => Sys2Proof.Machine.execFwCommit f v s
  | .fwActivate f v => Sys2Proof.Machine.execFwActivate f v s
  | .bistRun f v => Sys2Proof.Machine.execBistRun f v s
  | .healthGet f v => Sys2Proof.Machine.execHealthGet f v s
  | .quarClear f v => Sys2Proof.Machine.execQuarClear f v s
  | .fatalRead f v => Sys2Proof.Machine.execFatalRead f v s
  | .flashWriteComplete => Sys2Proof.Machine.execFlashWriteComplete s
  | .queryDeviceIdentifiers => Sys2Proof.Machine.execQueryDeviceIdentifiers s
  | .getFirmwareParameters => Sys2Proof.Machine.execGetFirmwareParameters s
  | .requestUpdate len => Sys2Proof.Machine.execRequestUpdate len s
  | .passComponentTable => Sys2Proof.Machine.execPassComponentTable s
  | .updateComponent => Sys2Proof.Machine.execUpdateComponent s
  | .requestFirmwareData off data => Sys2Proof.Machine.execRequestFirmwareData off data s
  | .transferComplete => Sys2Proof.Machine.execTransferComplete s
  | .verifyComplete => Sys2Proof.Machine.execVerifyComplete s
  | .applyComplete => Sys2Proof.Machine.execApplyComplete s
  | .activateFirmware => Sys2Proof.Machine.execActivateFirmware s
  | .getStatus => Sys2Proof.Machine.execGetStatus s
  | .cancelUpdateComponent => Sys2Proof.Machine.execCancelUpdateComponent s
  | .cancelUpdate => Sys2Proof.Machine.execCancelUpdate s
  | .throttleReqRise die => Sys2Proof.Machine.execThrottleReqRise die s
  | .throttleReqFall die => Sys2Proof.Machine.execThrottleReqFall die s
  | .throttleLong die => Sys2Proof.Machine.execThrottleLong die s
  | .droopTrip island => Sys2Proof.Machine.execDroopTrip island s
  | .droopSelfTest island pass => Sys2Proof.Machine.execDroopSelfTest island pass s
  | .handshakeTimeout island partner => Sys2Proof.Machine.execHandshakeTimeout island partner s
  | .powerControlStep demand => Sys2Proof.Machine.execPowerControlStep demand s
  | .thermalSample readings => Sys2Proof.Machine.execThermalSample readings s
  | .thermalThrottleStep => Sys2Proof.Machine.execThermalThrottleStep s
  | .energySample rails => Sys2Proof.Machine.execEnergySample rails s
  | .standbyEnter src v => Sys2Proof.Machine.execStandbyEnter src v s
  | .standbyExit src v => Sys2Proof.Machine.execStandbyExit src v s
  | .fatalCause code detail => Sys2Proof.Machine.execFatalCause code detail s
  | .supervisionWatchdog agent => Sys2Proof.Machine.execSupervisionWatchdog agent s
  | .pwrGoodRise => Sys2Proof.Machine.execPwrGoodRise s
  | .pwrGoodFall => Sys2Proof.Machine.execPwrGoodFall s
  | .resetNPulse => Sys2Proof.Machine.execResetNPulse s
  | .softwareReset src v => Sys2Proof.Machine.execSoftwareReset src v s
  | .pfFlr => Sys2Proof.Machine.execPfFlr s
  | .vfFlr f => Sys2Proof.Machine.execVfFlr f s
  | .refclkLoss clk => Sys2Proof.Machine.execRefclkLoss clk s
  | .startUpStepDone r => Sys2Proof.Machine.execStartUpStepDone r s
  | .linkDown ports => Sys2Proof.Machine.execLinkDown ports s
  | .linkUp => Sys2Proof.Machine.execLinkUp s
  | .linkLossTimeout => Sys2Proof.Machine.execLinkLossTimeout s
  | .tapUnlock tokenOk => Sys2Proof.Machine.execTapUnlock tokenOk s
  | .configurationRequest port f req => Sys2Proof.Machine.execConfigurationRequest port f req s
  | .startInterface f => Sys2Proof.Machine.execStartInterface f s
  | .flitReplay rx failed frequent => Sys2Proof.Machine.execFlitReplay rx failed frequent s
  | .droopRecovery island => Sys2Proof.Machine.execDroopRecovery island s
  | .hostLineOwnershipGrant line data => Sys2Proof.Machine.execHostLineOwnershipGrant line data s
  | .refclkRelock clk => Sys2Proof.Machine.execRefclkRelock clk s
  | .registerReadRefused x bar off sz => Sys2Proof.Machine.execRegisterReadRefused x bar off sz s
  | .dynamicAddressAssignment addr => Sys2Proof.Machine.execDynamicAddressAssignment addr s

end Sys2Proof.Machine
end

