-- ==== Sys2Proof/Machine/Tick.lean ====
section
/-! DEFINITION. What a step with no command does. -/

namespace Sys2Proof.Machine

/-- A nanosecond with some THROTTLE_REQ asserted: PWR_THR.TIME_US counts whole microseconds of them (17 R520). -/
def State.throttled (s : State) : State :=
  if s.board.thrReq % 16 = 0 then s
  else if s.board.thrNs = 999 then { s with board := { s.board with thrNs := 0 } }.bump (regKey 0x700 0) .pwrThr Fld.pwrThr_timeUs 1
  else { s with board := { s.board with thrNs := s.board.thrNs + 1 } }

/-- The time counter counts from the end of reset (19 R563), and the throttle time with it (17 R520); nothing else happens (log 1). -/
def tick (s : State) : State :=
  if s.up then { s.throttled with time := (s.time + 1) % 2 ^ 64 } else s

end Sys2Proof.Machine
end

