-- ==== Sys2Proof/Safety.lean ====
section
/-! DEFINITION. The words that statements about the complex are said in: when a cell issues, what a step has kept, and the canonical form of the memories. -/

namespace Sys2Proof.Machine

/-! ## What is kept -/

/-- A byte of stack memory by its device physical address (14 R425). -/
def State.devByte (s : State) (a : Nat) : Byte := s.mem.dev.read a

/-- A byte of the Relief bank of a logical position (06 R174). -/
def State.bankByte (s : State) (k a : Nat) : Byte := (s.bank k).data.read a

/-- Stack memory and its poison, the caches, the banks and the frames are as before. -/
def State.keptMemory (s t : State) : Prop := t.mem = s.mem

/-- Everything is as before but cells, and of the cells only the one with key `k`; free values may have been drawn. -/
def State.keptButCell (s t : State) (k : Nat) : Prop :=
  t = { s with cells := t.cells, draws := t.draws } ∧ ∀ j, j ≠ k → t.cell j = s.cell j

/-- Everything is as before but one cell and what it has in flight. -/
def State.keptButFlight (s t : State) (k : Nat) : Prop :=
  t = { s with cells := t.cells, flights := t.flights, draws := t.draws } ∧ (∀ j, j ≠ k → t.cell j = s.cell j)
    ∧ ∀ j, j ≠ k → t.flight j = s.flight j

/-! ## Cells -/

/-- The cell that a reference names. -/
def State.cellAt (s : State) (c : CellRef) : Cell := s.cell (s.cellKey c)

/-- What that cell has in flight. -/
def State.flightAt (s : State) (c : CellRef) : Flight := s.flight (s.cellKey c)

/-- The cell issues a word now: it runs, its program counter lies in the code section, and no register that the word names is awaited (05 R132, R137, R138, R170). -/
def State.canIssue (s : State) (c : CellRef) (regs : List Nat) : Prop :=
  s.cellRuns c = true ∧ (s.at c).inCode = true ∧ regs.any (s.flightAt c).awaits = false

/-- The instruction is done in its cell, which is now `y` with the next program counter; nothing else has changed. -/
def State.cellDone (s t : State) (c : CellRef) (y : Cell) : Prop :=
  t.cell (s.cellKey c) = y.next ∧ s.keptButCell t (s.cellKey c)

/-- The instruction has written scalar register `rd` of its cell: s0 stays 0, the other scalar registers and the rest of the cell are as before, and the program counter has moved on by 8 (05 R129, R137). -/
def State.scalarDone (s t : State) (c : CellRef) (rd : Nat) (v : Word) : Prop :=
  let k := s.cellKey c
  (t.cell k).s rd = (if rd = 0 then 0 else v) ∧ (∀ r, r ≠ rd → (t.cell k).s r = (s.cell k).s r)
    ∧ t.cell k = { s.cell k with sregs := (t.cell k).sregs, pc := (s.cell k).pc + 8, cycles := (s.cell k).cycles + 1 }
    ∧ s.keptButCell t k

/-- The cell has gone on from a blocking instruction (05 R172), and has changed in nothing else but what `y` says. -/
def State.cellResumed (s t : State) (c : CellRef) (y : Cell) : Prop := t.cell (s.cellKey c) = y.resume

/-- The cell has trapped with a code: TRAPREC holds code, information and program counter, and the cell has stopped (05 R168, R171, R172). -/
def State.cellTrapped (s t : State) (c : CellRef) (code info pc : Nat) : Prop :=
  (t.cell (s.cellKey c)).traprec = trapWord code info pc ∧ (t.cell (s.cellKey c)).phase = .stopped

/-- The operand store that an operation is issued with: a RACC reads what it names from then on, the others from their start (04 R109, 06 R194). -/
def issuedWith (x : Cell) (kind : AsyncKind) : Option Mem :=
  match kind with
  | .racc .. => some x.ops
  | _ => none

/-- An asynchronous operation has been issued: it is the newest of its queue, its token's PENDING has risen, and the program counter has moved on (04 R105, R107). -/
def State.asyncIssued (s t : State) (c : CellRef) (w : Word) (kind : AsyncKind) : Prop :=
  let k := s.cellKey c
  let f := s.flight k
  t.cell k = ((s.cell k).tokIssue (ksOf w)).next
    ∧ t.flight k = { f.enqueue ⟨f.seq, (s.cell k).pc, ksOf w, kwOf w, kind, false, [], [], issuedWith (s.cell k) kind⟩ with seq := f.seq + 1 }
    ∧ s.keptButFlight t k

/-- The queue of a kind has room and the token can count one more (04 R105, R107). -/
def State.asyncRoom (s : State) (c : CellRef) (w : Word) (kind : AsyncKind) : Prop :=
  ((s.flightAt c).queueOf kind).1.length < ((s.flightAt c).queueOf kind).2 ∧ (s.cellAt c).pendingOf (ksOf w) < 255

/-! ## Results -/

/-- The lanes of a masked vector result: lane i is `f i` where the predicate's bit is set, 0 elsewhere under ZM, and unchanged elsewhere without it (05 R154). Other vector registers, the scalar registers and the program's other state are as before. -/
def vectorLanes (s t : State) (c : CellRef) (bf : Bool) (vd pm : Nat) (zm : Bool) (f : Nat → Nat) : Prop :=
  let k := s.cellKey c
  let x := s.cell k
  let y := t.cell k
  (∀ i, i < (if bf then 256 else 128) →
    (if bf then y.half vd i else y.lane vd i) =
      (if x.active pm i then f i % (if bf then 2 ^ 16 else 2 ^ 32) else if zm then 0 else if bf then x.half vd i else x.lane vd i))
    ∧ (∀ v i, v ≠ vd → i < 128 → y.lane v i = x.lane v i)
    ∧ y = { x with vregs := y.vregs, aflags := y.aflags, pc := x.pc + 8, cycles := x.cycles + 1 } ∧ s.keptButCell t k

/-- A token word after an operation on it has completed: PENDING falls by one, DONE counts modulo 2^32, and a failure sets ERR and CODE where ERR is clear (04 R106, R108, R110). -/
def tokenAdvanced (x y : Cell) (ks code : Nat) : Prop :=
  let a := x.tok ks
  let b := y.tok ks
  b.fld 0 8 = a.fld 0 8 - 1 ∧ b.fld 16 32 = (a.fld 16 32 + 1) % 2 ^ 32
    ∧ (if code = 0 ∨ a.bit 63 = true then b.fld 48 16 = a.fld 48 16 else b.bit 63 = true ∧ b.fld 48 15 = code % 2 ^ 15)
    ∧ ∀ k, k ≠ ks → y.tok k = x.tok k

/-- An access has gone out to memory: it is the newest of the cell's outstanding ones, its destination is awaited, and the program counter has moved on; memory is as it was (05 R132, R140). -/
def accessOut (s t : State) (c : CellRef) (sd : Nat) (kind : LoadKind) (va : Nat) (p : Place) (n tag : Nat) (acq rel : Bool) : Prop :=
  let k := s.cellKey c
  let f := s.flight k
  t.cell k = (s.cell k).next ∧ t.mem = s.mem
    ∧ t.flight k = { f with loads := f.loads ++ [⟨f.seq, (s.cell k).pc, sd, kind, va, p, n, tag, acq, rel, none, 0, []⟩], seq := f.seq + 1
                            busy := if sd = 0 then f.busy else setBit f.busy sd }

/-- The words that an identifier's translation reads are cached or can be read now, and translating gives an entry (08 R237 to R241). -/
def mapped {α : Type} (s : State) (c : CellRef) (words : List Nat) (entry : Except Nat α) (x : α) : Prop :=
  words.all (s.mapReady (s.engine c.core c.eng).ctx c.core) = true ∧ entry = .ok x

/-- A counter after an amount is added: the exact sum, or all ones with SAT where it does not fit 63 bits, and nothing where SAT was set (08 R243). -/
def counterAdded (old new : Word) (amount : Nat) : Prop :=
  if old.bit 63 = true then new = old else if 2 ^ 63 ≤ old.toNat + amount then new = BitVec.allOnes 64 else new = Word.ofNat (old.toNat + amount)

/-! ## Register writes -/

/-- The state in which a register's triggering write takes its effect: the write is recorded, and the register has taken its fields (00 R9, 16 R488). -/
def State.triggered (s : State) (src page : Nat) (r : Reg) (v : Word) : State :=
  (s.logWrite src page r.off v (s.reg (pageKey (srcFunc src) page) r) true).writeReg (pageKey (srcFunc src) page) r v

/-- The registers whose write is more than a change of their own stored fields: the write is a command of the table, or the register stands for a record. -/
def ownRowRegs : List Reg :=
  [.armReqCtl, .syncMapinv, .sigData, .barCtl, .monOwner, .monArmCtl, .objCmd, .qStat, .dbOwner, .frameData, .abtReq, .xlInvCtl, .xlAptCtl,
   .icSrcIdx, .icHartIdx, .icSrcCtl, .icSrcTgt, .icSrcStat, .icAck, .icRaise, .icHartCtl, .fabPortCtl, .fabCtl, .fabRtData, .fjCtl, .fjPeers,
   .frCtl, .frBase, .frTail, .frHead, .patCtl, .mbCmd, .mbBuf, .pwrCtl, .rstCtl]

/-! ## The fabric -/

/-- A packet sent has joined this complex's arrivals, or has left on a candidate port of its destination, which keeps it until it is acknowledged, or waits for a credit; with no port up it is lost (13 R397, R400, R401). -/
def State.leaves (s t : State) (p : Packet) : Prop :=
  (p.dst = s.devId → ⟨none, p⟩ ∈ t.fab.ingress)
    ∧ (p.dst ≠ s.devId → s.candidates p.dst ≠ [] →
        (∃ q ∈ s.candidates p.dst, ∃ n v, (n, { p with vl := v }) ∈ (t.port q).kept) ∨ ⟨p, none⟩ ∈ t.fab.egress)

/-- The packet that goes out for one of a slot: sealed under the key that it names (13 R408). -/
def State.sealedFor (s : State) (slot : Nat) (p : Packet) : Packet :=
  match (s.job slot).key p.keyIdx with
  | some k => p.sealed k
  | none => p

/-- No descriptor has more to send, and no GET is being served. -/
def State.fabIdle (s : State) : Prop :=
  s.fab.gets = [] ∧ ∀ e ∈ s.fab.rings, ∀ d ∈ e.2.descs, d.started = false ∨ d.done = true ∨ d.code ≠ 0 ∨ d.sent = d.total ∨ d.kind = 5

/-! ## The root of trust and resets -/

/-- A mailbox request has ended: BUSY is clear, DONE set, and STATUS, RLEN and the response are there (16 R470). -/
def State.mbAnswered (t : State) (f status : Nat) (rsp : List Byte) : Prop :=
  t.fld (mbPage f) .mbStat Fld.mbStat_busy = 0 ∧ t.fld (mbPage f) .mbStat Fld.mbStat_done = 1 ∧ t.fld (mbPage f) .mbStat Fld.mbStat_status = status
    ∧ t.fld (mbPage f) .mbStat Fld.mbStat_rlen = rsp.length ∧ t.mbRequest f rsp.length = rsp

/-- A full reset with a cause has happened: everything but fuses, package flash and pins is as after a reset, start-up is about to begin, and the starts have been counted (18 R529). -/
def State.restarted (s t : State) (cause : Nat) : Prop :=
  t.fld rstPage .rstCause Fld.rstCause_cause = cause ∧ t.fld rstPage .startStat Fld.startStat_step = 0 ∧ t.ready = false
    ∧ t.pl = Plinth.reset ∧ t.sec = Security.reset ∧ t.mem = MemSys.reset ∧ t.homes = [] ∧ t.fab = Fabric.reset ∧ t.cores = [] ∧ t.cells = [] ∧ t.time = 0
    ∧ t.flash.starts = (s.flash.starts + 1) % 2 ^ 32 ∧ t.flash.thermTrip = false ∧ t.flash.writing = [] ∧ t.pending = s.pending

/-! ## Canonical form -/

/-- Stack memory is in canonical form: addresses strictly rising, and no byte listed that an unlisted address would read as. -/
def State.devWf (s : State) : Prop := Mem.Wf s.mem.dev

end Sys2Proof.Machine
end

