-- ==== Sys2Proof/Certificates/Slice0/Obligations.lean ====
section
/-! DEFINITION. What is claimed of the model: one statement for each of the rules of the specification that say what a command or the complex does, and the invariants of a step. -/

open Sys2Proof Sys2Proof.Machine

/-! ## The step -/

/-- A step with a command in front runs it with the queue's rest and takes exec's answer; with none waiting the complex, out of reset, counts one nanosecond, which wraps at 64 bits, and does nothing else (19 R563; the latter is the model's choice, log 1), but that a nanosecond with a throttle request counts toward PWR_THR.TIME_US, which saturates (17 R520); in reset nothing happens. -/
def Obligations.StepRunsFrontCommand : Prop :=
  (∀ (c : Instr) (rest : List Instr) (s : State), s.pending = c :: rest → step s = exec c { s with pending := rest })
  ∧ (∀ s : State, s.pending = [] →
      let us := fun (x : State) => 1000 * x.fld pwrPage .pwrThr Fld.pwrThr_timeUs + x.board.thrNs
      (s.up = false → step s = .next s)
      ∧ (s.up = true → s.board.thrReq % 16 = 0 → step s = .next { s with time := (s.time + 1) % 2 ^ 64 })
      ∧ (s.up = true → s.board.thrReq % 16 ≠ 0 →
          ∃ t, step s = .next t ∧ t = { s with time := (s.time + 1) % 2 ^ 64, regs := t.regs, board := { s.board with thrNs := t.board.thrNs } }
            ∧ (∀ key, key ≠ pwrPage + Reg.pwrThr.off → t.rd key = s.rd key)
            ∧ t.fld pwrPage .pwrThr Fld.pwrThr_events = s.fld pwrPage .pwrThr Fld.pwrThr_events
            ∧ (s.board.thrNs < 1000 → s.fld pwrPage .pwrThr Fld.pwrThr_timeUs < 2 ^ 32 - 1 → us t = us s + 1)))

/-- No command of the whole table touches the queue: a step takes exactly the front command off it, whatever the command does to the rest of the complex. -/
def Obligations.StepTakesOneCommand : Prop :=
  ∀ (c : Instr) (rest : List Instr) (s t : State), s.pending = c :: rest → step s = .next t → t.pending = rest

/-- Every step keeps stack memory in canonical form, so that equal memories are equal data. -/
def Obligations.StepKeepsMemoryCanonical : Prop := ∀ s t : State, s.devWf → step s = .next t → t.devWf

/-- After reset every register that has a page holds the Reset column, but RST_CAUSE, which names power-on (00 R9, 18 R542); nothing is formed, and nothing waits. Stack memory is in canonical form and reads 0 at every address (18 R534 step 9; the model's choice, log 21). -/
def Obligations.ResetState : Prop :=
  ((∀ key, key ≠ rstCauseKey → State.reset.rd key = regDefault key) ∧ State.reset.fld rstPage .rstCause Fld.rstCause_cause = 1
       ∧ State.reset.time = 0 ∧ (∀ p, State.reset.partExists p = false) ∧ (∀ c e, (State.reset.engine c e).formed = false)
       ∧ (∀ n, (State.reset.ctx n).state = 0) ∧ State.reset.pl.patina.count = 0 ∧ State.reset.pending = [])
  ∧ (State.reset.devWf ∧ ∀ a, State.reset.devByte a = 0)

/-! ## Scalar instructions -/

/-- SOP, SOPI, MOVI and MOVHI write their result to s[SD] and nothing else; a write to s0 is discarded (05 R129, R133, R134, R136); SMD is stated of its own. -/
def Obligations.ScalarResult : Prop :=
  ∀ (c : CellRef) (w : Word) (s : State),
    let x := s.cellAt c
    (opOf w = 0x00 → w ≠ 0 → w.fld 34 6 ≤ 13 → zeroFld w 0 34 = true → s.canIssue c [sdOf w, saOf w, sbOf w] →
      ∃ t, exec (.sop c w) s = .next t ∧ s.scalarDone t c (sdOf w) (scalarOp (w.fld 34 6) (x.s (saOf w)) (x.s (sbOf w))))
    ∧ (opOf w = 0x01 → w.fld 40 6 ≤ 13 → zeroFld w 32 8 = true → s.canIssue c [sdOf w, saOf w] →
      ∃ t, exec (.sopi c w) s = .next t ∧ s.scalarDone t c (sdOf w) (scalarOp (w.fld 40 6) (x.s (saOf w)) (sxFld w 0 32)))
    ∧ (opOf w = 0x03 → zeroFld w 48 4 = true → s.canIssue c [sdOf w] →
      ∃ t, exec (.movi c w) s = .next t ∧ s.scalarDone t c (sdOf w) (sxFld w 0 48))
    ∧ (opOf w = 0x04 → zeroFld w 16 36 = true → s.canIssue c [sdOf w] →
      ∃ t, exec (.movhi c w) s = .next t ∧ s.scalarDone t c (sdOf w) ((x.s (sdOf w)).setFld 48 16 (w.fld 0 16)))

/-- BCC, BCCI, JAL and JALR move the program counter, and JAL and JALR leave the next address in s[SD]; a JALR target that is not a multiple of 8 traps with ILLEGAL_INSTR instead (05 R137, R138). NOP does nothing but go on. -/
def Obligations.BranchResult : Prop :=
  ∀ (c : CellRef) (w : Word) (s : State),
    let x := s.cellAt c
    let k := s.cellKey c
    let goes := fun (t : State) (y : Cell) (pc : Nat) => t.cell k = { y with pc := pc, cycles := x.cycles + 1 } ∧ s.keptButCell t k
    (opOf w = 0x08 → zeroFld w 52 6 = true → w.fld 37 3 ≤ 5 → zeroFld w 32 5 = true → zeroFld w 0 3 = true → s.canIssue c [saOf w, sbOf w] →
      ∃ t, exec (.bcc c w) s = .next t
        ∧ goes t x (if branchHolds (w.fld 37 3) (x.s (saOf w)) (x.s (sbOf w)) then (Word.ofNat x.pc + sxFld w 0 32).toNat else x.pc + 8))
    ∧ (opOf w = 0x09 → w.fld 49 3 ≤ 5 → zeroFld w 48 1 = true → zeroFld w 0 3 = true → s.canIssue c [sdOf w] →
      ∃ t, exec (.bcci c w) s = .next t
        ∧ goes t x (if branchHolds (w.fld 49 3) (x.s (sdOf w)) (sxFld w 32 16) then (Word.ofNat x.pc + sxFld w 0 32).toNat else x.pc + 8))
    ∧ (opOf w = 0x0A → zeroFld w 32 20 = true → zeroFld w 0 3 = true → s.canIssue c [sdOf w] →
      ∃ t, exec (.jal c w) s = .next t ∧ goes t (x.setS (sdOf w) (Word.ofNat (x.pc + 8))) (Word.ofNat x.pc + sxFld w 0 32).toNat)
    ∧ (opOf w = 0x0B → zeroFld w 32 14 = true → s.canIssue c [sdOf w, saOf w] →
      ∃ t, exec (.jalr c w) s = .next t
        ∧ (if (x.s (saOf w) + sxFld w 0 32).toNat % 8 = 0 then goes t (x.setS (sdOf w) (Word.ofNat (x.pc + 8))) (x.s (saOf w) + sxFld w 0 32).toNat
           else s.cellTrapped t c 5 0 x.pc))
    ∧ (opOf w = 0x0D → zeroFld w 0 58 = true → s.canIssue c [] → ∃ t, exec (.nopInstr c w) s = .next t ∧ s.cellDone t c x)

/-- SYSR reads the listed registers (CYCLES with a free number of island cycles on top, log 3); SYSW writes AFLAGS, RMODE and TRAPREC.VALID; END ends the cell's part of the command (05 R167, R168, R170). -/
def Obligations.SystemRegisters : Prop :=
  ∀ (c : CellRef) (w : Word) (s : State), opOf w = 0x3E → zeroFld w 16 25 = true →
    let x := s.cellAt c
    let v := x.s (sysS w)
    (minorOf w = 0 → sysListed (sysIdx w) = true → sysIdx w ≠ 4 → s.canIssue c [sysS w] →
      ∃ t, exec (.sysr c w) s = .next t ∧ s.scalarDone t c (sysS w) (s.sysValue (s.at c) (sysIdx w)))
    ∧ (minorOf w = 0 → sysIdx w = 4 → s.canIssue c [sysS w] →
      ∃ t n, exec (.sysr c w) s = .next t ∧ s.cellDone t c ({ x with cycles := x.cycles + n }.setS (sysS w) (x.cycles + n)))
    ∧ (minorOf w = 1 → s.canIssue c [sysS w] →
      (sysIdx w = 0x10 → ∃ t, exec (.sysw c w) s = .next t ∧ s.cellDone t c { x with aflags := Word.ofNat (v.fld 0 9) })
      ∧ (sysIdx w = 0x11 → v.fld 0 3 ≤ 4 → ∃ t, exec (.sysw c w) s = .next t ∧ s.cellDone t c { x with rmode := Word.ofNat (v.fld 0 3) })
      ∧ (sysIdx w = 0x11 → 5 ≤ v.fld 0 3 → ∃ t, exec (.sysw c w) s = .next t ∧ s.cellTrapped t c 5 0 x.pc)
      ∧ (sysIdx w = 0x12 → ∃ t, exec (.sysw c w) s = .next t ∧ s.cellDone t c (if v.bit 15 then { x with traprec := x.traprec.setFld 15 1 0 } else x)))
    ∧ (minorOf w = 2 → s.canIssue c [] →
      ∃ t, exec (.endCmd c w) s = .next t ∧ t.cell (s.cellKey c) = { x with phase := .ended, cycles := x.cycles + 1 } ∧ s.keptButCell t (s.cellKey c))

/-- TRAP traps with USER_TRAP and its IMM; BRK does so with 0xFFFF where the partition has debug, and goes on where it has not; a reserved word traps with ILLEGAL_INSTR, a fetch outside the code section with PROTECTION, and a cell whose queues have emptied after a failed operation with that operation's code, token and program counter. The first trap of an engine gives the engine its code, cell and program counter, and no other cell of it goes on running. A word that its legality refuses traps with ILLEGAL_INSTR, and one that names a register still awaited stalls: nothing changes (stated for SOP) (04 R110, 05 R132, R167, R171, R172, 16 R467). -/
def Obligations.Traps : Prop :=
  (∀ (c : CellRef) (w : Word) (s : State),
       let x := s.cellAt c
       (opOf w = 0x3E → zeroFld w 16 25 = true → s.canIssue c [] →
         (minorOf w = 3 → ∃ t, exec (.trap c w) s = .next t ∧ s.cellTrapped t c 11 (w.fld 0 16) x.pc)
         ∧ (minorOf w = 4 → s.coreDebug c.core = true → ∃ t, exec (.brk c w) s = .next t ∧ s.cellTrapped t c 11 0xFFFF x.pc)
         ∧ (minorOf w = 4 → s.coreDebug c.core = false → ∃ t, exec (.brk c w) s = .next t ∧ s.cellDone t c x))
       ∧ (s.cellRuns c = true → (s.at c).inCode = true → reservedWord w = true →
         ∃ t, exec (.cellTrap c (.illegalWord w)) s = .next t ∧ s.cellTrapped t c 5 0 x.pc)
       ∧ (s.cellRuns c = true → (s.at c).inCode = false → ∃ t, exec (.cellTrap c .fetchOutside) s = .next t ∧ s.cellTrapped t c 6 0 x.pc)
       ∧ (∀ code tok pc, (s.flightAt c).failed = some (code, tok, pc) → s.cellWorks c = true → (s.flightAt c).ops = [] →
         ∃ t, exec (.cellTrap c .asyncFailed) s = .next t ∧ s.cellTrapped t c code tok pc))
  ∧ (∀ (c : CellRef) (code info pc : Nat) (s : State), c.idx < (s.engine c.core c.eng).size → (s.engine c.core c.eng).stopping = 0 →
       let t := s.trapCell c code info pc
       (t.engine c.core c.eng).stopping = 1 ∧ (t.engine c.core c.eng).trapCode = code ∧ (t.engine c.core c.eng).trapCell = c.idx
         ∧ (t.engine c.core c.eng).trapPc = pc ∧ ∀ k ∈ (s.engine c.core c.eng).keys c.core, (t.cell k).phase ≠ .running)
  ∧ (∀ (c : CellRef) (w : Word) (s : State), opOf w = 0x00 → s.cellRuns c = true → (s.at c).inCode = true →
       let legal := w ≠ 0 ∧ w.fld 34 6 ≤ 13 ∧ zeroFld w 0 34 = true
       (¬ legal → ∃ t, exec (.sop c w) s = .next t ∧ s.cellTrapped t c 5 0 (s.cellAt c).pc)
       ∧ (legal → [sdOf w, saOf w, sbOf w].any (s.flightAt c).awaits = true → exec (.sop c w) s = .next s))

/-! ## Vector instructions -/

/-- VAR, VINT and VCVT write their lanes under the governing predicate and leave every other register as it was (05 R154 to R157, R159; 03 R86, R87). -/
def Obligations.VectorArithmetic : Prop :=
  ∀ (c : CellRef) (w : Word) (s : State), zeroFld w 0 23 = true → s.canIssue c [] →
    let x := s.cellAt c
    let r := x.rnd (vrndOf w)
    let free := fun i => Config.freeNat (s.draws + i)
    let bf := tyOf w == 1
    (opOf w = 0x20 → tyOf w ≤ 1 → vfnOf w ≤ 16 → rndCode (vrndOf w) = true → (varExact (vfnOf w) = false ∨ vrndOf w = 0) →
      ∃ t, exec (.varOp c w) s = .next t ∧ vectorLanes s t c bf (vdOf w) (pmOf w) (zmOf w) fun i =>
        ((if bf then bf16 else fp32).encode r (roundDraw free i)
          (varValue (vfnOf w) (x.flane bf (vaOf w) i) (x.flane bf (vbOf w) i) (x.flane bf (vcOf w) i)).1).1)
    ∧ (opOf w = 0x21 → tyOf w = 2 → vfnOf w ≤ 13 → vrndOf w = 0 →
      ∃ t, exec (.vint c w) s = .next t ∧ (t.cell (s.cellKey c)).aflags = x.aflags
        ∧ vectorLanes s t c false (vdOf w) (pmOf w) (zmOf w) fun i => vintValue (vfnOf w) (x.lane (vaOf w) i) (x.lane (vbOf w) i))
    ∧ (opOf w = 0x23 → tyOf w = 0 → vfnOf w ≤ 4 → rndCode (vrndOf w) = true → ((vfnOf w ≠ 1 ∧ vfnOf w ≠ 2) ∨ vrndOf w = 0) →
      ∃ t, exec (.vcvt c w) s = .next t ∧ vectorLanes s t c (vfnOf w == 0) (vdOf w) (pmOf w) (zmOf w) fun i =>
        match vfnOf w with
        | 0 => (bf16.encode r (roundDraw free i) (fp32.decode (if i < 128 then x.lane (vaOf w) i else x.lane (vbOf w) (i - 128)))).1
        | 1 => (fp32.encode .rne 0 (bf16.decode (x.half (vaOf w) i))).1
        | 2 => (fp32.encode .rne 0 (bf16.decode (x.half (vaOf w) (128 + i)))).1
        | 3 => (encodeInt32 r (roundDraw free i) (fp32.decode (x.lane (vaOf w) i))).1
        | _ => (fp32.encode r (roundDraw free i) (int32Num (x.lane (vaOf w) i))).1)

/-- VCMP and the logic forms of VPRED write a predicate bit by bit, and p0 stays all ones; VPRED's count and TKOP TEST's predicate are stated elsewhere (05 R131, R154, R158, R165). -/
def Obligations.PredicateResult : Prop :=
  ∀ (c : CellRef) (w : Word) (s : State),
    let k := s.cellKey c
    let x := s.cell k
    let bits := fun (t : State) (pd : Nat) (f : Nat → Bool) =>
      (∀ i, i < 256 → ((t.cell k).pred pd).toNat.testBit i = (pd == 0 || f i)) ∧ (∀ q, q ≠ pd → (t.cell k).pred q = x.pred q)
        ∧ t.cell k = { x with preds := (t.cell k).preds, pc := x.pc + 8, cycles := x.cycles + 1 } ∧ s.keptButCell t k
    let bf := tyOf w == 1
    let bit := fun q i => (x.pred q).toNat.testBit i
    (opOf w = 0x22 → zeroFld w 0 23 = true → zeroFld w 56 2 = true → tyOf w ≤ 2 → vrndOf w = 0 →
      (vfnOf w ≤ 5 ∨ (vfnOf w = 6 ∧ tyOf w ≤ 1) ∨ ((vfnOf w = 7 ∨ vfnOf w = 8) ∧ tyOf w = 2)) → s.canIssue c [] →
      ∃ t, exec (.vcmp c w) s = .next t ∧ bits t (w.fld 53 3) fun i =>
        decide (i < (if bf then 256 else 128)) &&
          (if x.active (pmOf w) i then
            (if tyOf w = 2 then intCompare (vfnOf w) (x.lane (vaOf w) i) (x.lane (vbOf w) i)
             else floatCompare (vfnOf w) (x.flane bf (vaOf w) i) (x.flane bf (vbOf w) i))
           else !zmOf w && bit (w.fld 53 3) i))
    ∧ (opOf w = 0x29 → zeroFld w 0 40 = true → s.canIssue c [w.fld 40 6] →
      (w.fld 46 3 ≤ 5 → ∃ t, exec (.vpred c w) s = .next t ∧ bits t (w.fld 55 3) fun i =>
        match w.fld 46 3 with
        | 0 => bit (w.fld 52 3) i && bit (w.fld 49 3) i
        | 1 => bit (w.fld 52 3) i || bit (w.fld 49 3) i
        | 2 => bit (w.fld 52 3) i != bit (w.fld 49 3) i
        | 3 => bit (w.fld 52 3) i && !bit (w.fld 49 3) i
        | 4 => !bit (w.fld 52 3) i
        | _ => decide (i < (x.s (w.fld 40 6)).toNat))
      ∧ (w.fld 46 3 = 6 → ∃ t, exec (.vpred c w) s = .next t
        ∧ s.scalarDone t c (w.fld 40 6) (Word.ofNat ((List.range 256).filter fun i => bit (w.fld 52 3) i).length)))

/-- VSEL, VPERM and VACC move lanes: a select by PM, a broadcast, an extract, an insert, a permute, a rotate, and rows AROW and AROW + 1 of an accumulator (05 R163, R164, R166). -/
def Obligations.VectorMoves : Prop :=
  ∀ (c : CellRef) (w : Word) (s : State),
    let k := s.cellKey c
    let x := s.cell k
    let lanes := fun (t : State) (f : Nat → Nat) =>
      (∀ i, i < 128 → (t.cell k).lane (vdOf w) i = f i) ∧ (∀ v i, v ≠ vdOf w → i < 128 → (t.cell k).lane v i = x.lane v i)
        ∧ t.cell k = { x with vregs := (t.cell k).vregs, pc := x.pc + 8, cycles := x.cycles + 1 } ∧ s.keptButCell t k
    let sx := w.fld 37 6
    let imm := w.fld 0 16
    let row := w.fld 45 5
    let acc := w.fld 50 3
    (opOf w = 0x2A → zeroFld w 0 23 = true → vfnOf w = 0 → zmOf w = false → tyOf w ≤ 2 → vrndOf w = 0 → s.canIssue c [] →
      ∃ t, exec (.vsel c w) s = .next t
        ∧ (tyOf w ≠ 1 → lanes t fun i => x.lane (if x.active (pmOf w) i then vaOf w else vbOf w) i)
        ∧ (tyOf w = 1 → (∀ i, i < 256 → (t.cell k).half (vdOf w) i = x.half (if x.active (pmOf w) i then vaOf w else vbOf w) i)
            ∧ ∀ v i, v ≠ vdOf w → i < 128 → (t.cell k).lane v i = x.lane v i))
    ∧ (opOf w = 0x27 → zeroFld w 16 18 = true → s.canIssue c [sx] →
      (w.fld 34 3 = 0 → ∃ t, exec (.vperm c w) s = .next t ∧ lanes t fun _ => (x.s sx).fld 0 32)
      ∧ (w.fld 34 3 = 1 → ∃ t, exec (.vperm c w) s = .next t ∧ s.scalarDone t c sx (Word.ofNat (x.lane (vaOf w) (imm % 128))))
      ∧ (w.fld 34 3 = 2 → ∃ t, exec (.vperm c w) s = .next t
        ∧ lanes t fun i => if i = imm % 128 then (x.s sx).fld 0 32 else x.lane (vdOf w) i)
      ∧ (w.fld 34 3 = 3 → ∃ t, exec (.vperm c w) s = .next t ∧ lanes t fun i => x.lane (vaOf w) (x.lane (vbOf w) i % 128))
      ∧ (w.fld 34 3 = 4 → ∃ t, exec (.vperm c w) s = .next t ∧ lanes t fun i => x.lane (vaOf w) ((i + imm) % 128)))
    ∧ (opOf w = 0x28 → zeroFld w 0 44 = true → row % 2 = 0 → s.canIssue c [] → ((s.flight k).tq.any fun o => o.kind.names acc) = false →
      (w.bit 44 = false → ∃ t, exec (.vacc c w) s = .next t ∧ lanes t fun i => x.acc acc (row + i / 64) (i % 64))
      ∧ (w.bit 44 = true → ∃ t, exec (.vacc c w) s = .next t
        ∧ (∀ i, i < 128 → (t.cell k).acc acc (row + i / 64) (i % 64) = x.lane (vdOf w) i)
        ∧ (∀ a r j, (a ≠ acc ∨ (r ≠ row ∧ r ≠ row + 1)) → r < 32 → j < 64 → (t.cell k).acc a r j = x.acc a r j)
        ∧ t.cell k = { x with accs := (t.cell k).accs, pc := x.pc + 8, cycles := x.cycles + 1 } ∧ s.keptButCell t k))

/-- VRED puts its reduction into s[SD]; VLD writes lanes of VD from the operand store, as it sees it beside the operations at work on it (04 R109), and VST bytes of the operand store from lanes, and both trap with ILLEGAL_INSTR where an address is unaligned or outside it (05 R160 to R162). A result that no rule states is a free value (log 25). -/
def Obligations.VectorReduceLoadStore : Prop :=
  ∀ (c : CellRef) (w : Word) (s : State),
    let k := s.cellKey c
    let x := s.cell k
    let on := (List.range (if w.fld 42 2 = 1 then 256 else 128)).filter (x.active (w.fld 44 3))
    (opOf w = 0x26 → zeroFld w 0 36 = true → w.fld 36 3 ≤ 4 → w.fld 42 2 ≤ 2 → rndCode (w.fld 39 3) = true → (w.fld 36 3 = 0 ∨ w.fld 39 3 = 0) →
      s.canIssue c [sdOf w] →
      ∃ t v, exec (.vred c w) s = .next t ∧ (t.cell k).s (sdOf w) = (if sdOf w = 0 then 0 else v)
        ∧ (∀ r, r ≠ sdOf w → (t.cell k).s r = x.s r) ∧ (t.cell k).vregs = x.vregs
        ∧ (w.fld 36 3 = 4 → w.fld 42 2 = 2 → v = Word.ofNat ((on.map (x.lane (w.fld 47 5))).sum % 2 ^ 32) ∧ (t.cell k).aflags = x.aflags)
        ∧ (w.fld 36 3 ≤ 3 → w.fld 42 2 ≤ 1 →
            v = Word.ofNat (vredValue (fun i => Config.freeNat (s.draws + i)) (x.rnd (w.fld 39 3)) (w.fld 36 3)
              (on.map fun i => (fp32.encode .rne 0 (x.flane (w.fld 42 2 == 1) (w.fld 47 5) i)).1)).1)
        ∧ s.keptButCell t k)
    ∧ (opOf w = 0x24 → vmLegal w = true → s.canIssue c [vmSa w, vmSb w] →
      (vmAddr w x = none → ∃ t, exec (.vld c w) s = .next t ∧ s.cellTrapped t c 5 0 x.pc)
      ∧ (∀ p, vmAddr w x = some p → ∃ t, exec (.vld c w) s = .next t ∧ (∀ v i, v ≠ vdOf w → i < 128 → (t.cell k).lane v i = x.lane v i)
        ∧ (∀ i, i < vmLen w → x.active (vmPm w) i = false →
            (if vmTy w = 1 then (t.cell k).half (vdOf w) i = x.half (vdOf w) i else (t.cell k).lane (vdOf w) i = x.lane (vdOf w) i))
        ∧ (vmTy w = 0 → vmFmt w = 0 → ∀ i, i < 128 → x.active (vmPm w) i = true →
            (t.cell k).lane (vdOf w) i = (vmTile w p.1 p.2).raw (s.opsSeen c).read 0 i)
        ∧ t.cell k = { x with vregs := (t.cell k).vregs, aflags := (t.cell k).aflags, pc := x.pc + 8, cycles := x.cycles + 1 } ∧ s.keptButCell t k))
    ∧ (opOf w = 0x25 → vmLegal w = true → (vmPm w = 0 ∨ vmFmt w ≤ 4 ∨ vmFmt w = 0xC) → s.canIssue c [vmSa w, vmSb w] →
      (vmAddr w x = none → ∃ t, exec (.vst c w) s = .next t ∧ s.cellTrapped t c 5 0 x.pc)
      ∧ (∀ p, vmAddr w x = some p → ∃ t, exec (.vst c w) s = .next t
        ∧ (∀ a, (a < p.1 ∨ p.1 + vmLen w * fmtBits (vmFmt w) / 8 ≤ a) → (a < p.2 ∨ p.2 + vmLen w ≤ a) → (t.cell k).opRd a = x.opRd a)
        ∧ t.cell k = { x with ops := (t.cell k).ops, aflags := (t.cell k).aflags, pc := x.pc + 8, cycles := x.cycles + 1 } ∧ s.keptButCell t k))

/-! ## Tensor instructions, tokens, descriptors and the asynchronous queues -/

/-- TMMA, TMMS, TACR, TACW, TACX and TTRN join the tensor queue when their tiles keep the rules and there is room: the token's PENDING rises by one and the program counter moves on (04 R105, R107, R109, R113 to R121). Tiles that break a rule trap with the rule's code. -/
def Obligations.TensorIssue : Prop :=
  ∀ (c : CellRef) (w : Word) (s : State), asyncHeader w = true →
    let a := s.at c
    let sa := w.fld 26 6
    (opOf w = 0x30 → zeroFld w 0 32 = true → s.canIssue c [] → tilesFail a.eng.relief (tmmaTiles false w a) = none →
      s.asyncRoom c w (tmmaKind false w a) → ∃ t, exec (.tmma c w) s = .next t ∧ s.asyncIssued t c w (tmmaKind false w a))
    ∧ (opOf w = 0x30 → zeroFld w 0 32 = true → s.canIssue c [] → ∀ code, tilesFail a.eng.relief (tmmaTiles false w a) = some code →
      ∃ t, exec (.tmma c w) s = .next t ∧ s.cellTrapped t c code 0 a.cell.pc)
    ∧ (opOf w = 0x31 → zeroFld w 0 32 = true → s.canIssue c [] → tilesFail a.eng.relief (tmmaTiles true w a) = none →
      s.asyncRoom c w (tmmaKind true w a) → ∃ t, exec (.tmms c w) s = .next t ∧ s.asyncIssued t c w (tmmaKind true w a))
    ∧ (opOf w = 0x32 → zeroFld w 0 24 = true → rndCode (w.fld 39 3) = true → s.canIssue c (if w.bit 25 then [sa] else []) →
      let x := a.cell.tile (descAt w 42)
      let kind : AsyncKind := .tacr (w.fld 46 3) x (a.cell.rnd (w.fld 39 3)) (w.fld 38 1) (w.bit 37) (w.fld 32 5)
        (if w.bit 25 then some ((a.cell.s sa).fld 0 32) else none) (w.bit 24)
      x.lawful (descAt w 42) = true → x.space = 0 → x.below opBytes = true → x.sparse = false → x.opRowsT + w.fld 32 5 ≤ 32 → x.opColsT ≤ 64 →
      s.asyncRoom c w kind → ∃ t, exec (.tacr c w) s = .next t ∧ s.asyncIssued t c w kind)
    ∧ (opOf w = 0x33 → zeroFld w 0 34 = true → w.fld 40 2 ≠ 3 → (w.fld 40 2 ≠ 2 ∨ (zeroFld w 42 4 = true ∧ w.bit 39 = false ∧ w.fld 34 5 = 0)) →
      s.canIssue c [] →
      let x := a.cell.tile (descAt w 42)
      let kind : AsyncKind := .tacw (w.fld 46 3) x (w.fld 40 2) (w.bit 39) (w.fld 34 5)
      (w.fld 40 2 = 2 ∨ (x.lawful (descAt w 42) = true ∧ x.space = 0 ∧ x.below opBytes = true ∧ x.fmt ≤ 2 ∧ x.trans = false ∧ x.tern = false
        ∧ x.sparse = false ∧ (w.bit 39 = true → x.fmt = 0) ∧ x.cols ≤ 64
        ∧ (if w.fld 40 2 = 0 then x.rows + w.fld 34 5 ≤ 32 else x.rows = 1))) →
      s.asyncRoom c w kind → ∃ t, exec (.tacw c w) s = .next t ∧ s.asyncIssued t c w kind)
    ∧ (opOf w = 0x35 → zeroFld w 0 38 = true → w.fld 38 2 ≠ 3 → s.canIssue c [] →
      let kind : AsyncKind := .tacx (w.fld 46 3) (w.fld 43 3) (w.fld 40 3) (w.fld 38 2)
      s.asyncRoom c w kind → ∃ t, exec (.tacx c w) s = .next t ∧ s.asyncIssued t c w kind)
    ∧ (opOf w = 0x34 → zeroFld w 0 37 = true → rndCode (w.fld 38 3) = true → s.canIssue c [] →
      let x := a.cell.tile (descAt w 45)
      let y := a.cell.tile (descAt w 41)
      let kind : AsyncKind := .ttrn x y (a.cell.rnd (w.fld 38 3)) (w.fld 37 1)
      x.lawful (descAt w 45) = true → x.space = 0 → x.below opBytes = true → y.lawful (descAt w 41) = true → y.space = 0 → y.below opBytes = true →
      x.trans = false → x.sparse = false → y.trans = false → y.sparse = false → x.rows = y.cols → x.cols = y.rows → x.apart y = true →
      s.asyncRoom c w kind → ∃ t, exec (.ttrn c w) s = .next t ∧ s.asyncIssued t c w kind)

/-- MVRL, MVDM and MVBC join the move queue, and the Relief commands and RACC theirs, when their tiles keep the rules and there is room (04 R105, R107, R124 to R127, 06 R184 to R187, R191, R194). -/
def Obligations.MoveAndReliefIssue : Prop :=
  ∀ (c : CellRef) (w : Word) (s : State), asyncHeader w = true →
    let a := s.at c
    let o := a.cell.tile (descAt w 44)
    let m := a.cell.tile (descAt w 40)
    let ok := fun (us : List TileUse) => tilesFail a.eng.relief us = none
    let sa := fun (al : Nat) => if al ≠ 0 then (a.cell.s (rSa w)).toNat else (a.cell.s (rSa w)).fld 0 32
    let relief := fun (minor al : Nat) => AsyncKind.relief minor (a.cell.tile (descAt w 41)) (a.cell.tile (descAt w 37)) (a.cell.tile (descAt w 33))
      (a.cell.tile (descAt w 29)) (a.cell.rnd (w.fld 26 3)) (w.fld 25 1) (sa al) (rFn w)
    let word := fun (minor : Nat) => opOf w = 0x3C ∧ rMinor w = minor ∧ zeroFld w 0 13 = true ∧ rndCode (w.fld 26 3) = true
    let addr := fun (al : Nat) => (a.cell.s (rSa w)).toNat % al = 0 ∧ (a.cell.s (rSa w)).toNat < opBytes
    (opOf w = 0x38 → zeroFld w 0 40 = true → s.canIssue c [] → ok [⟨descAt w 44, o, 0, o.agrees m⟩, ⟨descAt w 40, m, 1, true⟩] →
      s.asyncRoom c w (.mvrl (w.bit 48) o m) → ∃ t, exec (.mvrl c w) s = .next t ∧ s.asyncIssued t c w (.mvrl (w.bit 48) o m))
    ∧ (opOf w = 0x39 → zeroFld w 0 33 = true → (if w.bit 48 then w.bit 35 = false else w.bit 34 = false) → s.canIssue c [] →
      ok [⟨descAt w 44, o, 0, o.agrees m⟩, ⟨descAt w 40, m, 2, true⟩] →
      let kind : AsyncKind := .mvdm (w.bit 48) o m (w.fld 36 4) (w.bit 35) (w.bit 34) (w.bit 33)
      s.asyncRoom c w kind → ∃ t, exec (.mvdm c w) s = .next t ∧ s.asyncIssued t c w kind)
    ∧ (opOf w = 0x3A → zeroFld w 0 39 = true → s.canIssue c (if c.idx = 0 then [w.fld 39 6] else []) →
      let kind : AsyncKind := .mvbc (a.cell.tile (descAt w 45)) (w.fld 39 6) (s.gather a.key).mvbc
      ok [⟨descAt w 45, a.cell.tile (descAt w 45), 0, true⟩] → s.asyncRoom c w kind →
      ∃ t, exec (.mvbc c w) s = .next t ∧ t.cell a.key = (a.cell.tokIssue (ksOf w)).next
        ∧ t.flight a.key = { a.fl.enqueue ⟨a.fl.seq, a.cell.pc, ksOf w, kwOf w, kind, false, [], [], none⟩ with seq := a.fl.seq + 1 }
        ∧ (t.gather a.key).mvbc = (s.gather a.key).mvbc + 1
        ∧ (c.idx = 0 → ((t.engine c.core c.eng).mvbc.at (0, 0) (s.gather a.key).mvbc).1 = min (a.cell.s (w.fld 39 6)).toNat a.eng.size + 1)
        ∧ (c.idx ≠ 0 → t.cores = s.cores) ∧ t.mem = s.mem ∧ t.regs = s.regs)
    ∧ (word 0 → rFn w ≤ 10 → s.canIssue c (if rFn w == 4 || rFn w == 8 then [rSa w] else []) → ok (reliefTiles 0 (rFn w) w a) → s.asyncRoom c w (relief 0 0) →
      ∃ t, exec (.ew c w) s = .next t ∧ s.asyncIssued t c w (relief 0 0))
    ∧ (word 1 → rFn w ≤ 1 → s.canIssue c (if rFn w == 1 then [rSa w] else []) → ok (reliefTiles 1 (rFn w) w a) → s.asyncRoom c w (relief 1 0) →
      ∃ t, exec (.castOp c w) s = .next t ∧ s.asyncIssued t c w (relief 1 0))
    ∧ (word 2 → rFn w ≤ 4 → s.canIssue c [] → ok (reliefTiles 2 (rFn w) w a) → s.asyncRoom c w (relief 2 0) →
      ∃ t, exec (.red c w) s = .next t ∧ s.asyncIssued t c w (relief 2 0))
    ∧ (word 3 → rFn w ≤ 3 → s.canIssue c [rSa w] → addr 64 → ok (reliefTiles 3 (rFn w) w a) → s.asyncRoom c w (relief 3 64) →
      ∃ t, exec (.recipe c w) s = .next t ∧ s.asyncIssued t c w (relief 3 64))
    ∧ (word 4 → rFn w ≤ 1 → s.canIssue c [rSa w] → addr 8 → s.asyncRoom c w (relief 4 8) →
      ∃ t, exec (.flagrd c w) s = .next t ∧ s.asyncIssued t c w (relief 4 8))
    ∧ (word 5 → rFn w = 0 → s.canIssue c [rSa w] → ok (reliefTiles 5 (rFn w) w a) → s.asyncRoom c w (relief 5 0) →
      ∃ t, exec (.fill c w) s = .next t ∧ s.asyncIssued t c w (relief 5 0))
    ∧ (opOf w = 0x3D → zeroFld w 0 34 = true → w.fld 34 2 ≠ 3 → s.canIssue c [] →
      let x := a.cell.tile (descAt w 45)
      let y := a.cell.tile (descAt w 41)
      let kind : AsyncKind := .racc x y (w.fld 37 4) (w.bit 36) (w.fld 34 2)
      ok [⟨descAt w 45, x, 0, decide (x.fmt ≤ 1) && x.reliefOk y⟩,
          ⟨descAt w 41, y, 2, decide (y.fmt ≤ 1) && y.reliefOk y && y.base % 64 == 0 && y.stride % 64 == 0 && y.rowBytes % 64 == 0⟩] →
      s.asyncRoom c w kind → ∃ t, exec (.racc c w) s = .next t ∧ s.asyncIssued t c w kind)

/-- QUEUED_OP_START marks the operation started, with the operand store as it finds it, which is what the operation reads and writes on but where other work has changed it meanwhile (04 R109); a tensor operation completes with its effect on the cell, a move or a Relief command with its bytes, a RACC once every granule has been applied, and each leaves its queue with its token advanced, its first failure kept, and nothing else of the complex changed by the leaving (04 R105, R107, R108, R110, R118 to R121, R127, R128, 06 R190, R191, R196). -/
def Obligations.AsyncCompletes : Prop :=
  (∀ (c : CellRef) (s : State), s.cellWorks c = true →
       let k := s.cellKey c
       let f := s.flight k
       let x := s.cell k
       let gone := fun (t : State) (o : AsyncOp) (code : Nat) =>
         tokenAdvanced x (t.cell k) o.ks code ∧ ∀ p ∈ (t.flight k).ops, p.id ≠ o.id
       let free := fun i => Config.freeNat (s.draws + i)
       (∀ (o : AsyncOp) (g : Cell → Cell), o.snap = some x.ops → o.effect free x g = g x)
       ∧ (∀ q i o, findOp (match q with
           | .tensor => f.tq
           | .move => f.mq
           | .relief => f.rq) i = some o → (s.engine c.core c.eng).stopping ≠ 2 → f.mayStart q o = true →
         ∃ t, exec (.queuedOpStart c q i) s = .next t ∧ o.start x ∈ (t.flight k).ops ∧ (o.start x).started = true ∧ t.cells = s.cells)
       ∧ (∀ o rest, f.tq = o :: rest → o.started = true → ((match o.kind with
           | .tmma .. => s.arraysOff c.core
           | _ => false) = false) →
         ∃ t, exec (.tensorOpComplete c) s = .next t
           ∧ t.cell k = (o.effect free x fun y => tensorEffect free y o.kind).tokAdvance o.ks 0 ∧ ∀ p ∈ (t.flight k).ops, p.id ≠ o.id)
       ∧ (∀ i o op rel, f.moveOp i = some o → o.kind = .mvrl false op rel → (∀ g, (s.bank k).poisoned g = false) →
         ∃ t, exec (.mvrlComplete c i []) s = .next t ∧ gone t o 0
           ∧ (t.cell k).ops = (o.effect free x fun y => y.opWrites ((moveBytes rel op).map fun p => (p.2, s.bankByte k p.1))).ops)
       ∧ (∀ i o op rel, f.moveOp i = some o → o.kind = .mvrl true op rel → (∀ g, (s.bank k).poisoned g = false) →
         ∃ t, exec (.mvrlComplete c i []) s = .next t ∧ gone t o 0 ∧ (t.cell k).ops = x.ops
           ∧ (∀ p ∈ moveBytes op rel, (∀ q ∈ moveBytes op rel, q.2 = p.2 → q.1 = p.1) → t.bankByte k p.2 = (o.view free x).read p.1)
           ∧ (∀ a, (∀ p ∈ moveBytes op rel, p.2 ≠ a) → t.bankByte k a = s.bankByte k a))
       ∧ (∀ i o tl src inst from_ u, f.moveOp i = some o → o.kind = .mvbc tl src inst →
         let e := s.engine c.core c.eng
         let named := (e.mvbc.at (0, 0) inst).1 - 1
         (e.mvbc.at (0, 0) inst).1 ≠ 0 →
         (e.size ≤ named → ∃ t, exec (.mvbcComplete c i) s = .next t ∧ gone t o 5)
         ∧ (named < e.size → c.idx ≠ named →
             ((s.flight (256 * c.core + e.posOf named)).mq.findSome? fun p => match p.kind with
               | .mvbc u' _ n => if n = inst ∧ p.started then some (p, u') else none
               | _ => none) = some (from_, u) →
             (tl.agrees u = true → ∃ t, exec (.mvbcComplete c i) s = .next t ∧ gone t o 0
               ∧ (t.cell k).ops = (o.effect free x fun y => y.opWrites ((moveBytes u tl).map fun p =>
                   (p.2, (from_.view free (s.cell (256 * c.core + e.posOf named))).read p.1))).ops)
             ∧ (tl.agrees u = false → ∃ t, exec (.mvbcComplete c i) s = .next t ∧ gone t o 5))
         ∧ (c.idx = named → ((List.range e.size).all fun j => j == named || (e.mvbc.at (0, 0) inst).2.testBit j) = true →
             ∃ t, exec (.mvbcComplete c i) s = .next t ∧ gone t o 0))
       ∧ (∀ o rest minor dd da db dc rnd srule sa fn, f.rq = o :: rest → o.started = true → o.kind = .relief minor dd da db dc rnd srule sa fn →
         ∃ t code, exec (.reliefCmdComplete c []) s = .next t ∧ gone t o code
           ∧ (minor = 4 → code = 0 ∧ (t.cell k).ops = (o.effect free x fun y => { y with ops := y.ops.writeLE sa 8 (s.bank k).flags.toNat }).ops
               ∧ (t.bank k).flags = (if fn = 1 then 0 else (s.bank k).flags))
           ∧ (minor ≠ 4 → (t.cell k).ops = x.ops))
       ∧ (∀ i o ds dm tag rel op, findOp f.raccs i = some o → o.kind = .racc ds dm tag rel op → (List.range dm.granuleCount).all o.applied.contains = true →
         ∃ t, exec (.raccComplete c i) s = .next t ∧ gone t o 0))
  ∧ (∀ (s : State) (k code : Nat) (o : AsyncOp),
       let t := s.opDone k o code
       tokenAdvanced (s.cell k) (t.cell k) o.ks code ∧ (∀ p ∈ (t.flight k).ops, p.id ≠ o.id ∧ p ∈ (s.flight k).ops)
         ∧ (∀ p ∈ (s.flight k).ops, p.id ≠ o.id → p ∈ (t.flight k).ops)
         ∧ (t.flight k).failed = (if code ≠ 0 ∧ (s.flight k).failed = none then some (code, o.ks, o.pc) else (s.flight k).failed)
         ∧ s.keptButFlight t k)

/-- MVDM_COMPLETE: a load whose granules are at hand puts bytes into the operand store; a store whose bytes all have places leaves its bytes where storing them leaves them, and the operand store as it was; each advances its token and leaves its queue. RACC_APPLY: a granule of a RACC's destination in a bank takes its contribution in one step: each element is formed by the operation in FP32 and rounded into the tile's format, and the granule is recorded as applied (04 R108, R110, R125, R126, 06 R195, 07 R207). -/
def Obligations.MoveToMemoryCompletes : Prop :=
  (∀ (c : CellRef) (i : Nat) (h : HostAnswer) (s : State) (o : AsyncOp) (dir : Bool) (op mem : Tile) (tag : Nat) (acq rel na : Bool)
         (ps : List (Except Nat Place)),
       let k := s.cellKey c
       let e := s.engine c.core c.eng
       let right : Right := if dir then .write else .read
       let filled := s.moveFill c.core e.ctx right mem.addrs
       s.cellWorks c = true → (s.flight k).moveOp i = some o → o.kind = .mvdm dir op mem tag acq rel na →
       (∀ x, o.acc = some x → s.mayPerform c.core k x = true) → s.movePlaces c.core e.ctx right mem.addrs = some ps →
       (dir = false → (filled.ensureAll c.core na h ((ps.filterMap fun p => match p with
           | .ok q => some q.granule.1
           | .error _ => none).eraseDups)).isSome = true →
         ∃ t code, exec (.mvdmComplete c i h) s = .next t ∧ tokenAdvanced (s.cell k) (t.cell k) o.ks code ∧ (∀ p ∈ (t.flight k).ops, p.id ≠ o.id)
           ∧ t.cell k = { s.cell k with ops := (t.cell k).ops, toks := (t.cell k).toks, resv := (t.cell k).resv })
       ∧ (dir = true → firstCode ps = 0 → ∀ u bad early,
           filled.storeAll c.core e.ctx na none (gatherPlaces ((ps.zip op.addrs).filterMap fun p => match p.1 with
             | .ok q => some (q, (o.view (fun n => Config.freeNat (s.draws + n)) (s.cell k)).read p.2)
             | .error _ => none)) none [] = some (u, bad, early) →
         ∃ t, exec (.mvdmComplete c i h) s = .next t ∧ tokenAdvanced (s.cell k) (t.cell k) o.ks (bad.getD 0) ∧ (∀ p ∈ (t.flight k).ops, p.id ≠ o.id)
           ∧ t.mem = u.mem ∧ (t.cell k).ops = (s.cell k).ops))
  ∧ (∀ (c : CellRef) (i g : Nat) (s : State) (o : AsyncOp) (ds dm : Tile) (tag op p off : Nat) (rel : Bool),
       let k := s.cellKey c
       let e := s.engine c.core c.eng
       let per := dm.rowBytes / 64
       let row := g / per
       let va := dm.base + row * dm.stride + 64 * (g % per)
       s.cellWorks c = true → findOp (s.flight k).raccs i = some o → o.kind = .racc ds dm tag rel op → (s.flight k).waitMet o = true →
       g < dm.granuleCount → o.applied.contains g = false → (∀ x, o.acc = some x → s.mayPerform c.core k x = true) →
       s.raccPlace c.core e.ctx va = .ok (.bank p off) → off % 64 = 0 → (s.bank p).poisoned (off / 64) = false →
       ∃ t d, exec (.raccApply c i g .ok) s = .next t ∧ (∃ o' ∈ (t.flight k).raccs, o'.id = i ∧ o'.applied = g :: o.applied)
         ∧ BitVec.ofNat 512 ((t.bank p).data.readLE off 64)
           = (raccGranule op dm.fmt (BitVec.ofNat 512 ((s.bank p).data.readLE off 64)) fun j =>
               (toF32 .rne 0 (ds.value (o.view (fun n => Config.freeNat (d + n)) (s.cell k)).read row (g % per * (512 / fmtBits dm.fmt) + j)).1).1).1)

/-- TKOP WAIT and WAITN go on at once where their tokens' PENDING are low enough and block the cell where not; TKOP_WAIT_END resumes it once they are; READ and TEST show a token. The TDSC forms move a descriptor to and from the operand store, replace or read its words, and add to its address bits [51:0]; an address of LD and ST that is not a multiple of 16 or lies outside the operand store traps with ILLEGAL_INSTR (04 R122, R123). -/
def Obligations.TokensAndDescriptors : Prop :=
  (∀ (c : CellRef) (w : Word) (s : State),
       let k := s.cellKey c
       let x := s.cell k
       let low := fun mask limit => (∀ i, i < 16 → mask.testBit i = true → x.pendingOf i ≤ limit)
       let blocked := fun (t : State) (mask limit : Nat) =>
         t.cell k = { x with phase := .blocked (.tkop mask limit), cycles := x.cycles + 1 } ∧ s.keptButCell t k
       (opOf w = 0x36 → minorOf w = 0 → zeroFld w 16 38 = true → s.canIssue c [] →
         (low (w.fld 0 16) 0 → ∃ t, exec (.tkopWait c w) s = .next t ∧ s.cellDone t c x)
         ∧ (¬ low (w.fld 0 16) 0 → ∃ t, exec (.tkopWait c w) s = .next t ∧ blocked t (w.fld 0 16) 0))
       ∧ (opOf w = 0x36 → minorOf w = 1 → zeroFld w 0 42 = true → s.canIssue c [] →
         (x.pendingOf (w.fld 50 4) ≤ w.fld 42 8 → ∃ t, exec (.tkopWaitn c w) s = .next t ∧ s.cellDone t c x)
         ∧ (w.fld 42 8 < x.pendingOf (w.fld 50 4) → ∃ t, exec (.tkopWaitn c w) s = .next t ∧ blocked t (2 ^ w.fld 50 4) (w.fld 42 8)))
       ∧ (opOf w = 0x36 → minorOf w = 2 → zeroFld w 0 44 = true → s.canIssue c [w.fld 44 6] →
         ∃ t, exec (.tkopRead c w) s = .next t ∧ s.scalarDone t c (w.fld 44 6) (x.tok (w.fld 50 4)))
       ∧ (opOf w = 0x36 → minorOf w = 3 → zeroFld w 0 47 = true → s.canIssue c [] →
         ∃ t, exec (.tkopTest c w) s = .next t
           ∧ (t.cell k).pred (w.fld 47 3) = (if w.fld 47 3 = 0 ∨ x.pendingOf (w.fld 50 4) = 0 then BitVec.allOnes 256 else 0)
           ∧ t.cell k = { x with preds := (t.cell k).preds, pc := x.pc + 8, cycles := x.cycles + 1 } ∧ s.keptButCell t k)
       ∧ (∀ mask limit, x.phase = .blocked (.tkop mask limit) → s.cellBlocked c = true → low mask limit →
         ∃ t, exec (.tkopWaitEnd c) s = .next t ∧ t.cell k = { x with phase := .running, pc := x.pc + 8 } ∧ s.keptButCell t k))
  ∧ (∀ (c : CellRef) (w : Word) (s : State), opOf w = 0x37 → zeroFld w 32 12 = true → s.canIssue c [tdS w] →
       let k := s.cellKey c
       let x := s.cell k
       let d := x.desc (tdD w)
       let a := (x.s (tdS w) + sxFld w 0 32).toNat
       let desc := fun (t : State) (v : BitVec 128) => (t.cell k).desc (tdD w) = v ∧ (∀ n, n ≠ tdD w → (t.cell k).desc n = x.desc n)
         ∧ t.cell k = { x with descs := (t.cell k).descs, pc := x.pc + 8, cycles := x.cycles + 1 } ∧ s.keptButCell t k
       (minorOf w = 0 → a % 16 = 0 → a < opBytes → ∃ t, exec (.tdscLd c w) s = .next t ∧ desc t (BitVec.ofNat 128 ((s.opsSeen c).readLE a 16)))
       ∧ (minorOf w = 0 → ¬ (a % 16 = 0 ∧ a < opBytes) → ∃ t, exec (.tdscLd c w) s = .next t ∧ s.cellTrapped t c 5 0 x.pc)
       ∧ (minorOf w = 1 → a % 16 = 0 → a < opBytes → ∃ t, exec (.tdscSt c w) s = .next t
           ∧ BitVec.ofNat 128 ((t.cell k).ops.readLE a 16) = d ∧ (∀ b, (b < a ∨ a + 16 ≤ b) → (t.cell k).opRd b = x.opRd b)
           ∧ t.cell k = { x with ops := (t.cell k).ops, pc := x.pc + 8, cycles := x.cycles + 1 } ∧ s.keptButCell t k)
       ∧ (minorOf w = 1 → ¬ (a % 16 = 0 ∧ a < opBytes) → ∃ t, exec (.tdscSt c w) s = .next t ∧ s.cellTrapped t c 5 0 x.pc)
       ∧ (minorOf w = 2 → ∃ t, exec (.tdscSetw0 c w) s = .next t ∧ desc t (d.extractLsb' 64 64 ++ x.s (tdS w)))
       ∧ (minorOf w = 3 → ∃ t, exec (.tdscSetw1 c w) s = .next t ∧ desc t (x.s (tdS w) ++ d.extractLsb' 0 64))
       ∧ (minorOf w = 4 → ∃ t, exec (.tdscGetw0 c w) s = .next t ∧ s.scalarDone t c (tdS w) (d.extractLsb' 0 64))
       ∧ (minorOf w = 5 → ∃ t, exec (.tdscGetw1 c w) s = .next t ∧ s.scalarDone t c (tdS w) (d.extractLsb' 64 64))
       ∧ (minorOf w = 6 → ∃ t, exec (.tdscAddi c w) s = .next t ∧ desc t (d.extractLsb' 52 76 ++ (d.extractLsb' 0 52 + (sxFld w 0 32).extractLsb' 0 52)))
       ∧ (minorOf w = 7 → ∃ t, exec (.tdscAdds c w) s = .next t ∧ desc t (d.extractLsb' 52 76 ++ (d.extractLsb' 0 52 + (x.s (tdS w)).extractLsb' 0 52))))


/-! ## Memory instructions of a cell -/

/-- LD and ST in the operand store (SP 0, a load as it is seen beside the operations at work on it, 04 R109) and the Relief bank (SP 1): the bytes of the access, little-endian; an address outside the operand store traps with ILLEGAL_INSTR, outside the engine's Relief with PROTECTION, and a poisoned granule fails a load with ECC_UNCORR. In device space (SP 2) a load goes out and its register is awaited; a store enters the store buffer in its 8-byte pieces, and memory is as it was until it drains; a missing translation or right traps with PROTECTION (05 R132, R139 to R141, R145, 07 R206, 10 R304). -/
def Obligations.LoadsAndStores : Prop :=
  (∀ (c : CellRef) (w : Word) (s : State),
       let k := s.cellKey c
       let x := s.cell k
       let n := mSize w
       let va := mAddr w x
       let v := (x.s (sbOf w)).toNat % 256 ^ n
       let relief := (s.engine c.core c.eng).relief
       (opOf w = 0x10 → ldLegal w = true → s.canIssue c [sdOf w, saOf w] →
         (mSp w = 0 → va + n ≤ opBytes → ∃ t, exec (.ld c w) s = .next t ∧ s.scalarDone t c (sdOf w) (extend (w.bit 37) n ((s.opsSeen c).readLE va n)))
         ∧ (mSp w = 0 → opBytes < va + n → ∃ t, exec (.ld c w) s = .next t ∧ s.cellTrapped t c 5 0 x.pc)
         ∧ (mSp w = 1 → va + n ≤ relief → (s.bank k).anyPoison va n = false →
             ∃ t, exec (.ld c w) s = .next t ∧ s.scalarDone t c (sdOf w) (extend (w.bit 37) n ((s.bank k).data.readLE va n)))
         ∧ (mSp w = 1 → relief < va + n → ∃ t, exec (.ld c w) s = .next t ∧ s.cellTrapped t c 6 0 x.pc)
         ∧ (mSp w = 1 → va + n ≤ relief → (s.bank k).anyPoison va n = true → ∃ t, exec (.ld c w) s = .next t ∧ s.cellTrapped t c 7 0 x.pc))
       ∧ (opOf w = 0x11 → stLegal w = true → s.canIssue c [saOf w, sbOf w] →
         (mSp w = 0 → va + n ≤ opBytes → ∃ t, exec (.st c w) s = .next t ∧ (t.cell k).ops.readLE va n = v
           ∧ (∀ a, (a < va ∨ va + n ≤ a) → (t.cell k).opRd a = x.opRd a)
           ∧ t.cell k = { x with ops := (t.cell k).ops, pc := x.pc + 8, cycles := x.cycles + 1 } ∧ s.keptButCell t k)
         ∧ (mSp w = 0 → opBytes < va + n → ∃ t, exec (.st c w) s = .next t ∧ s.cellTrapped t c 5 0 x.pc)
         ∧ (mSp w = 1 → va + n ≤ relief → (s.bank k).anyPoison va n = false →
             ∃ t, exec (.st c w) s = .next t ∧ (t.bank k).data.readLE va n = v ∧ t.cell k = x.next
               ∧ (∀ j a, (j ≠ k ∨ a < va ∨ va + n ≤ a) → t.bankByte j a = s.bankByte j a) ∧ t.mem.dev = s.mem.dev)
         ∧ (mSp w = 1 → relief < va + n → ∃ t, exec (.st c w) s = .next t ∧ s.cellTrapped t c 6 0 x.pc)))
  ∧ (∀ (c : CellRef) (w : Word) (s : State),
       let k := s.cellKey c
       let x := s.cell k
       let f := s.flight k
       let n := mSize w
       let va := mAddr w x
       let ctx := (s.engine c.core c.eng).ctx
       mSp w = 2 →
       (opOf w = 0x10 → ldLegal w = true → s.canIssue c [sdOf w, saOf w] →
         (∀ p, s.xlAccess c.core ctx va n .read = .ok p → (p.isArena = true → n = 8 ∧ s.arenaAt va p = true) → f.loads.length < 8 →
           ∃ t, exec (.ld c w) s = .next t ∧ accessOut s t c (sdOf w) (.ld (w.bit 37)) va p n (mTag w) (mAcq w) false)
         ∧ (s.xlAccess c.core ctx va n .read = .missing → ∃ t, exec (.ld c w) s = .next t ∧ s.cellTrapped t c 6 0 x.pc))
       ∧ (opOf w = 0x11 → stLegal w = true → s.canIssue c [saOf w, sbOf w] →
         (∀ p, s.xlAccess c.core ctx va n .write = .ok p → p.isArena = false → s.codeHit ctx va n = false →
           f.stbuf.length + (pieces va n).length ≤ 16 →
           ∃ t, exec (.st c w) s = .next t ∧ t.cell k = x.next ∧ t.mem = s.mem
             ∧ (t.flight k).stbuf.length = f.stbuf.length + (pieces va n).length ∧ (t.flight k).seq = f.seq + 1
             ∧ ∀ e ∈ (t.flight k).stbuf.drop f.stbuf.length, e.id = f.seq ∧ e.tag = mTag w ∧ e.rel = mRel w)
         ∧ (∀ p, s.xlAccess c.core ctx va n .write = .ok p → s.codeHit ctx va n = true →
           ∃ t, exec (.st c w) s = .next t ∧ s.cellTrapped t c 6 0 x.pc)
         ∧ (s.xlAccess c.core ctx va n .write = .missing → ∃ t, exec (.st c w) s = .next t ∧ s.cellTrapped t c 6 0 x.pc)))

/-- AMO, CAS, LR, SC and FSIG go out as outstanding accesses when the address is aligned and may be reached; an unaligned address traps with ILLEGAL_INSTR, and LR and SC in host memory trap with PROTECTION. ATOMIC_AT_HOME: an AMO, CAS or FSIG on an aligned word of stack memory that can be served and holds no poison takes the old value and, where it writes, leaves the new one there, in one step; the old value is what a load then returns, but an FSIG is over; on a line whose holder is inside its minimum hold it waits in the line's queue. What waited for the access to be performed (an aperture's unload, a host invalidation) goes on after it (05 R142 to R144, R151, 07 R224, 08 R248, R250, 09 R277). -/
def Obligations.Atomics : Prop :=
  (∀ (c : CellRef) (w : Word) (s : State),
       let k := s.cellKey c
       let x := s.cell k
       let n := mSize w
       let va := mAddr w x
       let ctx := (s.engine c.core c.eng).ctx
       let b := (x.s (sbOf w)).toNat % 256 ^ n
       let room := (s.flight k).loads.length < 8
       let plain := fun (p : Place) => s.xlAccess c.core ctx va n .atomic = .ok p ∧ va % n = 0 ∧ room
       let fence := (x.s (saOf w)).toNat
       (opOf w = 0x12 → amoLegal w = true → s.canIssue c [sdOf w, saOf w, sbOf w] →
         (∀ p, plain p → (p.isArena = true → mFn w = 1 ∧ n = 8 ∧ s.arenaAt va p = true) → s.codeHit ctx va n = false →
           ∃ t, exec (.amo c w) s = .next t ∧ accessOut s t c (sdOf w) (.amo (mFn w) b) va p n (mTag w) (mAcq w) (mRel w))
         ∧ (va % n ≠ 0 → ∃ t, exec (.amo c w) s = .next t ∧ s.cellTrapped t c 5 0 x.pc))
       ∧ (opOf w = 0x13 → casLegal w = true → s.canIssue c [sdOf w, saOf w, sbOf w] →
         ∀ p, plain p → p.isArena = false → s.codeHit ctx va n = false →
           ∃ t, exec (.cas c w) s = .next t ∧ accessOut s t c (sdOf w) (.cas ((x.s (sdOf w)).toNat % 256 ^ n) b) va p n (mTag w) (mAcq w) (mRel w))
       ∧ (opOf w = 0x14 → lrLegal w = true → s.canIssue c [sdOf w, saOf w] → ∀ p, plain p → p.isArena = false →
           ∃ t, exec (.lr c w) s = .next t
             ∧ (if p.isHost then s.cellTrapped t c 6 0 x.pc else accessOut s t c (sdOf w) .lr va p n (mTag w) (mAcq w) false))
       ∧ (opOf w = 0x15 → scLegal w = true → s.canIssue c [sdOf w, saOf w, sbOf w] → ∀ p, plain p → p.isArena = false → s.codeHit ctx va n = false →
           ∃ t, exec (.sc c w) s = .next t
             ∧ (if p.isHost then s.cellTrapped t c 6 0 x.pc else accessOut s t c (sdOf w) (.sc b) va p n (mTag w) false (mRel w)))
       ∧ (opOf w = 0x1B → zeroFld w 52 6 = true → zeroFld w 0 36 = true → s.canIssue c [saOf w, sbOf w] →
         (∀ p, fence % 8 = 0 → (x.s (sbOf w)).bit 63 = false → s.xlAccess c.core ctx fence 8 .atomic = .ok p → p.isArena = false →
           s.inRelief c.core ctx fence .atomic = false → s.codeHit ctx fence 8 = false → room →
           ∃ t, exec (.fsig c w) s = .next t ∧ accessOut s t c 0 (.fsig (x.s (sbOf w)).toNat) fence p 8 (w.fld 36 4) false false)
         ∧ ((fence % 8 ≠ 0 ∨ (x.s (sbOf w)).bit 63 = true) → ∃ t, exec (.fsig c w) s = .next t ∧ s.cellTrapped t c 5 0 x.pc)))
  ∧ (∀ (c : CellRef) (i : Nat) (h : HostAnswer) (s : State) (e : LoadEntry) (a : Nat),
       let k := s.cellKey c
       s.cellWorks c = true → (s.flight k).access i = some e → (e.kind ≠ .lr ∧ (∀ b, e.kind ≠ .ld b) ∧ ∀ b, e.kind ≠ .sc b) →
       e.done = none → e.failed = 0 → e.place = .stack a → a % e.size = 0 → (e.size = 2 ∨ e.size = 4 ∨ e.size = 8) → s.mayPerform c.core k e.acc = true →
       (s.mem.free (a / 64) = true → (s.recall (a / 64) none).mem.homePoison (a / 64) = false → s.savedBank a = none →
         ∃ (t : State) (old : Nat), exec (.atomicAtHome c i h) s = .next t.settleAccess ∧ old = (s.recall (a / 64) none).mem.dev.readLE a e.size
           ∧ t.mem.dev.readLE a e.size = (match (e.kind.apply e.size old false).1 with
             | some v => v % 256 ^ e.size
             | none => old)
           ∧ ((t.flight k).access i = match e.kind with
             | .fsig _ => none
             | _ => some { e with done := some old }))
       ∧ (s.mem.free (a / 64) = false → s.mem.blocked (a / 64) = false →
         ∃ t : State, exec (.atomicAtHome c i h) s = .next t.settleAccess ∧ t.mem.queue (a / 64) = [.atomic c i] ∧ t.mem.dev = s.mem.dev
           ∧ t.flights = s.flights))

/-- MEMORY_ACCESS_RETURN: an access performed at its home, or a load from the Relief bank, returns its value to its register, which is no longer awaited; one that failed traps with its code and leaves the register; a load or LR of a line that the core cache holds returns the line's bytes, an LR with a reservation; an SC whose reservation is lost answers 1 and writes nothing, one that holds it on an exclusive line answers 0 and its bytes are in the line. STORE_BUFFER_DRAIN: a store that the order lets go, or one of its pieces, leaves the buffer for its Relief bank, where its bytes now are. STORE_POISON_RETURN traps with ECC_UNCORR. What waited for the access to be performed goes on after it; where nothing does, nothing else happens (05 R132, R144, R145, 07 R206, R208, R209). -/
def Obligations.AccessReturns : Prop :=
  (∀ (c : CellRef) (i : Nat) (h : HostAnswer) (s : State) (e : LoadEntry),
       let k := s.cellKey c
       s.cellWorks c = true → (s.flight k).access i = some e →
       (∀ v, e.failed = 0 → e.done = some v → ∃ t : State, exec (.memoryAccessReturn c i h) s = .next t.settleAccess
         ∧ (t.cell k).s e.sd = (if e.sd = 0 then 0 else Word.ofNat v) ∧ (∀ r, r ≠ e.sd → (t.cell k).s r = (s.cell k).s r)
         ∧ (t.flight k).access i = none ∧ (t.flight k).busy = clearBit (s.flight k).busy e.sd ∧ t.mem = s.mem ∧ s.keptButFlight t k)
       ∧ (e.failed ≠ 0 → ∃ t : State, exec (.memoryAccessReturn c i h) s = .next t.settleAccess ∧ s.cellTrapped t c e.failed 0 e.pc
         ∧ ∀ r, (t.cell k).s r = (s.cell k).s r)
       ∧ (∀ a l, e.failed = 0 → e.done = none → s.mayPerform c.core k e.acc = true → e.place = .stack a → a % 64 + e.size ≤ 64 →
         s.mem.cline? c.core (a / 64) = some l → l.poison = false →
         let v := l.data.toNat / 256 ^ (a % 64) % 256 ^ e.size
         let got := fun (t : State) (x : Word) => (t.cell k).s e.sd = (if e.sd = 0 then 0 else x) ∧ (t.flight k).access i = none
         (∀ sx, e.kind = .ld sx → l.st ≠ .pending → e.got = [] → e.va % 8 + e.size ≤ 8 → (s.flight k).stbuf = [] →
           ∃ t : State, exec (.memoryAccessReturn c i h) s = .next t.settleAccess ∧ got t (extend sx e.size v) ∧ t.mem = s.mem)
         ∧ (e.kind = .lr → (l.st = .exclusive ∨ l.st = .modified) →
           ∃ t : State, exec (.memoryAccessReturn c i h) s = .next t.settleAccess ∧ got t (Word.ofNat v)
             ∧ (t.cell k).resv = some (.stack (a / 64 * 64)) ∧ t.mem.dev = s.mem.dev)
         ∧ (∀ new, e.kind = .sc new → s.reserved k e.place = false →
           ∃ t : State, exec (.memoryAccessReturn c i h) s = .next t.settleAccess ∧ got t 1 ∧ (t.cell k).resv = none ∧ t.mem.dev = s.mem.dev
             ∧ t.mem.caches = s.mem.caches)
         ∧ (∀ new, e.kind = .sc new → s.reserved k e.place = true → (l.st = .exclusive ∨ l.st = .modified) → l.early = 0 →
           ∃ (t : State) (l' : CacheLine), exec (.memoryAccessReturn c i h) s = .next t.settleAccess ∧ got t 0 ∧ (t.cell k).resv = none
             ∧ t.mem.cline? c.core (a / 64) = some l' ∧ l'.st = .modified ∧ l'.data.toNat / 256 ^ (a % 64) % 256 ^ e.size = new % 256 ^ e.size)))
  ∧ (∀ (c : CellRef) (i : Nat) (s : State),
       let k := s.cellKey c
       let f := s.flight k
       let out := fun (t : State) (e : StoreEntry) => ∃ b off, e.place = .bank b off ∧ (t.flight k).stbuf = f.stbuf.erase e
         ∧ (t.bank b).data.readLE off e.size = e.value % 256 ^ e.size
         ∧ (∀ j a, (j ≠ b ∨ a < off ∨ off + e.size ≤ a) → t.bankByte j a = s.bankByte j a) ∧ t.mem.dev = s.mem.dev
       s.cellWorks c = true →
       ((f.stbuf.filter fun e => e.id == i) ≠ [] → (∀ e ∈ f.stbuf, e.id = i → s.mayPerform c.core k e.acc = true
           ∧ e.size ≤ 8 ∧ ∃ b off, e.place = .bank b off ∧ off % 64 + e.size ≤ 64 ∧ (s.bank b).poisoned (off / 64) = false) →
         ∃ t : State, exec (.storeBufferDrain c i) s = .next t.settleAccess ∧ ∃ e ∈ f.stbuf, e.id = i ∧ out t e)
       ∧ (∀ pc sd, f.storeFail = some (pc, sd) →
         ∃ t, exec (.storePoisonReturn c) s = .next t ∧ s.cellTrapped t c 7 0 pc ∧ (t.flight k).storeFail = none))
  ∧ (∀ s : State, s.pl.atsInvs = [] → (∀ e ∈ s.pl.reqs, ∀ r, e.2.apt = some r → r.going = false ∨ r.op ≠ 1) → s.settleAccess = s)

/-- FENCE blocks its cell until FENCE_COMPLETE finds its conditions to hold; ACVT converts an address of one of the context's apertures, and answers 0, or traps, where none holds it (05 R146 to R148, 07 R215, R216). -/
def Obligations.FenceAndConvert : Prop :=
  ∀ (c : CellRef) (w : Word) (s : State),
    let k := s.cellKey c
    let x := s.cell k
    let ctx := (s.engine c.core c.eng).ctx
    let y := s.convert ctx (w.bit 45) (x.s (saOf w)).toNat
    (opOf w = 0x18 → w.fld 54 2 ≠ 3 → zeroFld w 16 38 = true → s.canIssue c [] →
      ∃ t, exec (.fence c w) s = .next t ∧ s.keptButCell t k
        ∧ t.cell k = { x with phase := .blocked (.fence (w.fld 56 2) (w.fld 54 2) (w.fld 0 16) (s.flight k).seq), cycles := x.cycles + 1 })
    ∧ (∀ scope kind mask id, x.phase = .blocked (.fence scope kind mask id) → s.cellBlocked c = true →
      (s.fenceHolds c.core k scope kind mask = true → ∃ t, exec (.fenceComplete c) s = .next t ∧ t.cell k = { x with phase := .running, pc := x.pc + 8 })
      ∧ (s.fenceHolds c.core k scope kind mask = false → exec (.fenceComplete c) s = .next s))
    ∧ (opOf w = 0x16 → zeroFld w 0 44 = true → s.canIssue c [sdOf w, saOf w] →
      (∀ z, y = some z → ∃ t, exec (.acvt c w) s = .next t ∧ s.scalarDone t c (sdOf w) (Word.ofNat z))
      ∧ (y = none → w.bit 44 = false → ∃ t, exec (.acvt c w) s = .next t ∧ s.scalarDone t c (sdOf w) 0)
      ∧ (y = none → w.bit 44 = true → ∃ t, exec (.acvt c w) s = .next t ∧ s.cellTrapped t c 6 0 x.pc))

/-! ## Signals, barriers and fence waits -/

/-- SIG ADD adds, WAIT goes on or blocks, READ reads, and ADDB adds where it fits and blocks where not; SIG_WAIT_SATISFIED and ADDB_ADMITTED let the blocked cell go on. A cell's next synchronisation operation waits until its engine's barrier arrivals have been made (05 R149, 08 R239, R242 to R246). -/
def Obligations.SignalCounters : Prop :=
  ∀ (c : CellRef) (w : Word) (s : State) (phys depth partner : Nat),
    let k := s.cellKey c
    let x := s.cell k
    let ctx := (s.engine c.core c.eng).ctx
    let word := fun (m : Nat) => opOf w = 0x19 ∧ minorOf w = m ∧ zeroFld w 16 16 = true ∧ s.syncReady c.core c.eng = true
      ∧ mapped s c (s.sigWords ctx c.core (sigCtr w)) (s.sigEntry ctx c.core (sigCtr w)) (phys, depth, partner)
    let amount := sigAmount w x
    let old := s.counter c.core phys
    let kept := fun (t : State) => ∀ p, p ≠ phys → t.counter c.core p = s.counter c.core p
    (opOf w = 0x19 → minorOf w = 0 → zeroFld w 16 16 = true → s.syncReady c.core c.eng = false → s.canIssue c [sigSa w] →
      exec (.sigAdd c w) s = .next s)
    ∧ (word 0 → s.canIssue c [sigSa w] →
      ∃ t, exec (.sigAdd c w) s = .next t ∧ counterAdded old (t.counter c.core phys) amount ∧ kept t ∧ t.cell k = x.next ∧ t.mem = s.mem)
    ∧ (word 1 → s.canIssue c [sigSa w] → ∃ t, exec (.sigWait c w) s = .next t ∧ t.counter c.core phys = old ∧ kept t
        ∧ t.cell k = (if s.counterMet c.core phys (x.s (sigSa w)).toNat then x.next
                      else { x with phase := .blocked (.sigWait phys (x.s (sigSa w)).toNat), cycles := x.cycles + 1 }))
    ∧ (word 2 → s.canIssue c [sigSd w] →
      ∃ t, exec (.sigRead c w) s = .next t ∧ t.cell k = (x.setS (sigSd w) old).next ∧ t.counter c.core phys = old ∧ kept t)
    ∧ (word 3 → s.canIssue c [sigSa w] →
      ∃ t, exec (.sigAddb c w) s = .next t ∧ kept t
        ∧ (if depth ≠ 0 ∧ depth < amount then s.cellTrapped t c 5 0 x.pc ∧ t.counter c.core phys = old
           else if depth = 0 ∨ (((s.core c.core).addbQ.at [] phys) = [] ∧ s.addbFits c.core phys amount partner depth = true) then
             counterAdded old (t.counter c.core phys) amount ∧ t.cell k = x.next
           else t.counter c.core phys = old ∧ (t.core c.core).addbQ.at [] phys = (s.core c.core).addbQ.at [] phys ++ [k]
             ∧ t.cell k = { x with phase := .blocked (.addb phys amount partner depth), cycles := x.cycles + 1 }))
    ∧ (∀ target, x.phase = .blocked (.sigWait phys target) → s.cellBlocked c = true → s.counterMet c.core phys target = true →
      ∃ t, exec (.sigWaitSatisfied c) s = .next t ∧ t.cell k = { x with phase := .running, pc := x.pc + 8 } ∧ s.keptButCell t k)
    ∧ (∀ n, x.phase = .blocked (.addb phys n partner depth) → s.cellBlocked c = true → ((s.core c.core).addbQ.at [] phys).head? = some k →
      s.addbFits c.core phys n partner depth = true →
      ∃ t, exec (.addbAdmitted c) s = .next t ∧ t.cell k = { x with phase := .running, pc := x.pc + 8 } ∧ counterAdded old (t.counter c.core phys) n
        ∧ kept t ∧ k ∉ (t.core c.core).addbQ.at [] phys)

/-- BAR SYNC and BAR ARRIVE issue the cell's instance of the barrier, and SYNC blocks; BAR WAIT goes on where the ticket's round is complete, traps with WATCHDOG where it was discarded, and blocks otherwise. The first cell to issue an instance fixes its unit and MASK for the engine. BARRIER_ARRIVAL counts an engine all of whose cells have issued the instance, running or stopped; the round completes with the last engine of the MASK: the completed count moves past it (05 R150, R173, 08 R241, R246, R259 to R262, R264). -/
def Obligations.BarrierInstructions : Prop :=
  (∀ (c : CellRef) (w : Word) (s : State) (u m : Nat),
       let k := s.cellKey c
       let x := s.cell k
       let ctx := (s.engine c.core c.eng).ctx
       let bid := barBid w
       let inst := (s.gather k).bars.at 0 bid
       let first := (s.engine c.core c.eng).barAt.find? (instKey bid inst)
       let unit := ((first.map fun y => y.1).getD u)
       let ticket := (x.s (barSa w)).fld 0 32
       let word := fun (minor : Nat) => opOf w = 0x1A ∧ minorOf w = minor ∧ zeroFld w 0 37 = true ∧ s.syncReady c.core c.eng = true
         ∧ mapped s c [barWord bid, barWord bid + 1] (s.barEntry ctx c.core c.eng bid) (u, m)
       (word 0 → s.canIssue c [] → ∃ t, exec (.barSync c w) s = .next t ∧ (t.gather k).bars.at 0 bid = inst + 1 ∧ (t.bar c.core u).mask = m
           ∧ (t.engine c.core c.eng).barAt.find? (instKey bid inst) = some (first.getD (u, m))
           ∧ t.cell k = { x with phase := .blocked (.barSync unit bid inst), cycles := x.cycles + 1 })
       ∧ (word 1 → s.canIssue c [barSd w] → ∃ t, exec (.barArrive c w) s = .next t ∧ (t.gather k).bars.at 0 bid = inst + 1 ∧ t.cell k = x.next
           ∧ (bid, inst, barSd w) ∈ (t.flight k).arrive ∧ (barSd w ≠ 0 → (t.flight k).busy.testBit (barSd w) = true))
       ∧ (word 2 → s.canIssue c [barSa w] → ∃ t, exec (.barWait c w) s = .next t ∧ (t.bar c.core u).mask = m
           ∧ (if ticket ∈ (s.bar c.core u).lost then s.cellTrapped t c 4 0 x.pc
              else if (s.bar c.core u).complete ticket = true then t.cell k = x.next
              else t.cell k = { x with phase := .blocked (.barWait u ticket), cycles := x.cycles + 1 })))
  ∧ (∀ (core eng bid u m : Nat) (s : State),
       let e := s.engine core eng
       let inst := e.barServed.at 0 bid
       e.barAt.find? (instKey bid inst) = some (u, m) → s.serving = true → s.resident core eng = true → e.keys core ≠ [] →
       (∀ k ∈ e.keys core, inst < (s.gather k).bars.at 0 bid) →
       ∃ t, exec (.barrierArrival core eng bid) s = .next t ∧ (t.engine core eng).barServed.at 0 bid = inst + 1
         ∧ (m = 2 ^ eng → eng < 64 → (s.bar core u).rounds = [] → (s.bar core u).stalled = [] →
             (t.bar core u).rounds = [] ∧ (t.bar core u).done = ((s.bar core u).next % 2 ^ 32 + 1) % 2 ^ 32))

/-- A wait is over at a value: an error word, one not below the target, or a saturated one. FWAIT ends at once where the word it reads is such, and FWAIT_POLL, FWAIT_TIMEOUT and MONITOR_WAKE end a blocked one, the timeout with whatever it reads, once the time counter has counted its ticks and not before; each leaves the value in s[SD]. MON_ARM arms a slot that is not bound for a LIVE context and an event source, and refuses one bound to another word (05 R152, 08 R249, R255, R256, R258, R265). -/
def Obligations.FenceWaits : Prop :=
  (∀ (c : CellRef) (w : Word) (h : HostAnswer) (s : State) (p : Place) (u : State) (v : Nat),
       let k := s.cellKey c
       let x := s.cell k
       let a := s.at c
       let ctx := (s.engine c.core c.eng).ctx
       let va := (x.s (saOf w)).toNat
       let target := (x.s (sbOf w)).toNat
       let sc := w.fld 34 6
       (opOf w = 0x1C → w.fld 32 2 = 0 → zeroFld w 0 15 = true → s.canIssue c [w.fld 52 6, saOf w, sbOf w, sc] → va % 8 = 0 →
         s.xlAccess c.core ctx va 8 .read = .ok p → p.isArena = false → s.inRelief c.core ctx va .read = false →
         (s.xlAccessFill c.core ctx va 8 .read).fenceRead a p (w.bit 15) h = some (u, .ok v) →
         ∃ t, exec (.fwait c w h) s = .next t
           ∧ (if fenceMet v target = true ∨ (sc ≠ 0 ∧ (x.s sc).toNat = 0) then t.cell k = (x.setS (w.fld 52 6) (Word.ofNat v)).next
              else (t.cell k).phase = .blocked (.fwait (w.fld 52 6) va target (if sc = 0 then none else some (s.time + (x.s sc).toNat)) none (w.bit 15))))
       ∧ (∀ sd b tgt dl acq, x.phase = .blocked (.fwait sd b tgt dl none acq) → s.cellBlocked c = true → s.xlAccess c.core ctx b 8 .read = .ok p →
         (s.xlAccessFill c.core ctx b 8 .read).fenceRead a p acq h = some (u, .ok v) →
         (fenceMet v tgt = true → ∃ t, exec (.fwaitPoll c h) s = .next t ∧ t.cell k = ((u.cell k).setS sd (Word.ofNat v)).resume)
         ∧ (∀ till, dl = some till → till ≤ s.time →
             ∃ t, exec (.fwaitTimeout c h) s = .next t ∧ t.cell k = ((u.cell k).setS sd (Word.ofNat v)).resume)
         ∧ (∀ till, dl = some till → s.time < till → exec (.fwaitTimeout c h) s = .next s))
       ∧ (∀ slot n sd b tgt dl acq, (s.mon slot).waiters = [k] → s.refOf k = some c → x.phase = .blocked (.fwait sd b tgt dl (some n) acq) →
         s.cellBlocked c = true → s.xlAccess c.core ctx b 8 .read = .ok p → (s.xlAccessFill c.core ctx b 8 .read).fenceRead a p acq h = some (u, .ok v) →
         fenceMet v tgt = true → ∃ t, exec (.monitorWake slot h) s = .next t ∧ t.cell k = ((u.cell k).setS sd (Word.ofNat v)).resume))
  ∧ (∀ (v : Word) (h : HostAnswer) (s : State) (p : Place),
       let slot := Fld.monArmCtl_slot.get v
       let ctx := Fld.monArmCtl_context.get v
       let src := Fld.monArmCtl_source.get v
       v.bit 63 = true → s.verdict 0 0x4F0 Reg.monArmCtl.off 8 = .perform → (s.ctx ctx).state = 1 → 32 ≤ src →
       s.armPlace ctx (s.fld monPage .monArmAddr Fld.monArmAddr_addr) = some (some p) →
       ((s.mon slot).bound = none → s.plinthWord p h = none →
         ∃ t, exec (.monArm 0 v h) s = .next t ∧ (t.mon slot).bound = some p ∧ (t.mon slot).armed = true ∧ (t.mon slot).source = src
           ∧ (t.mon slot).ctx = ctx ∧ (t.mon slot).armCtx = ctx ∧ ∀ n, n ≠ slot → t.mon n = s.mon n)
       ∧ (∀ q, (s.mon slot).bound = some q → q ≠ p → ∃ t, exec (.monArm 0 v h) s = .next t ∧ t.mon slot = s.mon slot ∧ (t.pageErrs monPage).bit 63 = true))


/-! ## Synchronisation registers and watchdogs -/

/-- SYNC_MAPINV drops a context's cached map entries, SIG_DATA_WRITE sets the counter that SIG_IDX names, and BAR_CTL_RESET discards the rounds of the unit that BAR_IDX names and restarts its numbering (08 R241, R244, R267, R566); the watchdogs make a blocked cell's engine trap with WATCHDOG, and discard the open rounds of a unit (08 R263, R264). -/
def Obligations.SynchronisationRegisters : Prop :=
  ∀ (src core : Nat) (v : Word) (s : State),
    let page := 0x1003 + 0x100 * core
    let phys := s.fld (syncPage core) .sigIdx Fld.sigIdx_counter
    let u := s.fld (syncPage core) .barIdx Fld.barIdx_unit
    (s.verdict src page Reg.syncMapinv.off 8 = .perform → s.funcPart src = none →
      ∃ t, exec (.syncMapinv src core v) s = .next t ∧ t.mem = s.mem ∧ t.cells = s.cells
        ∧ (t.core core).mapCache = (if v.bit 63 then (s.core core).mapCache.filter fun e => e.1 / 2 ^ 20 != Fld.syncMapinv_context.get v
                                    else (s.core core).mapCache))
    ∧ (s.verdict src page Reg.sigData.off 8 = .perform →
      ∃ t, exec (.sigDataWrite src core v) s = .next t ∧ t.counter core phys = v ∧ (∀ p, p ≠ phys → t.counter core p = s.counter core p)
        ∧ t.mem = s.mem ∧ t.cells = s.cells)
    ∧ (s.verdict src page Reg.barCtl.off 8 = .perform → v.bit 0 = true → (s.bar core u).stalled = [] →
      ∃ t, exec (.barCtlReset src core v) s = .next t ∧ (t.bar core u).rounds = [] ∧ (t.bar core u).next = 0 ∧ (t.bar core u).done = 0)
    ∧ (∀ (c : CellRef) (b : Block), (s.cellAt c).phase = .blocked b → b.watched = true → s.cellBlocked c = true →
      s.fld (syncPage c.core) .syncWd Fld.syncWd_engMs ≠ 0 → s.board.thrReq.testBit (c.core / 4) = false →
      ∃ t, exec (.engineWatchdog c) s = .next t ∧ s.cellTrapped t c 4 0 (s.cellAt c).pc)
    ∧ (∀ unit n, (s.bar core unit).ctx = some n → n ∈ (s.core core).residents → (s.bar core unit).rounds ≠ [] → s.fld (syncPage core) .syncWd Fld.syncWd_barMs ≠ 0 → s.serving = true →
      s.board.thrReq.testBit (core / 4) = false →
      ∃ t, exec (.barrierWatchdog core unit) s = .next t ∧ (t.bar core unit).rounds = [] ∧ (t.bar core unit).stalled = []
        ∧ (t.bar core unit).lost = (s.bar core unit).lost ++ (s.bar core unit).rounds.map Prod.fst)

/-! ## Coherence -/

/-- READ_SHARED gives a reader that has room the line, exclusive where no other agent is recorded and shared otherwise; READ_OWN's request joins the line's queue and so blocks the line; OWNERSHIP_GRANT gives the oldest request the line alone, held, with its early stores visible, and the queue goes on. A transaction that finds the line blocked or held waits in the line's queue, and the queue goes on in order of arrival, up to a request for ownership or while a holder is inside its minimum hold. WRITE_BACK puts a modified line's bytes into its stack, and drops a clean line, with the reservations of its core on it, without a write; HOLD_EXPIRY ends a hold; DIRECTORY_RECLAIM leaves no holder and no entry (07 R219 to R222, R225, 05 R144). -/
def Obligations.CacheLines : Prop :=
  (∀ (agent line : Nat) (s : State),
       (s.up = true → s.mayCache agent line = true → s.mem.cline? agent line = none →
         (s.mem.free line = true → s.mem.roomFor agent line = true → ∃ t c, exec (.readShared agent line .ok) s = .next t
           ∧ t.mem.cline? agent line = some c ∧ c.early = 0 ∧ c.held = false
           ∧ (if (agents.filter fun a => a != agent && (s.mem.dirAt line).names a) = [] then c.st = .exclusive ∧ t.mem.dirAt line = ⟨agent + 1, 0⟩
              else c.st = .shared ∧ (t.mem.dirAt line).owner = 0)
           ∧ c.data = t.mem.dev.readLine (64 * line))
         ∧ (s.mem.free line = false → ∃ t, exec (.readShared agent line .ok) s = .next t ∧ .shared agent .ok ∈ t.mem.queue line
           ∧ t.mem.caches = s.mem.caches ∧ t.mem.dev = s.mem.dev)
         ∧ (.own agent ∉ s.mem.queue line →
           ∃ t, exec (.readOwn agent line) s = .next t ∧ t.mem.queue line = s.mem.queue line ++ [.own agent] ∧ t.mem.blocked line = true
             ∧ t.mem.caches = s.mem.caches ∧ t.mem.dev = s.mem.dev))
       ∧ ((s.mem.queue line).head? = some (.own agent) → s.mem.roomFor agent line = true →
         (∀ a c, a < 17 → a ≠ agent → s.mem.cline? a line = some c → c.held = false) →
         ∃ (t : State) (c : CacheLine), exec (.ownershipGrant agent line) s = .next (t.drain line) ∧ t.mem.cline? agent line = some c ∧ c.held = true ∧ c.early = 0
           ∧ (c.st = .exclusive ∨ c.st = .modified) ∧ t.mem.dirAt line = ⟨agent + 1, 0⟩ ∧ t.mem.queue line = (s.mem.queue line).tail
           ∧ ∀ a d, a < 17 → a ≠ agent → t.mem.cline? a line = some d → d.st = .pending))
  ∧ (∀ (agent line : Nat) (s : State) (c : CacheLine),
       (s.mem.cline? agent line = some c → c.early = 0 → c.held = false → s.up = true →
         (c.st = .modified → ∃ t, exec (.writeBack agent line) s = .next t ∧ t.mem.cline? agent line = none
           ∧ (∀ i, i < 64 → t.devByte (64 * line + i) = BitVec.ofNat 8 (c.data.toNat / 256 ^ i))
           ∧ ∀ a, (a < 64 * line ∨ 64 * line + 64 ≤ a) → t.devByte a = s.devByte a)
         ∧ ((c.st = .shared ∨ c.st = .exclusive) → ∃ t, exec (.writeBack agent line) s = .next t ∧ t.mem.cline? agent line = none
           ∧ t.mem.dev = s.mem.dev ∧ t.mem.dirAt line = s.mem.dirAt line
           ∧ ∀ k a, k / 256 = agent → a / 64 = line → (t.cell k).resv ≠ some (.stack a)))
       ∧ (s.mem.cline? agent line = some c →
         exec (.holdExpiry agent line) s = .next (({ s with mem := s.mem.setCline agent line { c with held := false } }).drain line))
       ∧ (s.up = true → s.mem.dirAt line ≠ {} → s.mem.free line = true →
         ∃ t, exec (.directoryReclaim line) s = .next t ∧ t.mem.dirAt line = {} ∧ (∀ a d, a < 17 → t.mem.cline? a line = some d → d.st = .pending)
           ∧ ∀ a, (a < 64 * line ∨ 64 * line + 64 ≤ a) → t.devByte a = s.devByte a))
  ∧ (∀ (line : Nat) (s : State),
       ((s.mem.queue line = [] ∨ s.mem.held line = true ∨ ∃ a, (s.mem.queue line).head? = some (.own a)) → s.drain line = s)
       ∧ (∀ r l, s.mem.queue line = r :: l → s.mem.held line = false →
         let t := { s with mem := s.mem.setQueue line l }
         (∀ err, r = .read err → s.drain line = (t.homeRead line err).drain line)
         ∧ (∀ mask data, r = .write mask data → s.drain line = ((t.homeWrite line mask.toNat data).1).drain line)))

/-- A non-allocating read answers the line as its home holds it and leaves memory as it was; a non-allocating write of a line that is not poisoned leaves the masked bytes at its home and every byte outside the line as it was; both serve a bank's granules too, and wait in the queue of a line that cannot be served. An uncorrectable error of a modified cached line writes it back poisoned, and one of a clean line reads it again. The host's snoops take, share or only read a line of the host-line cache; its grant of ownership makes the early stores visible, and what waited for them goes on; its acknowledgement takes a function's stream past its oldest write (07 R217, R218, R220 to R222, R225 to R227, 11 R340). -/
def Obligations.HomesAndHostLines : Prop :=
  (∀ (line : Nat) (mask : Word) (data : Line) (s : State), s.up = true →
       (bankLine line = none → isLine line = true →
         (s.mem.free line = true →
           (∃ t, exec (.nonallocRead line .ok) s = .next t ∧ t.reply = lineReply (s.mem.homeLine line) (s.mem.homePoison line) ∧ t.mem = s.mem)
           ∧ ((s.recall line none).mem.homePoison line = false → ∃ t, exec (.nonallocWrite line mask data) s = .next t
             ∧ (∀ i, i < 64 → mask.bit i = true → t.devByte (64 * line + i) = BitVec.ofNat 8 (data.toNat / 256 ^ i))
             ∧ (∀ a, (a < 64 * line ∨ 64 * line + 64 ≤ a) → t.devByte a = s.devByte a)
             ∧ ∀ a d, a < 17 → t.mem.cline? a line = some d → d.st = .pending))
         ∧ (s.mem.free line = false →
           (∃ t, exec (.nonallocRead line .ok) s = .next t ∧ t.mem = s.mem.setQueue line (s.mem.queue line ++ [.read .ok]) ∧ t.reply = s.reply)
           ∧ ∃ t, exec (.nonallocWrite line mask data) s = .next t ∧ t.mem = s.mem.setQueue line (s.mem.queue line ++ [.write mask data])))
       ∧ (∀ k g, bankLine line = some (k, g) →
         (∃ t, exec (.nonallocRead line .ok) s = .next t ∧ t.reply = lineReply ((s.bank k).data.readLine (64 * g)) ((s.bank k).poisoned g) ∧ t.mem = s.mem)
         ∧ ((s.bank k).poisoned g = false → ∃ t, exec (.nonallocWrite line mask data) s = .next t
           ∧ (∀ i, i < 64 → t.bankByte k (64 * g + i) = if mask.bit i then BitVec.ofNat 8 (data.toNat / 256 ^ i) else s.bankByte k (64 * g + i))
           ∧ (∀ j a, (j ≠ k ∨ a < 64 * g ∨ 64 * g + 64 ≤ a) → t.bankByte j a = s.bankByte j a) ∧ t.mem.dev = s.mem.dev)))
  ∧ (∀ (agent line f : Nat) (data : Line) (s : State),
       (∀ c, s.mem.cline? agent line = some c →
         (c.st = .modified → ∃ t : State, exec (.cacheUncorrectableError agent line) s = .next (t.drain line) ∧ t.mem.cline? agent line = none
           ∧ t.mem.poison.get (fun _ => false) line = true)
         ∧ ((c.st = .shared ∨ c.st = .exclusive) → c.early = 0 → s.mem.queue line = [] →
           (∀ a d, a < 17 → a ≠ agent → s.mem.cline? a line = some d → d.held = false) →
           ∃ t d, exec (.cacheUncorrectableError agent line) s = .next t
             ∧ t.mem.cline? agent line = some d ∧ (d.st = .shared ∨ d.st = .exclusive) ∧ d.held = false))
       ∧ (s.linkUp = true → ∀ l, s.hline? line = some l →
         (∀ kind, ∃ t, exec (.hostSnoop line kind) s = .next t ∧ t.reply = (if l.valid ∧ l.dirty then lineReply l.data l.poison else [])
           ∧ (kind = .snpCur → t.mem = s.mem) ∧ (kind = .snpData → t.hline? line = some { l with owned := false, dirty := false })
           ∧ (kind = .snpInv → l.early = 0 → t.hline? line = none)
           ∧ (kind = .snpInv → l.early ≠ 0 → t.hline? line = some { l with valid := false, owned := false, dirty := false, poison := false }))
         ∧ (l.owned = false → ∃ t : State, exec (.hostLineOwnershipGrant line data) s = .next t.settleAccess ∧ t.pl.hostWriters.at [] line = []
           ∧ t.hline? line = some { l with data := (if l.valid then l.data else mergeLine data l.data l.early)
                                           valid := true, owned := true, dirty := l.dirty || l.early != 0, early := 0 }))
       ∧ (s.linkUp = true → ∃ t, exec (.hostOrderedAck f) s = .next t
         ∧ (∀ l x l', s.pl.outbound.at [] f = l ++ x :: l' → (∀ y ∈ l, y.port = none) → x.port ≠ none → t.pl.outbound.at [] f = l')
         ∧ ∀ g, g ≠ f → t.pl.outbound.at [] g = s.pl.outbound.at [] g))

/-! ## Queues, commands and fences -/

/-- DOORBELL_TAIL moves the tail forward, sets OVERRUN where it would lie too far above HEAD, ignores a tail that is not above the present one, waits behind the function's earlier requests, and refuses an access of another width. A fence signal leaves the greater of the word and its value, and an error write puts an error word with its code, unless an error word is there (00 R8, 08 R249 to R252, 09 R282, R285, R287, R290). -/
def Obligations.DoorbellsAndFences : Prop :=
  (∀ (port f off size q : Nat) (v : Word) (s : State), s.serving = true → s.tdispError f = false → s.dbQueue f off = some q →
       let x := s.queue q
       let y := { x with tail := v.toNat }
       let cmd : Instr := .doorbellTail ⟨.rootPort port, f⟩ off size v
       (size = 8 → off % 64 = 0 → (x.state = 1 ∨ x.state = 2) → s.hostReqs f = [] →
         (x.tail < v.toNat → v.toNat ≤ x.head + 2 ^ x.log2 →
           ∃ t, exec cmd s = .next t ∧ t.queue q = { y with head := y.headNow } ∧ (∀ p, p ≠ q → t.queue p = s.queue p) ∧ t.mem = s.mem)
         ∧ (x.tail < v.toNat → x.head + 2 ^ x.log2 < v.toNat →
           ∃ t, exec cmd s = .next t ∧ t.queue q = { x with overrun := true } ∧ (∀ p, p ≠ q → t.queue p = s.queue p) ∧ t.mem = s.mem)
         ∧ (v.toNat ≤ x.tail → ∃ t, exec cmd s = .next t ∧ t.pl.queues = s.pl.queues ∧ t.mem = s.mem ∧ t.regs = s.regs))
       ∧ (size = 8 → off % 8 = 0 → s.hostReqs f ≠ [] →
         ∃ t, exec cmd s = .next t ∧ t.hostReqs f = s.hostReqs f ++ [.doorbell off v] ∧ t.pl.queues = s.pl.queues)
       ∧ (size ≠ 8 → ∃ t, exec cmd s = .next t ∧ (t.pageErrs (funcPage f)).bit 63 = true ∧ t.pl.queues = s.pl.queues))
  ∧ (∀ (i a : Nat) (h : HostAnswer) (s : State) (op : FenceOp),
       let old := ((s.recall (a / 64) none).mem.dev.readLE a 8)
       s.serving = true → s.pl.fenceOps[i]? = some op → s.pl.aborts = [] → s.pl.reqs = [] → s.pl.atsInvs = [] → s.fenceBehind op = false → s.hostWritesOpen op = false →
       op.host = false → s.fenceAt op = .place (.stack a) → a % 8 = 0 → s.mem.free (a / 64) = true →
       ((s.xlFill 16 op.ctx op.va .write 21).recall (a / 64) none).mem.homePoison (a / 64) = false →
       (op.code = 0 → ∃ t, exec (.fenceSignal i h) s = .next t ∧ t.pl.fenceOps = s.pl.fenceOps.eraseIdx i
         ∧ t.mem.dev.readLE a 8 = (if 2 ^ 63 ≤ old then old else max old op.value) % 2 ^ 64)
       ∧ (op.code ≠ 0 → ∃ t, exec (.fenceErrorWrite i h) s = .next t ∧ t.pl.fenceOps = s.pl.fenceOps.eraseIdx i
         ∧ t.mem.dev.readLE a 8 = (if 2 ^ 63 ≤ old then old else 2 ^ 63 + (op.code % 2 ^ 15) * 2 ^ 48 + old % 2 ^ 48)))

/-- A command whose entries lie below the tail and are at hand is fetched, and one that breaks a rule retires at once with BAD_COMMAND; a command in its turn takes up its wait or starts; a wait that is met makes it ready, one that finds an error word retires it with the word's code; a report retires it, leaves HEAD at the lowest unretired command and owes its fence write. COPY takes the engine of its class with the fewest streams; INLINE writes its payload; ENGINE starts every named engine once all are free, its cells at their entry, or ends at once with the code of an absent or faulted one; ARMATURE submits its request; an engine whose cells have all ended completes its part, and a drained one ends its part with the trap's code (05 R169 to R173, 09 R283 to R286, 11 R352 to R359, R365, 02 R42). -/
def Obligations.QueueCommands : Prop :=
  (∀ (q seq : Nat) (h : HostAnswer) (s : State) (c : Cmd),
       let x := s.queue q
       (∀ t, s.serving = true → s.abortFetches q = false → x.state = 1 → (s.ctx x.ctx).state = 1 → s.cmdRoom q = true → s.fetchOne h q = .took t →
         exec (.queueFetch q h) s = .next t
           ∧ (x.fetched = seq → ∃ e payload, t = s.takeCmd q seq e payload ∧ (t.queue q).fetched = seq + x.entriesOf e
               ∧ (s.cmdRule x e { cmdOf (x.entriesOf e) e payload with before := if e.testBit 11 then x.cmds.map Prod.fst else [] } = false →
                   t.cmd? q seq = none ∧ (t.queue q).ended.find? seq = some 1)))
       ∧ (s.cmd? q seq = some c → s.cmdMay q seq = true →
         (c.state = .fetched → c.wait = true → ∃ t, exec (.commandStart q seq) s = .next t
           ∧ t.cmd? q seq = some { c with state := .waiting, watched := decide (s.watchers < 1024) } ∧ t.mem = s.mem)
         ∧ (((c.state = .fetched ∧ c.wait = false) ∨ c.state = .ready) → (c.serial = false ∨ x.alone seq = true) → s.cmdRoom q = true → s.queueTurn q = true →
           ∃ t, exec (.commandStart q seq) s = .next t ∧ t.cmd? q seq = some { c with state := .running, watched := false } ∧ t.mem = s.mem)
         ∧ (c.state = .waiting → c.whost = false → ∀ p z v, s.xlPlinth x.ctx c.waddr .read = .ok p →
           (s.xlFill 16 x.ctx c.waddr .read 20).wordAt p h = some (z, .ok v) →
           ∃ t, exec (if c.watched then .waitConditionMet q seq h else .watcherPoll q seq h) s = .next t
             ∧ (v < 2 ^ 63 → c.wtarget ≤ v → t.cmd? q seq = some { c with state := .ready })
             ∧ (v < c.wtarget → v < 2 ^ 63 → t = z)
             ∧ (2 ^ 63 ≤ v → t.cmd? q seq = none)))
       ∧ (s.cmd? q seq = some c → s.serving = true → c.op = 1 → c.state = .running → c.report = none →
         ∃ t, exec (.nopCommand q seq) s = .next t ∧ t.cmd? q seq = some { c with report := some 0 } ∧ t.mem = s.mem)
       ∧ (∀ code, s.cmd? q seq = some c → s.serving = true → c.report = some code →
         ∃ t, exec (.completionReport q seq) s = .next t ∧ t.cmd? q seq = none ∧ (t.queue q).ended.find? seq = some 1
           ∧ c.fenceOp x q seq code ∈ t.pl.fenceOps ∧ (code = 0 → (t.queue q).head = (t.queue q).headNow ∧ t.pl.fenceOps = s.pl.fenceOps ++ [c.fenceOp x q seq 0])))
  ∧ (∀ (q seq : Nat) (s : State) (c : Cmd), s.serving = true →
       let x := s.queue q
       (s.cmd? q seq = some c → c.state = .running → c.report = none →
         (∀ n, c.op = 2 → c.chisel = none → s.chChoose c.cls = some n → s.activeStreams n < 16 →
           ∃ t, exec (.copyCmd q seq) s = .next t ∧ t.cmd? q seq = some { c with chisel := some n } ∧ t.mem = s.mem)
         ∧ (c.op = 3 → ∀ b a, c.bodyAt 0x30 2 = 1 → c.payloadBytes.head? = some b → s.chPlace x.ctx false (c.bodyAt 0x28 8) true = .place (.stack a) →
           s.mem.free (a / 64) = true → (s.recall (a / 64) none).mem.homePoison (a / 64) = false →
           ∃ t, exec (.inlineCmd q seq) s = .next t ∧ t.devByte a = b ∧ t.cmd? q seq = some { c with report := some 0 })
         ∧ (c.op = 4 → c.begun = false → ∀ code, s.engineRefusal x.ctx c.engCore c.engMask = some code →
           ∃ t, exec (.engineCmd q seq) s = .next t ∧ t.cmd? q seq = some { c with report := some code } ∧ t.cores = s.cores)
         ∧ (c.op = 4 → c.begun = false → s.engineRefusal x.ctx c.engCore c.engMask = none → (∀ n ∈ maskEngines c.engMask, s.engineIdle c.engCore n = true) →
           (s.core c.engCore).waiting = [] →
           ∃ t, exec (.engineCmd q seq) s = .next t ∧ t.cmd? q seq = some { c with begun := true, engines := c.engMask, trapped := 0 }
             ∧ ∀ n ∈ maskEngines c.engMask, (t.engine c.engCore n).state = 1 ∧ (t.engine c.engCore n).cmd = some (q, seq)
               ∧ (t.engine c.engCore n).args = c.args
               ∧ ∀ k ∈ (s.engine c.engCore n).keys c.engCore, (t.cell k).phase = .running ∧ ∀ i, i < 16 → ((t.cell k).tok i).fld 48 16 = 0)
         ∧ (c.op = 5 → c.begun = false → (s.core (c.bodyAt 0x38 1)).arm ≠ none →
           ∃ t, exec (.armatureCmd q seq) s = .next t ∧ t.cmd? q seq = some { c with begun := true }
             ∧ (t.core (c.bodyAt 0x38 1)).armQ = (s.core (c.bodyAt 0x38 1)).armQ ++ [c.armReq x.ctx q seq]))
       ∧ (∀ core eng, let e := s.engine core eng
         s.resident core eng = true →
         (e.state = 1 → e.stopping = 0 →
           (∀ k ∈ e.keys core, (s.cell k).phase = .ended ∧ (s.flight k).quiet = true ∧ (s.flight k).failed = none ∧ s.fenceHolds core k 2 2 0 = true) →
           ∃ t, exec (.engineCommandComplete core eng) s = .next t ∧ t.engine core eng = { e with state := 0, stopping := 0, cmd := none }
             ∧ (e.cmd = some (q, seq) → s.cmd? q seq = some c → c.engines = 2 ^ eng → c.trapped = 0 → c.report = none →
                 t.cmd? q seq = some { c with engines := 0, report := some 0 }))
         ∧ (e.stopping = 1 → s.engineQuiet core eng = true → s.engineTold core eng = true →
           ∃ t, exec (.trapDrainDone core eng) s = .next t ∧ t.engine core eng = { e with state := 0, stopping := 0, cmd := none }
             ∧ (e.cmd = some (q, seq) → s.cmd? q seq = some c → c.engines = 2 ^ eng → c.trapped = 0 → c.report = none →
                 t.cmd? q seq = some { c with engines := 0, trapped := e.trapCode, report := some e.trapCode }))))


/-! ## Chisel engines -/

/-- CHISEL_STREAM_START starts a stream for the next descriptor of a command, or ends the command with BAD_COMMAND or the code of a failed read; a stream whose list awaits a translation starts without its descriptor. CHISEL_DESCRIPTOR_COMPLETE performs every write of a descriptor. CHISEL_FAULT asks for the translation that a stream lacks, having moved what precedes the access where that need not wait. A pre-empted stream leaves its slot at a tile boundary for its context's stream table, and its slot goes to the waiting command; a resumed one takes a free slot (11 R362, R363, R365, R366, 10 R322, R323, R329, 12 R388, R389). -/
def Obligations.ChiselStreams : Prop :=
  ∀ (n slot : Nat) (h : HostAnswer) (s : State), s.serving = true →
    let can := fun (x : Stream) (d : ChDesc) (is : List Nat) =>
      let p := s.chPlan h x.ctx x.cls d is
      p.fail = 0 ∧ p.wait = false ∧ ((gatherPlaces p.writes).all fun g => s.chDstReady h g.1 g.2.1) = true
    let wrote := fun (x : Stream) (d : ChDesc) (is : List Nat) =>
      s.chApply x.ctx h false (chOpen (fun i => Config.freeNat (s.draws + i)) (s.chSources x.ctx x.cls d is) (s.chPlan h x.ctx x.cls d is).writes)
    (∀ q seq c, s.chUnread h n = none → s.chReady n = [(q, seq)] → s.freeSlot n = some slot → s.cmd? q seq = some c → c.report = none →
      let y := { c with nextDesc := c.nextDesc + 1, granted := false }
      let read := s.chDescRead h (s.queue q).ctx c c.nextDesc
      (∀ raw, read = .desc raw → ((chDesc raw).serial = false ∨ c.descsDone c.nextDesc = true) →
        (chDescOk c.cls raw = true → ∃ t x, exec (.chiselStreamStart n h) s = .next t ∧ t.stream? n slot = some x ∧ x.ofCmd q seq = true
          ∧ x.index = c.nextDesc ∧ x.desc = some (chDesc raw) ∧ x.tiles = 0 ∧ t.cmd? q seq = some y ∧ t.mem = s.mem)
        ∧ (chDescOk c.cls raw = false → ∃ t, exec (.chiselStreamStart n h) s = .next t ∧ t.cmd? q seq = some { y with report := some 15 }))
      ∧ (read = .miss → ∃ t x, exec (.chiselStreamStart n h) s = .next t ∧ t.stream? n slot = some x ∧ x.ofCmd q seq = true ∧ x.index = c.nextDesc
        ∧ x.desc = none ∧ t.cmd? q seq = some y ∧ t.mem = s.mem)
      ∧ (∀ code, read = .fail code → ∃ t, exec (.chiselStreamStart n h) s = .next t ∧ t.cmd? q seq = some { c with report := some code }))
    ∧ (∀ x d c, s.stream? n slot = some x → x.desc = some d → x.asked = false → x.faulted = false → s.cmd? x.q x.seq = some c → c.report = none →
      (can x d (x.rest d) → (wrote x d (x.rest d)).2.1 = 0 →
        ∃ t, exec (.chiselDescriptorComplete n slot h) s = .next t ∧ t.stream? n slot = none ∧ t.mem = (wrote x d (x.rest d)).1.mem
          ∧ t.cmd? x.q x.seq = some { c with doneDescs := x.index :: c.doneDescs
                                             report := if c.doneDescs.length + 1 = c.dcount then some 0 else none })
      ∧ (∀ a b, x.cls = 2 → x.tiles = 0 → x.pos = 0 → x.ahead = [] → d.rows = 1 → d.rowBytes = 1 → d.zero = false →
        s.chPlace x.ctx false d.src false = .place (.stack a) → s.chPlace x.ctx false d.dst true = .place (.stack b) → a ≠ b →
        s.mem.free (a / 64) = true → s.mem.free (b / 64) = true →
        s.mem.homePoison (a / 64) = false → (s.recall (b / 64) none).mem.homePoison (b / 64) = false →
        ∃ t, exec (.chiselDescriptorComplete n slot h) s = .next t ∧ t.stream? n slot = none ∧ t.devByte b = s.mem.homeByte a))
    ∧ (∀ x c va w, s.stream? n slot = some x → s.cmd? x.q x.seq = some c → x.asked = false → x.faulted = false →
      let f := s.ctxFunc x.ctx
      let pasid := (s.ctx x.ctx).pasid
      let asks := fun (t : State) => ∃ l, t.pl.atsReqs = s.pl.atsReqs ++ ⟨f, pasid, va, w, .stream x.q x.seq x.index, false⟩ :: l
        ∧ ∀ r ∈ l, r.user = .prefetch x.q x.seq x.index
      s.atcLook f pasid va w = none →
      (∀ d i, x.desc = some d → (w = true ↔ x.cls = 1) → x.cls ≤ 1 → ((x.rest d).find? fun j => (if w then d.dstOf j else d.srcOf j) == va) = some i →
        let is := (x.rest d).filter fun j => decide (j < i)
        (can x d is → (wrote x d is).2.1 = 0 → ∃ t, exec (.chiselFault n slot ⟨va, w⟩ h) s = .next t
          ∧ t.stream? n slot = some { x.moved d is with asked := true } ∧ asks t ∧ t.mem = (wrote x d is).1.mem)
        ∧ ((s.chPlan h x.ctx x.cls d is).fail = 0 → ¬ can x d is → ∃ t, exec (.chiselFault n slot ⟨va, w⟩ h) s = .next t
          ∧ t.stream? n slot = some { x with asked := true } ∧ asks t ∧ t.mem = s.mem))
      ∧ (x.desc = none → c.dlhost = true → w = false → c.dlist + 64 * x.index ≤ va → va < c.dlist + 64 * x.index + 64 →
        ∃ t, exec (.chiselFault n slot ⟨va, w⟩ h) s = .next t ∧ t.stream? n slot = some { x with asked := true } ∧ asks t ∧ t.mem = s.mem))
    ∧ (∀ x i q seq c, s.stream? n slot = some x → s.chWaiting n = [(q, seq)] → s.cmd? q seq = some c → s.sliced x.ctx = true → x.asked = false →
      s.freeEntry x.ctx = some i →
      let left := fun (t : State) (y : Stream) => t.stream? n slot = none ∧ t.pl.saved = s.pl.saved ++ [{ y with entry := i }]
        ∧ t.cmd? q seq = some { c with chisel := some n, granted := true }
      (x.faulted = true → ∃ t, exec (.chiselStreamPreempt n slot x.tiles h) s = .next t ∧ left t (x.atTile x.tiles))
      ∧ (∀ d tiles, x.faulted = false → x.desc = some d → s.oldest x.cls x = true → s.chExpired x = true → x.tiles ≤ tiles → tiles < d.ntiles →
        let is := (x.rest d).filter fun j => decide (j < tiles * 2 ^ d.tileLog2)
        can x d is → (wrote x d is).2.1 = 0 → ∃ t, exec (.chiselStreamPreempt n slot tiles h) s = .next t ∧ left t (x.atTile tiles)))
    ∧ (∀ x, (s.pl.saved.find? fun y => y.cls == chClass n && !y.faulted) = some x → s.freeSlot n = some slot → s.activeStreams n + s.chGranted n < 16 →
      ∃ t, exec (.chiselStreamResume n) s = .next t ∧ t.pl.saved = s.pl.saved.erase x
        ∧ t.stream? n slot = some { x with since := s.time, entry := 0, retry := none, asked := x.retry.isSome })

/-- A page request's success ends its group and makes each waiter with an active stream ask for the translation again; an invalid response or a timeout ends its waiter's command with FAULT_UNRESOLVED, and a tag that timed out is kept until the late response, which is discarded; a failure response turns the function's page requests off and ends its groups. A pre-translating COPY whose descriptors are in order and whose device pages it may reach goes on once its host steps are translated, and asks for those that are not; one with a descriptor out of order retires. A failed host-link request retires its command with LINK_LOST (10 R323 to R325, R328, 11 R362, 18 R531). -/
def Obligations.PageRequestsAndPreparation : Prop :=
  (∀ (f tag : Nat) (s : State), s.serving = true → s.linkUp = true →
    (∀ g, s.groupOf f tag = some g →
      let fewer := fun (t : State) => t.pl.groups.length = (s.pl.groups.filter fun x => !g.same x).length
      (∃ t, exec (.prgResponse f tag .success) s = .next t ∧ fewer t
        ∧ ∀ r ∈ g.waiters, s.savedOf r.user = none → ⟨r.f, r.pasid, r.va, r.write, r.user, true⟩ ∈ t.pl.atsReqs)
      ∧ (∃ t, exec (.prgResponse f tag .invalid) s = .next t ∧ fewer t
        ∧ ∀ q n i c, (g.waiters.map AtsReq.user) = [.stream q n i] → s.savedOf (.stream q n i) = none → s.cmd? q n = some c → c.report = none →
            t.cmd? q n = some { c with report := some 12 })
      ∧ (∃ t, exec (.priTimeout f tag) s = .next t ∧ fewer t ∧ (f, tag) ∈ t.pl.lateTags
        ∧ ∀ q n i c, (g.waiters.map AtsReq.user) = [.stream q n i] → s.savedOf (.stream q n i) = none → s.cmd? q n = some c → c.report = none →
            t.cmd? q n = some { c with report := some 12 })
      ∧ ∃ t, exec (.prgResponse f tag .failure) s = .next t ∧ (t.cfg f).priFailure = true ∧ ∀ x ∈ t.pl.groups, x.f ≠ f)
    ∧ (∀ code, s.groupOf f tag = none → (f, tag) ∈ s.pl.lateTags →
      ∃ t, exec (.prgResponse f tag code) s = .next t ∧ t.pl.lateTags = s.pl.lateTags.erase (f, tag) ∧ t.pl.queues = s.pl.queues))
  ∧ ∀ (q seq : Nat) (h : HostAnswer) (s : State) (c : Cmd), s.serving = true → s.cmd? q seq = some c →
    let x := s.queue q
    let raws := (List.range c.dcount).map fun i => ((c.payload[i]?).getD 0).toNat
    let f := s.ctxFunc x.ctx
    let pasid := (s.ctx x.ctx).pasid
    let steps := s.preSteps f pasid 256 [] (firstOfStep [] ((raws.map chDesc).flatMap fun d => d.hostSteps c.cls))
    (c.state = .pretrans → c.inlined = true → (c.resv ≠ 0 ∨ s.preHeld + 256 ≤ 7168) →
      (raws.all (chDescOk c.cls) = true → s.preDevice x.ctx ((raws.map chDesc).flatMap fun d => d.devPages c.cls).eraseDups = none →
        ((∀ va ∈ steps, (s.atcLook f pasid va (c.cls == 1)).isSome = true) →
          ∃ t, exec (.pretranslationDone q seq h) s = .next t
            ∧ t.cmd? q seq = some { c with state := .fetched, resv := s.entriesOf f pasid steps, locks := steps })
        ∧ ((∃ va ∈ steps, s.atcLook f pasid va (c.cls == 1) = none) →
          ∃ t, exec (.pretranslationDone q seq h) s = .next t ∧ t.cmd? q seq = some { c with resv := 256 }
            ∧ ∀ va ∈ steps, s.atcLook f pasid va (c.cls == 1) = none → (∀ g ∈ s.pl.groups, ∀ r ∈ g.waiters, r.user ≠ .command q seq) →
                ∃ r ∈ t.pl.atsReqs, r.user = .command q seq ∧ r.va / 2 ^ 21 = va / 2 ^ 21))
      ∧ (raws.all (chDescOk c.cls) = false → ∃ t, exec (.pretranslationDone q seq h) s = .next t ∧ t.cmd? q seq = none
        ∧ (t.queue q).ended.find? seq = some 1 ∧ c.fenceOp x q seq 15 ∈ t.pl.fenceOps))
    ∧ (s.linkUp = true → ((c.op = 2 ∧ c.state = .running) ∨ c.state = .pretrans ∨ (c.state = .waiting ∧ c.whost = true)) →
      s.pl.reqs = [] → s.pl.aborts = [] →
      ∃ t, exec (.hostRequestFailure q seq) s = .next t ∧ t.cmd? q seq = none ∧ (t.queue q).ended.find? seq = some 1
        ∧ c.fenceOp x q seq 14 ∈ t.pl.fenceOps)

/-! ## Translation -/

/-- PAGE_WALK caches a valid leaf. DEVICE_INVALIDATE drops a context's cached translations, and DEVICE_INVALIDATE_DONE sets DONE once the accesses issued with them have been performed. LOAD_APERTURE asks for the host translation of every 2 MiB step that the ATC does not hold, is LOADED at once where it holds them all, or ends with the status of its first failed check; UNLOAD_APERTURE takes the range out of use, and leaves the aperture UNLOADED once the accesses issued through it have been performed (10 R302, R308 to R314, R333). -/
def Obligations.DeviceTranslationsAndApertures : Prop :=
  (∀ (s : State), s.serving = true →
    (∀ unit ctx va e big, (s.ctx ctx).state = 1 → va < 2 ^ 51 → (16 ≤ unit ∨ (s.ctx ctx).cores.testBit unit = true) →
      s.tlbHit (min unit 16) ctx va = none → s.walk (min unit 16) ctx va = .leaf e big → (s.leafPlace ctx va .read e big).isSome = true →
      ∃ t, exec (.pageWalk unit ctx va) s = .next t ∧ t.mem = s.mem ∧ t.cells = s.cells
        ∧ ⟨ctx, if big then va / 0x40000000 else va / 0x2000000, big, e⟩ ∈ t.tlbOf (min unit 16))
    ∧ (∀ src v, v.bit 63 = true → s.verdict src 0x402 Reg.xlInvCtl.off 8 = .perform →
      let f := srcFunc src
      let n := Fld.xlInvCtl_context.get v
      s.xlBusy f = false → invRule (s.reg (xlPage f) .xlInvAddr).toNat v = true → s.reachesCtx f n = true →
      ∃ t, exec (.deviceInvalidate src v) s = .next t ∧ t.fld (xlPage f) .xlInvStat Fld.xlInvStat_busy = 1 ∧ t.mem = s.mem
        ∧ (t.freq f).inval = some (n, Fld.xlInvCtl_all.get v == 1, (s.reg (xlPage f) .xlInvAddr).toNat / 0x2000000, Fld.xlInvCtl_countM1.get v + 1)
        ∧ (Fld.xlInvCtl_all.get v = 1 → ∀ core, core < 16 → (∀ e ∈ (t.core core).tlb, e.ctx ≠ n) ∧ (∀ w ∈ (t.core core).walks, w.ctx ≠ n)))
    ∧ (∀ f n all first count, (s.freq f).inval = some (n, all, first, count) → (s.reachesCtx f n = true → s.deviceQuiet n all first count = true) →
      ∃ t, exec (.deviceInvalidateDone f) s = .next t ∧ (t.freq f).inval = none ∧ t.fld (xlPage f) .xlInvStat Fld.xlInvStat_busy = 0
        ∧ t.fld (xlPage f) .xlInvStat Fld.xlInvStat_done = 1))
  ∧ ∀ (src : Nat) (v : Word) (s : State), s.serving = true → v.bit 63 = true → s.verdict src 0x402 Reg.xlAptCtl.off 8 = .perform →
    s.pl.reqs = [] → s.pl.aborts = [] → s.pl.atsInvs = [] →
    let f := srcFunc src
    let pk := xlPage f
    let ctx := Fld.xlAptCtl_context.get v
    let i := Fld.xlAptCtl_index.get v
    let x := aptEntry ((s.aptRead ctx i).getD [])
    let fn := s.ctxFunc ctx
    let pasid := (s.ctx ctx).pasid
    let has := fun (va : Nat) => match s.atcFind fn pasid va with
      | some e => (!(aptNeeds x.flags).1 || e.r) && (!(aptNeeds x.flags).2 || e.w)
      | none => false
    let lacks := x.steps.filter fun va => !has va
    let done := fun (t : State) (status : Nat) => t.fld pk .xlAptStat Fld.xlAptStat_status = status ∧ t.fld pk .xlAptStat Fld.xlAptStat_done = 1
      ∧ t.fld pk .xlAptStat Fld.xlAptStat_busy = 0
    s.xlBusy f = false →
    (Fld.xlAptCtl_op.get v = 0 →
      (s.aptChecks f ctx i = 0 → s.pl.atc.length ≤ 8192 → (∀ r ∈ s.pl.atsReqs, r.user ≠ .aperture f ctx i) →
        (lacks ≠ [] → ∃ t, exec (.loadAperture src v) s = .next t ∧ (t.apt ctx i).state = 3 ∧ (t.apt ctx i).hbase = x.hbase
          ∧ (t.apt ctx i).length = x.length ∧ t.fld pk .xlAptStat Fld.xlAptStat_busy = 1
          ∧ t.pl.atsReqs = s.pl.atsReqs ++ lacks.map fun va => ⟨fn, pasid, va, (aptNeeds x.flags).2, .aperture f ctx i, false⟩)
        ∧ (lacks = [] → ∃ t, exec (.loadAperture src v) s = .next t ∧ t.apt ctx i = { x with state := 1, locked := x.steps } ∧ done t 0
          ∧ t.pl.atsReqs = s.pl.atsReqs))
      ∧ (s.aptChecks f ctx i ≠ 0 → ∃ t, exec (.loadAperture src v) s = .next t ∧ t.pl.apts = s.pl.apts ∧ done t (s.aptChecks f ctx i)))
    ∧ (Fld.xlAptCtl_op.get v = 1 → s.reachesCtx f ctx = true → (s.ctx ctx).state = 1 → i < (s.ctx ctx).aptCount →
      ((s.apt ctx i).state = 1 ∨ (s.apt ctx i).state = 2) →
      (s.aptQuiet ctx (s.apt ctx i) = true → ∃ t, exec (.unloadAperture src v) s = .next t ∧ t.apt ctx i = {} ∧ done t 0)
      ∧ (s.aptQuiet ctx (s.apt ctx i) = false → ∃ t, exec (.unloadAperture src v) s = .next t ∧ t.apt ctx i = { s.apt ctx i with leaving := true }
        ∧ t.fld pk .xlAptStat Fld.xlAptStat_busy = 1))

/-- ATS_COMPLETION caches a usable translation and lets its stream go on, or sends a page request within the host's allocation; ATS_INVALIDATION drops every entry that it meets, and is completed at once where nothing issued with them is outstanding, and held where something is; a host that disables ATS or PRI leaves a function no entry and its loaded apertures BROKEN (10 R316, R318, R320, R323, R326, R333). -/
def Obligations.HostTranslations : Prop :=
  ∀ (f : Nat) (s : State), s.serving = true → s.pl.reqs = [] → s.pl.aborts = [] →
    (s.linkUp = true → ∀ pasid va (r : AtsReply) r0 q n i, (s.pl.atsReqs.find? fun x => x.f == f && x.pasid == pasid && x.va == va) = some r0 →
      r0.user = .stream q n i → s.atsWaits r0.user = true →
      (r.present = true → 21 ≤ r.log2 → (if r0.write then r.w else r.r) = true →
        ∃ t, exec (.atsCompletion f pasid va r) s = .next t ∧ t.pl.atsReqs = s.pl.atsReqs.erase r0
          ∧ (∃ e ∈ t.pl.atc, e.f = f ∧ e.pasid = pasid ∧ e.va = va / 2 ^ r.log2 * 2 ^ r.log2 ∧ e.hpa = r.hpa / 2 ^ r.log2 * 2 ^ r.log2)
          ∧ ∀ k x, s.pl.streams.find? k = some x → x.ofCmd q n = true → x.index = i → t.pl.streams.find? k = some { x with asked := false })
      ∧ (r.present = false → r0.again = false → (s.cfg f).priEnable = true → (s.cfg f).priFailure = false → s.pl.groups = [] →
        s.pl.lateTags = [] → 0 < (s.cfg f).priAlloc →
        ∃ t g, exec (.atsCompletion f pasid va r) s = .next t ∧ t.pl.groups = [g] ∧ g.tag = some 0 ∧ g.waiters = [r0] ∧ g.region = va / 2 ^ 21
          ∧ ∃ m ∈ t.pl.outbound.at [] f, m.msg = .pageReq 0 pasid (va / 4096 * 4096) (!r0.write) r0.write))
    ∧ (s.linkUp = true → s.pl.atsInvs = [] → ∀ pasid va len,
      let v : AtsInv := ⟨f, pasid, va, (s.pl.atc.filter fun e => e.meets f pasid va len).map fun e => (e.hpa, e.log2)⟩
      ∃ t, exec (.atsInvalidation f pasid va len) s = .next t ∧ (∀ e ∈ t.pl.atc, e.meets f pasid va len = false)
        ∧ (if s.invQuiet v.drops then t.pl.atsInvs = [] ∧ ((t.pl.outbound.at [] f).getLast?.map OutReq.msg) = some (.atsInvDone pasid va)
           else t.pl.atsInvs = [v]))
    ∧ ∃ t, exec (.hostDisablesAtsPri f) s = .next t ∧ (∀ e ∈ t.pl.atc, e.f ≠ f)
      ∧ ∀ ctx i, s.ctxFunc ctx = f → i < 64 → (s.apt ctx i).state = 1 → (t.apt ctx i).state = 2

/-! ## Time-slicing -/

/-- A quantum that expires is noted; a switch is decided for the context whose turn it is; once the outgoing engines have stopped, they are saved and leave the residents; and the incoming context is then resident, with the switch over (12 R375, R378, R380, R382). -/
def Obligations.TimeSlicing : Prop :=
  ∀ (core ctx : Nat) (s : State), s.serving = true →
    let k := s.core core
    (ctx ∈ k.residents → ctx ∉ k.expired → ∃ t, exec (.quantumExpiry core ctx) s = .next t ∧ t = s.setCore core { k with expired := k.expired ++ [ctx] })
    ∧ (k.switch = none → s.notForming core = true → (s.switchOut core ctx).all s.sliced = true → (k.order.find? fun x => s.mayEnter core x) = some ctx →
      ∃ t, exec (.switchDecided core ctx) s = .next t ∧ t = s.setCore core { k with switch := some ⟨s.switchOut core ctx, ctx, 1, s.time⟩ })
    ∧ (∀ out into start, k.switch = some ⟨out, into, 1, start⟩ → (out.all fun x => (s.enginesFor core x).all (s.stoppedAt core)) = true →
      k.residents.Nodup →
      ∃ t, exec (.switchDrained core) s = .next t ∧ (t.core core).switch = some ⟨out, into, 2, start⟩ ∧ (∀ x ∈ out, x ∉ (t.core core).residents)
        ∧ ∀ x ∈ out, ∀ n ∈ s.enginesFor core x,
            (t.engine core n).state = (if (s.engine core n).state = 2 then 2 else if (s.engine core n).cmd.isSome then 4 else 3))
    ∧ (∀ out into start, k.switch = some ⟨out, into, 2, start⟩ →
      ∃ t, exec (.switchComplete core) s = .next t ∧ (t.core core).switch = none ∧ (t.core core).lastIn = some into ∧ into ∈ (t.core core).residents
        ∧ (t.core core).runs.at 0 into = (k.runs.at 0 into + 1) % 2 ^ 32)

/-! ## Armature -/

/-- A GO write starts a formation or a Maquette run, or ends at once with BAD_CONTEXT; a release frees every named engine, or none where one has a command; a waiting request starts once Armature is free (02 R38, R39, R43, R46, R48). -/
def Obligations.ArmatureRequests : Prop :=
  ∀ (core : Nat) (s : State),
    let pk := armPage core
    let k := s.core core
    let stat := fun (t : State) (f : Fld) => t.fld pk .armReqStat f
    k.arm = none → k.quars = [] →
    (∀ v, let r := s.armOf 0 core v
      v.bit 63 = true → s.verdict 0 (armNo core) Reg.armReqCtl.off 8 = .perform → stat s Fld.armReqStat_busy = 0 → k.armQ = [] →
      let started := fun (t : State) => (t.core core).arm = some { r with start := s.time, step := 1 } ∧ stat t Fld.armReqStat_busy = 1
        ∧ t.cells = s.cells ∧ t.mem = s.mem
      (s.armCtxOk core r.ctx = true → Fld.armReqCtl_mode.get v = 0 → ∃ t, exec (.form 0 core v) s = .next t ∧ started t)
      ∧ (s.armCtxOk core r.ctx = true → Fld.armReqCtl_mode.get v = 1 → ∃ t, exec (.maquette 0 core v) s = .next t ∧ started t)
      ∧ (s.armCtxOk core r.ctx = false → Fld.armReqCtl_mode.get v = 0 → r.record = 0 →
        ∃ t, exec (.form 0 core v) s = .next t ∧ (t.core core).arm = none ∧ stat t Fld.armReqStat_status = 0x10 ∧ stat t Fld.armReqStat_done = 1
          ∧ stat t Fld.armReqStat_busy = 0)
      ∧ (s.armCtxOk core r.ctx = true → Fld.armReqCtl_mode.get v = 2 → r.record = 0 →
        (∀ n, n < 64 → r.mask.testBit n = true → (s.engine core n).formed = true ∧ (s.engine core n).ctx = r.ctx) →
        ((∀ n, n < 64 → r.mask.testBit n = true → (s.engine core n).cmd = none ∧ (s.engine core n).state ≠ 5 ∧ (s.engine core n).stopping = 0) →
          ∃ t, exec (.release 0 core v) s = .next t ∧ stat t Fld.armReqStat_status = 0 ∧ stat t Fld.armReqStat_done = 1
            ∧ (∀ n, n < 64 → r.mask.testBit n = true → (t.engine core n).formed = false)
            ∧ ∀ n, r.mask.testBit n = false → t.engine core n = s.engine core n)
        ∧ (∀ n, n < 64 → r.mask.testBit n = true → (s.engine core n).cmd.isSome = true →
          ∃ t, exec (.release 0 core v) s = .next t ∧ stat t Fld.armReqStat_status = 0x12 ∧ ∀ m, t.engine core m = s.engine core m)))
    ∧ (∀ r rest, k.armQ = r :: rest → s.serving = true → r.mode ≤ 1 → s.armCtxOk core r.ctx = true →
      ∃ t, exec (.armQueuedRequestStart core) s = .next t ∧ (t.core core).arm = some { r with start := s.time, step := 1 } ∧ (t.core core).armQ = rest
        ∧ stat t Fld.armReqStat_busy = 1)

/-- ARM_IMAGE_READ_DONE reads a part of the image, header, then tables, then the rest, and goes on to the next step, or ends with IMAGE_UNREADABLE or the status of the first failed check; after the last part resources and placement are judged, and a Maquette run ends, while a formation has its places and clears its cells, or first waits for a switch. ARM_CELLS_CLEARED leaves the cells zero. ARM_PRELOAD_DONE holds formed engines whose cells stand at their entry, with their blocks claimed and a preload section's bytes in the operand stores (02 R37, R39 to R41, R44, R47 to R54, 06 R181, 12 R378). -/
def Obligations.FormationSteps : Prop :=
  ∀ (core : Nat) (s : State) (r : ArmReq), s.serving = true → (s.core core).arm = some r →
    let pk := armPage core
    let ended := fun (t : State) (status : Nat) => (t.core core).arm = none ∧ t.fld pk .armReqStat Fld.armReqStat_status = status
      ∧ t.fld pk .armReqStat Fld.armReqStat_done = 1
    let goes := fun (y : ArmReq) => ∃ t, exec (.armImageReadDone core) s = .next t ∧ (t.core core).arm = some y ∧ t.mem = s.mem ∧ t.cells = s.cells
    let ends := fun (status : Nat) => r.record = 0 → ∃ t, exec (.armImageReadDone core) s = .next t ∧ ended t status ∧ t.cells = s.cells
    let read := fun (off n : Nat) => s.vaRead r.ctx (r.image + off) n
    let tables : List Byte → List Byte → ArmReq := fun et st => { r with
      step := 3, etab := et, stab := st, engines := (List.range (imgEngines r.head)).map (engEntry et)
      sections := (List.range (imgSections r.head)).map (secEntry st), signals := leAt r.head 0x26 2
      barriers := leAt r.head 0x24 1, monitors := leAt r.head 0x28 4 }
    let occ := (s.occupied r core).eraseDups
    let fit : ArmReq := { r with free := 256 - occ.length }
    (r.step = 1 →
      (r.image % 64 ≠ 0 → ends 0x11)
      ∧ (r.image % 64 = 0 → read 0 0x80 = some none → ends 0x11)
      ∧ (∀ hd, r.image % 64 = 0 → read 0 0x80 = some (some hd) →
        (firstFail (headChecks hd) = none → goes { r with step := 2, head := hd })
        ∧ (∀ f, firstFail (headChecks hd) = some f → ends f.status)))
    ∧ (∀ et st, r.step = 2 → read (imgEtab r.head) (32 * imgEngines r.head) = some (some et) →
      read (imgStab r.head) (32 * imgSections r.head) = some (some st) →
      (firstFail (tableChecks r.head et st) = none → goes (tables et st))
      ∧ (∀ f, firstFail (tableChecks r.head et st) = some f → ends f.status))
    ∧ (∀ body, r.step = 3 → read 0 (imgSize r.head + (if (imgFlags r.head).testBit 0 then 0x80 else 0)) = some (some body) →
      let checks := s.bodyChecks (s.ctx r.ctx).part (imgBytes r.head r.etab r.stab body)
      (∀ f, firstFail checks = some f → ends f.status)
      ∧ (firstFail checks = none →
        (∀ f, firstFail (s.resourceChecks fit core) = some f → ends f.status)
        ∧ (firstFail (s.resourceChecks fit core) = none →
          (∀ f, placeAll (s.reliefRoom fit core) r.engines (placeOrder r.engines) occ [] = .error f → ends f.status)
          ∧ (∀ out, placeAll (s.reliefRoom fit core) r.engines (placeOrder r.engines) occ [] = .ok out →
            let placed : ArmReq := { fit with places := originsOf r.engines out }
            (r.mode = 1 → ends 0)
            ∧ (r.mode ≠ 1 → goes { placed with step := if s.armNeedsSwitch core placed then 4 else 5 })))))
    ∧ (r.step = 5 → ∃ t, exec (.armCellsCleared core) s = .next t ∧ (t.core core).arm = some { r with step := 6 }
      ∧ (∀ p ∈ r.positions, t.cell (256 * core + p) = {} ∧ t.flight (256 * core + p) = {})
      ∧ ∀ k, (∀ p ∈ r.positions, k ≠ 256 * core + p) → t.cell k = s.cell k)
    ∧ (∀ data, r.step = 6 → r.record = 0 → r.lost = false →
      s.armData r ((r.engines.flatMap fun e => (e.preloads r.sections).map fun p => p.1).eraseDups) = some (some data) →
      (r.engines.map fun e => e.engine).Nodup → r.positions.Nodup →
      ∃ t, exec (.armPreloadDone core) s = .next t ∧ ended t 0 ∧ (∀ b ∈ r.blocks, t.claimant core b = some r.ctx) ∧ r.ctx ∈ (t.core core).rotation
        ∧ ∀ x ∈ r.engines.zip r.places, let g := t.engine core x.1.engine
          g.formed = true ∧ g.ctx = r.ctx ∧ g.origin = x.2 ∧ g.sizeLog2 = x.1.sizeLog2 ∧ g.entry = x.1.entry ∧ g.state = 0 ∧ g.cmd = none
            ∧ (∀ p ∈ rectOf x.2 x.1.sizeLog2, (t.cell (256 * core + p)).pc = x.1.entry)
            ∧ ∀ j y d, x.1.preloads r.sections = [(j, y)] → y.typ = 2 → y.perCell = false → (data.find? fun z => z.1 == j) = some (j, d) →
                ∀ p ∈ rectOf x.2 x.1.sizeLog2, (t.cell (256 * core + p)).ops = (s.cell (256 * core + p)).ops.writeBytes y.dest d)

/-- Corrected errors of a cell are counted; once they reach the threshold, with migration enabled and a spare free, the cell's quarantine begins, and its running engine stops for the copy; MIGRATION_DRAINED notes that it has stopped, and MIGRATION_COMPLETE remaps the position to a spare and lets it resume. A hard trigger stops the engine at once, with ECC_UNCORR or CELL_LOST, and a spare that fails is quarantined; ENGINE_FAULTED leaves the engine faulted with its command's part ended; a quarantine that waited is carried out in its turn (02 R30, R55 to R58, R60). -/
def Obligations.Quarantine : Prop :=
  ∀ (core cell pos : Nat) (s : State), s.serving = true →
    let k := s.core core
    let after := fun (t : State) (q : Quar) (rest : List Quar) => (t.core core).quars = rest ∧ (t.core core).roles.at 0 q.cell = 3
      ∧ (∃ n, (s.spares core).contains n = true ∧ (t.core core).map.at 0 q.pos = n + 1 ∧ (t.core core).roles.at 0 n = 1)
      ∧ 512 * core + q.cell ∈ t.flash.quarantine
    (s.posOfCell core cell = some pos → s.forming core pos = false → (∀ q ∈ k.quars, q.cell ≠ cell) →
      let held := s.engineAt core pos
      (∀ n, let u := s.countCe core cell n
        (u.ceReached core cell = false → exec (.softQuarantineTrigger core ⟨cell, n⟩) s = .next u)
        ∧ (u.ceReached core cell = true → s.fld (armPage core) .armQpol Fld.armQpol_migrate = 1 → s.spares core ≠ [] →
          let q : Quar := ⟨cell, pos, held, 1, false, s.time, false, k.arm.isSome, held⟩
          ∃ t, exec (.softQuarantineTrigger core ⟨cell, n⟩) s = .next t ∧ t.cells = s.cells ∧ t.mem = s.mem
            ∧ (held = none → (t.core core).quars = k.quars ++ [{ q with drained := true }] ∧ (t.core core).engines = k.engines)
            ∧ (∀ m, held = some m → s.leaving core m = true → (t.core core).quars = k.quars ++ [{ q with eng := none, drained := true }]
                ∧ (t.core core).engines = k.engines)
            ∧ (∀ m, held = some m → s.leaving core m = false → (s.engine core m).state = 1 → (s.engine core m).stopping = 0 →
                (t.core core).quars = k.quars ++ [q] ∧ t.engine core m = { s.engine core m with state := 5 })))
      ∧ (∀ trigger, 2 ≤ trigger → trigger ≤ 4 →
        let q : Quar := ⟨cell, pos, held, trigger, true, s.time, false, k.arm.isSome, held⟩
        ∃ t, exec (.hardQuarantineTrigger core cell trigger) s = .next t ∧ q ∈ (t.core core).quars
          ∧ ∀ n, held = some n → (t.engine core n).stopping = 3
            ∧ ((s.engine core n).stopping ≠ 3 → (s.engine core n).state ≠ 2 → (t.engine core n).faultCode = (if trigger = 2 then 7 else 9))))
    ∧ (s.posOfCell core cell = none → (s.spares core).contains cell = true → ∀ trigger, 2 ≤ trigger → trigger ≤ 4 →
      ∃ t, exec (.hardQuarantineTrigger core cell trigger) s = .next t ∧ (t.core core).roles.at 0 cell = 3 ∧ (t.core core).map = k.map
        ∧ 512 * core + cell ∈ t.flash.quarantine)
    ∧ (∀ q rest, k.quars = q :: rest →
      (∀ n, q.eng = some n → q.hard = false → q.drained = false → s.stoppedAt core n = true →
        ∃ t, exec (.migrationDrained core) s = .next t ∧ (t.core core).quars = { q with drained := true } :: rest)
      ∧ (k.arm = none → k.switch = none → (s.spares core).contains q.cell = false → q.pos < 256 → s.spares core ≠ [] →
        (q.hard = false → (q.eng = none ∨ q.drained = true) →
          (q.deferred = false → ∃ t, exec (.migrationComplete core) s = .next t ∧ after t q rest
            ∧ ∀ n, q.eng = some n → (s.engine core n).state = 5 → (∀ y ∈ rest, y.eng ≠ some n) → (t.engine core n).state = 1)
          ∧ (q.deferred = true → ∃ t, exec (.quarantineDeferredStart core) s = .next t ∧ after t q rest))
        ∧ (q.hard = true → (∀ n, q.eng = some n → (s.engine core n).stopping ≠ 3) →
          ∃ t, exec (.quarantineDeferredStart core) s = .next t ∧ after t q rest)))
    ∧ (∀ n, s.resident core n = true → (s.engine core n).stopping = 3 → s.engineQuiet core n = true → s.engineTold core n = true →
      (∀ q ∈ k.quars, q.hard = true → q.holder = q.eng) →
      ∃ t, exec (.engineFaulted core n) s = .next t ∧ (t.engine core n).state = 2 ∧ (t.engine core n).stopping = 0 ∧ (t.engine core n).cmd = none
        ∧ (t.engine core n).faultCode = (s.engine core n).faultCode
        ∧ ∀ q seq c, (s.engine core n).cmd = some (q, seq) → s.cmd? q seq = some c → c.engines = 2 ^ n → n < 64 → c.trapped = 0 → c.report = none →
            (s.engine core n).trapCode ≠ 0 → k.quars = [] →
            t.cmd? q seq = some { c with engines := 0, trapped := (s.engine core n).trapCode, report := some (s.engine core n).trapCode })

/-! ## Objects and aborts -/

/-- A request of OBJ_CMD through the physical function, no other being in progress: a creation waits for its record; a destruction makes its object DYING, retires its commands and begins its abort; a restart, a new limit and a reset take effect, or end with their status (09 R278, R281, R287, R291, R295). -/
def Obligations.ObjectRequests : Prop :=
  ∀ (v : Word) (s : State), v.bit 63 = true → s.verdict 0 0x400 Reg.objCmd.off 8 = .perform → s.objTakes 0 v = true → s.pl.reqs = [] → s.pl.aborts = [] →
    let n := Fld.objCmd_id.get v
    let a := Fld.objCmd_arena.get v
    let arg := (s.reg (objPage 0) .objArg).toNat
    let op := Fld.objCmd_op.get v
    let x := s.ctx n
    let y := s.queue n
    let ended := fun (t : State) (status : Nat) => t.fld (objPage 0) .objStat Fld.objStat_status = status ∧ t.fld (objPage 0) .objStat Fld.objStat_busy = 0
      ∧ t.fld (objPage 0) .objStat Fld.objStat_done = 1
    let waits := fun (t : State) => (t.freq 0).obj = some ⟨op, n, a, arg, 0, 0⟩ ∧ t.fld (objPage 0) .objStat Fld.objStat_busy = 1 ∧ t.mem = s.mem
    (op = 0 → ∃ t, exec (.createContext 0 v) s = .next t ∧ waits t)
    ∧ (op = 2 → ∃ t, exec (.createQueue 0 v) s = .next t ∧ waits t)
    ∧ (op = 1 → x.state = 1 → ∃ t b, exec (.destroyContext 0 v) s = .next t ∧ (t.ctx n).state = 2 ∧ t.pl.aborts = [b] ∧ b.kind = 3 ∧ b.ctx = n ∧ b.code = 3
      ∧ b.step = 1 ∧ t.fld (objPage 0) .objStat Fld.objStat_step = 1
      ∧ ∀ q, (s.queue q).state ≠ 0 → (s.queue q).ctx = n → (t.queue q).state = 3 ∧ ((∀ e ∈ (s.queue q).cmds, e.1 < (s.queue q).tail) → (t.queue q).cmds = []))
    ∧ (op = 1 → x.state ≠ 1 → ∃ t, exec (.destroyContext 0 v) s = .next t ∧ ended t 3 ∧ t.pl.ctxs = s.pl.ctxs)
    ∧ (op = 3 → (y.state = 1 ∨ y.state = 2) → ∃ t b, exec (.destroyQueue 0 v) s = .next t ∧ (t.queue n).state = 3
      ∧ (t.queue n).restart = y.tail ∧ t.pl.aborts = [b] ∧ b.kind = 2 ∧ b.code = 1 ∧ b.queues = [n]
      ∧ ((∀ e ∈ y.cmds, e.1 < y.tail) → (t.queue n).cmds = [] ∧ b.count = y.cmds.length))
    ∧ (op = 4 → ∃ t, exec (.restartQueue 0 v) s = .next t
      ∧ (y.state = 2 → ended t 0 ∧ t.queue n = { y with state := 1, fetched := max y.fetched y.restart })
      ∧ (y.state ≠ 2 → ended t 3 ∧ t.pl.queues = s.pl.queues))
    ∧ (∀ r, x.state = 1 → x.arenas[a]? = some r →
      (op = 5 → ∃ t, exec (.setArenaLimit 0 v) s = .next t
        ∧ (if arg % 0x2000000 = 0 ∧ r.cursor ≤ arg then
            ended t 0 ∧ t.ctx n = { x with arenas := x.arenas.set a { r with limit := arg, full := false, lowArmed := true } }
           else ended t 5 ∧ t.ctx n = x))
      ∧ (op = 6 → ∃ t, exec (.resetArena 0 v) s = .next t ∧ ended t 0
        ∧ t.ctx n = { x with arenas := x.arenas.set a { r with cursor := 0, full := false, lowHit := false, lowArmed := true } }))

/-- A staging record that was read makes the context or queue it describes LIVE where it keeps the rules; one that could not be read ends the request with its status. ARENA_CURSOR_READ returns the cursor; ARENA_ALLOC returns cursor + base and moves the cursor by the amount rounded up to the arena's alignment, or returns 0 and sets FULL where it does not fit (09 R271, R272, R277, R278, R280, R281, R295). -/
def Obligations.CreationAndArenas : Prop :=
  (∀ (h : HostAnswer) (s : State) (r : ObjReq), s.serving = true → s.pl.reqs = [(0, { obj := some r })] → s.pl.aborts = [] →
    let ended := fun (t : State) (status : Nat) => t.fld (objPage 0) .objStat Fld.objStat_status = status ∧ t.fld (objPage 0) .objStat Fld.objStat_busy = 0
      ∧ t.fld (objPage 0) .objStat Fld.objStat_done = 1 ∧ (t.freq 0).obj = none
    (r.op = 0 →
      (∀ rec, s.hostRead h r.arg 384 = some (some rec) → (s.ctx r.id).state = 0 → s.partExists (ctxOf rec).part = true → s.ctxRule rec = true →
        (∀ e ∈ s.pl.ctxs, e.2.state ≠ 0 → e.2.part = (ctxOf rec).part → e.2.pasid ≠ (ctxOf rec).pasid) →
        ∃ t, exec (.stagingRecordReadDone 0 h) s = .next t ∧ ended t 0 ∧ t.ctx r.id = ctxOf rec)
      ∧ (s.hostRead h r.arg 384 = some none →
        ∃ t, exec (.stagingRecordReadDone 0 h) s = .next t ∧ ended t (if (s.ctx r.id).state = 0 then 4 else 2) ∧ t.pl.ctxs = s.pl.ctxs))
    ∧ (r.op = 2 → ∀ rec, s.hostRead h r.arg 64 = some (some rec) → (s.queue r.id).state = 0 → (s.ctx (queueOf rec).ctx).state = 1 → queueRule rec = true →
      (s.db (r.id / 64)).bound = true → (s.db (r.id / 64)).ctx = (queueOf rec).ctx → s.ringTotal (queueOf rec).ctx + 2 ^ (queueOf rec).log2 ≤ 262144 →
      ∃ t, exec (.stagingRecordReadDone 0 h) s = .next t ∧ ended t 0 ∧ t.queue r.id = queueOf rec))
  ∧ ∀ (c : CellRef) (i : Nat) (s : State) (e : LoadEntry) (ctx j : Nat) (x : Arena),
    let k := s.cellKey c
    (s.arenaAccess c i true = some (e, ctx, j, x) →
      ∃ t, exec (.arenaCursorRead c i) s = .next t ∧ (t.flight k).access i = some { e with done := some x.cursor } ∧ t.pl = s.pl ∧ t.mem = s.mem)
    ∧ (∀ fn b, s.arenaAccess c i false = some (e, ctx, j, x) → e.kind = .amo fn b →
      let g := 2 ^ x.alignLog2
      let r := (b + g - 1) / g * g
      ∃ t y, exec (.arenaAlloc c i) s = .next t ∧ (t.ctx ctx).arenas[j]? = some y ∧ y.base = x.base ∧ y.limit = x.limit
        ∧ (if r ≠ 0 ∧ x.cursor + r ≤ x.limit then
            y.cursor = x.cursor + r ∧ y.full = x.full ∧ (t.flight k).access i = some { e with done := some (x.cursor + x.base) }
              ∧ (x.low ≠ 0 → x.low ≤ y.cursor → x.lowArmed = true → x.cursor + x.base ≠ 0 → y.lowHit = true ∧ y.lowArmed = false)
           else y.cursor = x.cursor ∧ y.full = true ∧ (t.flight k).access i = some { e with done := some 0 })
        ∧ t.mem = s.mem)

/-- An abort of a fetched command retires it and begins; of one that has ended by its own outcome it does nothing; an abort of a queue stops the queue and retires every command. Its agents then stop, and once what was issued has been performed, with no entry left to fetch, the engines are free and the error writes are issued, with those of a dying context's fence list and of its jobs' descriptors (09 R287 to R291, 13 R419). -/
def Obligations.ForcedAborts : Prop :=
  ∀ (h : HostAnswer) (s : State), s.pl.reqs = [] →
    (∀ v, v.bit 63 = true → s.verdict 0 0x401 Reg.abtReq.off 8 = .perform → s.fld (objPage 0) .objStat Fld.objStat_busy = 0 →
      s.fld (abtPage 0) .abtStat Fld.abtStat_busy = 0 → s.pl.aborts = [] →
      let q := Fld.abtReq_queue.get v
      let x := s.queue q
      let seq := (s.reg (abtPage 0) .abtSeq).toNat
      (x.state = 1 ∨ x.state = 2) →
      (v.bit 14 = false → seq < x.fetched → seq < x.tail →
        (∀ c, s.cmd? q seq = some c → ∃ t b, exec (.abortCommand 0 v h) s = .next t ∧ t.cmd? q seq = none ∧ (t.queue q).ended.find? seq = some 2
          ∧ (t.queue q).state = x.state ∧ t.pl.aborts = [b] ∧ b.kind = 0 ∧ b.cmds = [(q, seq)] ∧ b.step = 1 ∧ b.fences = [c.fenceOp x q seq 1])
        ∧ (s.cmd? q seq = none → x.ended.find? seq = some 1 → ∃ t, exec (.abortCommand 0 v h) s = .next t ∧ t.pl.queues = s.pl.queues
          ∧ t.fld (abtPage 0) .abtStat Fld.abtStat_result = 1 ∧ t.fld (abtPage 0) .abtStat Fld.abtStat_done = 1))
      ∧ (v.bit 14 = true → ∃ t b, exec (.abortQueue 0 v) s = .next t ∧ (t.queue q).state = 2 ∧ (t.queue q).restart = x.tail
        ∧ t.pl.aborts = [b] ∧ b.kind = 1 ∧ b.step = 1 ∧ ((∀ e ∈ x.cmds, e.1 < x.tail) → (t.queue q).cmds = [] ∧ b.count = x.cmds.length)))
    ∧ (∀ b, s.serving = true → s.pl.aborts = [b] →
      (b.step = 1 → (s.abortEngines b).all s.abortReaches = true →
        ∃ t b', exec (.abortStopDone 0 h) s = .next t ∧ t.pl.aborts = [b'] ∧ b' = { b with step := 2, acks := b'.acks }
          ∧ (∀ e ∈ t.pl.streams, ∀ p ∈ b.cmds, e.2.ofCmd p.1 p.2 = false)
          ∧ ∀ y ∈ s.abortEngines b, (s.engine y.1 y.2).stopping = 0 →
            (if (s.engine y.1 y.2).state = 4 then (t.engine y.1 y.2).state = 3 ∧ (t.engine y.1 y.2).cmd = none else (t.engine y.1 y.2).stopping = 2))
      ∧ (∀ unread, b.step = 2 → (b.kind = 0 ∨ ∀ q ∈ b.tails, q.2 ≤ (s.queue q.1).fetched) → (∃ op ∈ b.fences, b.owns op = true) →
        s.abortQuiet b = true → (if b.jobs then s.unreadRings b.ctx b.code else some []) = some unread →
        ∃ t, exec (.abortQuiesced 0 h) s = .next t ∧ t.pl.aborts = [{ b with step := 3, fences := [] }]
          ∧ t.pl.fenceOps = s.pl.fenceOps ++ (b.fences ++ (unread ++ if 3 ≤ b.kind then s.fenceList b.ctx b.code else []))
          ∧ ∀ y ∈ s.abortEngines b, (t.engine y.1 y.2).state = 0 ∧ (t.engine y.1 y.2).cmd = none))

/-- DB_OWNER and FRAME_DATA of the physical function: an allowed write gives the doorbell page what it asks for and a refused one sets the access-error bit; a change of a frame's owner starts its scrub, which ends with the frame of zeros in its new state (09 R274, R276, R279, R296, 14 R441, R443). -/
def Obligations.Ownership : Prop :=
  ∀ (s : State),
    (∀ v, s.verdict 0 0x400 Reg.dbOwner.off 8 = .perform →
      let p := s.fld (objPage 0) .objIdx Fld.objIdx_dbpage
      let n := s.dbAsked 0 p v
      (s.dbAllowed p n = true → ((s.db p).assigned = false ∨ (n.assigned = true ∧ n.part = (s.db p).part)) →
        ∃ t, exec (.dbOwnerWrite 0 v) s = .next t ∧ t.db p = n ∧ (∀ i, i ≠ p → t.db i = s.db i) ∧ t.mem = s.mem)
      ∧ (s.dbAllowed p n = false → ∃ t, exec (.dbOwnerWrite 0 v) s = .next t ∧ t.pl.dbs = s.pl.dbs ∧ (t.pageErrs (objPage 0)).bit 63 = true))
    ∧ (∀ v, s.verdict 0 0x400 Reg.frameData.off 8 = .perform →
      let n := s.fld (objPage 0) .objIdx Fld.objIdx_frame
      n < devFrames → (s.frame n).state = 0 → Fld.frameData_owned.get v = 1 →
      ∃ t, exec (.frameDataWrite 0 v) s = .next t ∧ t.frame n = ⟨2, Fld.frameData_partition.get v, 1⟩ ∧ n ∈ t.pl.scrubs
        ∧ (∀ i, i ≠ n → t.frame i = s.frame i) ∧ t.mem.dev = s.mem.dev)
    ∧ (∀ n, s.serving = true → (s.frame n).state = 2 → s.pl.scrubs.contains n = true → s.frameQuiet n = true → (∀ i, i < 15 → (s.cast i).state ≠ 3) →
      ∃ t, exec (.scrubDone n) s = .next t ∧ (∀ a, frameOf a = n → t.devByte a = 0) ∧ (∀ a, frameOf a ≠ n → t.devByte a = s.devByte a)
        ∧ t.frame n = (if (s.frame n).next = 0 then {} else { state := (s.frame n).next, part := (s.frame n).part })
        ∧ t.pl.scrubs = s.pl.scrubs.erase n)

/-- A read or write through a function's window that reaches no context fails with cause 1, a read returning ones; bytes of one line at a stack place are read as its home holds them, and written there alone; bytes with no place fail with cause 2, and a poisoned read with cause 3 and the poisoned-data indication; a request waits behind the function's earlier ones; a dormant function's window reads zero and takes no write. The completion returns on the port of the request (07 R228, 11 R339, R343, R347 to R349, R372). -/
def Obligations.Window : Prop :=
  ∀ (port f off len : Nat) (data : List Byte) (s : State), s.up = true → 0 < len → data.length = len → off + len ≤ 2 ^ 32 → (f = 0 ∨ s.pl.sriov = true) →
    let failed := fun (t : State) (cause : Nat) => t.fld (funcPage f) .winStat Fld.winStat_err = 1 ∧ t.fld (funcPage f) .winStat Fld.winStat_cause = cause
      ∧ t.fld (funcPage f) .winErraddr Fld.winErraddr_offset = off % 2 ^ 32 ∧ t.mem = s.mem
    let read := exec (.windowRead ⟨.rootPort port, f⟩ off len) s
    let write := exec (.windowWrite ⟨.rootPort port, f⟩ off data) s
    (f ≠ 0 → s.funcPart f = none → (∃ t, read = .next t ∧ t.reply = List.replicate len 0 ++ [0] ∧ t.regs = s.regs)
      ∧ ∃ t, write = .next t ∧ t.mem = s.mem ∧ t.regs = s.regs)
    ∧ ((f = 0 ∨ (s.funcPart f).isSome = true) →
      (s.winCtx f = none → (∃ t, read = .next t ∧ failed t 1 ∧ t.reply = List.replicate len 0xFF ++ [0] ∧ t.replyPort = port) ∧ ∃ t, write = .next t ∧ failed t 1)
      ∧ (∀ ctx, s.winCtx f = some ctx →
        (s.hostReqs f ≠ [] →
          (∃ t, read = .next t ∧ t.hostReqs f = s.hostReqs f ++ [.read ctx (s.winVa f 0) off len port (piecesOf off len) [] false] ∧ t.mem = s.mem)
          ∧ ∃ t x, write = .next t ∧ t.hostReqs f = s.hostReqs f ++ [x] ∧ t.mem = s.mem)
        ∧ (s.hostReqs f = [] → off % 64 + len ≤ 64 →
          let va := s.winVa f 0 + off
          (∀ a, s.xlPlinth ctx va .read = .ok (.stack a) → s.mem.free (a / 64) = true →
            (s.mem.homePoison (a / 64) = false → ∃ t, read = .next t ∧ t.reply = s.mem.homeBytes a len ++ [0] ∧ t.replyPort = port ∧ t.mem = s.mem)
            ∧ (s.mem.homePoison (a / 64) = true → ∃ t, read = .next t ∧ failed t 3 ∧ t.reply.length = len + 1 ∧ t.reply.getLast? = some 1))
          ∧ (s.xlPlinth ctx va .read = .missing → ∃ t, read = .next t ∧ failed t 2 ∧ t.reply = List.replicate len 0xFF ++ [0])
          ∧ (∀ a, s.xlPlinth ctx va .write = .ok (.stack a) → a % 64 = off % 64 → s.mem.free (a / 64) = true →
            (s.recall (a / 64) none).mem.homePoison (a / 64) = false →
            ∃ t, write = .next t ∧ (∀ i, i < len → some (t.devByte (a + i)) = data[i]?)
              ∧ ∀ i, (i < a / 64 * 64 ∨ a / 64 * 64 + 64 ≤ i) → t.devByte i = s.devByte i)
          ∧ (s.xlPlinth ctx va .write = .missing → ∃ t, write = .next t ∧ failed t 2))))

/-! ## Interrupts -/

/-- An event on an enabled source adds one to COUNT; at 255 it leaves COUNT and sets OVF (15 R447). IC_RAISE makes one event on its source, a fixed condition that appears makes one, and a source whose EN is clear takes none. -/
def Obligations.InterruptEvents : Prop :=
  ∀ (n : Nat) (s : State), n < 2048 →
    let x := s.irq n
    let counted := fun (t : State) => (t.irq n).count = (if x.count = 255 then 255 else x.count + 1) ∧ (t.irq n).ovf = (x.ovf || x.count == 255)
      ∧ ∀ i, i ≠ n → t.irq i = s.irq i
    (x.en = true → counted (s.irqEvent n))
    ∧ (x.en = false → s.irqEvent n = s)
    ∧ (∀ v, Fld.icRaise_source.get v = n → s.verdict 0 0x500 Reg.icRaise.off 8 = .perform →
      (n < 32 → ∃ t, exec (.icRaise 0 v) s = .next t ∧ t.pl.irqs = s.pl.irqs ∧ (t.pageErrs icPage).bit 63 = true)
      ∧ (32 ≤ n → x.func = 0 → x.en = true → ∃ t, exec (.icRaise 0 v) s = .next t ∧ counted t)
      ∧ (32 ≤ n → x.func = 0 → x.en = false → ∃ t, exec (.icRaise 0 v) s = .next t ∧ t.pl.irqs = s.pl.irqs))
    ∧ (s.up = true → s.fixedCondition n = !x.cond → ∃ t, exec (.fixedConditionChange n) s = .next t ∧ (t.irq n).cond = !x.cond
      ∧ (x.cond = false → x.en = true → counted t) ∧ (x.cond = true → (t.irq n).count = x.count))

/-- IC_ACK takes events off COUNT, IC_SRC_CTL and IC_SRC_TGT set what the page gives a source, an expired coalescing timer delivers once to the next enabled target, an unmasked vector sends its pending message, and IC_CLAIM takes a hart's oldest delivery (15 R451 to R456, R458, R459). -/
def Obligations.InterruptService : Prop :=
  ∀ (v : Word) (s : State),
    (∀ n, n = Fld.icAck_source.get v → s.verdict 0 0x500 Reg.icAck.off 8 = .perform →
      let x := s.irq n
      let k := Fld.icAck_n.get v
      ∃ t, exec (.icAck 0 v) s = .next t ∧ (t.irq n).count = (if k = 0 ∨ x.count < k then 0 else x.count - k) ∧ (t.irq n).ovf = x.ovf
        ∧ ((t.irq n).asserted = false → (t.irq n).inService = false) ∧ ∀ i, i ≠ n → t.irq i = s.irq i)
    ∧ (∀ n, n = s.icSource 0 → s.verdict 0 0x500 Reg.icSrcCtl.off 8 = .perform →
      let f := Fld.icSrcCtl_func.get v
      ((32 ≤ n ∨ f = 0) → f ≤ 16 → (f = (s.irq n).func ∨ (s.irq n).func = 0 ∨ (s.part ((s.irq n).func - 1)).tdisp = 0) →
        ∃ t, exec (.icSrcCtlWrite 0 v) s = .next t ∧ (t.irq n).en = (Fld.icSrcCtl_en.get v == 1) ∧ (t.irq n).mask = (Fld.icSrcCtl_mask.get v == 1)
          ∧ (t.irq n).coalN = Fld.icSrcCtl_coalN.get v ∧ (t.irq n).coalT = Fld.icSrcCtl_coalTUs.get v ∧ (t.irq n).func = f
          ∧ ((f = (s.irq n).func ∨ (s.irq n).asserted = false) → (t.irq n).count = (s.irq n).count)
          ∧ (f ≠ (s.irq n).func → (s.irq n).asserted = true → (t.irq n).count = 0 ∧ (t.irq n).ovf = false))
      ∧ (n < 32 → f ≠ 0 → ∃ t, exec (.icSrcCtlWrite 0 v) s = .next t ∧ t.pl.irqs = s.pl.irqs ∧ (t.pageErrs icPage).bit 63 = true))
    ∧ (∀ n, n = s.icSource 0 → s.verdict 0 0x500 Reg.icSrcTgt.off 8 = .perform →
      ∃ t, exec (.icSrcTgtWrite 0 v) s = .next t ∧ (t.irq n).harts = Fld.icSrcTgt_harts.get v ∧ (t.irq n).vecBase = Fld.icSrcTgt_vecBase.get v
        ∧ (t.irq n).vecN = Fld.icSrcTgt_vecN.get v ∧ ((t.irq n).inService = (s.irq n).inService → (t.irq n).lastValid = false))
    ∧ (∀ n j, s.up = true →
      let x := s.irq n
      x.timer = true → x.asserted = true → x.mask = false → x.inService = false →
      (∀ h, s.nextTarget x = some (j, .hart h) → ∃ t, exec (.coalesceTimerExpiry n) s = .next t
        ∧ t.irq n = { x with inService := true, last := j, lastValid := true, timer := false, due := false, noTarget := false }
        ∧ (t.hart h).queue = (s.hart h).queue ++ [n] ∧ t.pl.outbound = s.pl.outbound)
      ∧ (∀ k, s.nextTarget x = some (j, .vector k) → ∃ t, exec (.coalesceTimerExpiry n) s = .next t ∧ (t.irq n).inService = true
        ∧ (if (s.msixAt x.func k).masked then (t.msixAt x.func k).pending = true ∧ t.pl.outbound = s.pl.outbound
           else ∃ p, t.pl.outbound.at [] x.func = s.pl.outbound.at [] x.func ++ [⟨.msix (s.msixAt x.func k).addr (s.msixAt x.func k).data, p⟩]))
      ∧ (s.nextTarget x = none → ∃ t, exec (.coalesceTimerExpiry n) s = .next t ∧ (t.irq n).inService = false ∧ (t.irq n).noTarget = true))
    ∧ (∀ f k, v.bit 0 = false → k < vectorsOf f → f ≤ 16 → s.verdict f (0x510 + (16 * k + 12) / 0x1000) ((16 * k + 12) % 0x1000) 4 = .perform →
      let e := s.msixAt f k
      e.addr % 4 = 0 → e.addr < 2 ^ 64 → e.data < 2 ^ 32 →
      ∃ t, exec (.msixVectorUnmask f k v) s = .next t
        ∧ (if e.pending ∧ (s.cfg f).msixEnable ∧ ¬ (s.cfg f).funcMask then
            t.msixAt f k = { e with masked := false, pending := false } ∧ ((t.pl.outbound.at [] f).getLast?.map OutReq.msg) = some (.msix e.addr e.data)
           else t.msixAt f k = { e with masked := false }))
    ∧ (∀ h, s.answers 0 0x500 = true →
      ((s.hart h).queue = [] → exec (.icClaim h) s = .next { s with reply := bytesOf 8 0 })
      ∧ ∀ n q, (s.hart h).queue = n :: q → ∃ t, exec (.icClaim h) s = .next t ∧ (t.hart h).queue = q
        ∧ t.reply = bytesOf 8 (Fld.icClaim_source.at n + Fld.icClaim_valid.at 1))

/-! ## Register accesses -/

/-- An accepted write of a page header register or of a plain register keeps to its access codes; a lock, once set, stays; a write of the wrong width or alignment, or to a disabled page, is not performed and sets the access-error bit. An aligned 64-bit read returns the register and clears its RC fields; a page that does not answer reads zero; a doorbell slot reads its queue's HEAD and STATE, and zero elsewhere. A read of another width or alignment is not performed, returns zero, and sets the access-error bit of a page that answers or of a slot that shows a page. A completion returns on its request's port, and a request of another requester than a root port is counted in HP_ERR.REFUSED and returns nothing (00 R8 to R10, 09 R282, 11 R339, R343, R345, R346, 19 R559, R561). -/
def Obligations.RegisterAccesses : Prop :=
  (∀ (port off size : Nat) (v : Word) (s : State) (k : PageKind) (i : Nat),
       let page := off / 0x1000
       let o := off % 0x1000
       let pk := pageKey 0 page
       let write := exec (.registerWrite ⟨.rootPort port, 0⟩ off size v) s
       pageOf page = some (k, i) → k ≠ .msix →
       (s.verdict 0 page o size = .ignore → write = .next { s with replyPort := port })
       ∧ (∀ q, s.verdict 0 page o size = .error q → ∃ t, write = .next t ∧ (t.pageErrs q).bit 63 = true
         ∧ t = { s with regs := t.regs, replyPort := port } ∧ ∀ a, a ≠ q + 0x20 → t.rd a = s.rd a)
       ∧ (s.verdict 0 page o size = .perform →
         (o = 0x010 → ∃ t, write = .next t ∧ t.pageEn pk = v.bit 0 ∧ t.pageLock pk = (v.bit 1 || s.pageLock pk))
         ∧ (∀ r, 0x100 ≤ o → k.regAt o = some r → r ∉ ownRowRegs →
           (r.accepts v = true → ∃ t, write = .next t ∧ t.rd (pk + o) = r.written (s.pageLock pk) (s.rd (pk + o)) v)
           ∧ (r.accepts v = false → ∃ t, write = .next t ∧ t.rd (pk + o) = s.rd (pk + o) ∧ (t.pageErrs pk).bit 63 = true))))
  ∧ (∀ (port off : Nat) (s : State),
       let page := off / 0x1000
       let o := off % 0x1000
       let pk := pageKey 0 page
       let started := s.ready = true ∨ s.startFailed = true
       (off % 8 = 0 → (started ∨ s.recovery = true) →
         (s.answers 0 page = false → exec (.registerReadClear ⟨.rootPort port, 0⟩ ⟨0, off⟩) s = .next { s with reply := bytesOf 8 0, replyPort := port })
         ∧ ∀ k i r, s.answers 0 page = true → pageOf page = some (k, i) → k ≠ .msix → 0x100 ≤ o → k.regAt o = some r →
           ∃ t, exec (.registerReadClear ⟨.rootPort port, 0⟩ ⟨0, off⟩) s = .next t ∧ t.reply = bytesOf 8 (s.view 0 page o).toNat
             ∧ t = { s with regs := t.regs, fab := t.fab, reply := t.reply, replyPort := port }
             ∧ (r ≠ .fabPortStat → t.fab = s.fab ∧ t.rd (pk + o) = s.rd (pk + o) &&& ~~~ r.mask .rc ∧ ∀ a, a ≠ pk + o → t.rd a = s.rd a)
             ∧ (r = .fabPortStat → t.regs = s.regs ∧ (t.port (s.fld fabPage .fabPortIdx Fld.fabPortIdx_port)).replays = 0
                 ∧ (t.port (s.fld fabPage .fabPortIdx Fld.fabPortIdx_port)).downs = 0))
       ∧ (∀ src, off % 8 = 0 → started → s.tdispError (srcFunc src) = false →
         ∃ w, exec (.registerReadClear ⟨.rootPort port, src⟩ ⟨2, off⟩) s = .next { s with reply := bytesOf 8 w, replyPort := port }
           ∧ (s.dbQueue (srcFunc src) off = none → w = 0)
           ∧ ∀ q, s.dbQueue (srcFunc src) off = some q → (s.queue q).head < 2 ^ 64 → (s.queue q).state < 2 ^ 64 →
               w = (if off % 64 = 8 then (s.queue q).head else if off % 64 = 16 then (s.queue q).state else 0))
       ∧ ∀ bar size, s.up = true → readRefused bar off size = true →
         ∃ t, exec (.registerReadRefused ⟨.rootPort port, 0⟩ bar off size) s = .next t ∧ t.reply = bytesOf size 0
           ∧ t = { s with regs := t.regs, reply := t.reply, replyPort := port }
           ∧ (bar = 2 → started → s.tdispError 0 = false →
               (s.dbPageAt 0 (off / 4096) ≠ none → (t.pageErrs (funcPage 0)).bit 63 = true) ∧ (s.dbPageAt 0 (off / 4096) = none → t.regs = s.regs))
           ∧ (bar = 0 → s.answers 0 page = false → t.regs = s.regs)
           ∧ (∀ k i, bar = 0 → s.answers 0 page = true → pageOf page = some (k, i) → (t.pageErrs (if k = .msix then funcPage 0 else pk)).bit 63 = true))
  ∧ ∀ (rq : Requester) (src bar off size len : Nat) (v : Word) (data : List Byte) (s : State), (∀ p, rq ≠ .rootPort p) → s.up = true → s.linkUp = true →
      let refused := { s.bump plPage .hpErr Fld.hpErr_refused 1 with reply := [], replyPort := rq.port }
      exec (.registerWrite ⟨rq, src⟩ off size v) s = .next refused ∧ exec (.registerReadClear ⟨rq, src⟩ ⟨bar, off⟩) s = .next refused
        ∧ exec (.registerReadRefused ⟨rq, src⟩ bar off size) s = .next refused ∧ exec (.windowRead ⟨rq, src⟩ off len) s = .next refused
        ∧ exec (.windowWrite ⟨rq, src⟩ off data) s = .next refused ∧ exec (.doorbellTail ⟨rq, src⟩ off size v) s = .next refused

/-- SMD selects its operation by FN: the low and high halves of the product, division that truncates toward zero, leading and trailing zeros and set bits; no division traps, and a reserved FN, or one of FN 7 to 9 with an SB that is not zero, traps with ILLEGAL_INSTR (05 R135, R171). -/
def Obligations.SmdResults : Prop :=
  ∀ (c : CellRef) (w : Word) (s : State), opOf w = 0x02 → zeroFld w 0 34 = true → s.canIssue c [sdOf w, saOf w, sbOf w] →
    let fn := w.fld 34 6
    let a := (s.cellAt c).s (saOf w)
    let b := (s.cellAt c).s (sbOf w)
    let gives := fun (v : Word) => ∃ t, exec (.smd c w) s = .next t ∧ s.scalarDone t c (sdOf w) v
    (fn = 0 → gives (BitVec.ofInt 64 (a.toInt * b.toInt)))
    ∧ (fn = 1 → gives (((a.signExtend 128 * b.signExtend 128) >>> 64).setWidth 64))
    ∧ (fn = 2 → gives (((a.setWidth 128 * b.setWidth 128) >>> 64).setWidth 64))
    ∧ (fn = 3 → gives (if b = 0 then BitVec.allOnes 64 else BitVec.ofInt 64 (a.toInt.tdiv b.toInt)))
    ∧ (fn = 4 → gives (if b = 0 then BitVec.allOnes 64 else BitVec.ofNat 64 (a.toNat / b.toNat)))
    ∧ (fn = 5 → gives (if b = 0 then a else BitVec.ofInt 64 (a.toInt.tmod b.toInt)))
    ∧ (fn = 6 → gives (if b = 0 then a else BitVec.ofNat 64 (a.toNat % b.toNat)))
    ∧ (a = BitVec.intMin 64 → b = BitVec.allOnes 64 → (fn = 3 → gives (BitVec.intMin 64)) ∧ (fn = 5 → gives 0))
    ∧ (fn = 7 → sbOf w = 0 → ∃ n, n ≤ 64 ∧ gives (BitVec.ofNat 64 n) ∧ (∀ i, i < n → a.getMsbD i = false) ∧ (n < 64 → a.getMsbD n = true))
    ∧ (fn = 8 → sbOf w = 0 → ∃ n, n ≤ 64 ∧ gives (BitVec.ofNat 64 n) ∧ (∀ i, i < n → a.getLsbD i = false) ∧ (n < 64 → a.getLsbD n = true))
    ∧ (fn = 9 → sbOf w = 0 → gives (BitVec.ofNat 64 ((List.range 64).filter fun i => a.getLsbD i).length))
    ∧ ((10 ≤ fn ∨ (7 ≤ fn ∧ sbOf w ≠ 0)) → ∃ t, exec (.smd c w) s = .next t ∧ s.cellTrapped t c 5 0 (s.cellAt c).pc)

/-! ## The fabric -/

/-- A port goes down for a cause of R398 that holds, with everything on it lost, and trains again while it is enabled; it comes up with the credits that the neighbour gives; a replay counts, and a flit in link sequence order has what it says of the link taken. A packet that arrives in link sequence order is taken here, or is dropped and counted, or goes on by the candidate port with the most free credits, the lowest-numbered of equals, with its TTL one lower and its lane by the entry's pair: it leaves where that port has a credit for it, and waits where not (13 R397, R398, R400 to R404). The packets that wait for a credit already are none in the clauses that give a port's whole record. -/
def Obligations.FabricPortsAndRouting : Prop :=
  ∀ (n : Nat) (s : State), n < 16 →
    let x := s.port n
    let link := fun (t : State) => s.fab.egress = [] → ∀ i, i ≠ n → t.port i = s.port i
    (∀ cause, s.up = true → x.state ≠ 0 → (cause = .replays → 8 ≤ x.fails) → (cause = .disabled → s.portOn n = false) →
      ∃ t, exec (.portDown n cause) s = .next t ∧ link t ∧ (t.port n).state = (if s.portOn n then 1 else 0)
        ∧ (t.port n).downs = (if x.state = 2 then min 65535 (x.downs + 1) else x.downs) ∧ (t.port n).kept = [] ∧ t.mem = s.mem)
    ∧ (∀ cause, x.state = 0 → exec (.portDown n cause) s = .next s)
    ∧ (∀ credits, s.portOn n = true → x.state ≠ 2 → ∃ t, exec (.portUp ⟨n, credits⟩) s = .next t ∧ (t.port n).state = 2 ∧ link t
      ∧ (s.fab.egress = [] → t.port n = { x.cleared with state := 2, credits := creditsAdded [] credits }))
    ∧ (∀ failed frequent l, s.up = true → x.state = 2 → ∃ t, exec (.flitReplay ⟨n, l⟩ failed frequent) s = .next t ∧ link t
      ∧ (t.port n).replays = min 65535 (x.replays + 1) ∧ (t.port n).fails = (if failed then x.fails + 1 else 0) ∧ (t.port n).noisy = (x.noisy || frequent)
      ∧ ((failed = true ∨ l.seq ≠ x.rxSeq) → (t.port n).rxSeq = x.rxSeq ∧ (t.port n).kept = x.kept ∧ (t.port n).credits = x.credits)
      ∧ (failed = false → l.seq = x.rxSeq → (t.port n).rxSeq = x.rxSeq + 1
          ∧ (s.fab.egress = [] → (t.port n).kept = x.kept.filter (fun k => decide (l.ack ≤ k.1)) ∧ (t.port n).credits = creditsAdded x.credits l.credits)))
    ∧ (∀ (l : LinkHdr) (p : Packet), s.fabOn = true → x.state = 2 →
      (l.seq ≠ x.rxSeq → exec (.packetForward ⟨n, l⟩ p) s = .next s)
      ∧ (l.seq = x.rxSeq →
        let u := s.linkTook n l
        let cls := if p.typ = 5 then 1 else if p.typ ≤ 4 then 0 else 2
        let pair := (s.routeOf p.dst) / 2 ^ 16 % 4
        let lane := fun (q : Nat) => if (u.port q).dateline then 2 * pair + 1 else if p.vl / 2 = pair then p.vl else 2 * pair
        let free := fun (q : Nat) => (u.port q).credits.at 0 (8 * cls + lane q)
        (p.dst = s.devId → ∃ t, exec (.packetForward ⟨n, l⟩ p) s = .next t ∧ t.fab = { u.fab with ingress := u.fab.ingress ++ [⟨some n, p⟩] })
        ∧ (p.dst ≠ s.devId → (p.ttl ≤ 1 ∨ u.candidates p.dst = []) → ∃ t, exec (.packetForward ⟨n, l⟩ p) s = .next t ∧ t.fab.egress = u.fab.egress
            ∧ t.fld fabPage .fabErr Fld.fabErr_dropped = min (2 ^ Fld.fabErr_dropped.width - 1) (u.fld fabPage .fabErr Fld.fabErr_dropped + 1)
            ∧ t.port n = { u.port n with freed := (u.port n).freed.put 0 (8 * cls + p.vl) ((u.port n).freed.at 0 (8 * cls + p.vl) + 1) })
        ∧ (∀ q, p.dst ≠ s.devId → 2 ≤ p.ttl → q ∈ u.candidates p.dst → (∀ r ∈ u.candidates p.dst, free r < free q ∨ (free r = free q ∧ q ≤ r)) →
            ∃ t, exec (.packetForward ⟨n, l⟩ p) s = .next t
              ∧ (0 < free q → t.fab.egress = u.fab.egress ∧ (t.port q).credits.at 0 (8 * cls + lane q) = free q - 1
                  ∧ (t.port q).kept = (u.port q).kept ++ [((u.port q).txSeq, { p with ttl := p.ttl - 1, vl := lane q })]
                  ∧ (t.port n).freed.at 0 (8 * cls + p.vl) = (u.port n).freed.at 0 (8 * cls + p.vl) + 1)
              ∧ (free q = 0 → t.fab = { u.fab with egress := u.fab.egress ++ [⟨{ p with ttl := p.ttl - 1 }, some n⟩] }))))

/-- A packet addressed here that R409 refuses is dropped and counted, whatever its type. An accepted one is read under its key, and a request is performed once: a duplicate is only acknowledged, and one for the job of a context that is not LIVE, or is being aborted, is refused with OWNER_GONE. PUT and GETRESP write their payload, ACC folds in its elements, SIG signals its word, and each is answered with its code; a GET is served by GETRESPs; an ACK or NAK settles the descriptor whose packet it answers (13 R409, R414, R415, R419). -/
def Obligations.FabricPackets : Prop :=
  ∀ (p : Packet) (a : Arrival) (s : State), s.fabOn = true → p.dst = s.devId → s.arrivalOf p = some a →
    let kinds : List (Nat × Instr) := [(1, .putPacket p), (2, .accPacket p), (3, .sigPacket p), (4, .getPacket p), (5, .getrespPacket p), (6, .ackPacket p), (7, .nakPacket p)]
    let u0 := s.arrived a
    (s.accepts p = none → ∀ i ∈ kinds, p.typ = i.1 → ∃ t, exec i.2 s = .next t ∧ t.mem = s.mem ∧ t.fab = { u0.fab with authLog := t.fab.authLog }
      ∧ t.fld fabPage .fabErr Fld.fabErr_auth = min (2 ^ Fld.fabErr_auth.width - 1) (s.fld fabPage .fabErr Fld.fabErr_auth + 1))
    ∧ ∀ n, s.accepts p = some n → s.fabIdle →
      let q := s.openFor n p
      let j := s.job n
      let ctx := j.ctx
      let table := linesOf (j.entry q.srank + 0x10) 16
      let answered := fun (t : State) (code : Nat) => j.keyOn j.txKey = true → u0.leaves t (s.sealedFor n (t.packetTo n q.srank (if code = 0 then 6 else 7) 0 0 code q.psn []))
      let fresh := s.psnSeen j q.srank q.psn = false ∧ s.jobServes ctx = true
      let performed := fun (t u : State) (code : Nat) => answered t code ∧ ∀ a, a / 64 ∉ table → t.devByte a = u.devByte a
      (s.psnSeen j q.srank q.psn = true → (n, q.srank, q.psn) ∉ s.fab.refused →
        ∀ i ∈ kinds, i.1 ≤ 5 → p.typ = i.1 → ∃ t, exec i.2 s = .next t ∧ answered t 0 ∧ t.mem = s.mem)
      ∧ (s.psnSeen j q.srank q.psn = false → s.jobServes ctx = false →
        ∀ i ∈ kinds, (i.1 ≤ 4 ∨ (i.1 = 5 ∧ s.getFor n p = true)) → p.typ = i.1 → ∃ t, exec i.2 s = .next t ∧ performed t s 3)
      ∧ (fresh → ∀ i ∈ kinds, (i.1 = 1 ∨ (i.1 = 5 ∧ s.getFor n p = true)) → p.typ = i.1 →
        (∀ u code, u0.fabWrite ctx q.addr q.payload = some (u, code) → ∃ t, exec i.2 s = .next t ∧ performed t u code)
        ∧ (∀ a b, q.payload = [b] → s.chPlace ctx false q.addr true = .place (.stack a) → s.mem.free (a / 64) = true → a / 64 ∉ table →
            ((u0.fabTouch ctx q.addr 1 .write).recall (a / 64) none).mem.homePoison (a / 64) = false →
            ∃ t, exec i.2 s = .next t ∧ answered t 0 ∧ t.devByte a = b ∧ ∀ x, x / 64 ≠ a / 64 → x / 64 ∉ table → t.devByte x = s.devByte x))
      ∧ (fresh → p.typ = 5 → s.getFor n p = false → ∃ t, exec (.getrespPacket p) s = .next t ∧ t = u0)
      ∧ (fresh → p.typ = 2 → q.payload.length = 64 → ∀ u code,
        (u0.xlFill 16 ctx q.addr .atomic 0xFF).accGranule ctx q.addr (q.oparg % 4) (q.oparg.testBit 2) q.payload = some (u, code) →
        ∃ t, exec (.accPacket p) s = .next t ∧ performed t u code)
      ∧ (fresh → p.typ = 3 →
        (∀ a, s.xlPlinth ctx q.addr .atomic = .ok (.stack a) → s.inRelief 16 ctx q.addr .atomic = false → q.addr % 8 = 0 → a % 8 = 0 → s.mem.free (a / 64) = true →
          let u := (u0.xlFill 16 ctx q.addr .atomic 0xFF).recall (a / 64) none
          u.mem.homePoison (a / 64) = false → a / 64 ∉ table →
          ∃ t, exec (.sigPacket p) s = .next t ∧ answered t 0 ∧ t.mem.dev.readLE a 8 = signalWord (u.mem.dev.readLE a 8) (ofBytes (q.payload.take 8)) % 2 ^ 64)
        ∧ (q.addr % 8 ≠ 0 → ∃ t, exec (.sigPacket p) s = .next t ∧ ∃ code, code ≠ 0 ∧ answered t code))
      ∧ (fresh → p.typ = 4 →
        let u := u0.acceptSeq q n
        let len := ofBytes ((q.payload.drop 8).take 4)
        let dest := ofBytes (q.payload.take 8)
        (∀ l, 0 < len → len ≤ 4096 - dest % 4096 → (∀ a, q.addr ≤ a → a < q.addr + len → ∀ e, s.chPlace ctx false a false ≠ .fail e) →
          u.flowOpen n q.srank = true → u.flowSpent n q.srank = false → u.fabRead ctx q.addr len = some (.ok l) →
          ∃ t r, exec (.getPacket p) s = .next t ∧ t.fab.gets = [{ slot := n, rank := q.srank, psn := q.psn, addr := q.addr, dest := dest, length := len, sent := len, out := 1 }]
            ∧ t.fab.unacked = s.fab.unacked ++ [r] ∧ r.pkt.typ = 5 ∧ r.pkt.addr = dest ∧ r.pkt.ref = q.psn ∧ r.pkt.payload = l ∧ r.get = some q.psn)
        ∧ (∀ e, 0 < len → s.chPlace ctx false q.addr false = .fail e → ∃ t, exec (.getPacket p) s = .next t ∧ answered t e))
      ∧ ∀ r, s.fab.unacked.find? (fun u => u.slot == n && u.rank == q.srank && u.pkt.psn == q.ref) = some r → r.get = none →
        let left := fun (t : State) => t.fab.unacked = s.fab.unacked.erase r ∧ t.mem = s.mem
        (p.typ = 6 → ∃ t, exec (.ackPacket p) s = .next t ∧ left t
          ∧ ∀ k i d, r.ring = some (k, i) → (s.ring k).desc? i = some d → (t.ring k).desc? i = some { d with out := d.out - 1 }.settle)
        ∧ (p.typ = 7 → ∃ t, exec (.nakPacket p) s = .next t ∧ left t
          ∧ ∀ k i d, r.ring = some (k, i) → (s.ring k).desc? i = some d → d.code = 0 → d.done = false →
            (t.ring k).desc? i = some { d with out := d.out - 1, started := true, code := max 1 q.oparg }.settle)

/-- The transport reads the descriptors below a ring's new tail, and one that fails its checks is done with BAD_COMMAND; a descriptor that may start sends its packets, or ends with PEER_DEAD or BAD_COMMAND; a BARRIER takes the code of what it covers, and leaves the failures of later descriptors to the next; a done descriptor retires after its fence, and HEAD is written (13 R410 to R415). -/
def Obligations.FabricRings : Prop :=
  ∀ (ring idx : Nat) (s : State), s.fabOn = true →
    let r := s.ring ring
    let j := s.job r.slot
    r.stopped = false → j.bound = true →
    (∀ a l, r.en = true → (s.ctx j.ctx).state = 1 → s.xlPlinth j.ctx r.tailVa .read = .ok (.stack a) → s.mem.free (a / 64) = true → s.mem.homePoison (a / 64) = false →
      let v := (s.mem.homeWord a).toNat
      let u := (s.setRing ring { r with tail := v }).fabTouch j.ctx r.tailVa 8 .read
      r.next = r.tail → v = r.tail + 1 → v ≤ r.head + 2 ^ r.log2 → r.descs.length < 64 → r.desc? r.next = none →
      u.fabRead j.ctx (r.base + 64 * (r.next % 2 ^ r.log2)) 64 = some (.ok l) →
      ∃ t d, exec (.ringTailAdvance ring) s = .next t ∧ (t.ring ring).tail = v ∧ (t.ring ring).next = r.next + 1 ∧ (t.ring ring).descs = r.descs ++ [d]
        ∧ (ringDescOk j.count (ofBytes l) = true → d = ringDesc r.next (ofBytes l))
        ∧ (ringDescOk j.count (ofBytes l) = false → d.idx = r.next ∧ d.done = true ∧ d.code = 15))
    ∧ (∀ d, r.desc? idx = some d → r.mayStart d = true → d.code = 0 →
      let starts : List (Nat × Instr) := [(1, .putDescriptor ring idx), (2, .accDescriptor ring idx), (3, .sigDescriptor ring idx), (4, .getDescriptor ring idx)]
      (∀ i ∈ starts, d.kind = i.1 →
        (s.peerValid j d.peer = false → ∃ t, exec i.2 s = .next t ∧ (t.ring ring).desc? idx = some { d with started := true, code := 15 }.settle
          ∧ t.fab.unacked = s.fab.unacked)
        ∧ (s.peerValid j d.peer = true → s.peerDead j d.peer = true →
          ∃ t, exec i.2 s = .next t ∧ (t.ring ring).desc? idx = some { d with started := true, code := 13 }.settle ∧ t.fab.unacked = s.fab.unacked)
        ∧ (∀ payload n, s.peerValid j d.peer = true → s.peerDead j d.peer = false → s.flowOpen r.slot d.peer = true → s.flowSpent r.slot d.peer = false →
          (d.kind = 4 → 0 < d.length ∧ ∀ a, d.laddr ≤ a → a < d.laddr + d.length → ∀ e, s.chPlace j.ctx false a true ≠ .fail e) →
          s.descPiece j.ctx d = some (.ok (payload, n)) → n = d.total - d.sent → d.sent < d.total →
          ∃ t x, exec i.2 s = .next t ∧ (t.ring ring).desc? idx = some { d with started := true, sent := d.total, out := d.out + 1 }
            ∧ t.fab.unacked = s.fab.unacked ++ [x] ∧ x.slot = r.slot ∧ x.rank = d.peer ∧ x.ring = some (ring, idx) ∧ x.pkt.typ = d.kind ∧ x.pkt.payload = payload
            ∧ x.pkt.psn = s.peerTx j d.peer ∧ x.pkt.addr = (if d.kind ≤ 2 then d.raddr + d.sent else d.raddr)
            ∧ x.pkt.oparg = (if d.kind = 2 then d.dflags / 2 % 8 else 0) ∧ s.leaves t (s.sealedFor r.slot x.pkt)))
      ∧ (d.kind = 5 → (∀ x ∈ r.descs, idx ≤ x.idx ∨ x.done = true) →
        let covered := r.failures.filter fun f => decide (f.1 < idx)
        ∃ t code, exec (.barrierDescriptor ring idx) s = .next t ∧ (t.ring ring).failures = r.failures.filter (fun f => decide (idx < f.1))
          ∧ (t.ring ring).desc? idx = some { d with started := true, done := true, code := code }
          ∧ (covered = [] → code = 0) ∧ ((∃ f ∈ covered, f.2.2 = true) → code = 13)
          ∧ ∀ f ∈ covered, (∀ g ∈ covered, g.2.2 = false) → (∀ g ∈ covered, g ≠ f → f.1 < g.1) → code = f.2.1))
    ∧ (∀ d u, r.desc? idx = some d → d.done = true →
      let op : FenceOp := ⟨j.ctx, false, d.faddr, d.code, d.fval, 3, none, none, none⟩
      let touched := s.fabTouch j.ctx d.faddr 8 .write
      (d.dflags % 2 = 0 → u = s) → (∀ p, d.dflags % 2 = 1 → s.fenceAt op = .place p → touched.fencePerform op p ⟨[], [], []⟩ = some u) →
      (d.dflags % 2 = 1 → (∀ p, s.fenceAt op ≠ .place p) → u = touched.fenceDrop op) →
      let retires := fun (t : State) => exec (.descriptorRetire ring idx) s = .next t ∧ (t.ring ring).descs = r.descs.filter (fun e => e.idx != idx)
        ∧ (t.ring ring).head = ((r.descs.filter fun e => e.idx != idx).map RingDesc.idx).foldl min r.next
      (∀ a, u.xlPlinth j.ctx r.headVa .write = .ok (.stack a) → u.mem.free (a / 64) = true → a % 8 = 0 → ∃ t, retires t
        ∧ ((((u.setRing ring (t.ring ring)).fabTouch j.ctx r.headVa 8 .write).recall (a / 64) none).mem.homePoison (a / 64) = false →
            t.mem.dev.readLE a 8 = (t.ring ring).head % 2 ^ 64))
      ∧ ((∀ a, u.xlPlinth j.ctx r.headVa .write ≠ .ok (.stack a)) → ∃ t, retires t))

/-- RETRANSMIT sends an unacknowledged packet again under its own number, sealed anew; a watchdog or an unreachable peer declares the peer dead for the job, and everything sent to it fails. A slot binds where the rules of R405 hold, unbinds with its keys and rings, and a ring is enabled while its slot is bound and its size is in range (13 R405, R406, R410, R414, R416, R419; log 37, 38). -/
def Obligations.FabricJobs : Prop :=
  ∀ (slot rank psn src : Nat) (v : Word) (s : State),
    let j := s.job slot
    let dies := fun (t : State) (fired : Option (Nat × Nat)) => (t.job slot).dead = j.dead + 1
      ∧ t.fab.unacked = s.fab.unacked.filter (fun u => !(u.slot == slot && u.rank == rank))
      ∧ (∀ w ∈ t.fab.egress, ¬ (w.pkt.job = j.job ∧ w.pkt.dst = s.peerDev j rank ∧ w.pkt.src = s.devId))
      ∧ t.fld fabPage .fabErr Fld.fabErr_dead = min (2 ^ Fld.fabErr_dead.width - 1) (s.fld fabPage .fabErr Fld.fabErr_dead + 1)
      ∧ ∀ q i d, (s.ring q).desc? i = some d → (s.ring q).slot = slot → d.started = true → d.done = false → d.kind ≠ 5 → d.peer = rank → d.code = 0 →
        (t.ring q).desc? i = some { d with out := 0, done := true, code := if fired = some (q, i) then 4 else 13 }
    (∀ u, s.fabOn = true → s.fab.unacked.find? (fun u => u.slot == slot && u.rank == rank && u.pkt.psn == psn) = some u →
      (∀ k, (if j.keyOn u.pkt.keyIdx then u.pkt.keyIdx else j.txKey) = k → j.keyOn k = true →
        ∃ t, exec (.retransmit slot rank psn) s = .next t ∧ s.leaves t (s.sealedFor slot { u.pkt with keyIdx := k }) ∧ t.mem = s.mem ∧ t.fab.rings = s.fab.rings
          ∧ t.fld fabPage .fabErr Fld.fabErr_resent = min (2 ^ Fld.fabErr_resent.width - 1) (s.fld fabPage .fabErr Fld.fabErr_resent + 1))
      ∧ (∀ x, u.ring = some x → s.fabIdle → ∃ t, exec (.storeWatchdog slot rank psn) s = .next t ∧ dies t (some x)))
    ∧ (s.fabOn = true → j.bound = true → s.peerValid j rank = true → s.peerDead j rank = false → s.peerDev j rank ≠ s.devId →
      s.candidates (s.peerDev j rank) = [] → s.fabIdle → ∃ t, exec (.unreachableTimeout slot rank) s = .next t ∧ dies t none)
    ∧ (s.verdict src 0x801 Reg.fjCtl.off 8 = .perform → s.fld jobPage .fjIdx Fld.fjIdx_slot = slot →
      let c := Fld.fjCtl_context.get v
      let rule := (s.ctx c).state = 1 ∧ j.base % 64 = 0 ∧ 1 ≤ j.count ∧ j.count ≤ 131072 ∧ s.ownedRange (s.ctx c).part j.base (32 * j.count) = true
        ∧ s.ctxWrites c j.base (32 * j.count) = false ∧ ∀ m, m < 256 → (s.job m).bound = true → (s.job m).job ≠ Fld.fjCtl_jobid.get v
      (v.bit 63 = true →
        (j.bound = true → ∃ t, exec (.jobBind src v) s = .next t ∧ t.job slot = { j with txKey := Fld.fjCtl_txkey.get v })
        ∧ (j.bound = false → rule → ∃ t, exec (.jobBind src v) s = .next t
            ∧ t.job slot = { j with bound := true, job := Fld.fjCtl_jobid.get v, ctx := c, rank := Fld.fjCtl_rank.get v, txKey := Fld.fjCtl_txkey.get v, dead := 0 })
        ∧ (j.bound = false → ¬ rule → ∃ t, exec (.jobBind src v) s = .next t ∧ t.fab = s.fab ∧ (t.pageErrs jobPage).bit 63 = true))
      ∧ (v.bit 63 = false → j.bound = true → ∃ t, exec (.jobUnbind src v) s = .next t
          ∧ t.job slot = { j with bound := false, key0 := none, key1 := none, txKey := Fld.fjCtl_txkey.get v }
          ∧ (∀ u ∈ t.fab.unacked, u.slot ≠ slot) ∧ ∀ q, (s.ring q).slot = slot → (t.ring q).en = false ∧ (t.ring q).descs = []))
    ∧ (s.verdict src 0x801 Reg.frCtl.off 8 = .perform →
      let n := s.fld jobPage .frIdx Fld.frIdx_ring
      let r := s.ring n
      let log2 := Fld.frCtl_log2Entries.get v
      Fld.frCtl_slot.get v = slot →
      (v.bit 63 = true → j.bound = true → 6 ≤ log2 → log2 ≤ 16 → ∃ t, exec (.ringEnable src v) s = .next t
        ∧ t.ring n = (if r.en then { r with slot := slot, log2 := log2 }
          else { r with en := true, slot := slot, log2 := log2, tail := 0, next := 0, head := 0, descs := [], failures := [], stopped := false }))
      ∧ (v.bit 63 = true → (j.bound = false ∨ log2 < 6 ∨ 16 < log2) → ∃ t, exec (.ringEnable src v) s = .next t ∧ t.fab = s.fab ∧ (t.pageErrs jobPage).bit 63 = true)
      ∧ (v.bit 63 = false → ∃ t, exec (.ringEnable src v) s = .next t ∧ t.ring n = { r with en := false, slot := slot, log2 := log2 }))

/-! ## The root of trust -/

/-- A request through a mailbox: one whose length or function the opcode does not allow ends with BAD_CMD or NOT_PERMITTED; a GO while BUSY is set is ignored and sets the access-error bit; the attestation and status commands return what they name (16 R470 to R474, R492, 18 R538). -/
def Obligations.MailboxRequests : Prop :=
  ∀ (f : Nat) (v : Word) (h : HostAnswer) (s : State), f ≤ 16 → v.bit 63 = true → s.verdict f (0x610 + f) Reg.mbCmd.off 8 = .perform →
    let u := s.triggered f (0x610 + f) .mbCmd v
    let req := u.mbRequest f (Fld.mbCmd_len.get v)
    let op := Fld.mbCmd_op.get v
    let busy := s.fld (mbPage f) .mbStat Fld.mbStat_busy
    let rows : List (Nat × Instr) := [(0x01, .getReport f v), (0x02, .getCerts f v), (0x03, .patinaSeal f v), (0x10, .partSet f v), (0x11, .partPolicy f v),
      (0x20, .castLoad f v h), (0x21, .castAdmit f v), (0x22, .castUnload f v), (0x23, .castResupply f v), (0x30, .spdmRelay f v), (0x31, .jobKeygen f v),
      (0x40, .fwInfo f v), (0x41, .fwStage f v h), (0x42, .fwCommit f v), (0x43, .fwActivate f v), (0x44, .bistRun f v), (0x45, .healthGet f v),
      (0x46, .quarClear f v), (0x47, .fatalRead f v)]
    (∀ r ∈ rows, op = r.1 →
      (busy = 1 → ∃ t, exec r.2 s = .next t ∧ (t.pageErrs (mbPage f)).bit 63 = true ∧ t.sec = s.sec ∧ t.flash = s.flash ∧ t.mem = s.mem)
      ∧ (busy = 0 → u.mbCheck f op req ≠ 0 → ∃ t, exec r.2 s = .next t ∧ t.mbAnswered f (u.mbCheck f op req) [] ∧ t.sec = s.sec ∧ t.flash = s.flash ∧ t.mem = s.mem))
    ∧ (busy = 0 → u.mbCheck f op req = 0 →
      let answers := fun (c : Instr) (l : List Byte) => ∃ t, exec c s = .next t ∧ t.mbAnswered f 0 l ∧ t.sec = s.sec ∧ t.flash = s.flash ∧ t.mem = s.mem
      (op = 0x01 → answers (.getReport f v) (u.reportBody f req ++ u.sign (u.reportBody f req)))
      ∧ (op = 0x02 → ofBytes ((req.drop 4).take 4) ≤ 3072 →
          answers (.getCerts f v) (((Config.certChain s.board.fwDigest).drop (ofBytes (req.take 4))).take (ofBytes ((req.drop 4).take 4))))
      ∧ (op = 0x02 → 3072 < ofBytes ((req.drop 4).take 4) → ∃ t, exec (.getCerts f v) s = .next t ∧ t.mbAnswered f 3 [])
      ∧ (op = 0x03 → answers (.patinaSeal f v) (u.sealBody req ++ u.sign (u.sealBody req)))
      ∧ (op = 0x40 → answers (.fwInfo f v) (bytesOf 4 s.board.fwVersion ++ bytesOf 4 s.board.fwSvn ++ bytesOf 4 s.flash.svnFloor ++ bytesOf 4 0 ++ bytesOf 48 s.board.fwDigest.toNat))
      ∧ (op = 0x45 → answers (.healthGet f v)
          (bytesOf 8 s.healthWord.toNat ++ bytesOf 8 (s.reg rstPage .fatalStat).toNat ++ bytesOf 8 (s.reg rstPage .bistStat).toNat ++ bytesOf 8 (s.reg rstPage .rstCause).toNat))
      ∧ (op = 0x47 → answers (.fatalRead f v) ((s.flash.fatals.reverse.take 16).flatMap FatalRec.bytes)))

/-- PART_SET gives every partition its mask, or ends with its status and changes nothing; PART_POLICY sets a policy that keeps its rules; a Cast that reads, verifies and opens is LOADED with its content in its frames; CAST_ADMIT, CAST_RESUPPLY and CAST_UNLOAD act on a LOADED Cast; JOB_KEYGEN keys a bound slot; SPDM_RELAY starts or serves a conversation (16 R464 to R468, R471, R475, R477, R480 to R482, R485). -/
def Obligations.PartitionsAndCasts : Prop :=
  ∀ (v : Word) (h : HostAnswer) (s : State), v.bit 63 = true → s.verdict 0 0x610 Reg.mbCmd.off 8 = .perform → s.fld (mbPage 0) .mbStat Fld.mbStat_busy = 0 →
    let u := s.triggered 0 0x610 .mbCmd v
    let req := u.mbRequest 0 (Fld.mbCmd_len.get v)
    let op := Fld.mbCmd_op.get v
    let by0 := fun (i n : Nat) => ofBytes ((req.drop i).take n)
    let n := by0 0 1
    u.mbCheck 0 op req = 0 →
    let ends := fun (c : Instr) (status : Nat) (holds : State → Prop) => ∃ t, exec c s = .next t ∧ t.mbAnswered 0 status [] ∧ holds t
    let refused := fun (t : State) => t.sec = s.sec ∧ t.mem = s.mem ∧ t.cores = s.cores
    (op = 0x10 →
      (∀ st, s.partSetStatus (partMasks req) = st → st ≠ 0 → ends (.partSet 0 v) st refused)
      ∧ (s.partSetStatus (partMasks req) = 0 → ends (.partSet 0 v) 0 fun t => ∀ p, p < 16 → (t.part p).cores = by0 (2 * p) 2))
    ∧ (op = 0x11 → s.policyRule req = true → ((by0 1 1).testBit 1 = true → s.flash.debugFused = false) →
        ((by0 1 1).testBit 2 = true → s.sec.ideCache = true ∧ s.board.tapOpen = false) →
        (s.partBusy n = true → ends (.partPolicy 0 v) 4 refused)
        ∧ (s.partBusy n = false → (s.part n).tdisp ≠ 0 → ends (.partPolicy 0 v) 5 refused)
        ∧ (s.partBusy n = false → (s.part n).tdisp = 0 → ends (.partPolicy 0 v) 0 fun t => t.part n = policyOf req (s.part n) ∧ ∀ p, p ≠ n → t.part p = s.part p))
    ∧ (op = 0x20 → n ≤ 14 → by0 1 3 = 0 →
        ((s.cast n).state ≠ 0 → ends (.castLoad 0 v h) 0xB refused)
        ∧ (∀ (hd im : List Byte) (key : Nat) (d : Nat → List Byte),
          let first := by0 4 4
          let base := by0 8 8
          let r := leAt hd 6 2
          let c := leAt hd 8 4
          let content := castContent r c
          (s.cast n).state = 0 → s.hostRead h base 0x100 = some (some hd) → castHeadRule hd (by0 0x10 8) = true → first + castFrames c ≤ devFrames →
          (∀ i, i < castFrames c → (s.frame (first + i)).state = 0) → s.hostRead h base (0x100 + 96 * r + 16 * c + 96) = some (some im) →
          (castSigned (by0 0x18 96) im r c = false → ends (.castLoad 0 v h) 7 refused)
          ∧ (castSigned (by0 0x18 96) im r c = true → castKey im r = none → ends (.castLoad 0 v h) 8 refused)
          ∧ (castSigned (by0 0x18 96) im r c = true → castKey im r = some key →
            (∀ k, k < c → s.castChunk h (base + content) key k (leAt im (0x100 + 96 * r + 16 * k) 16) = .ok (d k)) →
            ends (.castLoad 0 v h) 0 fun t => (t.cast n).state = 2 ∧ (t.cast n).first = first ∧ (t.cast n).frames = castFrames c ∧ (t.cast n).chunks = c ∧ (t.cast n).key = key
              ∧ (t.cast n).admits = 0 ∧ (∀ i, i < castFrames c → (t.frame (first + i)).state = 3)
              ∧ ∀ k i, k < c → i < 0x10000 → t.devByte (0x2000000 * first + 0x10000 * k + i) = (((d k)[i]?).getD 0))))
    ∧ (op = 0x21 → n ≤ 14 → by0 1 1 = 0 →
        let lists := fun (p : Nat) => s.partExists p && (s.part p).keys.any fun k => k.1 == (s.cast n).signer.toNat
        ((s.cast n).state ≠ 2 → ends (.castAdmit 0 v) 0xB refused)
        ∧ ((s.cast n).state = 2 → (∀ p, p < 16 → (by0 2 2).testBit p = true → lists p = true) →
            ends (.castAdmit 0 v) 0 fun t => t.cast n = { s.cast n with admits := by0 2 2 } ∧ ∀ i, i ≠ n → t.cast i = s.cast i))
    ∧ (op = 0x22 → n ≤ 14 → (s.cast n).state = 2 → ∃ t, exec (.castUnload 0 v) s = .next t ∧ t.cast n = { s.cast n with state := 3, admits := 0 }
        ∧ t.fld (mbPage 0) .mbStat Fld.mbStat_busy = 1 ∧ (∀ i, i < (s.cast n).frames → (t.frame ((s.cast n).first + i)).state = 2)
        ∧ ∀ j ∈ t.sec.recasts, j.slot ≠ n)
    ∧ (op = 0x23 → n ≤ 14 → by0 1 7 = 0 → (s.cast n).state = 2 → ends (.castResupply 0 v) 0 fun t => (t.cast n).imgAddr = by0 8 8 ∧ (t.cast n).state = 2)
    ∧ (op = 0x30 → by0 2 2 = 0 →
        let x := s.sec.spdm.find? n
        let msg := req.drop 8
        let reply := fun (y : Spdm) => (Config.spdmReply n y.msgs msg).take 3072
        let served := fun (y : Spdm) => ∃ t, exec (.spdmRelay 0 v) s = .next t ∧ t.mbAnswered 0 0 (reply y) ∧ t.sec.spdm.find? n = some { y with msgs := y.msgs + 1 }
        (by0 1 1 = 2 → served { requester := true })
        ∧ (by0 1 1 = 0 → x = none → served {})
        ∧ (∀ y, by0 1 1 = 0 → x = some y → y.requester = false → served y)
        ∧ (∀ y, by0 1 1 = 1 → x = some y → y.requester = true → served y)
        ∧ (by0 1 1 = 1 → x = none → ends (.spdmRelay 0 v) 0xC refused))
    ∧ (op = 0x31 → by0 1 1 ≤ 1 →
        ((s.job n).bound = false → ends (.jobKeygen 0 v) 0xB fun t => t.fab = s.fab)
        ∧ ((s.job n).bound = true → ends (.jobKeygen 0 v) 0 fun t =>
            t.job n = (if by0 1 1 = 0 then { s.job n with key0 := some (Config.jobKey s.draws) } else { s.job n with key1 := some (Config.jobKey s.draws) })))

/-- A Recast reads and checks its chunk, and completes by writing it whole and clearing its poison, or fails; a message to the root of trust is answered in its conversation; a job key is taken in a trusted session, refused otherwise, and goes to no other slot than the one bound with its job (log 101); an interface is locked, with its report as the reply (log 102), started and stopped by its TDISP state, and an integrity failure moves it to ERROR, which ends its LIVE contexts (16 R475 to R477, R483 to R486). -/
def Obligations.TrustMessages : Prop :=
  ∀ (h : HostAnswer) (s : State), s.ready = true →
    (∀ j rest, s.sec.recasts = j :: rest →
      let c := s.cast j.slot
      (j.data = none → ∀ d, s.castChunk h (c.imgAddr + c.chunk0) c.key j.chunk ((c.tags[j.chunk]?).getD 0) = .ok d →
        ∃ t, exec (.recast h) s = .next t ∧ t.sec.recasts = { j with data := some d } :: rest ∧ t.mem = s.mem)
      ∧ (∀ d, j.data = some d → j.again = false → (∀ n, n < 15 → (s.cast n).overflow = false) →
          ∃ t, exec (.recastComplete true) s = .next t ∧ t.sec.recasts = rest
            ∧ (∀ i, i < 0x10000 → t.devByte (64 * c.chunkLine j.chunk + i) = ((d[i]?).getD 0))
            ∧ (∀ l, c.chunkLine j.chunk ≤ l → l < c.chunkLine j.chunk + 1024 → t.mem.poison.get (fun _ => false) l = false)
            ∧ (∀ a, (a < 64 * c.chunkLine j.chunk ∨ 64 * c.chunkLine j.chunk + 0x10000 ≤ a) → t.devByte a = s.devByte a))
      ∧ (j.data = none → j.again = false → (∀ n, n < 15 → (s.cast n).overflow = false) →
          ∃ t, exec (.recastComplete false) s = .next t ∧ t.sec.recasts = rest ∧ (t.pageErrs castPage).bit 1 = true ∧ t.mem = s.mem))
    ∧ (∀ chan msg, s.chanOpen chan = true →
      let k := spdmKey chan
      let x := (s.sec.spdm.find? k).getD {}
      ∃ t, exec (.spdmMessage chan msg) s = .next t ∧ t.reply = Config.spdmReply k (x.after msg).msgs (spdmBytes msg)
        ∧ t.sec.spdm.find? k = some { x.after msg with msgs := (x.after msg).msgs + 1 }
        ∧ (chan = .doe 0 → msg = .ideKmCache → x.session = true → t.sec.ideCache = true)
        ∧ (∀ f p, chan = .doe f → f ≠ 0 → s.funcPart f = some p → msg = .ideKmStream → x.session = true → (t.part p).ideIo = true))
    ∧ (∀ slot keySlot req x, s.sec.spdm.find? (req.conv % 256) = some x → x.session = true → x.mutualAuth = true → slot ≤ 255 → keySlot ≤ 1 →
      let right := (s.job slot).bound = true ∧ (s.job slot).job = req.job ∧ s.keyTrusted slot req = true
      (s.elsewhere req.job slot = true → exec (.jobKey slot keySlot req) s = .next s)
      ∧ (s.elsewhere req.job slot = false → right → ∃ t, exec (.jobKey slot keySlot req) s = .next t ∧ t.reply = [0]
          ∧ t.job slot = (if keySlot = 0 then { s.job slot with key0 := some req.key } else { s.job slot with key1 := some req.key }))
      ∧ (s.elsewhere req.job slot = false → ¬ right → ∃ t, exec (.jobKey slot keySlot req) s = .next t ∧ t.reply = [0xC] ∧ t.fab = s.fab
          ∧ t.sec.spdm = s.sec.spdm.erase (req.conv % 256)))
    ∧ (∀ f p, s.funcPart f = some p →
      let x := s.part p
      let moved := fun (c : Instr) (n : Nat) => ∃ t, exec c s = .next t ∧ t.part p = { x with tdisp := n } ∧ ∀ q, q ≠ p → t.part q = s.part q
      (s.pl.sriov = true → x.tdisp = 0 → x.confidential = true → x.ideIo = true → moved (.lockInterface f) 1
        ∧ ∃ t, exec (.lockInterface f) s = .next t ∧ t.reply = s.interfaceReport f p)
      ∧ ((x.tdisp ≠ 0 ∨ x.confidential = false ∨ x.ideIo = false) → exec (.lockInterface f) s = .next s)
      ∧ (x.tdisp = 1 → moved (.startInterface f) 2) ∧ (x.tdisp ≠ 1 → exec (.startInterface f) s = .next s)
      ∧ (x.tdisp ≠ 0 → moved (.stopInterface f) 0)
      ∧ ((x.tdisp = 1 ∨ x.tdisp = 2) → moved (.ideIntegrityFailure f) 3
        ∧ (s.pl.reqs = [] → ∃ t, exec (.ideIntegrityFailure f) s = .next t ∧ ∀ c, (s.ctx c).state = 1 → (s.ctx c).part = p → (t.ctx c).state ≠ 1))
      ∧ ((x.tdisp = 0 ∨ x.tdisp = 3) → exec (.ideIntegrityFailure f) s = .next s))

/-! ## Clocks, power and heat -/

/-- A detector trips once and untrips; a failed self-test or an unanswered handshake is charged to a cell, which is quarantined, or is a fatal cause; a THROTTLE_REQ stops its die's arrays and is acknowledged, its fall lets them go on, and one that lasts sets PAGE_ERR bit 0 (17 R500 to R506, 18 R526, 19 R551). -/
def Obligations.ClocksAndThrottle : Prop :=
  ∀ (s : State),
    (∀ i, s.ready = true → islandOk i = true →
      let k := islandKey i
      let b := s.board
      (b.droop.contains k = false → ∃ t, exec (.droopTrip i) s = .next t ∧ t.board.droop = b.droop ++ [k]
        ∧ (∀ c, islandCore i = some c → s.confidential (s.coreOwner c) = false →
            t.fld (corePage c 6) .islDroop Fld.islDroop_trips = min (2 ^ 32 - 1) (s.fld (corePage c 6) .islDroop Fld.islDroop_trips + 1)))
      ∧ (b.droop.contains k = true → exec (.droopTrip i) s = .next s ∧ ∃ t, exec (.droopRecovery i) s = .next t ∧ t.board.droop = b.droop.filter (· != k))
      ∧ (∃ t, exec (.droopSelfTest i true) s = .next t ∧ t.board.droop = b.droop ∧ t.cores = s.cores ∧ t.fatal = s.fatal)
      ∧ (let charged := fun (c : Instr) (who : Island) => ∃ t, exec c s = .next t ∧
            match who with
            | .cell x n => ∃ u, exec (.hardQuarantineTrigger x n 3) u = .next t ∧ u.cores = s.cores ∧ u.mem = s.mem ∧ u.pl.queues = s.pl.queues
            | .core x => t.fatal = true ∧ (s.fatal = false → t.fld rstPage .fatalStat Fld.fatalStat_cause = 3 ∧ t.fld rstPage .fatalStat Fld.fatalStat_detail = x)
            | .home x => t.fatal = true ∧ (s.fatal = false → t.fld rstPage .fatalStat Fld.fatalStat_cause = 3 ∧ t.fld rstPage .fatalStat Fld.fatalStat_detail = x + 0x8000)
         charged (.droopSelfTest i false) i
         ∧ ∀ p, islandOk p = true → charged (.handshakeTimeout i p) (match p, i with
            | .cell x n, _ => .cell x n
            | _, .cell x n => .cell x n
            | q, _ => q)))
    ∧ ∀ die, die < 4 →
      let b := s.board
      (b.pwrGood = true → b.thrReq.testBit die = false → b.thrAck.testBit die = false →
        ∃ t, exec (.throttleReqRise die) s = .next t ∧ t.board.thrReq = setBit b.thrReq die ∧ t.board.thrAck = setBit b.thrAck die
          ∧ t.board.arraysStopped = setBit b.arraysStopped die
          ∧ (s.up = true → t.fld pwrPage .pwrThr Fld.pwrThr_events = min (2 ^ 32 - 1) (s.fld pwrPage .pwrThr Fld.pwrThr_events + 1)))
      ∧ (b.thrReq.testBit die = true → ∃ t, exec (.throttleReqFall die) s = .next t ∧ t.board.thrReq = clearBit b.thrReq die ∧ t.board.thrAck = clearBit b.thrAck die
          ∧ t.board.thrLong = clearBit b.thrLong die ∧ t.board.arraysStopped = (if s.fatal then b.arraysStopped else clearBit b.arraysStopped die))
      ∧ (s.up = true → b.thrReq.testBit die = true → b.thrLong.testBit die = false →
          ∃ t, exec (.throttleLong die) s = .next t ∧ t.board.thrLong = setBit b.thrLong die ∧ (t.pageErrs pwrPage).bit 0 = true)
      ∧ (b.thrReq.testBit die = false → exec (.throttleReqFall die) s = .next s ∧ exec (.throttleLong die) s = .next s)

/-- The cap gives its first domain what it asks for, as far as the floors of the others leave it, and that domain the best setting whose estimate fits; a reading above a trip limit trips; hot dies lower the operating point and a hot stack halves its pace; a sample's energy goes to PWR_ENERGY and to every context resident during it; standby is entered where nothing is LIVE or SCRUBBING (17 R508 to R517). -/
def Obligations.PowerAndThermal : Prop :=
  ∀ (s : State), s.ready = true →
    let pwr := fun (t : State) (r : Reg) (f : Fld) => t.fld pwrPage r f
    (∀ a b c, let demand := [a, b, c]
      let d0 := pwr s .pwrCap Fld.pwrCap_prio0
      let d1 := pwr s .pwrCap Fld.pwrCap_prio1
      let d2 := pwr s .pwrCap Fld.pwrCap_prio2
      d0 ≤ 2 → d1 ≠ d0 → d2 ≠ d0 →
      let alloc := min ((demand[d0]?).getD 0) (pwr s .pwrCap Fld.pwrCap_capW - (floorOf d1 + floorOf d2))
      ∃ t, exec (.powerControlStep demand) s = .next t
        ∧ pwr t .pwrAlloc (match d0 with
          | 0 => Fld.pwrAlloc_linksW
          | 1 => Fld.pwrAlloc_memoryW
          | _ => Fld.pwrAlloc_computeW) = alloc % 4096
        ∧ pwr t .pwrStat Fld.pwrStat_point = max t.board.capPoint s.board.thermSteps % 8
        ∧ (∀ d k, d0 = d → d ≤ 1 → (if d = 0 then t.board.linkPace else t.board.memPace) = k →
          let fits := fun (j : Nat) => Config.powerEstimate d j ((demand[d]?).getD 0) ≤ alloc
          k ≤ 16 ∧ (1 ≤ k → fits k) ∧ ∀ j, k < j → j ≤ 16 → ¬ fits j)
        ∧ (d0 = 2 →
          let p := t.board.capPoint
          let k := pwr t .pwrStat Fld.pwrStat_duty
          let fits := fun (q j : Nat) => Config.powerEstimate 2 (computeSetting q j) c ≤ alloc
          p ≤ 7 ∧ (∀ q, q < p → ¬ fits q 8) ∧ (p < 7 → fits p 8) ∧ 1 ≤ k ∧ k ≤ 8 ∧ (1 < k → fits p k) ∧ ∀ j, k < j → j ≤ 8 → ¬ fits p j))
    ∧ (∀ readings : List Nat, readings.length = 132 →
      let r := fun n => min 255 ((readings[n]?).getD 0)
      ∃ t, exec (.thermalSample readings) s = .next t
        ∧ (∀ n, n < 132 → t.board.sensors.at {} n = { now := r n, max := max (s.board.sensors.at {} n).max (r n) })
        ∧ (pwr s .pwrStat Fld.pwrStat_tripped = 0 →
          ((∀ n, n < 132 → r n ≤ s.tripLimit n) → t.flash = s.flash ∧ t.fatal = s.fatal)
          ∧ ∀ n, n < 132 → s.tripLimit n < r n → (∀ m, m < n → r m ≤ s.tripLimit m) →
            t.flash.thermTrip = true ∧ t.board.arraysStopped = 15 ∧ pwr t .pwrStat Fld.pwrStat_tripped = 1 ∧ t.fld thPage .thStat Fld.thStat_tripIdx = n
              ∧ t.fatal = true ∧ (s.fatal = false → t.fld rstPage .fatalStat Fld.fatalStat_cause = 4 ∧ t.fld rstPage .fatalStat Fld.fatalStat_detail = n)))
    ∧ (let b := s.board
       let die := s.fld thPage .thLimits Fld.thLimits_dieThr
       let stk := s.fld thPage .thLimits Fld.thLimits_stkThr
       ∃ t, exec .thermalThrottleStep s = .next t
        ∧ (((∃ n, n < 112 ∧ die < s.temp n) ∨ (b.dieHot = true ∧ ∃ n, n < 112 ∧ die - 5 ≤ s.temp n)) →
            t.board.dieHot = true ∧ t.board.thermSteps = min 7 (pwr s .pwrStat Fld.pwrStat_point + 1))
        ∧ ((∀ n, n < 112 → s.temp n ≤ die) → (b.dieHot = false ∨ ∀ n, n < 112 → s.temp n < die - 5) → t.board.dieHot = false ∧ t.board.thermSteps = b.thermSteps - 1)
        ∧ pwr t .pwrStat Fld.pwrStat_point = max b.capPoint t.board.thermSteps % 8
        ∧ ((∃ n, n < 12 ∧ stk < s.temp (120 + n)) → t.board.stackPace = max 1 (b.stackPace / 2))
        ∧ ((∀ n, n < 12 → s.temp (120 + n) ≤ stk) → b.stkHot = false → t.board.stackPace = 16))
    ∧ (∀ vals : List Nat, vals.length ≤ 48 →
      let uj := vals.sum
      let who := (s.board.seen ++ s.residentNow).eraseDups
      ∃ t, exec (.energySample (vals.map some)) s = .next t ∧ pwr t .pwrEnergy Fld.pwrEnergy_energyUj = (pwr s .pwrEnergy Fld.pwrEnergy_energyUj + uj) % 2 ^ 64
        ∧ t.board.seen = s.residentNow ∧ (∀ n, n ∉ who → t.ctx n = s.ctx n)
        ∧ ∀ n, n ∈ who → (s.ctx n).state ≠ 0 →
          let x := s.ctx n
          let shared := who.any fun m => (s.ctx m).state != 0 && (s.ctx m).part != x.part
          t.ctx n = { x with energy := (x.energy + uj) % 2 ^ 63, shared := if shared then (x.shared + uj) % 2 ^ 63 else x.shared, sharedSeen := x.sharedSeen || shared })
    ∧ (∀ v, s.verdict 0 0x700 Reg.pwrCtl.off 8 = .perform →
      (v.bit 0 = true → s.mayStandby = true → ∃ t, exec (.standbyEnter 0 v) s = .next t ∧ t.standby = true)
      ∧ (v.bit 0 = true → s.mayStandby = false → ∃ t, exec (.standbyEnter 0 v) s = .next t ∧ t.standby = s.standby ∧ (t.pageErrs pwrPage).bit 63 = true ∧ t.mem = s.mem)
      ∧ (v.bit 0 = false → ∃ t, exec (.standbyExit 0 v) s = .next t ∧ t.standby = false ∧ t.mem = s.mem))

/-! ## Fatal causes, resets and start-up -/

/-- A fatal cause stops the arrays and the service, is recorded once in FATAL_STAT, PAGE_ERR, the Patina log and package flash, and holds start-up at its step; every full reset leaves the complex as reset with its cause, and one that a flash write delays waits for it; a function level reset of a virtual function returns it to its defaults and ends its partition's LIVE contexts (18 R525 to R529, 01 R15, 19 R548 to R552, R558). -/
def Obligations.FatalCausesAndResets : Prop :=
  ∀ (src : Nat) (s : State),
    let step := fun (t : State) => t.fld rstPage .startStat Fld.startStat_step
    let dies := fun (c : Instr) (code detail : Nat) => ∃ t r, exec c s = .next t ∧ t.fatal = true ∧ t.serving = false
      ∧ t.fld rstPage .fatalStat Fld.fatalStat_cause = code ∧ t.fld rstPage .fatalStat Fld.fatalStat_detail = detail ∧ t.board.arraysStopped = 15
      ∧ (t.pageErrs rstPage).bit 0 = true ∧ t.pl.patina.count = s.pl.patina.count + 1 ∧ t.board.ibis = s.board.ibis + 1 ∧ t.flash.writing = s.flash.writing ++ [.fatal r] ∧ r.cause = code ∧ r.detail = detail ∧ r.start = s.flash.starts ∧ r.time = s.time
    (∀ code detail, s.up = true → s.recovery = false → 1 ≤ code → code ≤ 8 → detail < 2 ^ 16 →
      (s.fatal = false → dies (.fatalCause code detail) code detail) ∧ (s.fatal = true → exec (.fatalCause code detail) s = .next s))
    ∧ (∀ link, link < 10 → s.up = true →
      (s.ready = true → s.fatal = false → dies (.interDieLinkFailure link) 1 link) ∧ (s.ready = true → s.fatal = true → exec (.interDieLinkFailure link) s = .next s)
      ∧ (s.trained = false → s.fatal = false → 5 ≤ step s → step s < 15 → ∃ t, exec (.interDieLinkFailure link) s = .next t ∧ t.fatal = true ∧ step t = step s
          ∧ t.fld rstPage .startStat Fld.startStat_failStep = step s + 1 ∧ t.fld rstPage .fatalStat Fld.fatalStat_cause = 1
          ∧ t.fld rstPage .fatalStat Fld.fatalStat_detail = link))
    ∧ (∀ agent, s.serving = true → s.linkUp = true → supervised agent = true → dies (.supervisionWatchdog agent) 5 agent)
    ∧ (s.board.pwrGood = false → ∃ t, exec .pwrGoodRise s = .next t ∧ s.restarted t 1 ∧ t.board.pwrGood = true)
    ∧ (s.board.pwrGood = true →
      (∃ t, exec .pwrGoodFall s = .next t ∧ t.up = false ∧ t.board.pwrGood = false ∧ t.pl = Plinth.reset ∧ t.mem = MemSys.reset ∧ t.cores = [] ∧ t.pending = s.pending
        ∧ t.flash.thermTrip = s.flash.thermTrip)
      ∧ (∃ t, exec .resetNPulse s = .next t ∧ s.restarted t 2))
    ∧ (∀ clk, clk < 6 → s.board.clkLost.testBit clk = false →
      ∃ t, exec (.refclkLoss clk) s = .next t ∧ (s.up = true → s.restarted t 2) ∧ (s.up = false → t = { s with board := t.board })
        ∧ t.board.clkLost = setBit s.board.clkLost clk ∧ t.up = false)
    ∧ (∀ clk, ∃ t, exec (.refclkRelock clk) s = .next t ∧ t.board.clkLost = clearBit s.board.clkLost clk ∧ t = { s with board := t.board })
    ∧ (∀ v, s.verdict src 0x10 Reg.rstCtl.off 8 = .perform → Fld.rstCtl_full.get v = 1 →
      (Fld.rstCtl_key.get v = 0xA5 → s.flash.writing = [] → ∃ t, exec (.softwareReset src v) s = .next t ∧ s.restarted t 3)
      ∧ (Fld.rstCtl_key.get v = 0xA5 → s.flash.writing ≠ [] → s.board.resetPend = none →
          ∃ t, exec (.softwareReset src v) s = .next t ∧ t.board.resetPend = some 3 ∧ t.mem = s.mem ∧ t.flash = s.flash)
      ∧ (Fld.rstCtl_key.get v ≠ 0xA5 → ∃ t, exec (.softwareReset src v) s = .next t ∧ (t.pageErrs rstPage).bit 63 = true ∧ t.mem = s.mem ∧ t.board = s.board))
    ∧ (s.up = true → s.linkUp = true → (s.flash.writing = [] → ∃ t, exec .pfFlr s = .next t ∧ s.restarted t 4)
      ∧ (s.flash.writing ≠ [] → s.board.resetPend = none → ∃ t, exec .pfFlr s = .next t ∧ t.board.resetPend = some 4 ∧ t.mem = s.mem ∧ t.flash = s.flash))
    ∧ (∀ f p, s.funcPart f = some p → s.ready = true → s.pl.sriov = true → s.linkUp = true →
      ∃ t, exec (.vfFlr f) s = .next t ∧ (t.part p).tdisp = 0 ∧ t.cfg f = {} ∧ t.fld (funcPage f) .winCtl Fld.winCtl_en = 0
        ∧ t.fld (mbPage f) .mbStat Fld.mbStat_busy = 0 ∧ (∀ g, g ≠ f → t.cfg g = s.cfg g)
        ∧ (s.serving = true → s.pl.reqs = [] → ∀ c, (s.ctx c).state = 1 → (s.ctx c).part = p → (t.ctx c).state ≠ 1)
        ∧ ((∀ e ∈ s.pl.ctxs, e.2.state = 1 → e.2.part ≠ p) → s.pl.reqs = [] → s.pl.aborts = [] → ∀ e ∈ t.pl.msix, e.1 / 2048 ≠ f))

/-- The host link goes down and comes up, and the interval's length is kept; down too long, it is recorded and the complex resets with cause 5; a configuration request has its effect on HP0, on a function that is there, and is refused on the other ports; test access opens for its token; the sideband takes its address (11 R338, R339, 15 R454, 10 R324, R333, 18 R530, 19 R554, R557). -/
def Obligations.HostLink : Prop :=
  ∀ (s : State),
    (s.trained = true →
      (∀ ports, exec (.linkDown ports) s = .next
        { s with board := { s.board with portsDown := s.board.portsDown ||| (ports % 16), downAt := if s.linkUp then s.time else s.board.downAt } })
      ∧ (s.linkUp = false →
        (∃ t, exec .linkUp s = .next t ∧ t.linkUp = true ∧ t.mem = s.mem
          ∧ t.fld plPage .hpErr Fld.hpErr_retrains = min (2 ^ Fld.hpErr_retrains.width - 1) (s.fld plPage .hpErr Fld.hpErr_retrains + 1)
          ∧ (s.board.downAt ≤ s.time → s.time < 2 ^ 41 → t.fld rstPage .hlStat Fld.hlStat_lastDownUs = (s.time - s.board.downAt) / 1000))
        ∧ (s.board.resetPend = none → ∃ t r, exec .linkLossTimeout s = .next t ∧ t.flash.writing = s.flash.writing ++ [.fatal r] ∧ r.cause = 9
            ∧ r.detail = s.board.portsDown ∧ t.board.resetPend = some 5))
      ∧ (s.linkUp = true → exec .linkUp s = .next s ∧ exec .linkLossTimeout s = .next s))
    ∧ (∀ port f req, s.up = true → s.linkUp = true → port < 4 → f ≤ 16 →
      (port ≠ 0 → ∃ t, exec (.configurationRequest port f req) s = .next t ∧ t = { s with regs := t.regs, reply := [], replyPort := port }
        ∧ t.fld plPage .hpErr Fld.hpErr_refused = min (2 ^ Fld.hpErr_refused.width - 1) (s.fld plPage .hpErr Fld.hpErr_refused + 1))
      ∧ (port = 0 → (s.trained = false ∨ (f ≠ 0 ∧ s.pl.sriov = false)) → exec (.configurationRequest 0 f req) s = .next s)
      ∧ (port = 0 → s.trained = true → (f = 0 ∨ s.pl.sriov = true) →
        ∃ t, exec (.configurationRequest 0 f req) s = .next t ∧ t.replyPort = 0 ∧
          match req with
          | .msixEnable on => t.cfg f = { s.cfg f with msixEnable := on }
          | .functionMask on => t.cfg f = { s.cfg f with funcMask := on }
          | .sriovEnable on => t.pl.sriov = (if f = 0 then on else s.pl.sriov)
          | .atsEnable on => (t.cfg f).atsEnable = on
          | .priEnable on => (t.cfg f).priEnable = on
          | .clearPriFailure => t.cfg f = { s.cfg f with priFailure := false }
          | .priAllocation n => (t.cfg f).priAlloc = n % 2 ^ 32
          | .barWrite bar v => t = { s.setCfg f ((s.cfg f).setBar f bar v) with replyPort := 0 }
          | .barRead bar => t = { s with reply := bytesOf 8 ((s.cfg f).barWord bar), replyPort := 0 }
          | .capRead x => t = { s with reply := bytesOf 4 (capValue f x), replyPort := 0 }
          | .other => t = { s with replyPort := 0 }))
    ∧ (s.up = true → s.flash.tapFused = false → s.board.tapOpen = false → (∀ p, p < 16 → (s.part p).confidential = false) →
        ∃ t, exec (.tapUnlock true) s = .next t ∧ t.board.tapOpen = true ∧ t.pl.patina.count = s.pl.patina.count + 1)
    ∧ ((s.flash.tapFused = true ∨ ∃ p, p < 16 ∧ (s.part p).confidential = true) → exec (.tapUnlock true) s = .next s)
    ∧ exec (.tapUnlock false) s = .next s
    ∧ (∀ addr, s.board.pwrGood = true → addr < 128 → ∃ t, exec (.dynamicAddressAssignment addr) s = .next t ∧ t.board.i3cAddr = addr
        ∧ t.reply = bytesOf 6 (Config.mipiId.toNat * 2 ^ 32 + Config.serial.toNat % 2 ^ 32) ∧ t.mem = s.mem)

/-- START_UP_STEP_DONE ends the next step: an image that fails its checks leads to recovery, a failed link, stack or shared part is fatal at its step, cells that fail self-test join the quarantine record, every position of every core maps to a healthy cell of its own where they reach, memory becomes ready and its page locked, and step 11 is READY (18 R534 to R536, R539, 02 R30, R32, 14 R430, R431). -/
def Obligations.StartUp : Prop :=
  ∀ (r : StepReport) (s : State), s.up = true → s.trained = false → s.board.resetPend = none →
    let at_ := fun (n : Nat) => s.fld rstPage .startStat Fld.startStat_step = n
    let step := fun (t : State) => t.fld rstPage .startStat Fld.startStat_step
    let failed := fun (t : State) (n code detail : Nat) => step t = n - 1 ∧ t.fld rstPage .startStat Fld.startStat_failStep = n ∧ t.fatal = true
      ∧ t.fld rstPage .fatalStat Fld.fatalStat_cause = code ∧ t.fld rstPage .fatalStat Fld.fatalStat_detail = detail
    let goes := fun (holds : State → Prop) => ∃ t, exec (.startUpStepDone r) s = .next t ∧ holds t
    (at_ 0 → goes fun t => step t = 1) ∧ (at_ 1 → goes fun t => step t = 2)
    ∧ (at_ 2 → imgOk s.flash.svnFloor s.flash.image = true → goes fun t => step t = 3)
    ∧ (at_ 2 → imgOk s.flash.svnFloor s.flash.image = false → goes fun t => step t = 2 ∧ t.recovery = true)
    ∧ (at_ 3 → goes fun t => step t = 4 ∧ t.board.fwVersion = ofBytes ((s.flash.image.drop 8).take 4) ∧ t.board.fwDigest = imgDigest s.flash.image
        ∧ t.sec.keySlots.testBit 31 = true)
    ∧ (at_ 4 → r.linkFail = none → goes fun t => step t = 5)
    ∧ (∀ l, at_ 4 → r.linkFail = some l → s.fatal = false → l < 10 → goes fun t => failed t 5 1 l)
    ∧ (at_ 5 → s.board.thrReq % 16 = 0 → r.shared = none → goes fun t => step t = 6 ∧ t.flash.extBist = false
        ∧ ∀ x ∈ r.cells, x.1 < 16 → x.2.1 < 272 → 512 * x.1 + x.2.1 ∈ s.flash.fusedCells ++ t.flash.quarantine)
    ∧ (∀ d, at_ 5 → s.board.thrReq % 16 = 0 → r.shared = some d → s.fatal = false → d < 2 ^ 16 → goes fun t => failed t 6 8 d)
    ∧ (at_ 5 → s.board.thrReq % 16 ≠ 0 → exec (.startUpStepDone r) s = .next s)
    ∧ (at_ 6 → goes fun t => step t = 7 ∧ ∀ c, c < 16 → (t.core c).mapped = true
        ∧ (256 ≤ ((List.range 272).filter fun n => s.flash.roleOf c n == 0).length →
            (∀ p, p < 256 → ∃ n, n < 272 ∧ (t.core c).map.at 0 p = n + 1 ∧ s.flash.roleOf c n = 0 ∧ (t.core c).roles.at 0 n = 1)
            ∧ ∀ p q, p < 256 → q < 256 → p ≠ q → (t.core c).map.at 0 p ≠ (t.core c).map.at 0 q))
    ∧ (at_ 7 → lanesBad r = none → goes fun t => step t = 8 ∧ t.fld (regKey 0x900 0) .memStat Fld.memStat_trained = 0xFFF)
    ∧ (∀ d, at_ 7 → lanesBad r = some d → s.fatal = false → d < 2 ^ 16 → goes fun t => failed t 8 2 d)
    ∧ (at_ 8 → goes fun t => step t = 9 ∧ t.fld (regKey 0x900 0) .memStat Fld.memStat_ready = 1 ∧ t.pageLock (regKey 0x900 0) = true ∧ t.mem = s.mem)
    ∧ (at_ 9 → r.ports % 16 = 15 → goes fun t => step t = 10 ∧ t.linkUp = true)
    ∧ (at_ 9 → r.ports % 16 ≠ 15 → goes fun t => step t = 9 ∧ t.linkUp = false)
    ∧ (at_ 10 → goes fun t => step t = 11 ∧ t.ready = true)

/-- FW_STAGE keeps an image that is read whole, laid out as R535 says, not below the floor, and signed; FW_COMMIT and QUAR_CLEAR end when their flash write does, and what was written is then there; FW_ACTIVATE and BIST_RUN reset the complex, and a reset that waited happens after the last write (18 R529, R535, R538). -/
def Obligations.Firmware : Prop :=
  ∀ (v : Word) (h : HostAnswer) (s : State),
    (v.bit 63 = true → s.verdict 0 0x610 Reg.mbCmd.off 8 = .perform → s.fld (mbPage 0) .mbStat Fld.mbStat_busy = 0 →
      let u := s.triggered 0 0x610 .mbCmd v
      let req := u.mbRequest 0 (Fld.mbCmd_len.get v)
      let op := Fld.mbCmd_op.get v
      let by0 := fun (i n : Nat) => ofBytes ((req.drop i).take n)
      let ends := fun (c : Instr) (status : Nat) (holds : State → Prop) => ∃ t, exec c s = .next t ∧ t.mbAnswered 0 status [] ∧ holds t
      let same := fun (t : State) => t.flash = s.flash ∧ t.board = s.board
      let waits := fun (c : Instr) (w : FlashWrite) => ∃ t, exec c s = .next t ∧ t.fld (mbPage 0) .mbStat Fld.mbStat_busy = 1 ∧ t.flash.writing = s.flash.writing ++ [w]
      u.mbCheck 0 op req = 0 →
      (op = 0x41 → (by0 8 8 < 0x160 ∨ 0x1100000 < by0 8 8) → ends (.fwStage 0 v h) 3 same)
      ∧ (∀ l, op = 0x41 → 0x160 ≤ by0 8 8 → by0 8 8 ≤ 0x1100000 → s.hostRead h (by0 0 8) (by0 8 8) = some (some l) →
        let laidOut := imgFormat l = true ∧ by0 8 8 = 0x160 + imgBody l
        (¬ laidOut → ends (.fwStage 0 v h) 3 same)
        ∧ (laidOut → imgSvn l < s.flash.svnFloor → ends (.fwStage 0 v h) 2 same)
        ∧ (laidOut → s.flash.svnFloor ≤ imgSvn l → imgSigned l = false → ends (.fwStage 0 v h) 7 same)
        ∧ (laidOut → s.flash.svnFloor ≤ imgSvn l → imgSigned l = true → ends (.fwStage 0 v h) 0 fun t => t.board.staged = some l ∧ t.flash = s.flash))
      ∧ (op = 0x42 → (s.board.staged = none → ends (.fwCommit 0 v) 0xB same)
        ∧ ∀ l, s.board.staged = some l → waits (.fwCommit 0 v) (.image l ((by0 0 1).testBit 0)))
      ∧ (op = 0x43 →
        (s.board.staged = none → s.flash.writing = [] → ∃ t, exec (.fwActivate 0 v) s = .next t ∧ s.restarted t 6)
        ∧ (s.board.staged = none → s.flash.writing ≠ [] → s.board.resetPend = none →
            ∃ t, exec (.fwActivate 0 v) s = .next t ∧ t.board.resetPend = some 6 ∧ t.flash.writing = s.flash.writing)
        ∧ ∀ l, s.board.staged = some l → s.board.resetPend = none →
            ∃ t, exec (.fwActivate 0 v) s = .next t ∧ t.board.resetPend = some 6 ∧ t.flash.writing = s.flash.writing ++ [.image l false])
      ∧ (op = 0x44 → ((∃ e ∈ s.pl.ctxs, e.2.state = 1) → ends (.bistRun 0 v) 4 same)
        ∧ ((∀ e ∈ s.pl.ctxs, e.2.state ≠ 1) → s.flash.writing = [] → ∃ t, exec (.bistRun 0 v) s = .next t ∧ s.restarted t 3 ∧ t.flash.extBist = true)
        ∧ ((∀ e ∈ s.pl.ctxs, e.2.state ≠ 1) → s.flash.writing ≠ [] → s.board.resetPend = none →
            ∃ t, exec (.bistRun 0 v) s = .next t ∧ t.board.resetPend = some 3 ∧ t.flash.extBist = true))
      ∧ (op = 0x46 → by0 0 1 < 16 → (by0 1 2 < 272 ∨ by0 1 2 = 0xFFFF) →
          waits (.quarClear 0 v) (.quarantine (s.flash.quarantine.filter fun k => k / 512 == by0 0 1 && (by0 1 2 == 0xFFFF || k % 512 == by0 1 2)))))
    ∧ (∀ w rest, s.flash.writing = w :: rest →
      (s.board.resetPend = none ∨ rest ≠ [] → ∃ t, exec .flashWriteComplete s = .next t ∧ t.flash.writing = rest
        ∧ (s.fld (mbPage 0) .mbStat Fld.mbStat_busy = 1 → some (s.fld (mbPage 0) .mbCmd Fld.mbCmd_op) = w.op → t.mbAnswered 0 0 [])
        ∧ (∀ l raise, w = .image l raise → t.flash.image = l ∧ t.flash.svnFloor = (if raise then max s.flash.svnFloor (imgSvn l) else s.flash.svnFloor))
        ∧ (∀ cells, w = .quarantine cells → t.flash.quarantine = s.flash.quarantine.filter fun c => !cells.contains c)
        ∧ (∀ r, w = .fatal r → t.flash.fatals.getLast? = some r))
      ∧ (∀ c, s.board.resetPend = some c → c < 16 → rest = [] → ∃ t, exec .flashWriteComplete s = .next t ∧ s.restarted t c))

/-- The PLDM update goes from request to activation by its commands, each of which the states that do not take it refuse; data arrive in order, and in recovery go to flash as they come; an image that verifies by R535 is staged and, when applied, committed; activation commits what is staged and resets with cause 6, once no flash write is in progress; a cancellation gives the update up (18 R536, R537). The completion codes and state numbers are the model's (log 49). -/
def Obligations.PldmUpdate : Prop :=
  ∀ (s : State), s.pldmUp = true →
    let b := s.board
    let replies := fun (c : Instr) (l : List Byte) (holds : State → Prop) => ∃ t, exec c s = .next t ∧ t.reply = l ∧ holds t
    let wrong := fun (c : Instr) => exec c s = .next { s with reply := [0x84] }
    exec .queryDeviceIdentifiers s = .next { s with reply := [0] }
    ∧ exec .getFirmwareParameters s = .next { s with reply := [0] ++ bytesOf 4 b.fwVersion }
    ∧ exec .getStatus s = .next { s with reply := [0, BitVec.ofNat 8 (pldmCode b.pldm)] }
    ∧ (∀ len, (b.pldm = .idle → replies (.requestUpdate len) [0] fun t => t.board = { b with pldm := .learn, pldmLen := len, pldmData := [] })
        ∧ (b.pldm ≠ .idle → exec (.requestUpdate len) s = .next { s with reply := [0x81] }))
    ∧ (b.pldm = .learn → replies .passComponentTable [0] fun t => t.board = { b with pldm := .ready }) ∧ (b.pldm ≠ .learn → wrong .passComponentTable)
    ∧ (b.pldm = .ready → replies .updateComponent [0] fun t => t.board = { b with pldm := .download, pldmData := [] }) ∧ (b.pldm ≠ .ready → wrong .updateComponent)
    ∧ (∀ off data,
        let takes := b.pldm = .download ∧ off = b.pldmData.length ∧ 1 ≤ data.length ∧ data.length ≤ 4096 ∧ off + data.length ≤ b.pldmLen
        (takes → replies (.requestFirmwareData off data) [0] fun t => t.board = { b with pldmData := b.pldmData ++ data }
          ∧ t.flash.image = (if s.recovery then b.pldmData ++ data else s.flash.image))
        ∧ (¬ takes → wrong (.requestFirmwareData off data)))
    ∧ (b.pldm = .download → b.pldmData.length = b.pldmLen → replies .transferComplete [0] fun t => t.board = { b with pldm := .verify } ∧ t.flash = s.flash)
    ∧ ((b.pldm ≠ .download ∨ b.pldmData.length ≠ b.pldmLen) → wrong .transferComplete)
    ∧ (b.pldm = .verify → replies .verifyComplete [0] fun t =>
        if imgOk s.flash.svnFloor b.pldmData then t.board = { b with pldm := .apply, staged := if s.recovery then b.staged else some b.pldmData }
        else t.board = { b with pldm := .ready })
    ∧ (b.pldm ≠ .verify → wrong .verifyComplete)
    ∧ (b.pldm = .apply → replies .applyComplete [0] fun t => t.board.pldm = .activate
        ∧ (∀ l, s.recovery = false → b.staged = some l → t.flash.writing = s.flash.writing ++ [.image l false] ∧ t.board.staged = none)
        ∧ ((s.recovery = true ∨ b.staged = none) → t.flash = s.flash ∧ t.board.staged = b.staged))
    ∧ (b.pldm ≠ .apply → wrong .applyComplete)
    ∧ (b.pldm = .activate → b.staged = none → s.flash.writing = [] → replies .activateFirmware [0] fun t => s.restarted t 6)
    ∧ (b.pldm = .activate → b.resetPend = none → (b.staged ≠ none ∨ s.flash.writing ≠ []) → replies .activateFirmware [0] fun t => t.board.resetPend = some 6
        ∧ t.flash.writing = s.flash.writing ++ (match b.staged with
          | some l => [.image l false]
          | none => []))
    ∧ (b.pldm ≠ .activate → wrong .activateFirmware)
    ∧ ((b.pldm = .download ∨ b.pldm = .verify ∨ b.pldm = .apply) → replies .cancelUpdateComponent [0] fun t => t.board.pldm = .ready ∧ t.board.pldmData = []
        ∧ (b.pldm ≠ .apply → t.board.staged = b.staged))
    ∧ ((b.pldm = .idle ∨ b.pldm = .learn ∨ b.pldm = .ready ∨ b.pldm = .activate) → wrong .cancelUpdateComponent)
    ∧ (b.pldm ≠ .idle → replies .cancelUpdate [0] fun t => t.board.pldm = .idle ∧ t.board.pldmLen = 0 ∧ t.board.pldmData = [])
    ∧ (b.pldm = .idle → exec .cancelUpdate s = .next { s with reply := [0x80] })
end

