-- ==== Sys2Proof/Laws/SMap.lean ====
section
/-! SUPPORT. The laws of the sparse maps and byte memories: what a key reads as after a write, and that every operation keeps the canonical form. -/

namespace Sys2Proof.Machine

/-! ## Reads after writes -/

/-- A listed key is found after it is inserted; every other key is found as before. -/
theorem SMap.find?_insert {α : Type} (m : SMap α) (a b : Nat) (x : α) :
    (m.insert a x).find? b = if b = a then some x else m.find? b := by
  induction m with
  | nil => simp [SMap.insert, SMap.find?]
  | cons e m ih =>
    obtain ⟨k, v⟩ := e
    simp only [SMap.insert]
    split
    · next h => subst h; simp only [SMap.find?]; split <;> rfl
    · split
      · simp [SMap.find?]
      · simp only [SMap.find?, ih]
        split <;> split <;> simp_all

/-- An erased key is not found; every other key is found as before. -/
theorem SMap.find?_erase {α : Type} (m : SMap α) (a b : Nat) :
    (m.erase a).find? b = if b = a then none else m.find? b := by
  induction m with
  | nil => simp [SMap.erase, SMap.find?]
  | cons e m ih =>
    obtain ⟨k, v⟩ := e
    simp only [SMap.erase, List.filter_cons] at ih ⊢
    by_cases h : k = a
    · subst h; simp only [ne_eq, not_true_eq_false, decide_false, Bool.false_eq_true, if_false, ih, SMap.find?]
      split <;> rfl
    · simp only [ne_eq, h, not_false_eq_true, decide_true, if_true, SMap.find?, ih]
      split <;> split <;> simp_all

/-- A key read after a write gives the value written, and every other key what it gave. -/
theorem SMap.get_set {α : Type} [DecidableEq α] (d : Nat → α) (m : SMap α) (a b : Nat) (x : α) :
    (m.set d a x).get d b = if b = a then x else m.get d b := by
  unfold SMap.set SMap.get
  split
  · next h => rw [SMap.find?_erase]; split <;> simp_all
  · rw [SMap.find?_insert]; split <;> simp

/-- The key written reads as what was written. -/
@[simp] theorem SMap.get_set_self {α : Type} [DecidableEq α] (d : Nat → α) (m : SMap α) (a : Nat) (x : α) : (m.set d a x).get d a = x := by
  rw [SMap.get_set]; simp

/-- Another key reads as before. -/
theorem SMap.get_set_of_ne {α : Type} [DecidableEq α] (d : Nat → α) (m : SMap α) {a b : Nat} (x : α) (h : b ≠ a) :
    (m.set d a x).get d b = m.get d b := by
  rw [SMap.get_set]; simp [h]

/-- A byte read after a byte was written. -/
theorem Mem.read_write (m : Mem) (a b : Nat) (x : Byte) : (m.write a x).read b = if b = a then x else m.read b := SMap.get_set _ _ _ _ _

/-- Bytes outside the written ones read as before. -/
theorem Mem.read_writeLE (m : Mem) (a n v b : Nat) (h : b < a ∨ a + n ≤ b) : (m.writeLE a n v).read b = m.read b := by
  induction n generalizing m a v with
  | zero => rfl
  | succ n ih =>
    rw [Mem.writeLE, ih _ _ _ (by omega), Mem.read_write]
    simp; omega

/-- A little-endian read depends only on the bytes it reads. -/
theorem Mem.readLE_congr (m m' : Mem) (a n : Nat) (h : ∀ b, a ≤ b → b < a + n → m.read b = m'.read b) : m.readLE a n = m'.readLE a n := by
  induction n generalizing a with
  | zero => rfl
  | succ n ih => rw [Mem.readLE, Mem.readLE, h a (by omega) (by omega), ih _ fun b h1 h2 => h b (by omega) (by omega)]

/-- What was written little-endian is read back. -/
theorem Mem.readLE_writeLE (m : Mem) (a n v : Nat) : (m.writeLE a n v).readLE a n = v % 256 ^ n := by
  induction n generalizing m a v with
  | zero => simp [Mem.readLE, Nat.mod_one]
  | succ n ih =>
    rw [Mem.writeLE, Mem.readLE, ih, Mem.read_writeLE _ _ _ _ _ (by omega), Mem.read_write]
    have e : (256 : Nat) ^ (n + 1) = 256 * 256 ^ n := Nat.pow_succ'
    rw [if_pos rfl, BitVec.toNat_ofNat, e, Nat.mod_mul]

/-- A masked line write changes the masked bytes of its line and no other byte. -/
theorem Mem.read_writeMasked (m : Mem) (a mask data b : Nat) :
    (m.writeMasked a mask data).read b =
      if a ≤ b ∧ b < a + 64 ∧ mask.testBit (b - a) = true then BitVec.ofNat 8 (data / 256 ^ (b - a)) else m.read b := by
  have key : ∀ n, n ≤ 64 →
      ((List.range n).foldl (fun (m : Mem) i => if mask.testBit i then m.write (a + i) (BitVec.ofNat 8 (data / 256 ^ i)) else m) m).read b =
        if a ≤ b ∧ b < a + n ∧ mask.testBit (b - a) = true then BitVec.ofNat 8 (data / 256 ^ (b - a)) else m.read b := by
    intro n
    induction n with
    | zero =>
      intro _
      rw [if_neg (by omega)]; rfl
    | succ n ih =>
      intro hn
      rw [List.range_succ, List.foldl_append]
      simp only [List.foldl_cons, List.foldl_nil]
      have ih' := ih (by omega)
      by_cases hb : b = a + n
      · subst hb
        split
        · next hm => rw [Mem.read_write]; simp [hm]
        · next hm => rw [ih']; simp [hm]
      · split
        · rw [Mem.read_write, if_neg hb, ih']
          have : (a ≤ b ∧ b < a + n ∧ mask.testBit (b - a) = true) ↔ (a ≤ b ∧ b < a + (n + 1) ∧ mask.testBit (b - a) = true) := by
            constructor <;> rintro ⟨h1, h2, h3⟩ <;> exact ⟨h1, by omega, h3⟩
          simp only [this]
        · rw [ih']
          have : (a ≤ b ∧ b < a + n ∧ mask.testBit (b - a) = true) ↔ (a ≤ b ∧ b < a + (n + 1) ∧ mask.testBit (b - a) = true) := by
            constructor <;> rintro ⟨h1, h2, h3⟩ <;> exact ⟨h1, by omega, h3⟩
          simp only [this]
  exact key 64 (Nat.le_refl 64)

/-! ## The canonical form -/

/-- An entry of a map with a key inserted is the new one or an old one. -/
theorem SMap.mem_insert {α : Type} {m : SMap α} {a : Nat} {x : α} {e : Nat × α} (h : e ∈ m.insert a x) : e = (a, x) ∨ e ∈ m := by
  induction m with
  | nil => simpa [SMap.insert] using h
  | cons f m ih =>
    obtain ⟨k, v⟩ := f
    simp only [SMap.insert] at h
    split at h
    · rcases List.mem_cons.mp h with h | h
      · exact .inl h
      · exact .inr (List.mem_cons_of_mem _ h)
    · split at h
      · rcases List.mem_cons.mp h with h | h
        · exact .inl h
        · exact .inr h
      · rcases List.mem_cons.mp h with h | h
        · exact .inr (h ▸ List.mem_cons_self)
        · exact (ih h).imp id (List.mem_cons_of_mem _)

/-- Taking entries out keeps the canonical form. -/
theorem SMap.Wf.filter {α : Type} {d : Nat → α} {m : SMap α} (h : SMap.Wf d m) (p : Nat × α → Bool) : SMap.Wf d (m.filter p) :=
  ⟨h.1.filter p, fun e he => h.2 e (List.mem_of_mem_filter he)⟩

/-- Inserting a value that is not the default keeps the canonical form. -/
theorem SMap.Wf.insert {α : Type} {d : Nat → α} {m : SMap α} (h : SMap.Wf d m) {a : Nat} {x : α} (hx : x ≠ d a) : SMap.Wf d (m.insert a x) := by
  refine ⟨?_, fun e he => ?_⟩
  · have hp := h.1
    clear h
    induction m with
    | nil => simp [SMap.insert]
    | cons f m ih =>
      obtain ⟨k, v⟩ := f
      have hp' := List.pairwise_cons.mp hp
      simp only [SMap.insert]
      split
      · next hk => subst hk; exact List.pairwise_cons.mpr ⟨hp'.1, hp'.2⟩
      · split
        · next hk hlt =>
          refine List.pairwise_cons.mpr ⟨fun e he => ?_, hp⟩
          rcases List.mem_cons.mp he with he | he
          · subst he; exact hlt
          · exact Nat.lt_trans hlt (hp'.1 e he)
        · next hk hlt =>
          refine List.pairwise_cons.mpr ⟨fun e he => ?_, ih hp'.2⟩
          rcases SMap.mem_insert he with he | he
          · subst he; simp only; omega
          · exact hp'.1 e he
  · rcases SMap.mem_insert he with he | he
    · subst he; exact hx
    · exact h.2 e he

/-- Writing a key keeps the canonical form. -/
theorem SMap.Wf.set {α : Type} [DecidableEq α] {d : Nat → α} {m : SMap α} (h : SMap.Wf d m) (a : Nat) (x : α) : SMap.Wf d (m.set d a x) := by
  unfold SMap.set
  split
  · exact h.filter _
  · next hx => exact h.insert hx

/-- The empty map is canonical. -/
theorem SMap.Wf.nil {α : Type} {d : Nat → α} : SMap.Wf d ([] : SMap α) := ⟨List.Pairwise.nil, fun _ h => nomatch h⟩

/-- Writing a byte keeps the canonical form. -/
theorem Mem.Wf.write {m : Mem} (h : m.Wf) (a : Nat) (b : Byte) : (m.write a b).Wf := SMap.Wf.set h a b

/-- Writing little-endian bytes keeps the canonical form. -/
theorem Mem.Wf.writeLE {m : Mem} (h : m.Wf) (a n v : Nat) : (m.writeLE a n v).Wf := by
  induction n generalizing m a v with
  | zero => exact h
  | succ n ih => exact ih (h.write _ _) _ _

/-- Writing a list of bytes keeps the canonical form. -/
theorem Mem.Wf.writeBytes {m : Mem} (h : m.Wf) (a : Nat) (l : List Byte) : (m.writeBytes a l).Wf := by
  induction l generalizing m a with
  | nil => exact h
  | cons b l ih => exact ih (h.write _ _) _

/-- A fold that keeps the canonical form at every step keeps it. -/
theorem Mem.Wf.foldl {β : Type} {f : Mem → β → Mem} (hf : ∀ m b, Mem.Wf m → Mem.Wf (f m b)) {m : Mem} (h : m.Wf) (l : List β) : Mem.Wf (l.foldl f m) := by
  induction l generalizing m with
  | nil => exact h
  | cons b l ih => exact ih (hf _ _ h)

/-- Writing the masked bytes of a line keeps the canonical form. -/
theorem Mem.Wf.writeMasked {m : Mem} (h : m.Wf) (a mask data : Nat) : (m.writeMasked a mask data).Wf :=
  Mem.Wf.foldl (fun m i hm => by split <;> [exact hm.write _ _; exact hm]) h _

/-- Clearing a range keeps the canonical form. -/
theorem Mem.Wf.clear {m : Mem} (h : m.Wf) (a n : Nat) : (m.clear a n).Wf := SMap.Wf.filter h _

/-- Equal reads of canonical memories mean equal memories. -/
theorem SMap.ext_of_wf {α : Type} {d : Nat → α} {m m' : SMap α} (h : SMap.Wf d m) (h' : SMap.Wf d m') (hr : ∀ a, m.get d a = m'.get d a) : m = m' := by
  have lt_none : ∀ {l : SMap α} {k : Nat}, (∀ e ∈ l, k < e.1) → l.find? k = none := by
    intro l k hl
    induction l with
    | nil => rfl
    | cons e l ih =>
      obtain ⟨j, v⟩ := e
      have hj := hl (j, v) List.mem_cons_self
      simp only [SMap.find?]
      rw [if_neg (by simp only at hj; omega)]
      exact ih fun e he => hl e (List.mem_cons_of_mem _ he)
  induction m generalizing m' with
  | nil =>
    cases m' with
    | nil => rfl
    | cons e m' =>
      obtain ⟨k, v⟩ := e
      have := hr k
      simp [SMap.get, SMap.find?] at this
      exact absurd this.symm (h'.2 (k, v) List.mem_cons_self)
  | cons e m ih =>
    obtain ⟨k, v⟩ := e
    have hp := List.pairwise_cons.mp h.1
    cases m' with
    | nil =>
      have := hr k
      simp [SMap.get, SMap.find?] at this
      exact absurd this (h.2 (k, v) List.mem_cons_self)
    | cons e' m' =>
      obtain ⟨k', v'⟩ := e'
      have hp' := List.pairwise_cons.mp h'.1
      have hk : k = k' := by
        rcases Nat.lt_trichotomy k k' with hlt | heq | hlt
        · have h1 := hr k
          have h2 : SMap.find? ((k', v') :: m') k = none := lt_none fun e he => by
            rcases List.mem_cons.mp he with he | he
            · subst he; exact hlt
            · exact Nat.lt_trans hlt (hp'.1 e he)
          rw [SMap.get, SMap.get, h2] at h1; simp [SMap.find?] at h1
          exact absurd h1 (h.2 (k, v) List.mem_cons_self)
        · exact heq
        · have h1 := hr k'
          have h2 : SMap.find? ((k, v) :: m) k' = none := lt_none fun e he => by
            rcases List.mem_cons.mp he with he | he
            · subst he; exact hlt
            · exact Nat.lt_trans hlt (hp.1 e he)
          rw [SMap.get, SMap.get, h2] at h1; simp [SMap.find?] at h1
          exact absurd h1.symm (h'.2 (k', v') List.mem_cons_self)
      subst hk
      have hv : v = v' := by simpa [SMap.get, SMap.find?] using hr k
      subst hv
      refine congrArg _ (ih ⟨hp.2, fun e he => h.2 e (List.mem_cons_of_mem _ he)⟩ ⟨hp'.2, fun e he => h'.2 e (List.mem_cons_of_mem _ he)⟩ fun a => ?_)
      by_cases ha : a = k
      · subst ha
        simp [SMap.get, lt_none (l := m) fun e he => hp.1 e he, lt_none (l := m') fun e he => hp'.1 e he]
      · have := hr a
        simpa [SMap.get, SMap.find?, ha] using this

end Sys2Proof.Machine
end

