-- ==== Sys2Proof/Laws/State.lean ====
section
/-! SUPPORT. What each update of the state leaves as it was, one lemma per update and field, and what a record, a register and a free value read as after an update. -/

namespace Sys2Proof.Machine

/-! ## Records and registers -/

/-- A record read after one was replaced. -/
theorem SMap.at_put {α : Type} [DecidableEq α] (m : SMap α) (d : α) (a b : Nat) (x : α) : (m.put d a x).at d b = if b = a then x else m.at d b :=
  SMap.get_set _ _ _ _ _

/-- A register word read after one was written. -/
theorem State.rd_wr (s : State) (a b : Nat) (w : Word) : (s.wr a w).rd b = if b = a then w else s.rd b := SMap.get_set _ _ _ _ _

/-- The register word written is read back. -/
@[simp] theorem State.rd_wr_self (s : State) (a : Nat) (w : Word) : (s.wr a w).rd a = w := by rw [State.rd_wr]; simp

/-- part after setPart. -/
theorem State.part_setPart (s : State) (a b : Nat) (x : Partition) : (s.setPart a x).part b = if b = a then x else s.part b := SMap.at_put _ _ _ _ _
/-- The one replaced. -/
@[simp] theorem State.part_setPart_self (s : State) (a : Nat) (x : Partition) : (s.setPart a x).part a = x := by rw [State.part_setPart]; simp

/-- cast after setCast. -/
theorem State.cast_setCast (s : State) (a b : Nat) (x : CastSlot) : (s.setCast a x).cast b = if b = a then x else s.cast b := SMap.at_put _ _ _ _ _
/-- The one replaced. -/
@[simp] theorem State.cast_setCast_self (s : State) (a : Nat) (x : CastSlot) : (s.setCast a x).cast a = x := by rw [State.cast_setCast]; simp

/-- core after setCore. -/
theorem State.core_setCore (s : State) (a b : Nat) (x : Core) : (s.setCore a x).core b = if b = a then x else s.core b := SMap.at_put _ _ _ _ _
/-- The one replaced. -/
@[simp] theorem State.core_setCore_self (s : State) (a : Nat) (x : Core) : (s.setCore a x).core a = x := by rw [State.core_setCore]; simp

/-- cell after setCell. -/
theorem State.cell_setCell (s : State) (a b : Nat) (x : Cell) : (s.setCell a x).cell b = if b = a then x else s.cell b := SMap.at_put _ _ _ _ _
/-- The one replaced. -/
@[simp] theorem State.cell_setCell_self (s : State) (a : Nat) (x : Cell) : (s.setCell a x).cell a = x := by rw [State.cell_setCell]; simp

/-- flight after setFlight. -/
theorem State.flight_setFlight (s : State) (a b : Nat) (x : Flight) : (s.setFlight a x).flight b = if b = a then x else s.flight b := SMap.at_put _ _ _ _ _
/-- The one replaced. -/
@[simp] theorem State.flight_setFlight_self (s : State) (a : Nat) (x : Flight) : (s.setFlight a x).flight a = x := by rw [State.flight_setFlight]; simp

/-- gather after setGather. -/
theorem State.gather_setGather (s : State) (a b : Nat) (x : Gather) : (s.setGather a x).gather b = if b = a then x else s.gather b := SMap.at_put _ _ _ _ _
/-- The one replaced. -/
@[simp] theorem State.gather_setGather_self (s : State) (a : Nat) (x : Gather) : (s.setGather a x).gather a = x := by rw [State.gather_setGather]; simp

/-- ctx after setCtx. -/
theorem State.ctx_setCtx (s : State) (a b : Nat) (x : Context) : (s.setCtx a x).ctx b = if b = a then x else s.ctx b := SMap.at_put _ _ _ _ _
/-- The one replaced. -/
@[simp] theorem State.ctx_setCtx_self (s : State) (a : Nat) (x : Context) : (s.setCtx a x).ctx a = x := by rw [State.ctx_setCtx]; simp

/-- queue after setQueue. -/
theorem State.queue_setQueue (s : State) (a b : Nat) (x : Queue) : (s.setQueue a x).queue b = if b = a then x else s.queue b := SMap.at_put _ _ _ _ _
/-- The one replaced. -/
@[simp] theorem State.queue_setQueue_self (s : State) (a : Nat) (x : Queue) : (s.setQueue a x).queue a = x := by rw [State.queue_setQueue]; simp

/-- irq after setIrq. -/
theorem State.irq_setIrq (s : State) (a b : Nat) (x : IrqSource) : (s.setIrq a x).irq b = if b = a then x else s.irq b := SMap.at_put _ _ _ _ _
/-- The one replaced. -/
@[simp] theorem State.irq_setIrq_self (s : State) (a : Nat) (x : IrqSource) : (s.setIrq a x).irq a = x := by rw [State.irq_setIrq]; simp

/-- hart after setHart. -/
theorem State.hart_setHart (s : State) (a b : Nat) (x : Hart) : (s.setHart a x).hart b = if b = a then x else s.hart b := SMap.at_put _ _ _ _ _
/-- The one replaced. -/
@[simp] theorem State.hart_setHart_self (s : State) (a : Nat) (x : Hart) : (s.setHart a x).hart a = x := by rw [State.hart_setHart]; simp

/-- cfg after setCfg. -/
theorem State.cfg_setCfg (s : State) (a b : Nat) (x : FuncCfg) : (s.setCfg a x).cfg b = if b = a then x else s.cfg b := SMap.at_put _ _ _ _ _
/-- The one replaced. -/
@[simp] theorem State.cfg_setCfg_self (s : State) (a : Nat) (x : FuncCfg) : (s.setCfg a x).cfg a = x := by rw [State.cfg_setCfg]; simp

/-- mon after setMon. -/
theorem State.mon_setMon (s : State) (a b : Nat) (x : MonSlot) : (s.setMon a x).mon b = if b = a then x else s.mon b := SMap.at_put _ _ _ _ _
/-- The one replaced. -/
@[simp] theorem State.mon_setMon_self (s : State) (a : Nat) (x : MonSlot) : (s.setMon a x).mon a = x := by rw [State.mon_setMon]; simp

/-- db after setDb. -/
theorem State.db_setDb (s : State) (a b : Nat) (x : DbPage) : (s.setDb a x).db b = if b = a then x else s.db b := SMap.at_put _ _ _ _ _
/-- The one replaced. -/
@[simp] theorem State.db_setDb_self (s : State) (a : Nat) (x : DbPage) : (s.setDb a x).db a = x := by rw [State.db_setDb]; simp

/-- freq after setFreq. -/
theorem State.freq_setFreq (s : State) (a b : Nat) (x : FuncReqs) : (s.setFreq a x).freq b = if b = a then x else s.freq b := SMap.at_put _ _ _ _ _
/-- The one replaced. -/
@[simp] theorem State.freq_setFreq_self (s : State) (a : Nat) (x : FuncReqs) : (s.setFreq a x).freq a = x := by rw [State.freq_setFreq]; simp

/-- frame after setFrame. -/
theorem State.frame_setFrame (s : State) (a b : Nat) (x : Frame) : (s.setFrame a x).frame b = if b = a then x else s.frame b := SMap.at_put _ _ _ _ _
/-- The one replaced. -/
@[simp] theorem State.frame_setFrame_self (s : State) (a : Nat) (x : Frame) : (s.setFrame a x).frame a = x := by rw [State.frame_setFrame]; simp

/-- bank after setBank. -/
theorem State.bank_setBank (s : State) (a b : Nat) (x : Bank) : (s.setBank a x).bank b = if b = a then x else s.bank b := SMap.at_put _ _ _ _ _
/-- The one replaced. -/
@[simp] theorem State.bank_setBank_self (s : State) (a : Nat) (x : Bank) : (s.setBank a x).bank a = x := by rw [State.bank_setBank]; simp

/-- port after setPort. -/
theorem State.port_setPort (s : State) (a b : Nat) (x : Port) : (s.setPort a x).port b = if b = a then x else s.port b := SMap.at_put _ _ _ _ _
/-- The one replaced. -/
@[simp] theorem State.port_setPort_self (s : State) (a : Nat) (x : Port) : (s.setPort a x).port a = x := by rw [State.port_setPort]; simp

/-- job after setJob. -/
theorem State.job_setJob (s : State) (a b : Nat) (x : Job) : (s.setJob a x).job b = if b = a then x else s.job b := SMap.at_put _ _ _ _ _
/-- The one replaced. -/
@[simp] theorem State.job_setJob_self (s : State) (a : Nat) (x : Job) : (s.setJob a x).job a = x := by rw [State.job_setJob]; simp

/-- ring after setRing. -/
theorem State.ring_setRing (s : State) (a b : Nat) (x : Ring) : (s.setRing a x).ring b = if b = a then x else s.ring b := SMap.at_put _ _ _ _ _
/-- The one replaced. -/
@[simp] theorem State.ring_setRing_self (s : State) (a : Nat) (x : Ring) : (s.setRing a x).ring a = x := by rw [State.ring_setRing]; simp

/-- engine after setEngine. -/
theorem State.engine_setEngine (s : State) (c e c' e' : Nat) (x : Engine) :
    (s.setEngine c e x).engine c' e' = if c' = c ∧ e' = e then x else s.engine c' e' := by
  simp only [State.engine, State.setEngine, State.core_setCore]
  by_cases h : c' = c
  · subst h; simp only [if_true, true_and]; exact SMap.at_put _ _ _ _ _
  · simp [h]

/-! ## What the updates leave as it was -/

@[simp] theorem State.wr_time (s : State) (a : Nat) (w : Word) : (s.wr a w).time = s.time := rfl
@[simp] theorem State.wr_board (s : State) (a : Nat) (w : Word) : (s.wr a w).board = s.board := rfl
@[simp] theorem State.wr_flash (s : State) (a : Nat) (w : Word) : (s.wr a w).flash = s.flash := rfl
@[simp] theorem State.wr_sec (s : State) (a : Nat) (w : Word) : (s.wr a w).sec = s.sec := rfl
@[simp] theorem State.wr_mem (s : State) (a : Nat) (w : Word) : (s.wr a w).mem = s.mem := rfl
@[simp] theorem State.wr_homes (s : State) (a : Nat) (w : Word) : (s.wr a w).homes = s.homes := rfl
@[simp] theorem State.wr_pl (s : State) (a : Nat) (w : Word) : (s.wr a w).pl = s.pl := rfl
@[simp] theorem State.wr_fab (s : State) (a : Nat) (w : Word) : (s.wr a w).fab = s.fab := rfl
@[simp] theorem State.wr_cores (s : State) (a : Nat) (w : Word) : (s.wr a w).cores = s.cores := rfl
@[simp] theorem State.wr_cells (s : State) (a : Nat) (w : Word) : (s.wr a w).cells = s.cells := rfl
@[simp] theorem State.wr_flights (s : State) (a : Nat) (w : Word) : (s.wr a w).flights = s.flights := rfl
@[simp] theorem State.wr_gathers (s : State) (a : Nat) (w : Word) : (s.wr a w).gathers = s.gathers := rfl
@[simp] theorem State.wr_draws (s : State) (a : Nat) (w : Word) : (s.wr a w).draws = s.draws := rfl
@[simp] theorem State.wr_reply (s : State) (a : Nat) (w : Word) : (s.wr a w).reply = s.reply := rfl
@[simp] theorem State.wr_replyPort (s : State) (a : Nat) (w : Word) : (s.wr a w).replyPort = s.replyPort := rfl
@[simp] theorem State.wr_pending (s : State) (a : Nat) (w : Word) : (s.wr a w).pending = s.pending := rfl

@[simp] theorem State.setFld_time (s : State) (a : Nat) (r : Reg) (f : Fld) (v : Nat) : (s.setFld a r f v).time = s.time := rfl
@[simp] theorem State.setFld_board (s : State) (a : Nat) (r : Reg) (f : Fld) (v : Nat) : (s.setFld a r f v).board = s.board := rfl
@[simp] theorem State.setFld_flash (s : State) (a : Nat) (r : Reg) (f : Fld) (v : Nat) : (s.setFld a r f v).flash = s.flash := rfl
@[simp] theorem State.setFld_sec (s : State) (a : Nat) (r : Reg) (f : Fld) (v : Nat) : (s.setFld a r f v).sec = s.sec := rfl
@[simp] theorem State.setFld_mem (s : State) (a : Nat) (r : Reg) (f : Fld) (v : Nat) : (s.setFld a r f v).mem = s.mem := rfl
@[simp] theorem State.setFld_homes (s : State) (a : Nat) (r : Reg) (f : Fld) (v : Nat) : (s.setFld a r f v).homes = s.homes := rfl
@[simp] theorem State.setFld_pl (s : State) (a : Nat) (r : Reg) (f : Fld) (v : Nat) : (s.setFld a r f v).pl = s.pl := rfl
@[simp] theorem State.setFld_fab (s : State) (a : Nat) (r : Reg) (f : Fld) (v : Nat) : (s.setFld a r f v).fab = s.fab := rfl
@[simp] theorem State.setFld_cores (s : State) (a : Nat) (r : Reg) (f : Fld) (v : Nat) : (s.setFld a r f v).cores = s.cores := rfl
@[simp] theorem State.setFld_cells (s : State) (a : Nat) (r : Reg) (f : Fld) (v : Nat) : (s.setFld a r f v).cells = s.cells := rfl
@[simp] theorem State.setFld_flights (s : State) (a : Nat) (r : Reg) (f : Fld) (v : Nat) : (s.setFld a r f v).flights = s.flights := rfl
@[simp] theorem State.setFld_gathers (s : State) (a : Nat) (r : Reg) (f : Fld) (v : Nat) : (s.setFld a r f v).gathers = s.gathers := rfl
@[simp] theorem State.setFld_draws (s : State) (a : Nat) (r : Reg) (f : Fld) (v : Nat) : (s.setFld a r f v).draws = s.draws := rfl
@[simp] theorem State.setFld_reply (s : State) (a : Nat) (r : Reg) (f : Fld) (v : Nat) : (s.setFld a r f v).reply = s.reply := rfl
@[simp] theorem State.setFld_replyPort (s : State) (a : Nat) (r : Reg) (f : Fld) (v : Nat) : (s.setFld a r f v).replyPort = s.replyPort := rfl
@[simp] theorem State.setFld_pending (s : State) (a : Nat) (r : Reg) (f : Fld) (v : Nat) : (s.setFld a r f v).pending = s.pending := rfl

@[simp] theorem State.bump_time (s : State) (a : Nat) (r : Reg) (f : Fld) (v : Nat) : (s.bump a r f v).time = s.time := rfl
@[simp] theorem State.bump_board (s : State) (a : Nat) (r : Reg) (f : Fld) (v : Nat) : (s.bump a r f v).board = s.board := rfl
@[simp] theorem State.bump_flash (s : State) (a : Nat) (r : Reg) (f : Fld) (v : Nat) : (s.bump a r f v).flash = s.flash := rfl
@[simp] theorem State.bump_sec (s : State) (a : Nat) (r : Reg) (f : Fld) (v : Nat) : (s.bump a r f v).sec = s.sec := rfl
@[simp] theorem State.bump_mem (s : State) (a : Nat) (r : Reg) (f : Fld) (v : Nat) : (s.bump a r f v).mem = s.mem := rfl
@[simp] theorem State.bump_homes (s : State) (a : Nat) (r : Reg) (f : Fld) (v : Nat) : (s.bump a r f v).homes = s.homes := rfl
@[simp] theorem State.bump_pl (s : State) (a : Nat) (r : Reg) (f : Fld) (v : Nat) : (s.bump a r f v).pl = s.pl := rfl
@[simp] theorem State.bump_fab (s : State) (a : Nat) (r : Reg) (f : Fld) (v : Nat) : (s.bump a r f v).fab = s.fab := rfl
@[simp] theorem State.bump_cores (s : State) (a : Nat) (r : Reg) (f : Fld) (v : Nat) : (s.bump a r f v).cores = s.cores := rfl
@[simp] theorem State.bump_cells (s : State) (a : Nat) (r : Reg) (f : Fld) (v : Nat) : (s.bump a r f v).cells = s.cells := rfl
@[simp] theorem State.bump_flights (s : State) (a : Nat) (r : Reg) (f : Fld) (v : Nat) : (s.bump a r f v).flights = s.flights := rfl
@[simp] theorem State.bump_gathers (s : State) (a : Nat) (r : Reg) (f : Fld) (v : Nat) : (s.bump a r f v).gathers = s.gathers := rfl
@[simp] theorem State.bump_draws (s : State) (a : Nat) (r : Reg) (f : Fld) (v : Nat) : (s.bump a r f v).draws = s.draws := rfl
@[simp] theorem State.bump_reply (s : State) (a : Nat) (r : Reg) (f : Fld) (v : Nat) : (s.bump a r f v).reply = s.reply := rfl
@[simp] theorem State.bump_replyPort (s : State) (a : Nat) (r : Reg) (f : Fld) (v : Nat) : (s.bump a r f v).replyPort = s.replyPort := rfl
@[simp] theorem State.bump_pending (s : State) (a : Nat) (r : Reg) (f : Fld) (v : Nat) : (s.bump a r f v).pending = s.pending := rfl

@[simp] theorem State.wrapUp_time (s : State) (a : Nat) (r : Reg) (f : Fld) (v : Nat) : (s.wrapUp a r f v).time = s.time := rfl
@[simp] theorem State.wrapUp_board (s : State) (a : Nat) (r : Reg) (f : Fld) (v : Nat) : (s.wrapUp a r f v).board = s.board := rfl
@[simp] theorem State.wrapUp_flash (s : State) (a : Nat) (r : Reg) (f : Fld) (v : Nat) : (s.wrapUp a r f v).flash = s.flash := rfl
@[simp] theorem State.wrapUp_sec (s : State) (a : Nat) (r : Reg) (f : Fld) (v : Nat) : (s.wrapUp a r f v).sec = s.sec := rfl
@[simp] theorem State.wrapUp_mem (s : State) (a : Nat) (r : Reg) (f : Fld) (v : Nat) : (s.wrapUp a r f v).mem = s.mem := rfl
@[simp] theorem State.wrapUp_homes (s : State) (a : Nat) (r : Reg) (f : Fld) (v : Nat) : (s.wrapUp a r f v).homes = s.homes := rfl
@[simp] theorem State.wrapUp_pl (s : State) (a : Nat) (r : Reg) (f : Fld) (v : Nat) : (s.wrapUp a r f v).pl = s.pl := rfl
@[simp] theorem State.wrapUp_fab (s : State) (a : Nat) (r : Reg) (f : Fld) (v : Nat) : (s.wrapUp a r f v).fab = s.fab := rfl
@[simp] theorem State.wrapUp_cores (s : State) (a : Nat) (r : Reg) (f : Fld) (v : Nat) : (s.wrapUp a r f v).cores = s.cores := rfl
@[simp] theorem State.wrapUp_cells (s : State) (a : Nat) (r : Reg) (f : Fld) (v : Nat) : (s.wrapUp a r f v).cells = s.cells := rfl
@[simp] theorem State.wrapUp_flights (s : State) (a : Nat) (r : Reg) (f : Fld) (v : Nat) : (s.wrapUp a r f v).flights = s.flights := rfl
@[simp] theorem State.wrapUp_gathers (s : State) (a : Nat) (r : Reg) (f : Fld) (v : Nat) : (s.wrapUp a r f v).gathers = s.gathers := rfl
@[simp] theorem State.wrapUp_draws (s : State) (a : Nat) (r : Reg) (f : Fld) (v : Nat) : (s.wrapUp a r f v).draws = s.draws := rfl
@[simp] theorem State.wrapUp_reply (s : State) (a : Nat) (r : Reg) (f : Fld) (v : Nat) : (s.wrapUp a r f v).reply = s.reply := rfl
@[simp] theorem State.wrapUp_replyPort (s : State) (a : Nat) (r : Reg) (f : Fld) (v : Nat) : (s.wrapUp a r f v).replyPort = s.replyPort := rfl
@[simp] theorem State.wrapUp_pending (s : State) (a : Nat) (r : Reg) (f : Fld) (v : Nat) : (s.wrapUp a r f v).pending = s.pending := rfl

@[simp] theorem State.writeReg_time (s : State) (a : Nat) (r : Reg) (w : Word) : (s.writeReg a r w).time = s.time := rfl
@[simp] theorem State.writeReg_board (s : State) (a : Nat) (r : Reg) (w : Word) : (s.writeReg a r w).board = s.board := rfl
@[simp] theorem State.writeReg_flash (s : State) (a : Nat) (r : Reg) (w : Word) : (s.writeReg a r w).flash = s.flash := rfl
@[simp] theorem State.writeReg_sec (s : State) (a : Nat) (r : Reg) (w : Word) : (s.writeReg a r w).sec = s.sec := rfl
@[simp] theorem State.writeReg_mem (s : State) (a : Nat) (r : Reg) (w : Word) : (s.writeReg a r w).mem = s.mem := rfl
@[simp] theorem State.writeReg_homes (s : State) (a : Nat) (r : Reg) (w : Word) : (s.writeReg a r w).homes = s.homes := rfl
@[simp] theorem State.writeReg_pl (s : State) (a : Nat) (r : Reg) (w : Word) : (s.writeReg a r w).pl = s.pl := rfl
@[simp] theorem State.writeReg_fab (s : State) (a : Nat) (r : Reg) (w : Word) : (s.writeReg a r w).fab = s.fab := rfl
@[simp] theorem State.writeReg_cores (s : State) (a : Nat) (r : Reg) (w : Word) : (s.writeReg a r w).cores = s.cores := rfl
@[simp] theorem State.writeReg_cells (s : State) (a : Nat) (r : Reg) (w : Word) : (s.writeReg a r w).cells = s.cells := rfl
@[simp] theorem State.writeReg_flights (s : State) (a : Nat) (r : Reg) (w : Word) : (s.writeReg a r w).flights = s.flights := rfl
@[simp] theorem State.writeReg_gathers (s : State) (a : Nat) (r : Reg) (w : Word) : (s.writeReg a r w).gathers = s.gathers := rfl
@[simp] theorem State.writeReg_draws (s : State) (a : Nat) (r : Reg) (w : Word) : (s.writeReg a r w).draws = s.draws := rfl
@[simp] theorem State.writeReg_reply (s : State) (a : Nat) (r : Reg) (w : Word) : (s.writeReg a r w).reply = s.reply := rfl
@[simp] theorem State.writeReg_replyPort (s : State) (a : Nat) (r : Reg) (w : Word) : (s.writeReg a r w).replyPort = s.replyPort := rfl
@[simp] theorem State.writeReg_pending (s : State) (a : Nat) (r : Reg) (w : Word) : (s.writeReg a r w).pending = s.pending := rfl

@[simp] theorem State.pageErr_time (s : State) (a b : Nat) : (s.pageErr a b).time = s.time := rfl
@[simp] theorem State.pageErr_board (s : State) (a b : Nat) : (s.pageErr a b).board = s.board := rfl
@[simp] theorem State.pageErr_flash (s : State) (a b : Nat) : (s.pageErr a b).flash = s.flash := rfl
@[simp] theorem State.pageErr_sec (s : State) (a b : Nat) : (s.pageErr a b).sec = s.sec := rfl
@[simp] theorem State.pageErr_mem (s : State) (a b : Nat) : (s.pageErr a b).mem = s.mem := rfl
@[simp] theorem State.pageErr_homes (s : State) (a b : Nat) : (s.pageErr a b).homes = s.homes := rfl
@[simp] theorem State.pageErr_pl (s : State) (a b : Nat) : (s.pageErr a b).pl = s.pl := rfl
@[simp] theorem State.pageErr_fab (s : State) (a b : Nat) : (s.pageErr a b).fab = s.fab := rfl
@[simp] theorem State.pageErr_cores (s : State) (a b : Nat) : (s.pageErr a b).cores = s.cores := rfl
@[simp] theorem State.pageErr_cells (s : State) (a b : Nat) : (s.pageErr a b).cells = s.cells := rfl
@[simp] theorem State.pageErr_flights (s : State) (a b : Nat) : (s.pageErr a b).flights = s.flights := rfl
@[simp] theorem State.pageErr_gathers (s : State) (a b : Nat) : (s.pageErr a b).gathers = s.gathers := rfl
@[simp] theorem State.pageErr_draws (s : State) (a b : Nat) : (s.pageErr a b).draws = s.draws := rfl
@[simp] theorem State.pageErr_reply (s : State) (a b : Nat) : (s.pageErr a b).reply = s.reply := rfl
@[simp] theorem State.pageErr_replyPort (s : State) (a b : Nat) : (s.pageErr a b).replyPort = s.replyPort := rfl
@[simp] theorem State.pageErr_pending (s : State) (a b : Nat) : (s.pageErr a b).pending = s.pending := rfl

@[simp] theorem State.accessErr_time (s : State) (a : Nat) : (s.accessErr a).time = s.time := by unfold State.accessErr; exact State.pageErr_time s a 63
@[simp] theorem State.accessErr_board (s : State) (a : Nat) : (s.accessErr a).board = s.board := by unfold State.accessErr; exact State.pageErr_board s a 63
@[simp] theorem State.accessErr_flash (s : State) (a : Nat) : (s.accessErr a).flash = s.flash := by unfold State.accessErr; exact State.pageErr_flash s a 63
@[simp] theorem State.accessErr_sec (s : State) (a : Nat) : (s.accessErr a).sec = s.sec := by unfold State.accessErr; exact State.pageErr_sec s a 63
@[simp] theorem State.accessErr_mem (s : State) (a : Nat) : (s.accessErr a).mem = s.mem := by unfold State.accessErr; exact State.pageErr_mem s a 63
@[simp] theorem State.accessErr_homes (s : State) (a : Nat) : (s.accessErr a).homes = s.homes := by unfold State.accessErr; exact State.pageErr_homes s a 63
@[simp] theorem State.accessErr_pl (s : State) (a : Nat) : (s.accessErr a).pl = s.pl := by unfold State.accessErr; exact State.pageErr_pl s a 63
@[simp] theorem State.accessErr_fab (s : State) (a : Nat) : (s.accessErr a).fab = s.fab := by unfold State.accessErr; exact State.pageErr_fab s a 63
@[simp] theorem State.accessErr_cores (s : State) (a : Nat) : (s.accessErr a).cores = s.cores := by unfold State.accessErr; exact State.pageErr_cores s a 63
@[simp] theorem State.accessErr_cells (s : State) (a : Nat) : (s.accessErr a).cells = s.cells := by unfold State.accessErr; exact State.pageErr_cells s a 63
@[simp] theorem State.accessErr_flights (s : State) (a : Nat) : (s.accessErr a).flights = s.flights := by unfold State.accessErr; exact State.pageErr_flights s a 63
@[simp] theorem State.accessErr_gathers (s : State) (a : Nat) : (s.accessErr a).gathers = s.gathers := by unfold State.accessErr; exact State.pageErr_gathers s a 63
@[simp] theorem State.accessErr_draws (s : State) (a : Nat) : (s.accessErr a).draws = s.draws := by unfold State.accessErr; exact State.pageErr_draws s a 63
@[simp] theorem State.accessErr_reply (s : State) (a : Nat) : (s.accessErr a).reply = s.reply := by unfold State.accessErr; exact State.pageErr_reply s a 63
@[simp] theorem State.accessErr_replyPort (s : State) (a : Nat) : (s.accessErr a).replyPort = s.replyPort := by unfold State.accessErr; exact State.pageErr_replyPort s a 63
@[simp] theorem State.accessErr_pending (s : State) (a : Nat) : (s.accessErr a).pending = s.pending := by unfold State.accessErr; exact State.pageErr_pending s a 63

@[simp] theorem State.misroute_time (s : State) : s.misroute.time = s.time := by unfold State.misroute; exact State.bump_time s _ _ _ _
@[simp] theorem State.misroute_board (s : State) : s.misroute.board = s.board := by unfold State.misroute; exact State.bump_board s _ _ _ _
@[simp] theorem State.misroute_flash (s : State) : s.misroute.flash = s.flash := by unfold State.misroute; exact State.bump_flash s _ _ _ _
@[simp] theorem State.misroute_sec (s : State) : s.misroute.sec = s.sec := by unfold State.misroute; exact State.bump_sec s _ _ _ _
@[simp] theorem State.misroute_mem (s : State) : s.misroute.mem = s.mem := by unfold State.misroute; exact State.bump_mem s _ _ _ _
@[simp] theorem State.misroute_homes (s : State) : s.misroute.homes = s.homes := by unfold State.misroute; exact State.bump_homes s _ _ _ _
@[simp] theorem State.misroute_pl (s : State) : s.misroute.pl = s.pl := by unfold State.misroute; exact State.bump_pl s _ _ _ _
@[simp] theorem State.misroute_fab (s : State) : s.misroute.fab = s.fab := by unfold State.misroute; exact State.bump_fab s _ _ _ _
@[simp] theorem State.misroute_cores (s : State) : s.misroute.cores = s.cores := by unfold State.misroute; exact State.bump_cores s _ _ _ _
@[simp] theorem State.misroute_cells (s : State) : s.misroute.cells = s.cells := by unfold State.misroute; exact State.bump_cells s _ _ _ _
@[simp] theorem State.misroute_flights (s : State) : s.misroute.flights = s.flights := by unfold State.misroute; exact State.bump_flights s _ _ _ _
@[simp] theorem State.misroute_gathers (s : State) : s.misroute.gathers = s.gathers := by unfold State.misroute; exact State.bump_gathers s _ _ _ _
@[simp] theorem State.misroute_draws (s : State) : s.misroute.draws = s.draws := by unfold State.misroute; exact State.bump_draws s _ _ _ _
@[simp] theorem State.misroute_reply (s : State) : s.misroute.reply = s.reply := by unfold State.misroute; exact State.bump_reply s _ _ _ _
@[simp] theorem State.misroute_replyPort (s : State) : s.misroute.replyPort = s.replyPort := by unfold State.misroute; exact State.bump_replyPort s _ _ _ _
@[simp] theorem State.misroute_pending (s : State) : s.misroute.pending = s.pending := by unfold State.misroute; exact State.bump_pending s _ _ _ _

@[simp] theorem State.drew_regs (s : State) (n : Nat) : (s.drew n).regs = s.regs := rfl
@[simp] theorem State.drew_time (s : State) (n : Nat) : (s.drew n).time = s.time := rfl
@[simp] theorem State.drew_board (s : State) (n : Nat) : (s.drew n).board = s.board := rfl
@[simp] theorem State.drew_flash (s : State) (n : Nat) : (s.drew n).flash = s.flash := rfl
@[simp] theorem State.drew_sec (s : State) (n : Nat) : (s.drew n).sec = s.sec := rfl
@[simp] theorem State.drew_mem (s : State) (n : Nat) : (s.drew n).mem = s.mem := rfl
@[simp] theorem State.drew_homes (s : State) (n : Nat) : (s.drew n).homes = s.homes := rfl
@[simp] theorem State.drew_pl (s : State) (n : Nat) : (s.drew n).pl = s.pl := rfl
@[simp] theorem State.drew_fab (s : State) (n : Nat) : (s.drew n).fab = s.fab := rfl
@[simp] theorem State.drew_cores (s : State) (n : Nat) : (s.drew n).cores = s.cores := rfl
@[simp] theorem State.drew_cells (s : State) (n : Nat) : (s.drew n).cells = s.cells := rfl
@[simp] theorem State.drew_flights (s : State) (n : Nat) : (s.drew n).flights = s.flights := rfl
@[simp] theorem State.drew_gathers (s : State) (n : Nat) : (s.drew n).gathers = s.gathers := rfl
@[simp] theorem State.drew_reply (s : State) (n : Nat) : (s.drew n).reply = s.reply := rfl
@[simp] theorem State.drew_replyPort (s : State) (n : Nat) : (s.drew n).replyPort = s.replyPort := rfl
@[simp] theorem State.drew_pending (s : State) (n : Nat) : (s.drew n).pending = s.pending := rfl

@[simp] theorem State.setPart_regs (s : State) (k : Nat) (x : Partition) : (s.setPart k x).regs = s.regs := rfl
@[simp] theorem State.setPart_time (s : State) (k : Nat) (x : Partition) : (s.setPart k x).time = s.time := rfl
@[simp] theorem State.setPart_board (s : State) (k : Nat) (x : Partition) : (s.setPart k x).board = s.board := rfl
@[simp] theorem State.setPart_flash (s : State) (k : Nat) (x : Partition) : (s.setPart k x).flash = s.flash := rfl
@[simp] theorem State.setPart_mem (s : State) (k : Nat) (x : Partition) : (s.setPart k x).mem = s.mem := rfl
@[simp] theorem State.setPart_homes (s : State) (k : Nat) (x : Partition) : (s.setPart k x).homes = s.homes := rfl
@[simp] theorem State.setPart_pl (s : State) (k : Nat) (x : Partition) : (s.setPart k x).pl = s.pl := rfl
@[simp] theorem State.setPart_fab (s : State) (k : Nat) (x : Partition) : (s.setPart k x).fab = s.fab := rfl
@[simp] theorem State.setPart_cores (s : State) (k : Nat) (x : Partition) : (s.setPart k x).cores = s.cores := rfl
@[simp] theorem State.setPart_cells (s : State) (k : Nat) (x : Partition) : (s.setPart k x).cells = s.cells := rfl
@[simp] theorem State.setPart_flights (s : State) (k : Nat) (x : Partition) : (s.setPart k x).flights = s.flights := rfl
@[simp] theorem State.setPart_gathers (s : State) (k : Nat) (x : Partition) : (s.setPart k x).gathers = s.gathers := rfl
@[simp] theorem State.setPart_draws (s : State) (k : Nat) (x : Partition) : (s.setPart k x).draws = s.draws := rfl
@[simp] theorem State.setPart_reply (s : State) (k : Nat) (x : Partition) : (s.setPart k x).reply = s.reply := rfl
@[simp] theorem State.setPart_replyPort (s : State) (k : Nat) (x : Partition) : (s.setPart k x).replyPort = s.replyPort := rfl
@[simp] theorem State.setPart_pending (s : State) (k : Nat) (x : Partition) : (s.setPart k x).pending = s.pending := rfl

@[simp] theorem State.setCast_regs (s : State) (k : Nat) (x : CastSlot) : (s.setCast k x).regs = s.regs := rfl
@[simp] theorem State.setCast_time (s : State) (k : Nat) (x : CastSlot) : (s.setCast k x).time = s.time := rfl
@[simp] theorem State.setCast_board (s : State) (k : Nat) (x : CastSlot) : (s.setCast k x).board = s.board := rfl
@[simp] theorem State.setCast_flash (s : State) (k : Nat) (x : CastSlot) : (s.setCast k x).flash = s.flash := rfl
@[simp] theorem State.setCast_mem (s : State) (k : Nat) (x : CastSlot) : (s.setCast k x).mem = s.mem := rfl
@[simp] theorem State.setCast_homes (s : State) (k : Nat) (x : CastSlot) : (s.setCast k x).homes = s.homes := rfl
@[simp] theorem State.setCast_pl (s : State) (k : Nat) (x : CastSlot) : (s.setCast k x).pl = s.pl := rfl
@[simp] theorem State.setCast_fab (s : State) (k : Nat) (x : CastSlot) : (s.setCast k x).fab = s.fab := rfl
@[simp] theorem State.setCast_cores (s : State) (k : Nat) (x : CastSlot) : (s.setCast k x).cores = s.cores := rfl
@[simp] theorem State.setCast_cells (s : State) (k : Nat) (x : CastSlot) : (s.setCast k x).cells = s.cells := rfl
@[simp] theorem State.setCast_flights (s : State) (k : Nat) (x : CastSlot) : (s.setCast k x).flights = s.flights := rfl
@[simp] theorem State.setCast_gathers (s : State) (k : Nat) (x : CastSlot) : (s.setCast k x).gathers = s.gathers := rfl
@[simp] theorem State.setCast_draws (s : State) (k : Nat) (x : CastSlot) : (s.setCast k x).draws = s.draws := rfl
@[simp] theorem State.setCast_reply (s : State) (k : Nat) (x : CastSlot) : (s.setCast k x).reply = s.reply := rfl
@[simp] theorem State.setCast_replyPort (s : State) (k : Nat) (x : CastSlot) : (s.setCast k x).replyPort = s.replyPort := rfl
@[simp] theorem State.setCast_pending (s : State) (k : Nat) (x : CastSlot) : (s.setCast k x).pending = s.pending := rfl

@[simp] theorem State.setCore_regs (s : State) (k : Nat) (x : Core) : (s.setCore k x).regs = s.regs := rfl
@[simp] theorem State.setCore_time (s : State) (k : Nat) (x : Core) : (s.setCore k x).time = s.time := rfl
@[simp] theorem State.setCore_board (s : State) (k : Nat) (x : Core) : (s.setCore k x).board = s.board := rfl
@[simp] theorem State.setCore_flash (s : State) (k : Nat) (x : Core) : (s.setCore k x).flash = s.flash := rfl
@[simp] theorem State.setCore_sec (s : State) (k : Nat) (x : Core) : (s.setCore k x).sec = s.sec := rfl
@[simp] theorem State.setCore_mem (s : State) (k : Nat) (x : Core) : (s.setCore k x).mem = s.mem := rfl
@[simp] theorem State.setCore_homes (s : State) (k : Nat) (x : Core) : (s.setCore k x).homes = s.homes := rfl
@[simp] theorem State.setCore_pl (s : State) (k : Nat) (x : Core) : (s.setCore k x).pl = s.pl := rfl
@[simp] theorem State.setCore_fab (s : State) (k : Nat) (x : Core) : (s.setCore k x).fab = s.fab := rfl
@[simp] theorem State.setCore_cells (s : State) (k : Nat) (x : Core) : (s.setCore k x).cells = s.cells := rfl
@[simp] theorem State.setCore_flights (s : State) (k : Nat) (x : Core) : (s.setCore k x).flights = s.flights := rfl
@[simp] theorem State.setCore_gathers (s : State) (k : Nat) (x : Core) : (s.setCore k x).gathers = s.gathers := rfl
@[simp] theorem State.setCore_draws (s : State) (k : Nat) (x : Core) : (s.setCore k x).draws = s.draws := rfl
@[simp] theorem State.setCore_reply (s : State) (k : Nat) (x : Core) : (s.setCore k x).reply = s.reply := rfl
@[simp] theorem State.setCore_replyPort (s : State) (k : Nat) (x : Core) : (s.setCore k x).replyPort = s.replyPort := rfl
@[simp] theorem State.setCore_pending (s : State) (k : Nat) (x : Core) : (s.setCore k x).pending = s.pending := rfl

@[simp] theorem State.setEngine_regs (s : State) (c k : Nat) (x : Engine) : (s.setEngine c k x).regs = s.regs := rfl
@[simp] theorem State.setEngine_time (s : State) (c k : Nat) (x : Engine) : (s.setEngine c k x).time = s.time := rfl
@[simp] theorem State.setEngine_board (s : State) (c k : Nat) (x : Engine) : (s.setEngine c k x).board = s.board := rfl
@[simp] theorem State.setEngine_flash (s : State) (c k : Nat) (x : Engine) : (s.setEngine c k x).flash = s.flash := rfl
@[simp] theorem State.setEngine_sec (s : State) (c k : Nat) (x : Engine) : (s.setEngine c k x).sec = s.sec := rfl
@[simp] theorem State.setEngine_mem (s : State) (c k : Nat) (x : Engine) : (s.setEngine c k x).mem = s.mem := rfl
@[simp] theorem State.setEngine_homes (s : State) (c k : Nat) (x : Engine) : (s.setEngine c k x).homes = s.homes := rfl
@[simp] theorem State.setEngine_pl (s : State) (c k : Nat) (x : Engine) : (s.setEngine c k x).pl = s.pl := rfl
@[simp] theorem State.setEngine_fab (s : State) (c k : Nat) (x : Engine) : (s.setEngine c k x).fab = s.fab := rfl
@[simp] theorem State.setEngine_cells (s : State) (c k : Nat) (x : Engine) : (s.setEngine c k x).cells = s.cells := rfl
@[simp] theorem State.setEngine_flights (s : State) (c k : Nat) (x : Engine) : (s.setEngine c k x).flights = s.flights := rfl
@[simp] theorem State.setEngine_gathers (s : State) (c k : Nat) (x : Engine) : (s.setEngine c k x).gathers = s.gathers := rfl
@[simp] theorem State.setEngine_draws (s : State) (c k : Nat) (x : Engine) : (s.setEngine c k x).draws = s.draws := rfl
@[simp] theorem State.setEngine_reply (s : State) (c k : Nat) (x : Engine) : (s.setEngine c k x).reply = s.reply := rfl
@[simp] theorem State.setEngine_replyPort (s : State) (c k : Nat) (x : Engine) : (s.setEngine c k x).replyPort = s.replyPort := rfl
@[simp] theorem State.setEngine_pending (s : State) (c k : Nat) (x : Engine) : (s.setEngine c k x).pending = s.pending := rfl

@[simp] theorem State.setCell_regs (s : State) (k : Nat) (x : Cell) : (s.setCell k x).regs = s.regs := rfl
@[simp] theorem State.setCell_time (s : State) (k : Nat) (x : Cell) : (s.setCell k x).time = s.time := rfl
@[simp] theorem State.setCell_board (s : State) (k : Nat) (x : Cell) : (s.setCell k x).board = s.board := rfl
@[simp] theorem State.setCell_flash (s : State) (k : Nat) (x : Cell) : (s.setCell k x).flash = s.flash := rfl
@[simp] theorem State.setCell_sec (s : State) (k : Nat) (x : Cell) : (s.setCell k x).sec = s.sec := rfl
@[simp] theorem State.setCell_mem (s : State) (k : Nat) (x : Cell) : (s.setCell k x).mem = s.mem := rfl
@[simp] theorem State.setCell_homes (s : State) (k : Nat) (x : Cell) : (s.setCell k x).homes = s.homes := rfl
@[simp] theorem State.setCell_pl (s : State) (k : Nat) (x : Cell) : (s.setCell k x).pl = s.pl := rfl
@[simp] theorem State.setCell_fab (s : State) (k : Nat) (x : Cell) : (s.setCell k x).fab = s.fab := rfl
@[simp] theorem State.setCell_cores (s : State) (k : Nat) (x : Cell) : (s.setCell k x).cores = s.cores := rfl
@[simp] theorem State.setCell_flights (s : State) (k : Nat) (x : Cell) : (s.setCell k x).flights = s.flights := rfl
@[simp] theorem State.setCell_gathers (s : State) (k : Nat) (x : Cell) : (s.setCell k x).gathers = s.gathers := rfl
@[simp] theorem State.setCell_draws (s : State) (k : Nat) (x : Cell) : (s.setCell k x).draws = s.draws := rfl
@[simp] theorem State.setCell_reply (s : State) (k : Nat) (x : Cell) : (s.setCell k x).reply = s.reply := rfl
@[simp] theorem State.setCell_replyPort (s : State) (k : Nat) (x : Cell) : (s.setCell k x).replyPort = s.replyPort := rfl
@[simp] theorem State.setCell_pending (s : State) (k : Nat) (x : Cell) : (s.setCell k x).pending = s.pending := rfl

@[simp] theorem State.setFlight_regs (s : State) (k : Nat) (x : Flight) : (s.setFlight k x).regs = s.regs := rfl
@[simp] theorem State.setFlight_time (s : State) (k : Nat) (x : Flight) : (s.setFlight k x).time = s.time := rfl
@[simp] theorem State.setFlight_board (s : State) (k : Nat) (x : Flight) : (s.setFlight k x).board = s.board := rfl
@[simp] theorem State.setFlight_flash (s : State) (k : Nat) (x : Flight) : (s.setFlight k x).flash = s.flash := rfl
@[simp] theorem State.setFlight_sec (s : State) (k : Nat) (x : Flight) : (s.setFlight k x).sec = s.sec := rfl
@[simp] theorem State.setFlight_mem (s : State) (k : Nat) (x : Flight) : (s.setFlight k x).mem = s.mem := rfl
@[simp] theorem State.setFlight_homes (s : State) (k : Nat) (x : Flight) : (s.setFlight k x).homes = s.homes := rfl
@[simp] theorem State.setFlight_pl (s : State) (k : Nat) (x : Flight) : (s.setFlight k x).pl = s.pl := rfl
@[simp] theorem State.setFlight_fab (s : State) (k : Nat) (x : Flight) : (s.setFlight k x).fab = s.fab := rfl
@[simp] theorem State.setFlight_cores (s : State) (k : Nat) (x : Flight) : (s.setFlight k x).cores = s.cores := rfl
@[simp] theorem State.setFlight_cells (s : State) (k : Nat) (x : Flight) : (s.setFlight k x).cells = s.cells := rfl
@[simp] theorem State.setFlight_gathers (s : State) (k : Nat) (x : Flight) : (s.setFlight k x).gathers = s.gathers := rfl
@[simp] theorem State.setFlight_draws (s : State) (k : Nat) (x : Flight) : (s.setFlight k x).draws = s.draws := rfl
@[simp] theorem State.setFlight_reply (s : State) (k : Nat) (x : Flight) : (s.setFlight k x).reply = s.reply := rfl
@[simp] theorem State.setFlight_replyPort (s : State) (k : Nat) (x : Flight) : (s.setFlight k x).replyPort = s.replyPort := rfl
@[simp] theorem State.setFlight_pending (s : State) (k : Nat) (x : Flight) : (s.setFlight k x).pending = s.pending := rfl

@[simp] theorem State.setGather_regs (s : State) (k : Nat) (x : Gather) : (s.setGather k x).regs = s.regs := rfl
@[simp] theorem State.setGather_time (s : State) (k : Nat) (x : Gather) : (s.setGather k x).time = s.time := rfl
@[simp] theorem State.setGather_board (s : State) (k : Nat) (x : Gather) : (s.setGather k x).board = s.board := rfl
@[simp] theorem State.setGather_flash (s : State) (k : Nat) (x : Gather) : (s.setGather k x).flash = s.flash := rfl
@[simp] theorem State.setGather_sec (s : State) (k : Nat) (x : Gather) : (s.setGather k x).sec = s.sec := rfl
@[simp] theorem State.setGather_mem (s : State) (k : Nat) (x : Gather) : (s.setGather k x).mem = s.mem := rfl
@[simp] theorem State.setGather_homes (s : State) (k : Nat) (x : Gather) : (s.setGather k x).homes = s.homes := rfl
@[simp] theorem State.setGather_pl (s : State) (k : Nat) (x : Gather) : (s.setGather k x).pl = s.pl := rfl
@[simp] theorem State.setGather_fab (s : State) (k : Nat) (x : Gather) : (s.setGather k x).fab = s.fab := rfl
@[simp] theorem State.setGather_cores (s : State) (k : Nat) (x : Gather) : (s.setGather k x).cores = s.cores := rfl
@[simp] theorem State.setGather_cells (s : State) (k : Nat) (x : Gather) : (s.setGather k x).cells = s.cells := rfl
@[simp] theorem State.setGather_flights (s : State) (k : Nat) (x : Gather) : (s.setGather k x).flights = s.flights := rfl
@[simp] theorem State.setGather_draws (s : State) (k : Nat) (x : Gather) : (s.setGather k x).draws = s.draws := rfl
@[simp] theorem State.setGather_reply (s : State) (k : Nat) (x : Gather) : (s.setGather k x).reply = s.reply := rfl
@[simp] theorem State.setGather_replyPort (s : State) (k : Nat) (x : Gather) : (s.setGather k x).replyPort = s.replyPort := rfl
@[simp] theorem State.setGather_pending (s : State) (k : Nat) (x : Gather) : (s.setGather k x).pending = s.pending := rfl

@[simp] theorem State.setCtx_regs (s : State) (k : Nat) (x : Context) : (s.setCtx k x).regs = s.regs := rfl
@[simp] theorem State.setCtx_time (s : State) (k : Nat) (x : Context) : (s.setCtx k x).time = s.time := rfl
@[simp] theorem State.setCtx_board (s : State) (k : Nat) (x : Context) : (s.setCtx k x).board = s.board := rfl
@[simp] theorem State.setCtx_flash (s : State) (k : Nat) (x : Context) : (s.setCtx k x).flash = s.flash := rfl
@[simp] theorem State.setCtx_sec (s : State) (k : Nat) (x : Context) : (s.setCtx k x).sec = s.sec := rfl
@[simp] theorem State.setCtx_mem (s : State) (k : Nat) (x : Context) : (s.setCtx k x).mem = s.mem := rfl
@[simp] theorem State.setCtx_homes (s : State) (k : Nat) (x : Context) : (s.setCtx k x).homes = s.homes := rfl
@[simp] theorem State.setCtx_fab (s : State) (k : Nat) (x : Context) : (s.setCtx k x).fab = s.fab := rfl
@[simp] theorem State.setCtx_cores (s : State) (k : Nat) (x : Context) : (s.setCtx k x).cores = s.cores := rfl
@[simp] theorem State.setCtx_cells (s : State) (k : Nat) (x : Context) : (s.setCtx k x).cells = s.cells := rfl
@[simp] theorem State.setCtx_flights (s : State) (k : Nat) (x : Context) : (s.setCtx k x).flights = s.flights := rfl
@[simp] theorem State.setCtx_gathers (s : State) (k : Nat) (x : Context) : (s.setCtx k x).gathers = s.gathers := rfl
@[simp] theorem State.setCtx_draws (s : State) (k : Nat) (x : Context) : (s.setCtx k x).draws = s.draws := rfl
@[simp] theorem State.setCtx_reply (s : State) (k : Nat) (x : Context) : (s.setCtx k x).reply = s.reply := rfl
@[simp] theorem State.setCtx_replyPort (s : State) (k : Nat) (x : Context) : (s.setCtx k x).replyPort = s.replyPort := rfl
@[simp] theorem State.setCtx_pending (s : State) (k : Nat) (x : Context) : (s.setCtx k x).pending = s.pending := rfl

@[simp] theorem State.setQueue_regs (s : State) (k : Nat) (x : Queue) : (s.setQueue k x).regs = s.regs := rfl
@[simp] theorem State.setQueue_time (s : State) (k : Nat) (x : Queue) : (s.setQueue k x).time = s.time := rfl
@[simp] theorem State.setQueue_board (s : State) (k : Nat) (x : Queue) : (s.setQueue k x).board = s.board := rfl
@[simp] theorem State.setQueue_flash (s : State) (k : Nat) (x : Queue) : (s.setQueue k x).flash = s.flash := rfl
@[simp] theorem State.setQueue_sec (s : State) (k : Nat) (x : Queue) : (s.setQueue k x).sec = s.sec := rfl
@[simp] theorem State.setQueue_mem (s : State) (k : Nat) (x : Queue) : (s.setQueue k x).mem = s.mem := rfl
@[simp] theorem State.setQueue_homes (s : State) (k : Nat) (x : Queue) : (s.setQueue k x).homes = s.homes := rfl
@[simp] theorem State.setQueue_fab (s : State) (k : Nat) (x : Queue) : (s.setQueue k x).fab = s.fab := rfl
@[simp] theorem State.setQueue_cores (s : State) (k : Nat) (x : Queue) : (s.setQueue k x).cores = s.cores := rfl
@[simp] theorem State.setQueue_cells (s : State) (k : Nat) (x : Queue) : (s.setQueue k x).cells = s.cells := rfl
@[simp] theorem State.setQueue_flights (s : State) (k : Nat) (x : Queue) : (s.setQueue k x).flights = s.flights := rfl
@[simp] theorem State.setQueue_gathers (s : State) (k : Nat) (x : Queue) : (s.setQueue k x).gathers = s.gathers := rfl
@[simp] theorem State.setQueue_draws (s : State) (k : Nat) (x : Queue) : (s.setQueue k x).draws = s.draws := rfl
@[simp] theorem State.setQueue_reply (s : State) (k : Nat) (x : Queue) : (s.setQueue k x).reply = s.reply := rfl
@[simp] theorem State.setQueue_replyPort (s : State) (k : Nat) (x : Queue) : (s.setQueue k x).replyPort = s.replyPort := rfl
@[simp] theorem State.setQueue_pending (s : State) (k : Nat) (x : Queue) : (s.setQueue k x).pending = s.pending := rfl

@[simp] theorem State.setIrq_regs (s : State) (k : Nat) (x : IrqSource) : (s.setIrq k x).regs = s.regs := rfl
@[simp] theorem State.setIrq_time (s : State) (k : Nat) (x : IrqSource) : (s.setIrq k x).time = s.time := rfl
@[simp] theorem State.setIrq_board (s : State) (k : Nat) (x : IrqSource) : (s.setIrq k x).board = s.board := rfl
@[simp] theorem State.setIrq_flash (s : State) (k : Nat) (x : IrqSource) : (s.setIrq k x).flash = s.flash := rfl
@[simp] theorem State.setIrq_sec (s : State) (k : Nat) (x : IrqSource) : (s.setIrq k x).sec = s.sec := rfl
@[simp] theorem State.setIrq_mem (s : State) (k : Nat) (x : IrqSource) : (s.setIrq k x).mem = s.mem := rfl
@[simp] theorem State.setIrq_homes (s : State) (k : Nat) (x : IrqSource) : (s.setIrq k x).homes = s.homes := rfl
@[simp] theorem State.setIrq_fab (s : State) (k : Nat) (x : IrqSource) : (s.setIrq k x).fab = s.fab := rfl
@[simp] theorem State.setIrq_cores (s : State) (k : Nat) (x : IrqSource) : (s.setIrq k x).cores = s.cores := rfl
@[simp] theorem State.setIrq_cells (s : State) (k : Nat) (x : IrqSource) : (s.setIrq k x).cells = s.cells := rfl
@[simp] theorem State.setIrq_flights (s : State) (k : Nat) (x : IrqSource) : (s.setIrq k x).flights = s.flights := rfl
@[simp] theorem State.setIrq_gathers (s : State) (k : Nat) (x : IrqSource) : (s.setIrq k x).gathers = s.gathers := rfl
@[simp] theorem State.setIrq_draws (s : State) (k : Nat) (x : IrqSource) : (s.setIrq k x).draws = s.draws := rfl
@[simp] theorem State.setIrq_reply (s : State) (k : Nat) (x : IrqSource) : (s.setIrq k x).reply = s.reply := rfl
@[simp] theorem State.setIrq_replyPort (s : State) (k : Nat) (x : IrqSource) : (s.setIrq k x).replyPort = s.replyPort := rfl
@[simp] theorem State.setIrq_pending (s : State) (k : Nat) (x : IrqSource) : (s.setIrq k x).pending = s.pending := rfl

@[simp] theorem State.setHart_regs (s : State) (k : Nat) (x : Hart) : (s.setHart k x).regs = s.regs := rfl
@[simp] theorem State.setHart_time (s : State) (k : Nat) (x : Hart) : (s.setHart k x).time = s.time := rfl
@[simp] theorem State.setHart_board (s : State) (k : Nat) (x : Hart) : (s.setHart k x).board = s.board := rfl
@[simp] theorem State.setHart_flash (s : State) (k : Nat) (x : Hart) : (s.setHart k x).flash = s.flash := rfl
@[simp] theorem State.setHart_sec (s : State) (k : Nat) (x : Hart) : (s.setHart k x).sec = s.sec := rfl
@[simp] theorem State.setHart_mem (s : State) (k : Nat) (x : Hart) : (s.setHart k x).mem = s.mem := rfl
@[simp] theorem State.setHart_homes (s : State) (k : Nat) (x : Hart) : (s.setHart k x).homes = s.homes := rfl
@[simp] theorem State.setHart_fab (s : State) (k : Nat) (x : Hart) : (s.setHart k x).fab = s.fab := rfl
@[simp] theorem State.setHart_cores (s : State) (k : Nat) (x : Hart) : (s.setHart k x).cores = s.cores := rfl
@[simp] theorem State.setHart_cells (s : State) (k : Nat) (x : Hart) : (s.setHart k x).cells = s.cells := rfl
@[simp] theorem State.setHart_flights (s : State) (k : Nat) (x : Hart) : (s.setHart k x).flights = s.flights := rfl
@[simp] theorem State.setHart_gathers (s : State) (k : Nat) (x : Hart) : (s.setHart k x).gathers = s.gathers := rfl
@[simp] theorem State.setHart_draws (s : State) (k : Nat) (x : Hart) : (s.setHart k x).draws = s.draws := rfl
@[simp] theorem State.setHart_reply (s : State) (k : Nat) (x : Hart) : (s.setHart k x).reply = s.reply := rfl
@[simp] theorem State.setHart_replyPort (s : State) (k : Nat) (x : Hart) : (s.setHart k x).replyPort = s.replyPort := rfl
@[simp] theorem State.setHart_pending (s : State) (k : Nat) (x : Hart) : (s.setHart k x).pending = s.pending := rfl

@[simp] theorem State.setCfg_regs (s : State) (k : Nat) (x : FuncCfg) : (s.setCfg k x).regs = s.regs := rfl
@[simp] theorem State.setCfg_time (s : State) (k : Nat) (x : FuncCfg) : (s.setCfg k x).time = s.time := rfl
@[simp] theorem State.setCfg_board (s : State) (k : Nat) (x : FuncCfg) : (s.setCfg k x).board = s.board := rfl
@[simp] theorem State.setCfg_flash (s : State) (k : Nat) (x : FuncCfg) : (s.setCfg k x).flash = s.flash := rfl
@[simp] theorem State.setCfg_sec (s : State) (k : Nat) (x : FuncCfg) : (s.setCfg k x).sec = s.sec := rfl
@[simp] theorem State.setCfg_mem (s : State) (k : Nat) (x : FuncCfg) : (s.setCfg k x).mem = s.mem := rfl
@[simp] theorem State.setCfg_homes (s : State) (k : Nat) (x : FuncCfg) : (s.setCfg k x).homes = s.homes := rfl
@[simp] theorem State.setCfg_fab (s : State) (k : Nat) (x : FuncCfg) : (s.setCfg k x).fab = s.fab := rfl
@[simp] theorem State.setCfg_cores (s : State) (k : Nat) (x : FuncCfg) : (s.setCfg k x).cores = s.cores := rfl
@[simp] theorem State.setCfg_cells (s : State) (k : Nat) (x : FuncCfg) : (s.setCfg k x).cells = s.cells := rfl
@[simp] theorem State.setCfg_flights (s : State) (k : Nat) (x : FuncCfg) : (s.setCfg k x).flights = s.flights := rfl
@[simp] theorem State.setCfg_gathers (s : State) (k : Nat) (x : FuncCfg) : (s.setCfg k x).gathers = s.gathers := rfl
@[simp] theorem State.setCfg_draws (s : State) (k : Nat) (x : FuncCfg) : (s.setCfg k x).draws = s.draws := rfl
@[simp] theorem State.setCfg_reply (s : State) (k : Nat) (x : FuncCfg) : (s.setCfg k x).reply = s.reply := rfl
@[simp] theorem State.setCfg_replyPort (s : State) (k : Nat) (x : FuncCfg) : (s.setCfg k x).replyPort = s.replyPort := rfl
@[simp] theorem State.setCfg_pending (s : State) (k : Nat) (x : FuncCfg) : (s.setCfg k x).pending = s.pending := rfl

@[simp] theorem State.setMon_regs (s : State) (k : Nat) (x : MonSlot) : (s.setMon k x).regs = s.regs := rfl
@[simp] theorem State.setMon_time (s : State) (k : Nat) (x : MonSlot) : (s.setMon k x).time = s.time := rfl
@[simp] theorem State.setMon_board (s : State) (k : Nat) (x : MonSlot) : (s.setMon k x).board = s.board := rfl
@[simp] theorem State.setMon_flash (s : State) (k : Nat) (x : MonSlot) : (s.setMon k x).flash = s.flash := rfl
@[simp] theorem State.setMon_sec (s : State) (k : Nat) (x : MonSlot) : (s.setMon k x).sec = s.sec := rfl
@[simp] theorem State.setMon_mem (s : State) (k : Nat) (x : MonSlot) : (s.setMon k x).mem = s.mem := rfl
@[simp] theorem State.setMon_homes (s : State) (k : Nat) (x : MonSlot) : (s.setMon k x).homes = s.homes := rfl
@[simp] theorem State.setMon_fab (s : State) (k : Nat) (x : MonSlot) : (s.setMon k x).fab = s.fab := rfl
@[simp] theorem State.setMon_cores (s : State) (k : Nat) (x : MonSlot) : (s.setMon k x).cores = s.cores := rfl
@[simp] theorem State.setMon_cells (s : State) (k : Nat) (x : MonSlot) : (s.setMon k x).cells = s.cells := rfl
@[simp] theorem State.setMon_flights (s : State) (k : Nat) (x : MonSlot) : (s.setMon k x).flights = s.flights := rfl
@[simp] theorem State.setMon_gathers (s : State) (k : Nat) (x : MonSlot) : (s.setMon k x).gathers = s.gathers := rfl
@[simp] theorem State.setMon_draws (s : State) (k : Nat) (x : MonSlot) : (s.setMon k x).draws = s.draws := rfl
@[simp] theorem State.setMon_reply (s : State) (k : Nat) (x : MonSlot) : (s.setMon k x).reply = s.reply := rfl
@[simp] theorem State.setMon_replyPort (s : State) (k : Nat) (x : MonSlot) : (s.setMon k x).replyPort = s.replyPort := rfl
@[simp] theorem State.setMon_pending (s : State) (k : Nat) (x : MonSlot) : (s.setMon k x).pending = s.pending := rfl

@[simp] theorem State.setDb_regs (s : State) (k : Nat) (x : DbPage) : (s.setDb k x).regs = s.regs := rfl
@[simp] theorem State.setDb_time (s : State) (k : Nat) (x : DbPage) : (s.setDb k x).time = s.time := rfl
@[simp] theorem State.setDb_board (s : State) (k : Nat) (x : DbPage) : (s.setDb k x).board = s.board := rfl
@[simp] theorem State.setDb_flash (s : State) (k : Nat) (x : DbPage) : (s.setDb k x).flash = s.flash := rfl
@[simp] theorem State.setDb_sec (s : State) (k : Nat) (x : DbPage) : (s.setDb k x).sec = s.sec := rfl
@[simp] theorem State.setDb_mem (s : State) (k : Nat) (x : DbPage) : (s.setDb k x).mem = s.mem := rfl
@[simp] theorem State.setDb_homes (s : State) (k : Nat) (x : DbPage) : (s.setDb k x).homes = s.homes := rfl
@[simp] theorem State.setDb_fab (s : State) (k : Nat) (x : DbPage) : (s.setDb k x).fab = s.fab := rfl
@[simp] theorem State.setDb_cores (s : State) (k : Nat) (x : DbPage) : (s.setDb k x).cores = s.cores := rfl
@[simp] theorem State.setDb_cells (s : State) (k : Nat) (x : DbPage) : (s.setDb k x).cells = s.cells := rfl
@[simp] theorem State.setDb_flights (s : State) (k : Nat) (x : DbPage) : (s.setDb k x).flights = s.flights := rfl
@[simp] theorem State.setDb_gathers (s : State) (k : Nat) (x : DbPage) : (s.setDb k x).gathers = s.gathers := rfl
@[simp] theorem State.setDb_draws (s : State) (k : Nat) (x : DbPage) : (s.setDb k x).draws = s.draws := rfl
@[simp] theorem State.setDb_reply (s : State) (k : Nat) (x : DbPage) : (s.setDb k x).reply = s.reply := rfl
@[simp] theorem State.setDb_replyPort (s : State) (k : Nat) (x : DbPage) : (s.setDb k x).replyPort = s.replyPort := rfl
@[simp] theorem State.setDb_pending (s : State) (k : Nat) (x : DbPage) : (s.setDb k x).pending = s.pending := rfl

@[simp] theorem State.setFreq_regs (s : State) (k : Nat) (x : FuncReqs) : (s.setFreq k x).regs = s.regs := rfl
@[simp] theorem State.setFreq_time (s : State) (k : Nat) (x : FuncReqs) : (s.setFreq k x).time = s.time := rfl
@[simp] theorem State.setFreq_board (s : State) (k : Nat) (x : FuncReqs) : (s.setFreq k x).board = s.board := rfl
@[simp] theorem State.setFreq_flash (s : State) (k : Nat) (x : FuncReqs) : (s.setFreq k x).flash = s.flash := rfl
@[simp] theorem State.setFreq_sec (s : State) (k : Nat) (x : FuncReqs) : (s.setFreq k x).sec = s.sec := rfl
@[simp] theorem State.setFreq_mem (s : State) (k : Nat) (x : FuncReqs) : (s.setFreq k x).mem = s.mem := rfl
@[simp] theorem State.setFreq_homes (s : State) (k : Nat) (x : FuncReqs) : (s.setFreq k x).homes = s.homes := rfl
@[simp] theorem State.setFreq_fab (s : State) (k : Nat) (x : FuncReqs) : (s.setFreq k x).fab = s.fab := rfl
@[simp] theorem State.setFreq_cores (s : State) (k : Nat) (x : FuncReqs) : (s.setFreq k x).cores = s.cores := rfl
@[simp] theorem State.setFreq_cells (s : State) (k : Nat) (x : FuncReqs) : (s.setFreq k x).cells = s.cells := rfl
@[simp] theorem State.setFreq_flights (s : State) (k : Nat) (x : FuncReqs) : (s.setFreq k x).flights = s.flights := rfl
@[simp] theorem State.setFreq_gathers (s : State) (k : Nat) (x : FuncReqs) : (s.setFreq k x).gathers = s.gathers := rfl
@[simp] theorem State.setFreq_draws (s : State) (k : Nat) (x : FuncReqs) : (s.setFreq k x).draws = s.draws := rfl
@[simp] theorem State.setFreq_reply (s : State) (k : Nat) (x : FuncReqs) : (s.setFreq k x).reply = s.reply := rfl
@[simp] theorem State.setFreq_replyPort (s : State) (k : Nat) (x : FuncReqs) : (s.setFreq k x).replyPort = s.replyPort := rfl
@[simp] theorem State.setFreq_pending (s : State) (k : Nat) (x : FuncReqs) : (s.setFreq k x).pending = s.pending := rfl

@[simp] theorem State.setMsix_regs (s : State) (f v : Nat) (x : MsixEntry) : (s.setMsix f v x).regs = s.regs := rfl
@[simp] theorem State.setMsix_time (s : State) (f v : Nat) (x : MsixEntry) : (s.setMsix f v x).time = s.time := rfl
@[simp] theorem State.setMsix_board (s : State) (f v : Nat) (x : MsixEntry) : (s.setMsix f v x).board = s.board := rfl
@[simp] theorem State.setMsix_flash (s : State) (f v : Nat) (x : MsixEntry) : (s.setMsix f v x).flash = s.flash := rfl
@[simp] theorem State.setMsix_sec (s : State) (f v : Nat) (x : MsixEntry) : (s.setMsix f v x).sec = s.sec := rfl
@[simp] theorem State.setMsix_mem (s : State) (f v : Nat) (x : MsixEntry) : (s.setMsix f v x).mem = s.mem := rfl
@[simp] theorem State.setMsix_homes (s : State) (f v : Nat) (x : MsixEntry) : (s.setMsix f v x).homes = s.homes := rfl
@[simp] theorem State.setMsix_fab (s : State) (f v : Nat) (x : MsixEntry) : (s.setMsix f v x).fab = s.fab := rfl
@[simp] theorem State.setMsix_cores (s : State) (f v : Nat) (x : MsixEntry) : (s.setMsix f v x).cores = s.cores := rfl
@[simp] theorem State.setMsix_cells (s : State) (f v : Nat) (x : MsixEntry) : (s.setMsix f v x).cells = s.cells := rfl
@[simp] theorem State.setMsix_flights (s : State) (f v : Nat) (x : MsixEntry) : (s.setMsix f v x).flights = s.flights := rfl
@[simp] theorem State.setMsix_gathers (s : State) (f v : Nat) (x : MsixEntry) : (s.setMsix f v x).gathers = s.gathers := rfl
@[simp] theorem State.setMsix_draws (s : State) (f v : Nat) (x : MsixEntry) : (s.setMsix f v x).draws = s.draws := rfl
@[simp] theorem State.setMsix_reply (s : State) (f v : Nat) (x : MsixEntry) : (s.setMsix f v x).reply = s.reply := rfl
@[simp] theorem State.setMsix_replyPort (s : State) (f v : Nat) (x : MsixEntry) : (s.setMsix f v x).replyPort = s.replyPort := rfl
@[simp] theorem State.setMsix_pending (s : State) (f v : Nat) (x : MsixEntry) : (s.setMsix f v x).pending = s.pending := rfl

@[simp] theorem State.send_regs (s : State) (f : Nat) (m : OutMsg) : (s.send f m).regs = s.regs := rfl
@[simp] theorem State.send_time (s : State) (f : Nat) (m : OutMsg) : (s.send f m).time = s.time := rfl
@[simp] theorem State.send_board (s : State) (f : Nat) (m : OutMsg) : (s.send f m).board = s.board := rfl
@[simp] theorem State.send_flash (s : State) (f : Nat) (m : OutMsg) : (s.send f m).flash = s.flash := rfl
@[simp] theorem State.send_sec (s : State) (f : Nat) (m : OutMsg) : (s.send f m).sec = s.sec := rfl
@[simp] theorem State.send_mem (s : State) (f : Nat) (m : OutMsg) : (s.send f m).mem = s.mem := rfl
@[simp] theorem State.send_homes (s : State) (f : Nat) (m : OutMsg) : (s.send f m).homes = s.homes := rfl
@[simp] theorem State.send_fab (s : State) (f : Nat) (m : OutMsg) : (s.send f m).fab = s.fab := rfl
@[simp] theorem State.send_cores (s : State) (f : Nat) (m : OutMsg) : (s.send f m).cores = s.cores := rfl
@[simp] theorem State.send_cells (s : State) (f : Nat) (m : OutMsg) : (s.send f m).cells = s.cells := rfl
@[simp] theorem State.send_flights (s : State) (f : Nat) (m : OutMsg) : (s.send f m).flights = s.flights := rfl
@[simp] theorem State.send_gathers (s : State) (f : Nat) (m : OutMsg) : (s.send f m).gathers = s.gathers := rfl
@[simp] theorem State.send_draws (s : State) (f : Nat) (m : OutMsg) : (s.send f m).draws = s.draws := rfl
@[simp] theorem State.send_reply (s : State) (f : Nat) (m : OutMsg) : (s.send f m).reply = s.reply := rfl
@[simp] theorem State.send_replyPort (s : State) (f : Nat) (m : OutMsg) : (s.send f m).replyPort = s.replyPort := rfl
@[simp] theorem State.send_pending (s : State) (f : Nat) (m : OutMsg) : (s.send f m).pending = s.pending := rfl

@[simp] theorem State.setFrame_regs (s : State) (k : Nat) (x : Frame) : (s.setFrame k x).regs = s.regs := rfl
@[simp] theorem State.setFrame_time (s : State) (k : Nat) (x : Frame) : (s.setFrame k x).time = s.time := rfl
@[simp] theorem State.setFrame_board (s : State) (k : Nat) (x : Frame) : (s.setFrame k x).board = s.board := rfl
@[simp] theorem State.setFrame_flash (s : State) (k : Nat) (x : Frame) : (s.setFrame k x).flash = s.flash := rfl
@[simp] theorem State.setFrame_sec (s : State) (k : Nat) (x : Frame) : (s.setFrame k x).sec = s.sec := rfl
@[simp] theorem State.setFrame_homes (s : State) (k : Nat) (x : Frame) : (s.setFrame k x).homes = s.homes := rfl
@[simp] theorem State.setFrame_pl (s : State) (k : Nat) (x : Frame) : (s.setFrame k x).pl = s.pl := rfl
@[simp] theorem State.setFrame_fab (s : State) (k : Nat) (x : Frame) : (s.setFrame k x).fab = s.fab := rfl
@[simp] theorem State.setFrame_cores (s : State) (k : Nat) (x : Frame) : (s.setFrame k x).cores = s.cores := rfl
@[simp] theorem State.setFrame_cells (s : State) (k : Nat) (x : Frame) : (s.setFrame k x).cells = s.cells := rfl
@[simp] theorem State.setFrame_flights (s : State) (k : Nat) (x : Frame) : (s.setFrame k x).flights = s.flights := rfl
@[simp] theorem State.setFrame_gathers (s : State) (k : Nat) (x : Frame) : (s.setFrame k x).gathers = s.gathers := rfl
@[simp] theorem State.setFrame_draws (s : State) (k : Nat) (x : Frame) : (s.setFrame k x).draws = s.draws := rfl
@[simp] theorem State.setFrame_reply (s : State) (k : Nat) (x : Frame) : (s.setFrame k x).reply = s.reply := rfl
@[simp] theorem State.setFrame_replyPort (s : State) (k : Nat) (x : Frame) : (s.setFrame k x).replyPort = s.replyPort := rfl
@[simp] theorem State.setFrame_pending (s : State) (k : Nat) (x : Frame) : (s.setFrame k x).pending = s.pending := rfl

@[simp] theorem State.setBank_regs (s : State) (k : Nat) (x : Bank) : (s.setBank k x).regs = s.regs := rfl
@[simp] theorem State.setBank_time (s : State) (k : Nat) (x : Bank) : (s.setBank k x).time = s.time := rfl
@[simp] theorem State.setBank_board (s : State) (k : Nat) (x : Bank) : (s.setBank k x).board = s.board := rfl
@[simp] theorem State.setBank_flash (s : State) (k : Nat) (x : Bank) : (s.setBank k x).flash = s.flash := rfl
@[simp] theorem State.setBank_sec (s : State) (k : Nat) (x : Bank) : (s.setBank k x).sec = s.sec := rfl
@[simp] theorem State.setBank_homes (s : State) (k : Nat) (x : Bank) : (s.setBank k x).homes = s.homes := rfl
@[simp] theorem State.setBank_pl (s : State) (k : Nat) (x : Bank) : (s.setBank k x).pl = s.pl := rfl
@[simp] theorem State.setBank_fab (s : State) (k : Nat) (x : Bank) : (s.setBank k x).fab = s.fab := rfl
@[simp] theorem State.setBank_cores (s : State) (k : Nat) (x : Bank) : (s.setBank k x).cores = s.cores := rfl
@[simp] theorem State.setBank_cells (s : State) (k : Nat) (x : Bank) : (s.setBank k x).cells = s.cells := rfl
@[simp] theorem State.setBank_flights (s : State) (k : Nat) (x : Bank) : (s.setBank k x).flights = s.flights := rfl
@[simp] theorem State.setBank_gathers (s : State) (k : Nat) (x : Bank) : (s.setBank k x).gathers = s.gathers := rfl
@[simp] theorem State.setBank_draws (s : State) (k : Nat) (x : Bank) : (s.setBank k x).draws = s.draws := rfl
@[simp] theorem State.setBank_reply (s : State) (k : Nat) (x : Bank) : (s.setBank k x).reply = s.reply := rfl
@[simp] theorem State.setBank_replyPort (s : State) (k : Nat) (x : Bank) : (s.setBank k x).replyPort = s.replyPort := rfl
@[simp] theorem State.setBank_pending (s : State) (k : Nat) (x : Bank) : (s.setBank k x).pending = s.pending := rfl

@[simp] theorem State.setPort_regs (s : State) (k : Nat) (x : Port) : (s.setPort k x).regs = s.regs := rfl
@[simp] theorem State.setPort_time (s : State) (k : Nat) (x : Port) : (s.setPort k x).time = s.time := rfl
@[simp] theorem State.setPort_board (s : State) (k : Nat) (x : Port) : (s.setPort k x).board = s.board := rfl
@[simp] theorem State.setPort_flash (s : State) (k : Nat) (x : Port) : (s.setPort k x).flash = s.flash := rfl
@[simp] theorem State.setPort_sec (s : State) (k : Nat) (x : Port) : (s.setPort k x).sec = s.sec := rfl
@[simp] theorem State.setPort_mem (s : State) (k : Nat) (x : Port) : (s.setPort k x).mem = s.mem := rfl
@[simp] theorem State.setPort_homes (s : State) (k : Nat) (x : Port) : (s.setPort k x).homes = s.homes := rfl
@[simp] theorem State.setPort_pl (s : State) (k : Nat) (x : Port) : (s.setPort k x).pl = s.pl := rfl
@[simp] theorem State.setPort_cores (s : State) (k : Nat) (x : Port) : (s.setPort k x).cores = s.cores := rfl
@[simp] theorem State.setPort_cells (s : State) (k : Nat) (x : Port) : (s.setPort k x).cells = s.cells := rfl
@[simp] theorem State.setPort_flights (s : State) (k : Nat) (x : Port) : (s.setPort k x).flights = s.flights := rfl
@[simp] theorem State.setPort_gathers (s : State) (k : Nat) (x : Port) : (s.setPort k x).gathers = s.gathers := rfl
@[simp] theorem State.setPort_draws (s : State) (k : Nat) (x : Port) : (s.setPort k x).draws = s.draws := rfl
@[simp] theorem State.setPort_reply (s : State) (k : Nat) (x : Port) : (s.setPort k x).reply = s.reply := rfl
@[simp] theorem State.setPort_replyPort (s : State) (k : Nat) (x : Port) : (s.setPort k x).replyPort = s.replyPort := rfl
@[simp] theorem State.setPort_pending (s : State) (k : Nat) (x : Port) : (s.setPort k x).pending = s.pending := rfl

@[simp] theorem State.setJob_regs (s : State) (k : Nat) (x : Job) : (s.setJob k x).regs = s.regs := rfl
@[simp] theorem State.setJob_time (s : State) (k : Nat) (x : Job) : (s.setJob k x).time = s.time := rfl
@[simp] theorem State.setJob_board (s : State) (k : Nat) (x : Job) : (s.setJob k x).board = s.board := rfl
@[simp] theorem State.setJob_flash (s : State) (k : Nat) (x : Job) : (s.setJob k x).flash = s.flash := rfl
@[simp] theorem State.setJob_sec (s : State) (k : Nat) (x : Job) : (s.setJob k x).sec = s.sec := rfl
@[simp] theorem State.setJob_mem (s : State) (k : Nat) (x : Job) : (s.setJob k x).mem = s.mem := rfl
@[simp] theorem State.setJob_homes (s : State) (k : Nat) (x : Job) : (s.setJob k x).homes = s.homes := rfl
@[simp] theorem State.setJob_pl (s : State) (k : Nat) (x : Job) : (s.setJob k x).pl = s.pl := rfl
@[simp] theorem State.setJob_cores (s : State) (k : Nat) (x : Job) : (s.setJob k x).cores = s.cores := rfl
@[simp] theorem State.setJob_cells (s : State) (k : Nat) (x : Job) : (s.setJob k x).cells = s.cells := rfl
@[simp] theorem State.setJob_flights (s : State) (k : Nat) (x : Job) : (s.setJob k x).flights = s.flights := rfl
@[simp] theorem State.setJob_gathers (s : State) (k : Nat) (x : Job) : (s.setJob k x).gathers = s.gathers := rfl
@[simp] theorem State.setJob_draws (s : State) (k : Nat) (x : Job) : (s.setJob k x).draws = s.draws := rfl
@[simp] theorem State.setJob_reply (s : State) (k : Nat) (x : Job) : (s.setJob k x).reply = s.reply := rfl
@[simp] theorem State.setJob_replyPort (s : State) (k : Nat) (x : Job) : (s.setJob k x).replyPort = s.replyPort := rfl
@[simp] theorem State.setJob_pending (s : State) (k : Nat) (x : Job) : (s.setJob k x).pending = s.pending := rfl

@[simp] theorem State.setRing_regs (s : State) (k : Nat) (x : Ring) : (s.setRing k x).regs = s.regs := rfl
@[simp] theorem State.setRing_time (s : State) (k : Nat) (x : Ring) : (s.setRing k x).time = s.time := rfl
@[simp] theorem State.setRing_board (s : State) (k : Nat) (x : Ring) : (s.setRing k x).board = s.board := rfl
@[simp] theorem State.setRing_flash (s : State) (k : Nat) (x : Ring) : (s.setRing k x).flash = s.flash := rfl
@[simp] theorem State.setRing_sec (s : State) (k : Nat) (x : Ring) : (s.setRing k x).sec = s.sec := rfl
@[simp] theorem State.setRing_mem (s : State) (k : Nat) (x : Ring) : (s.setRing k x).mem = s.mem := rfl
@[simp] theorem State.setRing_homes (s : State) (k : Nat) (x : Ring) : (s.setRing k x).homes = s.homes := rfl
@[simp] theorem State.setRing_pl (s : State) (k : Nat) (x : Ring) : (s.setRing k x).pl = s.pl := rfl
@[simp] theorem State.setRing_cores (s : State) (k : Nat) (x : Ring) : (s.setRing k x).cores = s.cores := rfl
@[simp] theorem State.setRing_cells (s : State) (k : Nat) (x : Ring) : (s.setRing k x).cells = s.cells := rfl
@[simp] theorem State.setRing_flights (s : State) (k : Nat) (x : Ring) : (s.setRing k x).flights = s.flights := rfl
@[simp] theorem State.setRing_gathers (s : State) (k : Nat) (x : Ring) : (s.setRing k x).gathers = s.gathers := rfl
@[simp] theorem State.setRing_draws (s : State) (k : Nat) (x : Ring) : (s.setRing k x).draws = s.draws := rfl
@[simp] theorem State.setRing_reply (s : State) (k : Nat) (x : Ring) : (s.setRing k x).reply = s.reply := rfl
@[simp] theorem State.setRing_replyPort (s : State) (k : Nat) (x : Ring) : (s.setRing k x).replyPort = s.replyPort := rfl
@[simp] theorem State.setRing_pending (s : State) (k : Nat) (x : Ring) : (s.setRing k x).pending = s.pending := rfl

end Sys2Proof.Machine
end

