-- ==== Sys2Proof/Laws/Ops.lean ====
section
/-! SUPPORT. What the shared operations leave as it was: entries of the Patina log, interrupt events, counters, snoops and reservations. -/

namespace Sys2Proof.Machine

/-! ## Patina (16 R488 to R491) -/

@[simp] theorem State.mirrorOne_time (s : State) : (s.mirrorOne ).time = s.time := rfl
@[simp] theorem State.mirrorOne_board (s : State) : (s.mirrorOne ).board = s.board := rfl
@[simp] theorem State.mirrorOne_flash (s : State) : (s.mirrorOne ).flash = s.flash := rfl
@[simp] theorem State.mirrorOne_sec (s : State) : (s.mirrorOne ).sec = s.sec := rfl
@[simp] theorem State.mirrorOne_mem (s : State) : (s.mirrorOne ).mem = s.mem := rfl
@[simp] theorem State.mirrorOne_homes (s : State) : (s.mirrorOne ).homes = s.homes := rfl
@[simp] theorem State.mirrorOne_fab (s : State) : (s.mirrorOne ).fab = s.fab := rfl
@[simp] theorem State.mirrorOne_cores (s : State) : (s.mirrorOne ).cores = s.cores := rfl
@[simp] theorem State.mirrorOne_cells (s : State) : (s.mirrorOne ).cells = s.cells := rfl
@[simp] theorem State.mirrorOne_flights (s : State) : (s.mirrorOne ).flights = s.flights := rfl
@[simp] theorem State.mirrorOne_gathers (s : State) : (s.mirrorOne ).gathers = s.gathers := rfl
@[simp] theorem State.mirrorOne_draws (s : State) : (s.mirrorOne ).draws = s.draws := rfl
@[simp] theorem State.mirrorOne_reply (s : State) : (s.mirrorOne ).reply = s.reply := rfl
@[simp] theorem State.mirrorOne_replyPort (s : State) : (s.mirrorOne ).replyPort = s.replyPort := rfl
@[simp] theorem State.mirrorOne_pending (s : State) : (s.mirrorOne ).pending = s.pending := rfl

@[simp] theorem State.mirrorMany_time (n : Nat) (s : State) : (State.mirrorMany n s).time = s.time := by
  induction n generalizing s with
  | zero => rfl
  | succ n ih => rw [State.mirrorMany, ih]; simp
@[simp] theorem State.mirrorMany_board (n : Nat) (s : State) : (State.mirrorMany n s).board = s.board := by
  induction n generalizing s with
  | zero => rfl
  | succ n ih => rw [State.mirrorMany, ih]; simp
@[simp] theorem State.mirrorMany_flash (n : Nat) (s : State) : (State.mirrorMany n s).flash = s.flash := by
  induction n generalizing s with
  | zero => rfl
  | succ n ih => rw [State.mirrorMany, ih]; simp
@[simp] theorem State.mirrorMany_sec (n : Nat) (s : State) : (State.mirrorMany n s).sec = s.sec := by
  induction n generalizing s with
  | zero => rfl
  | succ n ih => rw [State.mirrorMany, ih]; simp
@[simp] theorem State.mirrorMany_mem (n : Nat) (s : State) : (State.mirrorMany n s).mem = s.mem := by
  induction n generalizing s with
  | zero => rfl
  | succ n ih => rw [State.mirrorMany, ih]; simp
@[simp] theorem State.mirrorMany_homes (n : Nat) (s : State) : (State.mirrorMany n s).homes = s.homes := by
  induction n generalizing s with
  | zero => rfl
  | succ n ih => rw [State.mirrorMany, ih]; simp
@[simp] theorem State.mirrorMany_fab (n : Nat) (s : State) : (State.mirrorMany n s).fab = s.fab := by
  induction n generalizing s with
  | zero => rfl
  | succ n ih => rw [State.mirrorMany, ih]; simp
@[simp] theorem State.mirrorMany_cores (n : Nat) (s : State) : (State.mirrorMany n s).cores = s.cores := by
  induction n generalizing s with
  | zero => rfl
  | succ n ih => rw [State.mirrorMany, ih]; simp
@[simp] theorem State.mirrorMany_cells (n : Nat) (s : State) : (State.mirrorMany n s).cells = s.cells := by
  induction n generalizing s with
  | zero => rfl
  | succ n ih => rw [State.mirrorMany, ih]; simp
@[simp] theorem State.mirrorMany_flights (n : Nat) (s : State) : (State.mirrorMany n s).flights = s.flights := by
  induction n generalizing s with
  | zero => rfl
  | succ n ih => rw [State.mirrorMany, ih]; simp
@[simp] theorem State.mirrorMany_gathers (n : Nat) (s : State) : (State.mirrorMany n s).gathers = s.gathers := by
  induction n generalizing s with
  | zero => rfl
  | succ n ih => rw [State.mirrorMany, ih]; simp
@[simp] theorem State.mirrorMany_draws (n : Nat) (s : State) : (State.mirrorMany n s).draws = s.draws := by
  induction n generalizing s with
  | zero => rfl
  | succ n ih => rw [State.mirrorMany, ih]; simp
@[simp] theorem State.mirrorMany_reply (n : Nat) (s : State) : (State.mirrorMany n s).reply = s.reply := by
  induction n generalizing s with
  | zero => rfl
  | succ n ih => rw [State.mirrorMany, ih]; simp
@[simp] theorem State.mirrorMany_replyPort (n : Nat) (s : State) : (State.mirrorMany n s).replyPort = s.replyPort := by
  induction n generalizing s with
  | zero => rfl
  | succ n ih => rw [State.mirrorMany, ih]; simp
@[simp] theorem State.mirrorMany_pending (n : Nat) (s : State) : (State.mirrorMany n s).pending = s.pending := by
  induction n generalizing s with
  | zero => rfl
  | succ n ih => rw [State.mirrorMany, ih]; simp

@[simp] theorem State.mirrorFlush_time (s : State) : (s.mirrorFlush ).time = s.time := by unfold State.mirrorFlush; split <;> simp
@[simp] theorem State.mirrorFlush_board (s : State) : (s.mirrorFlush ).board = s.board := by unfold State.mirrorFlush; split <;> simp
@[simp] theorem State.mirrorFlush_flash (s : State) : (s.mirrorFlush ).flash = s.flash := by unfold State.mirrorFlush; split <;> simp
@[simp] theorem State.mirrorFlush_sec (s : State) : (s.mirrorFlush ).sec = s.sec := by unfold State.mirrorFlush; split <;> simp
@[simp] theorem State.mirrorFlush_mem (s : State) : (s.mirrorFlush ).mem = s.mem := by unfold State.mirrorFlush; split <;> simp
@[simp] theorem State.mirrorFlush_homes (s : State) : (s.mirrorFlush ).homes = s.homes := by unfold State.mirrorFlush; split <;> simp
@[simp] theorem State.mirrorFlush_fab (s : State) : (s.mirrorFlush ).fab = s.fab := by unfold State.mirrorFlush; split <;> simp
@[simp] theorem State.mirrorFlush_cores (s : State) : (s.mirrorFlush ).cores = s.cores := by unfold State.mirrorFlush; split <;> simp
@[simp] theorem State.mirrorFlush_cells (s : State) : (s.mirrorFlush ).cells = s.cells := by unfold State.mirrorFlush; split <;> simp
@[simp] theorem State.mirrorFlush_flights (s : State) : (s.mirrorFlush ).flights = s.flights := by unfold State.mirrorFlush; split <;> simp
@[simp] theorem State.mirrorFlush_gathers (s : State) : (s.mirrorFlush ).gathers = s.gathers := by unfold State.mirrorFlush; split <;> simp
@[simp] theorem State.mirrorFlush_draws (s : State) : (s.mirrorFlush ).draws = s.draws := by unfold State.mirrorFlush; split <;> simp
@[simp] theorem State.mirrorFlush_reply (s : State) : (s.mirrorFlush ).reply = s.reply := by unfold State.mirrorFlush; split <;> simp
@[simp] theorem State.mirrorFlush_replyPort (s : State) : (s.mirrorFlush ).replyPort = s.replyPort := by unfold State.mirrorFlush; split <;> simp
@[simp] theorem State.mirrorFlush_pending (s : State) : (s.mirrorFlush ).pending = s.pending := by unfold State.mirrorFlush; split <;> simp

@[simp] theorem State.placeEntry_time (s : State) (e : PatEntry) : (s.placeEntry e).time = s.time := by unfold State.placeEntry; dsimp only; split <;> simp
@[simp] theorem State.placeEntry_board (s : State) (e : PatEntry) : (s.placeEntry e).board = s.board := by unfold State.placeEntry; dsimp only; split <;> simp
@[simp] theorem State.placeEntry_flash (s : State) (e : PatEntry) : (s.placeEntry e).flash = s.flash := by unfold State.placeEntry; dsimp only; split <;> simp
@[simp] theorem State.placeEntry_sec (s : State) (e : PatEntry) : (s.placeEntry e).sec = s.sec := by unfold State.placeEntry; dsimp only; split <;> simp
@[simp] theorem State.placeEntry_mem (s : State) (e : PatEntry) : (s.placeEntry e).mem = s.mem := by unfold State.placeEntry; dsimp only; split <;> simp
@[simp] theorem State.placeEntry_homes (s : State) (e : PatEntry) : (s.placeEntry e).homes = s.homes := by unfold State.placeEntry; dsimp only; split <;> simp
@[simp] theorem State.placeEntry_fab (s : State) (e : PatEntry) : (s.placeEntry e).fab = s.fab := by unfold State.placeEntry; dsimp only; split <;> simp
@[simp] theorem State.placeEntry_cores (s : State) (e : PatEntry) : (s.placeEntry e).cores = s.cores := by unfold State.placeEntry; dsimp only; split <;> simp
@[simp] theorem State.placeEntry_cells (s : State) (e : PatEntry) : (s.placeEntry e).cells = s.cells := by unfold State.placeEntry; dsimp only; split <;> simp
@[simp] theorem State.placeEntry_flights (s : State) (e : PatEntry) : (s.placeEntry e).flights = s.flights := by unfold State.placeEntry; dsimp only; split <;> simp
@[simp] theorem State.placeEntry_gathers (s : State) (e : PatEntry) : (s.placeEntry e).gathers = s.gathers := by unfold State.placeEntry; dsimp only; split <;> simp
@[simp] theorem State.placeEntry_draws (s : State) (e : PatEntry) : (s.placeEntry e).draws = s.draws := by unfold State.placeEntry; dsimp only; split <;> simp
@[simp] theorem State.placeEntry_reply (s : State) (e : PatEntry) : (s.placeEntry e).reply = s.reply := by unfold State.placeEntry; dsimp only; split <;> simp
@[simp] theorem State.placeEntry_replyPort (s : State) (e : PatEntry) : (s.placeEntry e).replyPort = s.replyPort := by unfold State.placeEntry; dsimp only; split <;> simp
@[simp] theorem State.placeEntry_pending (s : State) (e : PatEntry) : (s.placeEntry e).pending = s.pending := by unfold State.placeEntry; dsimp only; split <;> simp

@[simp] theorem State.patina_time (s : State) (a b c d e f g : Nat) : (s.patina a b c d e f g).time = s.time := by unfold State.patina; simp
@[simp] theorem State.patina_board (s : State) (a b c d e f g : Nat) : (s.patina a b c d e f g).board = s.board := by unfold State.patina; simp
@[simp] theorem State.patina_flash (s : State) (a b c d e f g : Nat) : (s.patina a b c d e f g).flash = s.flash := by unfold State.patina; simp
@[simp] theorem State.patina_sec (s : State) (a b c d e f g : Nat) : (s.patina a b c d e f g).sec = s.sec := by unfold State.patina; simp
@[simp] theorem State.patina_mem (s : State) (a b c d e f g : Nat) : (s.patina a b c d e f g).mem = s.mem := by unfold State.patina; simp
@[simp] theorem State.patina_homes (s : State) (a b c d e f g : Nat) : (s.patina a b c d e f g).homes = s.homes := by unfold State.patina; simp
@[simp] theorem State.patina_fab (s : State) (a b c d e f g : Nat) : (s.patina a b c d e f g).fab = s.fab := by unfold State.patina; simp
@[simp] theorem State.patina_cores (s : State) (a b c d e f g : Nat) : (s.patina a b c d e f g).cores = s.cores := by unfold State.patina; simp
@[simp] theorem State.patina_cells (s : State) (a b c d e f g : Nat) : (s.patina a b c d e f g).cells = s.cells := by unfold State.patina; simp
@[simp] theorem State.patina_flights (s : State) (a b c d e f g : Nat) : (s.patina a b c d e f g).flights = s.flights := by unfold State.patina; simp
@[simp] theorem State.patina_gathers (s : State) (a b c d e f g : Nat) : (s.patina a b c d e f g).gathers = s.gathers := by unfold State.patina; simp
@[simp] theorem State.patina_draws (s : State) (a b c d e f g : Nat) : (s.patina a b c d e f g).draws = s.draws := by unfold State.patina; simp
@[simp] theorem State.patina_reply (s : State) (a b c d e f g : Nat) : (s.patina a b c d e f g).reply = s.reply := by unfold State.patina; simp
@[simp] theorem State.patina_replyPort (s : State) (a b c d e f g : Nat) : (s.patina a b c d e f g).replyPort = s.replyPort := by unfold State.patina; simp
@[simp] theorem State.patina_pending (s : State) (a b c d e f g : Nat) : (s.patina a b c d e f g).pending = s.pending := by unfold State.patina; simp

@[simp] theorem State.logEvent_time (s : State) (k : Nat) (p : Option Nat) (a b c d : Nat) : (s.logEvent k p a b c d).time = s.time := by unfold State.logEvent; simp
@[simp] theorem State.logEvent_board (s : State) (k : Nat) (p : Option Nat) (a b c d : Nat) : (s.logEvent k p a b c d).board = s.board := by unfold State.logEvent; simp
@[simp] theorem State.logEvent_flash (s : State) (k : Nat) (p : Option Nat) (a b c d : Nat) : (s.logEvent k p a b c d).flash = s.flash := by unfold State.logEvent; simp
@[simp] theorem State.logEvent_sec (s : State) (k : Nat) (p : Option Nat) (a b c d : Nat) : (s.logEvent k p a b c d).sec = s.sec := by unfold State.logEvent; simp
@[simp] theorem State.logEvent_mem (s : State) (k : Nat) (p : Option Nat) (a b c d : Nat) : (s.logEvent k p a b c d).mem = s.mem := by unfold State.logEvent; simp
@[simp] theorem State.logEvent_homes (s : State) (k : Nat) (p : Option Nat) (a b c d : Nat) : (s.logEvent k p a b c d).homes = s.homes := by unfold State.logEvent; simp
@[simp] theorem State.logEvent_fab (s : State) (k : Nat) (p : Option Nat) (a b c d : Nat) : (s.logEvent k p a b c d).fab = s.fab := by unfold State.logEvent; simp
@[simp] theorem State.logEvent_cores (s : State) (k : Nat) (p : Option Nat) (a b c d : Nat) : (s.logEvent k p a b c d).cores = s.cores := by unfold State.logEvent; simp
@[simp] theorem State.logEvent_cells (s : State) (k : Nat) (p : Option Nat) (a b c d : Nat) : (s.logEvent k p a b c d).cells = s.cells := by unfold State.logEvent; simp
@[simp] theorem State.logEvent_flights (s : State) (k : Nat) (p : Option Nat) (a b c d : Nat) : (s.logEvent k p a b c d).flights = s.flights := by unfold State.logEvent; simp
@[simp] theorem State.logEvent_gathers (s : State) (k : Nat) (p : Option Nat) (a b c d : Nat) : (s.logEvent k p a b c d).gathers = s.gathers := by unfold State.logEvent; simp
@[simp] theorem State.logEvent_draws (s : State) (k : Nat) (p : Option Nat) (a b c d : Nat) : (s.logEvent k p a b c d).draws = s.draws := by unfold State.logEvent; simp
@[simp] theorem State.logEvent_reply (s : State) (k : Nat) (p : Option Nat) (a b c d : Nat) : (s.logEvent k p a b c d).reply = s.reply := by unfold State.logEvent; simp
@[simp] theorem State.logEvent_replyPort (s : State) (k : Nat) (p : Option Nat) (a b c d : Nat) : (s.logEvent k p a b c d).replyPort = s.replyPort := by unfold State.logEvent; simp
@[simp] theorem State.logEvent_pending (s : State) (k : Nat) (p : Option Nat) (a b c d : Nat) : (s.logEvent k p a b c d).pending = s.pending := by unfold State.logEvent; simp

@[simp] theorem State.logTrust_time (s : State) (k : Nat) (p : Option Nat) (a b c d : Nat) : (s.logTrust k p a b c d).time = s.time := by unfold State.logTrust; simp
@[simp] theorem State.logTrust_board (s : State) (k : Nat) (p : Option Nat) (a b c d : Nat) : (s.logTrust k p a b c d).board = s.board := by unfold State.logTrust; simp
@[simp] theorem State.logTrust_flash (s : State) (k : Nat) (p : Option Nat) (a b c d : Nat) : (s.logTrust k p a b c d).flash = s.flash := by unfold State.logTrust; simp
@[simp] theorem State.logTrust_sec (s : State) (k : Nat) (p : Option Nat) (a b c d : Nat) : (s.logTrust k p a b c d).sec = s.sec := by unfold State.logTrust; simp
@[simp] theorem State.logTrust_mem (s : State) (k : Nat) (p : Option Nat) (a b c d : Nat) : (s.logTrust k p a b c d).mem = s.mem := by unfold State.logTrust; simp
@[simp] theorem State.logTrust_homes (s : State) (k : Nat) (p : Option Nat) (a b c d : Nat) : (s.logTrust k p a b c d).homes = s.homes := by unfold State.logTrust; simp
@[simp] theorem State.logTrust_fab (s : State) (k : Nat) (p : Option Nat) (a b c d : Nat) : (s.logTrust k p a b c d).fab = s.fab := by unfold State.logTrust; simp
@[simp] theorem State.logTrust_cores (s : State) (k : Nat) (p : Option Nat) (a b c d : Nat) : (s.logTrust k p a b c d).cores = s.cores := by unfold State.logTrust; simp
@[simp] theorem State.logTrust_cells (s : State) (k : Nat) (p : Option Nat) (a b c d : Nat) : (s.logTrust k p a b c d).cells = s.cells := by unfold State.logTrust; simp
@[simp] theorem State.logTrust_flights (s : State) (k : Nat) (p : Option Nat) (a b c d : Nat) : (s.logTrust k p a b c d).flights = s.flights := by unfold State.logTrust; simp
@[simp] theorem State.logTrust_gathers (s : State) (k : Nat) (p : Option Nat) (a b c d : Nat) : (s.logTrust k p a b c d).gathers = s.gathers := by unfold State.logTrust; simp
@[simp] theorem State.logTrust_draws (s : State) (k : Nat) (p : Option Nat) (a b c d : Nat) : (s.logTrust k p a b c d).draws = s.draws := by unfold State.logTrust; simp
@[simp] theorem State.logTrust_reply (s : State) (k : Nat) (p : Option Nat) (a b c d : Nat) : (s.logTrust k p a b c d).reply = s.reply := by unfold State.logTrust; simp
@[simp] theorem State.logTrust_replyPort (s : State) (k : Nat) (p : Option Nat) (a b c d : Nat) : (s.logTrust k p a b c d).replyPort = s.replyPort := by unfold State.logTrust; simp
@[simp] theorem State.logTrust_pending (s : State) (k : Nat) (p : Option Nat) (a b c d : Nat) : (s.logTrust k p a b c d).pending = s.pending := by unfold State.logTrust; simp

@[simp] theorem State.logWrite_time (s : State) (a b c : Nat) (v w : Word) (h : Bool) : (s.logWrite a b c v w h).time = s.time := by unfold State.logWrite; dsimp only; split <;> simp
@[simp] theorem State.logWrite_board (s : State) (a b c : Nat) (v w : Word) (h : Bool) : (s.logWrite a b c v w h).board = s.board := by unfold State.logWrite; dsimp only; split <;> simp
@[simp] theorem State.logWrite_flash (s : State) (a b c : Nat) (v w : Word) (h : Bool) : (s.logWrite a b c v w h).flash = s.flash := by unfold State.logWrite; dsimp only; split <;> simp
@[simp] theorem State.logWrite_sec (s : State) (a b c : Nat) (v w : Word) (h : Bool) : (s.logWrite a b c v w h).sec = s.sec := by unfold State.logWrite; dsimp only; split <;> simp
@[simp] theorem State.logWrite_mem (s : State) (a b c : Nat) (v w : Word) (h : Bool) : (s.logWrite a b c v w h).mem = s.mem := by unfold State.logWrite; dsimp only; split <;> simp
@[simp] theorem State.logWrite_homes (s : State) (a b c : Nat) (v w : Word) (h : Bool) : (s.logWrite a b c v w h).homes = s.homes := by unfold State.logWrite; dsimp only; split <;> simp
@[simp] theorem State.logWrite_fab (s : State) (a b c : Nat) (v w : Word) (h : Bool) : (s.logWrite a b c v w h).fab = s.fab := by unfold State.logWrite; dsimp only; split <;> simp
@[simp] theorem State.logWrite_cores (s : State) (a b c : Nat) (v w : Word) (h : Bool) : (s.logWrite a b c v w h).cores = s.cores := by unfold State.logWrite; dsimp only; split <;> simp
@[simp] theorem State.logWrite_cells (s : State) (a b c : Nat) (v w : Word) (h : Bool) : (s.logWrite a b c v w h).cells = s.cells := by unfold State.logWrite; dsimp only; split <;> simp
@[simp] theorem State.logWrite_flights (s : State) (a b c : Nat) (v w : Word) (h : Bool) : (s.logWrite a b c v w h).flights = s.flights := by unfold State.logWrite; dsimp only; split <;> simp
@[simp] theorem State.logWrite_gathers (s : State) (a b c : Nat) (v w : Word) (h : Bool) : (s.logWrite a b c v w h).gathers = s.gathers := by unfold State.logWrite; dsimp only; split <;> simp
@[simp] theorem State.logWrite_draws (s : State) (a b c : Nat) (v w : Word) (h : Bool) : (s.logWrite a b c v w h).draws = s.draws := by unfold State.logWrite; dsimp only; split <;> simp
@[simp] theorem State.logWrite_reply (s : State) (a b c : Nat) (v w : Word) (h : Bool) : (s.logWrite a b c v w h).reply = s.reply := by unfold State.logWrite; dsimp only; split <;> simp
@[simp] theorem State.logWrite_replyPort (s : State) (a b c : Nat) (v w : Word) (h : Bool) : (s.logWrite a b c v w h).replyPort = s.replyPort := by unfold State.logWrite; dsimp only; split <;> simp
@[simp] theorem State.logWrite_pending (s : State) (a b c : Nat) (v w : Word) (h : Bool) : (s.logWrite a b c v w h).pending = s.pending := by unfold State.logWrite; dsimp only; split <;> simp

@[simp] theorem State.mirrorResume_time (s : State) : (s.mirrorResume ).time = s.time := by unfold State.mirrorResume; split <;> [split; skip] <;> simp
@[simp] theorem State.mirrorResume_board (s : State) : (s.mirrorResume ).board = s.board := by unfold State.mirrorResume; split <;> [split; skip] <;> simp
@[simp] theorem State.mirrorResume_flash (s : State) : (s.mirrorResume ).flash = s.flash := by unfold State.mirrorResume; split <;> [split; skip] <;> simp
@[simp] theorem State.mirrorResume_sec (s : State) : (s.mirrorResume ).sec = s.sec := by unfold State.mirrorResume; split <;> [split; skip] <;> simp
@[simp] theorem State.mirrorResume_mem (s : State) : (s.mirrorResume ).mem = s.mem := by unfold State.mirrorResume; split <;> [split; skip] <;> simp
@[simp] theorem State.mirrorResume_homes (s : State) : (s.mirrorResume ).homes = s.homes := by unfold State.mirrorResume; split <;> [split; skip] <;> simp
@[simp] theorem State.mirrorResume_fab (s : State) : (s.mirrorResume ).fab = s.fab := by unfold State.mirrorResume; split <;> [split; skip] <;> simp
@[simp] theorem State.mirrorResume_cores (s : State) : (s.mirrorResume ).cores = s.cores := by unfold State.mirrorResume; split <;> [split; skip] <;> simp
@[simp] theorem State.mirrorResume_cells (s : State) : (s.mirrorResume ).cells = s.cells := by unfold State.mirrorResume; split <;> [split; skip] <;> simp
@[simp] theorem State.mirrorResume_flights (s : State) : (s.mirrorResume ).flights = s.flights := by unfold State.mirrorResume; split <;> [split; skip] <;> simp
@[simp] theorem State.mirrorResume_gathers (s : State) : (s.mirrorResume ).gathers = s.gathers := by unfold State.mirrorResume; split <;> [split; skip] <;> simp
@[simp] theorem State.mirrorResume_draws (s : State) : (s.mirrorResume ).draws = s.draws := by unfold State.mirrorResume; split <;> [split; skip] <;> simp
@[simp] theorem State.mirrorResume_reply (s : State) : (s.mirrorResume ).reply = s.reply := by unfold State.mirrorResume; split <;> [split; skip] <;> simp
@[simp] theorem State.mirrorResume_replyPort (s : State) : (s.mirrorResume ).replyPort = s.replyPort := by unfold State.mirrorResume; split <;> [split; skip] <;> simp
@[simp] theorem State.mirrorResume_pending (s : State) : (s.mirrorResume ).pending = s.pending := by unfold State.mirrorResume; split <;> [split; skip] <;> simp

/-! ## Interrupts (15 R447 to R456) -/

@[simp] theorem State.deliverVector_time (s : State) (f v : Nat) : (s.deliverVector f v).time = s.time := by unfold State.deliverVector; dsimp only; split <;> simp
@[simp] theorem State.deliverVector_board (s : State) (f v : Nat) : (s.deliverVector f v).board = s.board := by unfold State.deliverVector; dsimp only; split <;> simp
@[simp] theorem State.deliverVector_flash (s : State) (f v : Nat) : (s.deliverVector f v).flash = s.flash := by unfold State.deliverVector; dsimp only; split <;> simp
@[simp] theorem State.deliverVector_sec (s : State) (f v : Nat) : (s.deliverVector f v).sec = s.sec := by unfold State.deliverVector; dsimp only; split <;> simp
@[simp] theorem State.deliverVector_mem (s : State) (f v : Nat) : (s.deliverVector f v).mem = s.mem := by unfold State.deliverVector; dsimp only; split <;> simp
@[simp] theorem State.deliverVector_homes (s : State) (f v : Nat) : (s.deliverVector f v).homes = s.homes := by unfold State.deliverVector; dsimp only; split <;> simp
@[simp] theorem State.deliverVector_fab (s : State) (f v : Nat) : (s.deliverVector f v).fab = s.fab := by unfold State.deliverVector; dsimp only; split <;> simp
@[simp] theorem State.deliverVector_cores (s : State) (f v : Nat) : (s.deliverVector f v).cores = s.cores := by unfold State.deliverVector; dsimp only; split <;> simp
@[simp] theorem State.deliverVector_cells (s : State) (f v : Nat) : (s.deliverVector f v).cells = s.cells := by unfold State.deliverVector; dsimp only; split <;> simp
@[simp] theorem State.deliverVector_flights (s : State) (f v : Nat) : (s.deliverVector f v).flights = s.flights := by unfold State.deliverVector; dsimp only; split <;> simp
@[simp] theorem State.deliverVector_gathers (s : State) (f v : Nat) : (s.deliverVector f v).gathers = s.gathers := by unfold State.deliverVector; dsimp only; split <;> simp
@[simp] theorem State.deliverVector_draws (s : State) (f v : Nat) : (s.deliverVector f v).draws = s.draws := by unfold State.deliverVector; dsimp only; split <;> simp
@[simp] theorem State.deliverVector_reply (s : State) (f v : Nat) : (s.deliverVector f v).reply = s.reply := by unfold State.deliverVector; dsimp only; split <;> simp
@[simp] theorem State.deliverVector_replyPort (s : State) (f v : Nat) : (s.deliverVector f v).replyPort = s.replyPort := by unfold State.deliverVector; dsimp only; split <;> simp
@[simp] theorem State.deliverVector_pending (s : State) (f v : Nat) : (s.deliverVector f v).pending = s.pending := by unfold State.deliverVector; dsimp only; split <;> simp

@[simp] theorem State.deliverHart_time (s : State) (n m : Nat) : (s.deliverHart n m).time = s.time := by unfold State.deliverHart; simp
@[simp] theorem State.deliverHart_board (s : State) (n m : Nat) : (s.deliverHart n m).board = s.board := by unfold State.deliverHart; simp
@[simp] theorem State.deliverHart_flash (s : State) (n m : Nat) : (s.deliverHart n m).flash = s.flash := by unfold State.deliverHart; simp
@[simp] theorem State.deliverHart_sec (s : State) (n m : Nat) : (s.deliverHart n m).sec = s.sec := by unfold State.deliverHart; simp
@[simp] theorem State.deliverHart_mem (s : State) (n m : Nat) : (s.deliverHart n m).mem = s.mem := by unfold State.deliverHart; simp
@[simp] theorem State.deliverHart_homes (s : State) (n m : Nat) : (s.deliverHart n m).homes = s.homes := by unfold State.deliverHart; simp
@[simp] theorem State.deliverHart_fab (s : State) (n m : Nat) : (s.deliverHart n m).fab = s.fab := by unfold State.deliverHart; simp
@[simp] theorem State.deliverHart_cores (s : State) (n m : Nat) : (s.deliverHart n m).cores = s.cores := by unfold State.deliverHart; simp
@[simp] theorem State.deliverHart_cells (s : State) (n m : Nat) : (s.deliverHart n m).cells = s.cells := by unfold State.deliverHart; simp
@[simp] theorem State.deliverHart_flights (s : State) (n m : Nat) : (s.deliverHart n m).flights = s.flights := by unfold State.deliverHart; simp
@[simp] theorem State.deliverHart_gathers (s : State) (n m : Nat) : (s.deliverHart n m).gathers = s.gathers := by unfold State.deliverHart; simp
@[simp] theorem State.deliverHart_draws (s : State) (n m : Nat) : (s.deliverHart n m).draws = s.draws := by unfold State.deliverHart; simp
@[simp] theorem State.deliverHart_reply (s : State) (n m : Nat) : (s.deliverHart n m).reply = s.reply := by unfold State.deliverHart; simp
@[simp] theorem State.deliverHart_replyPort (s : State) (n m : Nat) : (s.deliverHart n m).replyPort = s.replyPort := by unfold State.deliverHart; simp
@[simp] theorem State.deliverHart_pending (s : State) (n m : Nat) : (s.deliverHart n m).pending = s.pending := by unfold State.deliverHart; simp

/-- All that trying a delivery does: nothing, or a note that no target takes it, or a delivery to a hart or a vector (15 R453). -/
theorem State.irqTry_cases (s : State) (n : Nat) : s.irqTry n = s ∨ (∃ x, s.irqTry n = (s.bump icPage .icStat Fld.icStat_notarget 1).setIrq n x)
    ∨ (∃ x h, s.irqTry n = (s.setIrq n x).deliverHart h n) ∨ ∃ x f v, s.irqTry n = (s.setIrq n x).deliverVector f v := by
  unfold State.irqTry
  dsimp only
  split
  · split
    · split
      · exact .inl rfl
      · exact .inr (.inl ⟨_, rfl⟩)
    · split
      · exact .inr (.inr (.inl ⟨_, _, rfl⟩))
      · exact .inr (.inr (.inr ⟨_, _, _, rfl⟩))
  · exact .inl rfl

@[simp] theorem State.irqTry_time (s : State) (n : Nat) : (s.irqTry n).time = s.time := by
  obtain h | ⟨x, h⟩ | ⟨x, m, h⟩ | ⟨x, f, v, h⟩ := s.irqTry_cases n <;> simp [h]
@[simp] theorem State.irqTry_board (s : State) (n : Nat) : (s.irqTry n).board = s.board := by
  obtain h | ⟨x, h⟩ | ⟨x, m, h⟩ | ⟨x, f, v, h⟩ := s.irqTry_cases n <;> simp [h]
@[simp] theorem State.irqTry_flash (s : State) (n : Nat) : (s.irqTry n).flash = s.flash := by
  obtain h | ⟨x, h⟩ | ⟨x, m, h⟩ | ⟨x, f, v, h⟩ := s.irqTry_cases n <;> simp [h]
@[simp] theorem State.irqTry_sec (s : State) (n : Nat) : (s.irqTry n).sec = s.sec := by
  obtain h | ⟨x, h⟩ | ⟨x, m, h⟩ | ⟨x, f, v, h⟩ := s.irqTry_cases n <;> simp [h]
@[simp] theorem State.irqTry_mem (s : State) (n : Nat) : (s.irqTry n).mem = s.mem := by
  obtain h | ⟨x, h⟩ | ⟨x, m, h⟩ | ⟨x, f, v, h⟩ := s.irqTry_cases n <;> simp [h]
@[simp] theorem State.irqTry_homes (s : State) (n : Nat) : (s.irqTry n).homes = s.homes := by
  obtain h | ⟨x, h⟩ | ⟨x, m, h⟩ | ⟨x, f, v, h⟩ := s.irqTry_cases n <;> simp [h]
@[simp] theorem State.irqTry_fab (s : State) (n : Nat) : (s.irqTry n).fab = s.fab := by
  obtain h | ⟨x, h⟩ | ⟨x, m, h⟩ | ⟨x, f, v, h⟩ := s.irqTry_cases n <;> simp [h]
@[simp] theorem State.irqTry_cores (s : State) (n : Nat) : (s.irqTry n).cores = s.cores := by
  obtain h | ⟨x, h⟩ | ⟨x, m, h⟩ | ⟨x, f, v, h⟩ := s.irqTry_cases n <;> simp [h]
@[simp] theorem State.irqTry_cells (s : State) (n : Nat) : (s.irqTry n).cells = s.cells := by
  obtain h | ⟨x, h⟩ | ⟨x, m, h⟩ | ⟨x, f, v, h⟩ := s.irqTry_cases n <;> simp [h]
@[simp] theorem State.irqTry_flights (s : State) (n : Nat) : (s.irqTry n).flights = s.flights := by
  obtain h | ⟨x, h⟩ | ⟨x, m, h⟩ | ⟨x, f, v, h⟩ := s.irqTry_cases n <;> simp [h]
@[simp] theorem State.irqTry_gathers (s : State) (n : Nat) : (s.irqTry n).gathers = s.gathers := by
  obtain h | ⟨x, h⟩ | ⟨x, m, h⟩ | ⟨x, f, v, h⟩ := s.irqTry_cases n <;> simp [h]
@[simp] theorem State.irqTry_draws (s : State) (n : Nat) : (s.irqTry n).draws = s.draws := by
  obtain h | ⟨x, h⟩ | ⟨x, m, h⟩ | ⟨x, f, v, h⟩ := s.irqTry_cases n <;> simp [h]
@[simp] theorem State.irqTry_reply (s : State) (n : Nat) : (s.irqTry n).reply = s.reply := by
  obtain h | ⟨x, h⟩ | ⟨x, m, h⟩ | ⟨x, f, v, h⟩ := s.irqTry_cases n <;> simp [h]
@[simp] theorem State.irqTry_replyPort (s : State) (n : Nat) : (s.irqTry n).replyPort = s.replyPort := by
  obtain h | ⟨x, h⟩ | ⟨x, m, h⟩ | ⟨x, f, v, h⟩ := s.irqTry_cases n <;> simp [h]
@[simp] theorem State.irqTry_pending (s : State) (n : Nat) : (s.irqTry n).pending = s.pending := by
  obtain h | ⟨x, h⟩ | ⟨x, m, h⟩ | ⟨x, f, v, h⟩ := s.irqTry_cases n <;> simp [h]

@[simp] theorem State.irqUpdate_time (s : State) (n : Nat) : (s.irqUpdate n).time = s.time := by unfold State.irqUpdate; simp
@[simp] theorem State.irqUpdate_board (s : State) (n : Nat) : (s.irqUpdate n).board = s.board := by unfold State.irqUpdate; simp
@[simp] theorem State.irqUpdate_flash (s : State) (n : Nat) : (s.irqUpdate n).flash = s.flash := by unfold State.irqUpdate; simp
@[simp] theorem State.irqUpdate_sec (s : State) (n : Nat) : (s.irqUpdate n).sec = s.sec := by unfold State.irqUpdate; simp
@[simp] theorem State.irqUpdate_mem (s : State) (n : Nat) : (s.irqUpdate n).mem = s.mem := by unfold State.irqUpdate; simp
@[simp] theorem State.irqUpdate_homes (s : State) (n : Nat) : (s.irqUpdate n).homes = s.homes := by unfold State.irqUpdate; simp
@[simp] theorem State.irqUpdate_fab (s : State) (n : Nat) : (s.irqUpdate n).fab = s.fab := by unfold State.irqUpdate; simp
@[simp] theorem State.irqUpdate_cores (s : State) (n : Nat) : (s.irqUpdate n).cores = s.cores := by unfold State.irqUpdate; simp
@[simp] theorem State.irqUpdate_cells (s : State) (n : Nat) : (s.irqUpdate n).cells = s.cells := by unfold State.irqUpdate; simp
@[simp] theorem State.irqUpdate_flights (s : State) (n : Nat) : (s.irqUpdate n).flights = s.flights := by unfold State.irqUpdate; simp
@[simp] theorem State.irqUpdate_gathers (s : State) (n : Nat) : (s.irqUpdate n).gathers = s.gathers := by unfold State.irqUpdate; simp
@[simp] theorem State.irqUpdate_draws (s : State) (n : Nat) : (s.irqUpdate n).draws = s.draws := by unfold State.irqUpdate; simp
@[simp] theorem State.irqUpdate_reply (s : State) (n : Nat) : (s.irqUpdate n).reply = s.reply := by unfold State.irqUpdate; simp
@[simp] theorem State.irqUpdate_replyPort (s : State) (n : Nat) : (s.irqUpdate n).replyPort = s.replyPort := by unfold State.irqUpdate; simp
@[simp] theorem State.irqUpdate_pending (s : State) (n : Nat) : (s.irqUpdate n).pending = s.pending := by unfold State.irqUpdate; simp

@[simp] theorem State.irqEvent_time (s : State) (n : Nat) : (s.irqEvent n).time = s.time := by unfold State.irqEvent; dsimp only; split <;> simp
@[simp] theorem State.irqEvent_board (s : State) (n : Nat) : (s.irqEvent n).board = s.board := by unfold State.irqEvent; dsimp only; split <;> simp
@[simp] theorem State.irqEvent_flash (s : State) (n : Nat) : (s.irqEvent n).flash = s.flash := by unfold State.irqEvent; dsimp only; split <;> simp
@[simp] theorem State.irqEvent_sec (s : State) (n : Nat) : (s.irqEvent n).sec = s.sec := by unfold State.irqEvent; dsimp only; split <;> simp
@[simp] theorem State.irqEvent_mem (s : State) (n : Nat) : (s.irqEvent n).mem = s.mem := by unfold State.irqEvent; dsimp only; split <;> simp
@[simp] theorem State.irqEvent_homes (s : State) (n : Nat) : (s.irqEvent n).homes = s.homes := by unfold State.irqEvent; dsimp only; split <;> simp
@[simp] theorem State.irqEvent_fab (s : State) (n : Nat) : (s.irqEvent n).fab = s.fab := by unfold State.irqEvent; dsimp only; split <;> simp
@[simp] theorem State.irqEvent_cores (s : State) (n : Nat) : (s.irqEvent n).cores = s.cores := by unfold State.irqEvent; dsimp only; split <;> simp
@[simp] theorem State.irqEvent_cells (s : State) (n : Nat) : (s.irqEvent n).cells = s.cells := by unfold State.irqEvent; dsimp only; split <;> simp
@[simp] theorem State.irqEvent_flights (s : State) (n : Nat) : (s.irqEvent n).flights = s.flights := by unfold State.irqEvent; dsimp only; split <;> simp
@[simp] theorem State.irqEvent_gathers (s : State) (n : Nat) : (s.irqEvent n).gathers = s.gathers := by unfold State.irqEvent; dsimp only; split <;> simp
@[simp] theorem State.irqEvent_draws (s : State) (n : Nat) : (s.irqEvent n).draws = s.draws := by unfold State.irqEvent; dsimp only; split <;> simp
@[simp] theorem State.irqEvent_reply (s : State) (n : Nat) : (s.irqEvent n).reply = s.reply := by unfold State.irqEvent; dsimp only; split <;> simp
@[simp] theorem State.irqEvent_replyPort (s : State) (n : Nat) : (s.irqEvent n).replyPort = s.replyPort := by unfold State.irqEvent; dsimp only; split <;> simp
@[simp] theorem State.irqEvent_pending (s : State) (n : Nat) : (s.irqEvent n).pending = s.pending := by unfold State.irqEvent; dsimp only; split <;> simp

@[simp] theorem State.irqRaise_time (s : State) (n : Nat) (p : Option Nat) : (s.irqRaise n p).time = s.time := by unfold State.irqRaise; split <;> [simp; split] <;> [simp; split] <;> simp
@[simp] theorem State.irqRaise_board (s : State) (n : Nat) (p : Option Nat) : (s.irqRaise n p).board = s.board := by unfold State.irqRaise; split <;> [simp; split] <;> [simp; split] <;> simp
@[simp] theorem State.irqRaise_flash (s : State) (n : Nat) (p : Option Nat) : (s.irqRaise n p).flash = s.flash := by unfold State.irqRaise; split <;> [simp; split] <;> [simp; split] <;> simp
@[simp] theorem State.irqRaise_sec (s : State) (n : Nat) (p : Option Nat) : (s.irqRaise n p).sec = s.sec := by unfold State.irqRaise; split <;> [simp; split] <;> [simp; split] <;> simp
@[simp] theorem State.irqRaise_mem (s : State) (n : Nat) (p : Option Nat) : (s.irqRaise n p).mem = s.mem := by unfold State.irqRaise; split <;> [simp; split] <;> [simp; split] <;> simp
@[simp] theorem State.irqRaise_homes (s : State) (n : Nat) (p : Option Nat) : (s.irqRaise n p).homes = s.homes := by unfold State.irqRaise; split <;> [simp; split] <;> [simp; split] <;> simp
@[simp] theorem State.irqRaise_fab (s : State) (n : Nat) (p : Option Nat) : (s.irqRaise n p).fab = s.fab := by unfold State.irqRaise; split <;> [simp; split] <;> [simp; split] <;> simp
@[simp] theorem State.irqRaise_cores (s : State) (n : Nat) (p : Option Nat) : (s.irqRaise n p).cores = s.cores := by unfold State.irqRaise; split <;> [simp; split] <;> [simp; split] <;> simp
@[simp] theorem State.irqRaise_cells (s : State) (n : Nat) (p : Option Nat) : (s.irqRaise n p).cells = s.cells := by unfold State.irqRaise; split <;> [simp; split] <;> [simp; split] <;> simp
@[simp] theorem State.irqRaise_flights (s : State) (n : Nat) (p : Option Nat) : (s.irqRaise n p).flights = s.flights := by unfold State.irqRaise; split <;> [simp; split] <;> [simp; split] <;> simp
@[simp] theorem State.irqRaise_gathers (s : State) (n : Nat) (p : Option Nat) : (s.irqRaise n p).gathers = s.gathers := by unfold State.irqRaise; split <;> [simp; split] <;> [simp; split] <;> simp
@[simp] theorem State.irqRaise_draws (s : State) (n : Nat) (p : Option Nat) : (s.irqRaise n p).draws = s.draws := by unfold State.irqRaise; split <;> [simp; split] <;> [simp; split] <;> simp
@[simp] theorem State.irqRaise_reply (s : State) (n : Nat) (p : Option Nat) : (s.irqRaise n p).reply = s.reply := by unfold State.irqRaise; split <;> [simp; split] <;> [simp; split] <;> simp
@[simp] theorem State.irqRaise_replyPort (s : State) (n : Nat) (p : Option Nat) : (s.irqRaise n p).replyPort = s.replyPort := by unfold State.irqRaise; split <;> [simp; split] <;> [simp; split] <;> simp
@[simp] theorem State.irqRaise_pending (s : State) (n : Nat) (p : Option Nat) : (s.irqRaise n p).pending = s.pending := by unfold State.irqRaise; split <;> [simp; split] <;> [simp; split] <;> simp

/-! ## Counters, snoops and reservations -/

@[simp] theorem State.bumpCore_time (s : State) (c a : Nat) (r : Reg) (f : Fld) (n : Nat) : (s.bumpCore c a r f n).time = s.time := by unfold State.bumpCore; split <;> simp
@[simp] theorem State.bumpCore_board (s : State) (c a : Nat) (r : Reg) (f : Fld) (n : Nat) : (s.bumpCore c a r f n).board = s.board := by unfold State.bumpCore; split <;> simp
@[simp] theorem State.bumpCore_flash (s : State) (c a : Nat) (r : Reg) (f : Fld) (n : Nat) : (s.bumpCore c a r f n).flash = s.flash := by unfold State.bumpCore; split <;> simp
@[simp] theorem State.bumpCore_sec (s : State) (c a : Nat) (r : Reg) (f : Fld) (n : Nat) : (s.bumpCore c a r f n).sec = s.sec := by unfold State.bumpCore; split <;> simp
@[simp] theorem State.bumpCore_mem (s : State) (c a : Nat) (r : Reg) (f : Fld) (n : Nat) : (s.bumpCore c a r f n).mem = s.mem := by unfold State.bumpCore; split <;> simp
@[simp] theorem State.bumpCore_homes (s : State) (c a : Nat) (r : Reg) (f : Fld) (n : Nat) : (s.bumpCore c a r f n).homes = s.homes := by unfold State.bumpCore; split <;> simp
@[simp] theorem State.bumpCore_pl (s : State) (c a : Nat) (r : Reg) (f : Fld) (n : Nat) : (s.bumpCore c a r f n).pl = s.pl := by unfold State.bumpCore; split <;> simp
@[simp] theorem State.bumpCore_fab (s : State) (c a : Nat) (r : Reg) (f : Fld) (n : Nat) : (s.bumpCore c a r f n).fab = s.fab := by unfold State.bumpCore; split <;> simp
@[simp] theorem State.bumpCore_cores (s : State) (c a : Nat) (r : Reg) (f : Fld) (n : Nat) : (s.bumpCore c a r f n).cores = s.cores := by unfold State.bumpCore; split <;> simp
@[simp] theorem State.bumpCore_cells (s : State) (c a : Nat) (r : Reg) (f : Fld) (n : Nat) : (s.bumpCore c a r f n).cells = s.cells := by unfold State.bumpCore; split <;> simp
@[simp] theorem State.bumpCore_flights (s : State) (c a : Nat) (r : Reg) (f : Fld) (n : Nat) : (s.bumpCore c a r f n).flights = s.flights := by unfold State.bumpCore; split <;> simp
@[simp] theorem State.bumpCore_gathers (s : State) (c a : Nat) (r : Reg) (f : Fld) (n : Nat) : (s.bumpCore c a r f n).gathers = s.gathers := by unfold State.bumpCore; split <;> simp
@[simp] theorem State.bumpCore_draws (s : State) (c a : Nat) (r : Reg) (f : Fld) (n : Nat) : (s.bumpCore c a r f n).draws = s.draws := by unfold State.bumpCore; split <;> simp
@[simp] theorem State.bumpCore_reply (s : State) (c a : Nat) (r : Reg) (f : Fld) (n : Nat) : (s.bumpCore c a r f n).reply = s.reply := by unfold State.bumpCore; split <;> simp
@[simp] theorem State.bumpCore_replyPort (s : State) (c a : Nat) (r : Reg) (f : Fld) (n : Nat) : (s.bumpCore c a r f n).replyPort = s.replyPort := by unfold State.bumpCore; split <;> simp
@[simp] theorem State.bumpCore_pending (s : State) (c a : Nat) (r : Reg) (f : Fld) (n : Nat) : (s.bumpCore c a r f n).pending = s.pending := by unfold State.bumpCore; split <;> simp

@[simp] theorem State.countSnoop_time (s : State) (a l : Nat) : (s.countSnoop a l).time = s.time := by unfold State.countSnoop; dsimp only; split <;> [split; skip] <;> simp
@[simp] theorem State.countSnoop_board (s : State) (a l : Nat) : (s.countSnoop a l).board = s.board := by unfold State.countSnoop; dsimp only; split <;> [split; skip] <;> simp
@[simp] theorem State.countSnoop_flash (s : State) (a l : Nat) : (s.countSnoop a l).flash = s.flash := by unfold State.countSnoop; dsimp only; split <;> [split; skip] <;> simp
@[simp] theorem State.countSnoop_sec (s : State) (a l : Nat) : (s.countSnoop a l).sec = s.sec := by unfold State.countSnoop; dsimp only; split <;> [split; skip] <;> simp
@[simp] theorem State.countSnoop_mem (s : State) (a l : Nat) : (s.countSnoop a l).mem = s.mem := by unfold State.countSnoop; dsimp only; split <;> [split; skip] <;> simp
@[simp] theorem State.countSnoop_homes (s : State) (a l : Nat) : (s.countSnoop a l).homes = s.homes := by unfold State.countSnoop; dsimp only; split <;> [split; skip] <;> simp
@[simp] theorem State.countSnoop_pl (s : State) (a l : Nat) : (s.countSnoop a l).pl = s.pl := by unfold State.countSnoop; dsimp only; split <;> [split; skip] <;> simp
@[simp] theorem State.countSnoop_fab (s : State) (a l : Nat) : (s.countSnoop a l).fab = s.fab := by unfold State.countSnoop; dsimp only; split <;> [split; skip] <;> simp
@[simp] theorem State.countSnoop_cores (s : State) (a l : Nat) : (s.countSnoop a l).cores = s.cores := by unfold State.countSnoop; dsimp only; split <;> [split; skip] <;> simp
@[simp] theorem State.countSnoop_cells (s : State) (a l : Nat) : (s.countSnoop a l).cells = s.cells := by unfold State.countSnoop; dsimp only; split <;> [split; skip] <;> simp
@[simp] theorem State.countSnoop_flights (s : State) (a l : Nat) : (s.countSnoop a l).flights = s.flights := by unfold State.countSnoop; dsimp only; split <;> [split; skip] <;> simp
@[simp] theorem State.countSnoop_gathers (s : State) (a l : Nat) : (s.countSnoop a l).gathers = s.gathers := by unfold State.countSnoop; dsimp only; split <;> [split; skip] <;> simp
@[simp] theorem State.countSnoop_draws (s : State) (a l : Nat) : (s.countSnoop a l).draws = s.draws := by unfold State.countSnoop; dsimp only; split <;> [split; skip] <;> simp
@[simp] theorem State.countSnoop_reply (s : State) (a l : Nat) : (s.countSnoop a l).reply = s.reply := by unfold State.countSnoop; dsimp only; split <;> [split; skip] <;> simp
@[simp] theorem State.countSnoop_replyPort (s : State) (a l : Nat) : (s.countSnoop a l).replyPort = s.replyPort := by unfold State.countSnoop; dsimp only; split <;> [split; skip] <;> simp
@[simp] theorem State.countSnoop_pending (s : State) (a l : Nat) : (s.countSnoop a l).pending = s.pending := by unfold State.countSnoop; dsimp only; split <;> [split; skip] <;> simp

@[simp] theorem State.clearResv_regs (s : State) (c l : Nat) : (s.clearResv c l).regs = s.regs := rfl
@[simp] theorem State.clearResv_time (s : State) (c l : Nat) : (s.clearResv c l).time = s.time := rfl
@[simp] theorem State.clearResv_board (s : State) (c l : Nat) : (s.clearResv c l).board = s.board := rfl
@[simp] theorem State.clearResv_flash (s : State) (c l : Nat) : (s.clearResv c l).flash = s.flash := rfl
@[simp] theorem State.clearResv_sec (s : State) (c l : Nat) : (s.clearResv c l).sec = s.sec := rfl
@[simp] theorem State.clearResv_mem (s : State) (c l : Nat) : (s.clearResv c l).mem = s.mem := rfl
@[simp] theorem State.clearResv_homes (s : State) (c l : Nat) : (s.clearResv c l).homes = s.homes := rfl
@[simp] theorem State.clearResv_pl (s : State) (c l : Nat) : (s.clearResv c l).pl = s.pl := rfl
@[simp] theorem State.clearResv_fab (s : State) (c l : Nat) : (s.clearResv c l).fab = s.fab := rfl
@[simp] theorem State.clearResv_cores (s : State) (c l : Nat) : (s.clearResv c l).cores = s.cores := rfl
@[simp] theorem State.clearResv_flights (s : State) (c l : Nat) : (s.clearResv c l).flights = s.flights := rfl
@[simp] theorem State.clearResv_gathers (s : State) (c l : Nat) : (s.clearResv c l).gathers = s.gathers := rfl
@[simp] theorem State.clearResv_draws (s : State) (c l : Nat) : (s.clearResv c l).draws = s.draws := rfl
@[simp] theorem State.clearResv_reply (s : State) (c l : Nat) : (s.clearResv c l).reply = s.reply := rfl
@[simp] theorem State.clearResv_replyPort (s : State) (c l : Nat) : (s.clearResv c l).replyPort = s.replyPort := rfl
@[simp] theorem State.clearResv_pending (s : State) (c l : Nat) : (s.clearResv c l).pending = s.pending := rfl

@[simp] theorem State.clearResvOn_regs (s : State) (l : Nat) (k : Option Nat) : (s.clearResvOn l k).regs = s.regs := rfl
@[simp] theorem State.clearResvOn_time (s : State) (l : Nat) (k : Option Nat) : (s.clearResvOn l k).time = s.time := rfl
@[simp] theorem State.clearResvOn_board (s : State) (l : Nat) (k : Option Nat) : (s.clearResvOn l k).board = s.board := rfl
@[simp] theorem State.clearResvOn_flash (s : State) (l : Nat) (k : Option Nat) : (s.clearResvOn l k).flash = s.flash := rfl
@[simp] theorem State.clearResvOn_sec (s : State) (l : Nat) (k : Option Nat) : (s.clearResvOn l k).sec = s.sec := rfl
@[simp] theorem State.clearResvOn_mem (s : State) (l : Nat) (k : Option Nat) : (s.clearResvOn l k).mem = s.mem := rfl
@[simp] theorem State.clearResvOn_homes (s : State) (l : Nat) (k : Option Nat) : (s.clearResvOn l k).homes = s.homes := rfl
@[simp] theorem State.clearResvOn_pl (s : State) (l : Nat) (k : Option Nat) : (s.clearResvOn l k).pl = s.pl := rfl
@[simp] theorem State.clearResvOn_fab (s : State) (l : Nat) (k : Option Nat) : (s.clearResvOn l k).fab = s.fab := rfl
@[simp] theorem State.clearResvOn_cores (s : State) (l : Nat) (k : Option Nat) : (s.clearResvOn l k).cores = s.cores := rfl
@[simp] theorem State.clearResvOn_flights (s : State) (l : Nat) (k : Option Nat) : (s.clearResvOn l k).flights = s.flights := rfl
@[simp] theorem State.clearResvOn_gathers (s : State) (l : Nat) (k : Option Nat) : (s.clearResvOn l k).gathers = s.gathers := rfl
@[simp] theorem State.clearResvOn_draws (s : State) (l : Nat) (k : Option Nat) : (s.clearResvOn l k).draws = s.draws := rfl
@[simp] theorem State.clearResvOn_reply (s : State) (l : Nat) (k : Option Nat) : (s.clearResvOn l k).reply = s.reply := rfl
@[simp] theorem State.clearResvOn_replyPort (s : State) (l : Nat) (k : Option Nat) : (s.clearResvOn l k).replyPort = s.replyPort := rfl
@[simp] theorem State.clearResvOn_pending (s : State) (l : Nat) (k : Option Nat) : (s.clearResvOn l k).pending = s.pending := rfl

@[simp] theorem State.setHome_regs (s : State) (k : Nat) (x : HomeUnit) : (s.setHome k x).regs = s.regs := rfl
@[simp] theorem State.setHome_time (s : State) (k : Nat) (x : HomeUnit) : (s.setHome k x).time = s.time := rfl
@[simp] theorem State.setHome_board (s : State) (k : Nat) (x : HomeUnit) : (s.setHome k x).board = s.board := rfl
@[simp] theorem State.setHome_flash (s : State) (k : Nat) (x : HomeUnit) : (s.setHome k x).flash = s.flash := rfl
@[simp] theorem State.setHome_sec (s : State) (k : Nat) (x : HomeUnit) : (s.setHome k x).sec = s.sec := rfl
@[simp] theorem State.setHome_mem (s : State) (k : Nat) (x : HomeUnit) : (s.setHome k x).mem = s.mem := rfl
@[simp] theorem State.setHome_pl (s : State) (k : Nat) (x : HomeUnit) : (s.setHome k x).pl = s.pl := rfl
@[simp] theorem State.setHome_fab (s : State) (k : Nat) (x : HomeUnit) : (s.setHome k x).fab = s.fab := rfl
@[simp] theorem State.setHome_cores (s : State) (k : Nat) (x : HomeUnit) : (s.setHome k x).cores = s.cores := rfl
@[simp] theorem State.setHome_cells (s : State) (k : Nat) (x : HomeUnit) : (s.setHome k x).cells = s.cells := rfl
@[simp] theorem State.setHome_flights (s : State) (k : Nat) (x : HomeUnit) : (s.setHome k x).flights = s.flights := rfl
@[simp] theorem State.setHome_gathers (s : State) (k : Nat) (x : HomeUnit) : (s.setHome k x).gathers = s.gathers := rfl
@[simp] theorem State.setHome_draws (s : State) (k : Nat) (x : HomeUnit) : (s.setHome k x).draws = s.draws := rfl
@[simp] theorem State.setHome_reply (s : State) (k : Nat) (x : HomeUnit) : (s.setHome k x).reply = s.reply := rfl
@[simp] theorem State.setHome_replyPort (s : State) (k : Nat) (x : HomeUnit) : (s.setHome k x).replyPort = s.replyPort := rfl
@[simp] theorem State.setHome_pending (s : State) (k : Nat) (x : HomeUnit) : (s.setHome k x).pending = s.pending := rfl

@[simp] theorem State.tagBring_regs (s : State) (h c : Nat) (d : Bool) : (s.tagBring h c d).regs = s.regs := by unfold State.tagBring; dsimp only; split <;> rfl
@[simp] theorem State.tagBring_time (s : State) (h c : Nat) (d : Bool) : (s.tagBring h c d).time = s.time := by unfold State.tagBring; dsimp only; split <;> rfl
@[simp] theorem State.tagBring_board (s : State) (h c : Nat) (d : Bool) : (s.tagBring h c d).board = s.board := by unfold State.tagBring; dsimp only; split <;> rfl
@[simp] theorem State.tagBring_flash (s : State) (h c : Nat) (d : Bool) : (s.tagBring h c d).flash = s.flash := by unfold State.tagBring; dsimp only; split <;> rfl
@[simp] theorem State.tagBring_sec (s : State) (h c : Nat) (d : Bool) : (s.tagBring h c d).sec = s.sec := by unfold State.tagBring; dsimp only; split <;> rfl
@[simp] theorem State.tagBring_mem (s : State) (h c : Nat) (d : Bool) : (s.tagBring h c d).mem = s.mem := by unfold State.tagBring; dsimp only; split <;> rfl
@[simp] theorem State.tagBring_pl (s : State) (h c : Nat) (d : Bool) : (s.tagBring h c d).pl = s.pl := by unfold State.tagBring; dsimp only; split <;> rfl
@[simp] theorem State.tagBring_fab (s : State) (h c : Nat) (d : Bool) : (s.tagBring h c d).fab = s.fab := by unfold State.tagBring; dsimp only; split <;> rfl
@[simp] theorem State.tagBring_cores (s : State) (h c : Nat) (d : Bool) : (s.tagBring h c d).cores = s.cores := by unfold State.tagBring; dsimp only; split <;> rfl
@[simp] theorem State.tagBring_cells (s : State) (h c : Nat) (d : Bool) : (s.tagBring h c d).cells = s.cells := by unfold State.tagBring; dsimp only; split <;> rfl
@[simp] theorem State.tagBring_flights (s : State) (h c : Nat) (d : Bool) : (s.tagBring h c d).flights = s.flights := by unfold State.tagBring; dsimp only; split <;> rfl
@[simp] theorem State.tagBring_gathers (s : State) (h c : Nat) (d : Bool) : (s.tagBring h c d).gathers = s.gathers := by unfold State.tagBring; dsimp only; split <;> rfl
@[simp] theorem State.tagBring_reply (s : State) (h c : Nat) (d : Bool) : (s.tagBring h c d).reply = s.reply := by unfold State.tagBring; dsimp only; split <;> rfl
@[simp] theorem State.tagBring_replyPort (s : State) (h c : Nat) (d : Bool) : (s.tagBring h c d).replyPort = s.replyPort := by unfold State.tagBring; dsimp only; split <;> rfl
@[simp] theorem State.tagBring_pending (s : State) (h c : Nat) (d : Bool) : (s.tagBring h c d).pending = s.pending := by unfold State.tagBring; dsimp only; split <;> rfl

@[simp] theorem State.tagHit_time (s : State) (h c : Nat) (w : Bool) : (s.tagHit h c w).time = s.time := rfl
@[simp] theorem State.tagHit_board (s : State) (h c : Nat) (w : Bool) : (s.tagHit h c w).board = s.board := rfl
@[simp] theorem State.tagHit_flash (s : State) (h c : Nat) (w : Bool) : (s.tagHit h c w).flash = s.flash := rfl
@[simp] theorem State.tagHit_sec (s : State) (h c : Nat) (w : Bool) : (s.tagHit h c w).sec = s.sec := rfl
@[simp] theorem State.tagHit_mem (s : State) (h c : Nat) (w : Bool) : (s.tagHit h c w).mem = s.mem := rfl
@[simp] theorem State.tagHit_pl (s : State) (h c : Nat) (w : Bool) : (s.tagHit h c w).pl = s.pl := rfl
@[simp] theorem State.tagHit_fab (s : State) (h c : Nat) (w : Bool) : (s.tagHit h c w).fab = s.fab := rfl
@[simp] theorem State.tagHit_cores (s : State) (h c : Nat) (w : Bool) : (s.tagHit h c w).cores = s.cores := rfl
@[simp] theorem State.tagHit_cells (s : State) (h c : Nat) (w : Bool) : (s.tagHit h c w).cells = s.cells := rfl
@[simp] theorem State.tagHit_flights (s : State) (h c : Nat) (w : Bool) : (s.tagHit h c w).flights = s.flights := rfl
@[simp] theorem State.tagHit_gathers (s : State) (h c : Nat) (w : Bool) : (s.tagHit h c w).gathers = s.gathers := rfl
@[simp] theorem State.tagHit_draws (s : State) (h c : Nat) (w : Bool) : (s.tagHit h c w).draws = s.draws := rfl
@[simp] theorem State.tagHit_reply (s : State) (h c : Nat) (w : Bool) : (s.tagHit h c w).reply = s.reply := rfl
@[simp] theorem State.tagHit_replyPort (s : State) (h c : Nat) (w : Bool) : (s.tagHit h c w).replyPort = s.replyPort := rfl
@[simp] theorem State.tagHit_pending (s : State) (h c : Nat) (w : Bool) : (s.tagHit h c w).pending = s.pending := rfl

/-- A miss that fetches one carve line. -/
theorem State.tagMiss_false (s : State) (h c : Nat) (w : Bool) :
    s.tagMiss h c w false = (s.tagBring h c w).bump (homePage h) .hmTcCnt Fld.hmTcCnt_misses 1 := by unfold State.tagMiss; rw [if_neg (by decide)]

/-- A miss that fetches the following carve line too. -/
theorem State.tagMiss_true (s : State) (h c : Nat) (w : Bool) :
    s.tagMiss h c w true = ((s.tagBring h c w).bump (homePage h) .hmTcCnt Fld.hmTcCnt_misses 1).tagBring h (c + 1) false := by
  unfold State.tagMiss; rw [if_pos rfl]

@[simp] theorem State.tagMiss_time (s : State) (h c : Nat) (w n : Bool) : (s.tagMiss h c w n).time = s.time := by
 cases n
 · rw [State.tagMiss_false, State.bump_time, State.tagBring_time]
 · rw [State.tagMiss_true, State.tagBring_time, State.bump_time, State.tagBring_time]
@[simp] theorem State.tagMiss_board (s : State) (h c : Nat) (w n : Bool) : (s.tagMiss h c w n).board = s.board := by
 cases n
 · rw [State.tagMiss_false, State.bump_board, State.tagBring_board]
 · rw [State.tagMiss_true, State.tagBring_board, State.bump_board, State.tagBring_board]
@[simp] theorem State.tagMiss_flash (s : State) (h c : Nat) (w n : Bool) : (s.tagMiss h c w n).flash = s.flash := by
 cases n
 · rw [State.tagMiss_false, State.bump_flash, State.tagBring_flash]
 · rw [State.tagMiss_true, State.tagBring_flash, State.bump_flash, State.tagBring_flash]
@[simp] theorem State.tagMiss_sec (s : State) (h c : Nat) (w n : Bool) : (s.tagMiss h c w n).sec = s.sec := by
 cases n
 · rw [State.tagMiss_false, State.bump_sec, State.tagBring_sec]
 · rw [State.tagMiss_true, State.tagBring_sec, State.bump_sec, State.tagBring_sec]
@[simp] theorem State.tagMiss_mem (s : State) (h c : Nat) (w n : Bool) : (s.tagMiss h c w n).mem = s.mem := by
 cases n
 · rw [State.tagMiss_false, State.bump_mem, State.tagBring_mem]
 · rw [State.tagMiss_true, State.tagBring_mem, State.bump_mem, State.tagBring_mem]
@[simp] theorem State.tagMiss_pl (s : State) (h c : Nat) (w n : Bool) : (s.tagMiss h c w n).pl = s.pl := by
 cases n
 · rw [State.tagMiss_false, State.bump_pl, State.tagBring_pl]
 · rw [State.tagMiss_true, State.tagBring_pl, State.bump_pl, State.tagBring_pl]
@[simp] theorem State.tagMiss_fab (s : State) (h c : Nat) (w n : Bool) : (s.tagMiss h c w n).fab = s.fab := by
 cases n
 · rw [State.tagMiss_false, State.bump_fab, State.tagBring_fab]
 · rw [State.tagMiss_true, State.tagBring_fab, State.bump_fab, State.tagBring_fab]
@[simp] theorem State.tagMiss_cores (s : State) (h c : Nat) (w n : Bool) : (s.tagMiss h c w n).cores = s.cores := by
 cases n
 · rw [State.tagMiss_false, State.bump_cores, State.tagBring_cores]
 · rw [State.tagMiss_true, State.tagBring_cores, State.bump_cores, State.tagBring_cores]
@[simp] theorem State.tagMiss_cells (s : State) (h c : Nat) (w n : Bool) : (s.tagMiss h c w n).cells = s.cells := by
 cases n
 · rw [State.tagMiss_false, State.bump_cells, State.tagBring_cells]
 · rw [State.tagMiss_true, State.tagBring_cells, State.bump_cells, State.tagBring_cells]
@[simp] theorem State.tagMiss_flights (s : State) (h c : Nat) (w n : Bool) : (s.tagMiss h c w n).flights = s.flights := by
 cases n
 · rw [State.tagMiss_false, State.bump_flights, State.tagBring_flights]
 · rw [State.tagMiss_true, State.tagBring_flights, State.bump_flights, State.tagBring_flights]
@[simp] theorem State.tagMiss_gathers (s : State) (h c : Nat) (w n : Bool) : (s.tagMiss h c w n).gathers = s.gathers := by
 cases n
 · rw [State.tagMiss_false, State.bump_gathers, State.tagBring_gathers]
 · rw [State.tagMiss_true, State.tagBring_gathers, State.bump_gathers, State.tagBring_gathers]
@[simp] theorem State.tagMiss_reply (s : State) (h c : Nat) (w n : Bool) : (s.tagMiss h c w n).reply = s.reply := by
 cases n
 · rw [State.tagMiss_false, State.bump_reply, State.tagBring_reply]
 · rw [State.tagMiss_true, State.tagBring_reply, State.bump_reply, State.tagBring_reply]
@[simp] theorem State.tagMiss_replyPort (s : State) (h c : Nat) (w n : Bool) : (s.tagMiss h c w n).replyPort = s.replyPort := by
 cases n
 · rw [State.tagMiss_false, State.bump_replyPort, State.tagBring_replyPort]
 · rw [State.tagMiss_true, State.tagBring_replyPort, State.bump_replyPort, State.tagBring_replyPort]
@[simp] theorem State.tagMiss_pending (s : State) (h c : Nat) (w n : Bool) : (s.tagMiss h c w n).pending = s.pending := by
 cases n
 · rw [State.tagMiss_false, State.bump_pending, State.tagBring_pending]
 · rw [State.tagMiss_true, State.tagBring_pending, State.bump_pending, State.tagBring_pending]

@[simp] theorem State.carveAccess_time (s : State) (l : Nat) (w : Bool) : (s.carveAccess l w).time = s.time := by
 unfold State.carveAccess; dsimp only; split
 · rw [State.tagHit_time]
 · rw [State.tagMiss_time]
@[simp] theorem State.carveAccess_board (s : State) (l : Nat) (w : Bool) : (s.carveAccess l w).board = s.board := by
 unfold State.carveAccess; dsimp only; split
 · rw [State.tagHit_board]
 · rw [State.tagMiss_board]
@[simp] theorem State.carveAccess_flash (s : State) (l : Nat) (w : Bool) : (s.carveAccess l w).flash = s.flash := by
 unfold State.carveAccess; dsimp only; split
 · rw [State.tagHit_flash]
 · rw [State.tagMiss_flash]
@[simp] theorem State.carveAccess_sec (s : State) (l : Nat) (w : Bool) : (s.carveAccess l w).sec = s.sec := by
 unfold State.carveAccess; dsimp only; split
 · rw [State.tagHit_sec]
 · rw [State.tagMiss_sec]
@[simp] theorem State.carveAccess_mem (s : State) (l : Nat) (w : Bool) : (s.carveAccess l w).mem = s.mem := by
 unfold State.carveAccess; dsimp only; split
 · rw [State.tagHit_mem]
 · rw [State.tagMiss_mem]
@[simp] theorem State.carveAccess_pl (s : State) (l : Nat) (w : Bool) : (s.carveAccess l w).pl = s.pl := by
 unfold State.carveAccess; dsimp only; split
 · rw [State.tagHit_pl]
 · rw [State.tagMiss_pl]
@[simp] theorem State.carveAccess_fab (s : State) (l : Nat) (w : Bool) : (s.carveAccess l w).fab = s.fab := by
 unfold State.carveAccess; dsimp only; split
 · rw [State.tagHit_fab]
 · rw [State.tagMiss_fab]
@[simp] theorem State.carveAccess_cores (s : State) (l : Nat) (w : Bool) : (s.carveAccess l w).cores = s.cores := by
 unfold State.carveAccess; dsimp only; split
 · rw [State.tagHit_cores]
 · rw [State.tagMiss_cores]
@[simp] theorem State.carveAccess_cells (s : State) (l : Nat) (w : Bool) : (s.carveAccess l w).cells = s.cells := by
 unfold State.carveAccess; dsimp only; split
 · rw [State.tagHit_cells]
 · rw [State.tagMiss_cells]
@[simp] theorem State.carveAccess_flights (s : State) (l : Nat) (w : Bool) : (s.carveAccess l w).flights = s.flights := by
 unfold State.carveAccess; dsimp only; split
 · rw [State.tagHit_flights]
 · rw [State.tagMiss_flights]
@[simp] theorem State.carveAccess_gathers (s : State) (l : Nat) (w : Bool) : (s.carveAccess l w).gathers = s.gathers := by
 unfold State.carveAccess; dsimp only; split
 · rw [State.tagHit_gathers]
 · rw [State.tagMiss_gathers]
@[simp] theorem State.carveAccess_reply (s : State) (l : Nat) (w : Bool) : (s.carveAccess l w).reply = s.reply := by
 unfold State.carveAccess; dsimp only; split
 · rw [State.tagHit_reply]
 · rw [State.tagMiss_reply]
@[simp] theorem State.carveAccess_replyPort (s : State) (l : Nat) (w : Bool) : (s.carveAccess l w).replyPort = s.replyPort := by
 unfold State.carveAccess; dsimp only; split
 · rw [State.tagHit_replyPort]
 · rw [State.tagMiss_replyPort]
@[simp] theorem State.carveAccess_pending (s : State) (l : Nat) (w : Bool) : (s.carveAccess l w).pending = s.pending := by
 unfold State.carveAccess; dsimp only; split
 · rw [State.tagHit_pending]
 · rw [State.tagMiss_pending]

@[simp] theorem State.stackTouch_time (s : State) (l : Nat) : (s.stackTouch l).time = s.time := by
 unfold State.stackTouch; split
 · rfl
 · rw [State.carveAccess_time]
@[simp] theorem State.stackTouch_board (s : State) (l : Nat) : (s.stackTouch l).board = s.board := by
 unfold State.stackTouch; split
 · rfl
 · rw [State.carveAccess_board]
@[simp] theorem State.stackTouch_flash (s : State) (l : Nat) : (s.stackTouch l).flash = s.flash := by
 unfold State.stackTouch; split
 · rfl
 · rw [State.carveAccess_flash]
@[simp] theorem State.stackTouch_sec (s : State) (l : Nat) : (s.stackTouch l).sec = s.sec := by
 unfold State.stackTouch; split
 · rfl
 · rw [State.carveAccess_sec]
@[simp] theorem State.stackTouch_mem (s : State) (l : Nat) : (s.stackTouch l).mem = s.mem := by
 unfold State.stackTouch; split
 · rfl
 · rw [State.carveAccess_mem]
@[simp] theorem State.stackTouch_pl (s : State) (l : Nat) : (s.stackTouch l).pl = s.pl := by
 unfold State.stackTouch; split
 · rfl
 · rw [State.carveAccess_pl]
@[simp] theorem State.stackTouch_fab (s : State) (l : Nat) : (s.stackTouch l).fab = s.fab := by
 unfold State.stackTouch; split
 · rfl
 · rw [State.carveAccess_fab]
@[simp] theorem State.stackTouch_cores (s : State) (l : Nat) : (s.stackTouch l).cores = s.cores := by
 unfold State.stackTouch; split
 · rfl
 · rw [State.carveAccess_cores]
@[simp] theorem State.stackTouch_cells (s : State) (l : Nat) : (s.stackTouch l).cells = s.cells := by
 unfold State.stackTouch; split
 · rfl
 · rw [State.carveAccess_cells]
@[simp] theorem State.stackTouch_flights (s : State) (l : Nat) : (s.stackTouch l).flights = s.flights := by
 unfold State.stackTouch; split
 · rfl
 · rw [State.carveAccess_flights]
@[simp] theorem State.stackTouch_gathers (s : State) (l : Nat) : (s.stackTouch l).gathers = s.gathers := by
 unfold State.stackTouch; split
 · rfl
 · rw [State.carveAccess_gathers]
@[simp] theorem State.stackTouch_reply (s : State) (l : Nat) : (s.stackTouch l).reply = s.reply := by
 unfold State.stackTouch; split
 · rfl
 · rw [State.carveAccess_reply]
@[simp] theorem State.stackTouch_replyPort (s : State) (l : Nat) : (s.stackTouch l).replyPort = s.replyPort := by
 unfold State.stackTouch; split
 · rfl
 · rw [State.carveAccess_replyPort]
@[simp] theorem State.stackTouch_pending (s : State) (l : Nat) : (s.stackTouch l).pending = s.pending := by
 unfold State.stackTouch; split
 · rfl
 · rw [State.carveAccess_pending]

@[simp] theorem State.laneErr_regs (s : State) (l : Nat) : (s.laneErr l).regs = s.regs := rfl
@[simp] theorem State.laneErr_time (s : State) (l : Nat) : (s.laneErr l).time = s.time := rfl
@[simp] theorem State.laneErr_board (s : State) (l : Nat) : (s.laneErr l).board = s.board := rfl
@[simp] theorem State.laneErr_flash (s : State) (l : Nat) : (s.laneErr l).flash = s.flash := rfl
@[simp] theorem State.laneErr_sec (s : State) (l : Nat) : (s.laneErr l).sec = s.sec := rfl
@[simp] theorem State.laneErr_mem (s : State) (l : Nat) : (s.laneErr l).mem = s.mem := rfl
@[simp] theorem State.laneErr_pl (s : State) (l : Nat) : (s.laneErr l).pl = s.pl := rfl
@[simp] theorem State.laneErr_fab (s : State) (l : Nat) : (s.laneErr l).fab = s.fab := rfl
@[simp] theorem State.laneErr_cores (s : State) (l : Nat) : (s.laneErr l).cores = s.cores := rfl
@[simp] theorem State.laneErr_cells (s : State) (l : Nat) : (s.laneErr l).cells = s.cells := rfl
@[simp] theorem State.laneErr_flights (s : State) (l : Nat) : (s.laneErr l).flights = s.flights := rfl
@[simp] theorem State.laneErr_gathers (s : State) (l : Nat) : (s.laneErr l).gathers = s.gathers := rfl
@[simp] theorem State.laneErr_reply (s : State) (l : Nat) : (s.laneErr l).reply = s.reply := rfl
@[simp] theorem State.laneErr_replyPort (s : State) (l : Nat) : (s.laneErr l).replyPort = s.replyPort := rfl
@[simp] theorem State.laneErr_pending (s : State) (l : Nat) : (s.laneErr l).pending = s.pending := rfl

@[simp] theorem State.noteUse_regs (s : State) (c : Nat) : (s.noteUse c).regs = s.regs := by unfold State.noteUse; split <;> rfl
@[simp] theorem State.noteUse_time (s : State) (c : Nat) : (s.noteUse c).time = s.time := by unfold State.noteUse; split <;> rfl
@[simp] theorem State.noteUse_flash (s : State) (c : Nat) : (s.noteUse c).flash = s.flash := by unfold State.noteUse; split <;> rfl
@[simp] theorem State.noteUse_sec (s : State) (c : Nat) : (s.noteUse c).sec = s.sec := by unfold State.noteUse; split <;> rfl
@[simp] theorem State.noteUse_mem (s : State) (c : Nat) : (s.noteUse c).mem = s.mem := by unfold State.noteUse; split <;> rfl
@[simp] theorem State.noteUse_homes (s : State) (c : Nat) : (s.noteUse c).homes = s.homes := by unfold State.noteUse; split <;> rfl
@[simp] theorem State.noteUse_pl (s : State) (c : Nat) : (s.noteUse c).pl = s.pl := by unfold State.noteUse; split <;> rfl
@[simp] theorem State.noteUse_fab (s : State) (c : Nat) : (s.noteUse c).fab = s.fab := by unfold State.noteUse; split <;> rfl
@[simp] theorem State.noteUse_cores (s : State) (c : Nat) : (s.noteUse c).cores = s.cores := by unfold State.noteUse; split <;> rfl
@[simp] theorem State.noteUse_cells (s : State) (c : Nat) : (s.noteUse c).cells = s.cells := by unfold State.noteUse; split <;> rfl
@[simp] theorem State.noteUse_flights (s : State) (c : Nat) : (s.noteUse c).flights = s.flights := by unfold State.noteUse; split <;> rfl
@[simp] theorem State.noteUse_gathers (s : State) (c : Nat) : (s.noteUse c).gathers = s.gathers := by unfold State.noteUse; split <;> rfl
@[simp] theorem State.noteUse_draws (s : State) (c : Nat) : (s.noteUse c).draws = s.draws := by unfold State.noteUse; split <;> rfl
@[simp] theorem State.noteUse_reply (s : State) (c : Nat) : (s.noteUse c).reply = s.reply := by unfold State.noteUse; split <;> rfl
@[simp] theorem State.noteUse_replyPort (s : State) (c : Nat) : (s.noteUse c).replyPort = s.replyPort := by unfold State.noteUse; split <;> rfl
@[simp] theorem State.noteUse_pending (s : State) (c : Nat) : (s.noteUse c).pending = s.pending := by unfold State.noteUse; split <;> rfl

@[simp] theorem State.queueRecast_regs (s : State) (a b : Nat) : (s.queueRecast a b).regs = s.regs := by unfold State.queueRecast; (split <;> split) <;> rfl
@[simp] theorem State.queueRecast_time (s : State) (a b : Nat) : (s.queueRecast a b).time = s.time := by unfold State.queueRecast; (split <;> split) <;> rfl
@[simp] theorem State.queueRecast_board (s : State) (a b : Nat) : (s.queueRecast a b).board = s.board := by unfold State.queueRecast; (split <;> split) <;> rfl
@[simp] theorem State.queueRecast_flash (s : State) (a b : Nat) : (s.queueRecast a b).flash = s.flash := by unfold State.queueRecast; (split <;> split) <;> rfl
@[simp] theorem State.queueRecast_mem (s : State) (a b : Nat) : (s.queueRecast a b).mem = s.mem := by unfold State.queueRecast; (split <;> split) <;> rfl
@[simp] theorem State.queueRecast_homes (s : State) (a b : Nat) : (s.queueRecast a b).homes = s.homes := by unfold State.queueRecast; (split <;> split) <;> rfl
@[simp] theorem State.queueRecast_pl (s : State) (a b : Nat) : (s.queueRecast a b).pl = s.pl := by unfold State.queueRecast; (split <;> split) <;> rfl
@[simp] theorem State.queueRecast_fab (s : State) (a b : Nat) : (s.queueRecast a b).fab = s.fab := by unfold State.queueRecast; (split <;> split) <;> rfl
@[simp] theorem State.queueRecast_cores (s : State) (a b : Nat) : (s.queueRecast a b).cores = s.cores := by unfold State.queueRecast; (split <;> split) <;> rfl
@[simp] theorem State.queueRecast_cells (s : State) (a b : Nat) : (s.queueRecast a b).cells = s.cells := by unfold State.queueRecast; (split <;> split) <;> rfl
@[simp] theorem State.queueRecast_flights (s : State) (a b : Nat) : (s.queueRecast a b).flights = s.flights := by unfold State.queueRecast; (split <;> split) <;> rfl
@[simp] theorem State.queueRecast_gathers (s : State) (a b : Nat) : (s.queueRecast a b).gathers = s.gathers := by unfold State.queueRecast; (split <;> split) <;> rfl
@[simp] theorem State.queueRecast_draws (s : State) (a b : Nat) : (s.queueRecast a b).draws = s.draws := by unfold State.queueRecast; (split <;> split) <;> rfl
@[simp] theorem State.queueRecast_reply (s : State) (a b : Nat) : (s.queueRecast a b).reply = s.reply := by unfold State.queueRecast; (split <;> split) <;> rfl
@[simp] theorem State.queueRecast_replyPort (s : State) (a b : Nat) : (s.queueRecast a b).replyPort = s.replyPort := by unfold State.queueRecast; (split <;> split) <;> rfl
@[simp] theorem State.queueRecast_pending (s : State) (a b : Nat) : (s.queueRecast a b).pending = s.pending := by unfold State.queueRecast; (split <;> split) <;> rfl

end Sys2Proof.Machine
end

