-- ==== Sys2Proof/Laws/Memory.lean ====
section
/-! SUPPORT. Every operation on stack memory and on the Relief banks keeps the canonical form of the bytes, and the memory after reset has it. -/

namespace Sys2Proof.Machine

/-! ## Stack memory (07, 14) -/

/-- Stack memory and every bank are in canonical form after reset. -/
theorem MemSys.reset_wf : Mem.Wf MemSys.reset.dev := SMap.Wf.nil

/-- A key folded over a list keeps a property that each key keeps. -/
theorem foldl_keeps {α β : Type} {P : α → Prop} {f : α → β → α} (hf : ∀ x b, P x → P (f x b)) {x : α} (h : P x) (l : List β) : P (l.foldl f x) := by
  induction l generalizing x with
  | nil => exact h
  | cons b l ih => exact ih (hf x b h)

@[simp] theorem MemSys.setPoison_dev (m : MemSys) (l : Nat) (p : Bool) : (m.setPoison l p).dev = m.dev := rfl
@[simp] theorem MemSys.setCline_dev (m : MemSys) (a l : Nat) (c : CacheLine) : (m.setCline a l c).dev = m.dev := rfl
@[simp] theorem MemSys.dropCline_dev (m : MemSys) (a l : Nat) : (m.dropCline a l).dev = m.dev := rfl
@[simp] theorem MemSys.setDir_dev (m : MemSys) (l : Nat) (d : DirEntry) : (m.setDir l d).dev = m.dev := rfl
@[simp] theorem State.setBank_dev (s : State) (k : Nat) (b : Bank) : (s.setBank k b).mem.dev = s.mem.dev := rfl
@[simp] theorem State.setFrame_dev (s : State) (k : Nat) (x : Frame) : (s.setFrame k x).mem.dev = s.mem.dev := rfl

/-- The bytes after a line is written to its stack. -/
theorem MemSys.stackWrite_dev (m : MemSys) (l : Nat) (d : Line) (p : Bool) :
    (m.stackWrite l d p).dev = m.dev.writeMasked (64 * l) (2 ^ 64 - 1) d.toNat := by unfold MemSys.stackWrite; rfl

/-- A line written to its stack. -/
theorem MemSys.stackWrite_wf {m : MemSys} (h : Mem.Wf m.dev) (l : Nat) (d : Line) (p : Bool) : Mem.Wf (m.stackWrite l d p).dev := by
  rw [MemSys.stackWrite_dev]; exact Mem.Wf.writeMasked h _ _ _

/-- A line given up to a snoop. -/
theorem MemSys.giveUp_wf {m : MemSys} (h : Mem.Wf m.dev) (a l : Nat) : Mem.Wf (m.giveUp a l).dev := by
  unfold MemSys.giveUp
  split
  · exact h
  · have h1 : ∀ c : CacheLine, Mem.Wf (if c.st = .modified then m.stackWrite l c.data c.poison else m).dev := by
      intro c; split
      · exact MemSys.stackWrite_wf h _ _ _
      · exact h
    dsimp only; split <;> exact h1 _

/-- A line taken from an agent. -/
theorem State.takeFrom_wf {s : State} (h : s.devWf) (l a : Nat) : (State.takeFrom l s a).devWf := by
  have h1 : Mem.Wf (if (s.mem.dirAt l).names a = true then s.countSnoop a l else s).mem.dev := by
    split
    · rw [State.countSnoop_mem]; exact h
    · exact h
  unfold State.takeFrom State.devWf
  dsimp only
  split
  · exact h1
  · refine MemSys.giveUp_wf ?_ _ _
    split
    · rw [State.carveAccess_mem]; exact h1
    · exact h1

/-- A line recalled from every holder. -/
theorem State.recall_wf {s : State} (h : s.devWf) (l : Nat) (keep : Option Nat) : (s.recall l keep).devWf := by
  unfold State.recall State.devWf
  dsimp only
  rw [MemSys.setDir_dev, State.clearResvOn_mem]
  exact foldl_keeps (P := State.devWf) (fun _ a hx => State.takeFrom_wf hx l a) h _

/-- Masked bytes of a line merged in its stack. -/
theorem State.lineWrite_wf {s : State} (h : s.devWf) (l mask : Nat) (d : Line) : (s.lineWrite l mask d).1.devWf := by
  unfold State.lineWrite
  split
  · split
    · exact MemSys.stackWrite_wf h _ _ _
    · exact h
  · unfold State.devWf; exact Mem.Wf.writeMasked h _ _ _

/-- A whole or partial write at a line's home. -/
theorem State.homeWrite_wf {s : State} (h : s.devWf) (l mask : Nat) (d : Line) : (s.homeWrite l mask d).1.devWf := by
  have h1 : ((s.recall l none).carveAccess l true).devWf := by
    unfold State.devWf; rw [State.carveAccess_mem]; exact State.recall_wf h l none
  unfold State.homeWrite
  exact State.lineWrite_wf h1 l mask d

/-- Bytes written at their homes. -/
theorem State.homeWriteBytes_wf {s : State} (h : s.devWf) (a : Nat) (bytes : List Byte) : (s.homeWriteBytes a bytes).1.devWf := by
  unfold State.homeWriteBytes
  refine foldl_keeps (P := fun r : State × Bool => r.1.devWf) (fun r b hx => ?_) h _
  dsimp only
  exact State.homeWrite_wf hx _ _ _

/-- A word written at its home. -/
theorem State.homeStore_wf {s : State} (h : s.devWf) (a n v : Nat) : (s.homeStore a n v).devWf := by
  unfold State.homeStore; exact State.homeWriteBytes_wf h _ _

/-- A line poisoned: its bytes stay. -/
theorem State.poisonLine_dev (s : State) (l c : Nat) : (s.poisonLine l c).mem.dev = s.mem.dev := by
  unfold State.poisonLine
  dsimp only
  repeat' split
  all_goals simp

/-- What a stack read finds leaves the bytes as they were. -/
theorem State.stackRead_dev (s : State) (l : Nat) (e : MemErr) : (s.stackRead l e).mem.dev = s.mem.dev := by
  unfold State.stackRead
  split
  · rfl
  · split <;> simp [State.poisonLine_dev]

/-- A consumption of poison is recorded; memory stays. -/
@[simp] theorem State.consumePoison_mem (s : State) (l c : Nat) : (s.consumePoison l c).mem = s.mem := by
  unfold State.consumePoison
  dsimp only
  split <;> simp

/-- A line written back. -/
theorem State.writeBackOp_wf {s : State} (h : s.devWf) (a l : Nat) : (s.writeBackOp a l).devWf := by
  have h0 : Mem.Wf (s.carveAccess l true).mem.dev := by rw [State.carveAccess_mem]; exact h
  unfold State.writeBackOp
  split
  · exact h
  · dsimp only
    split
    · unfold State.devWf
      rw [State.poisonLine_dev, State.clearResv_mem, MemSys.setDir_dev, MemSys.dropCline_dev]
      exact MemSys.stackWrite_wf h0 _ _ _
    · unfold State.devWf
      rw [State.clearResv_mem, MemSys.setDir_dev, MemSys.dropCline_dev]
      exact MemSys.stackWrite_wf h0 _ _ _

/-- A line evicted. -/
theorem State.evict_wf {s : State} (h : s.devWf) (a l : Nat) : (s.evict a l).devWf := by
  unfold State.evict
  split
  · exact h
  · split
    · exact State.writeBackOp_wf h a l
    · unfold State.devWf; rw [State.clearResv_mem, MemSys.dropCline_dev]; exact h

/-- Room made for a line. -/
theorem State.makeRoom_wf {s : State} (h : s.devWf) (a l : Nat) : (s.makeRoom a l).devWf := by
  unfold State.makeRoom
  split
  · exact h
  · dsimp only
    split
    · unfold State.devWf; rw [State.drew_mem]; exact State.evict_wf h _ _
    · exact h

/-- A read shared. -/
theorem State.readSharedOp_wf {s : State} (h : s.devWf) (a l : Nat) : (s.readSharedOp a l).devWf := by
  unfold State.readSharedOp State.devWf
  dsimp only
  simp only [MemSys.setDir_dev, MemSys.setCline_dev]
  refine foldl_keeps (P := fun m : MemSys => Mem.Wf m.dev) (fun m b hm => ?_) ?_ _
  · split
    · exact hm
    · have h1 : ∀ c : CacheLine, Mem.Wf (if c.st = .modified then m.stackWrite l c.data c.poison else m).dev := by
        intro c; split
        · exact MemSys.stackWrite_wf hm _ _ _
        · exact hm
      split <;> exact h1 _
  · refine foldl_keeps (P := State.devWf) (fun t b ht => ?_) ?_ _
    · split
      · unfold State.devWf; rw [State.countSnoop_mem]; exact ht
      · exact ht
    · unfold State.devWf; rw [State.carveAccess_mem]; exact State.makeRoom_wf h a l

/-- Ownership granted. -/
theorem State.ownOp_wf {s : State} (h : s.devWf) (a l : Nat) : (s.ownOp a l).devWf := by
  have h0 := State.recall_wf (State.makeRoom_wf h a l) l (some a)
  unfold State.ownOp State.devWf
  dsimp only
  rw [MemSys.setDir_dev, MemSys.setCline_dev]
  split
  · rw [State.carveAccess_mem]; exact h0
  · exact h0

/-- A store into a core cache: memory's bytes stay. -/
theorem State.coreStore_dev (s : State) (c l m : Nat) (d : Line) : (s.coreStore c l m d).1.mem.dev = s.mem.dev := by
  unfold State.coreStore
  split
  · rfl
  · dsimp only
    split
    · rfl
    · exact MemSys.setCline_dev _ _ _ _

/-! ## Relief banks (06 R199 to R202) -/

/-- A granule written. -/
theorem Bank.writeGranule_wf {b : Bank} (h : Mem.Wf b.data) (g mask : Nat) (d : Line) : Mem.Wf (b.writeGranule g mask d).1.data := by
  unfold Bank.writeGranule
  repeat' split
  all_goals first | exact h | exact Mem.Wf.writeMasked h _ _ _

/-- Bytes written to a bank. -/
theorem Bank.writeBytes_wf {b : Bank} (h : Mem.Wf b.data) (off : Nat) (bytes : List Byte) : Mem.Wf (b.writeBytes off bytes).1.data := by
  unfold Bank.writeBytes
  refine foldl_keeps (P := fun r : Bank × Bool => Mem.Wf r.1.data) (fun r g hx => ?_) h _
  dsimp only
  exact Bank.writeGranule_wf hx _ _ _

/-- A write to a bank by an agent: the written bank keeps its form, and every other bank is as before. -/
theorem State.bankWrite_wf {s : State} (k off : Nat) (bytes : List Byte) (own : Option Nat) (h : Mem.Wf (s.bank k).data) :
    Mem.Wf ((s.bankWrite k off bytes own).1.bank k).data ∧ ∀ j, j ≠ k → (s.bankWrite k off bytes own).1.bank j = s.bank j := by
  unfold State.bankWrite
  dsimp only
  refine ⟨?_, fun j hj => ?_⟩
  · rw [State.bank_setBank_self]
    exact Bank.writeBytes_wf (b := (s.bank k).clearResv off bytes.length own) h _ _
  · rw [State.bank_setBank, if_neg hj]

/-- A bank write leaves stack memory as it was. -/
theorem State.bankWrite_dev (s : State) (k off : Nat) (bytes : List Byte) (own : Option Nat) : (s.bankWrite k off bytes own).1.mem.dev = s.mem.dev := rfl

end Sys2Proof.Machine
end

