-- ==== Sys2Proof/Laws/Translate.lean ====
section
/-! SUPPORT. What a read of device memory gives where no cache holds the line and the device TLB holds the leaf. -/

namespace Sys2Proof.Machine

/-! ## Memory that no agent holds -/

theorem Mem.readLE_div (m : Mem) (a k : Nat) : ∀ i, i < k → m.readLE a k / 256 ^ i % 256 = (m.read (a + i)).toNat := by
  induction k generalizing a with
  | zero => intro i h; omega
  | succ k ih =>
    intro i h
    have hb : (m.read a).toNat < 256 := (m.read a).isLt
    cases i with
    | zero => simp [Mem.readLE]; omega
    | succ i =>
      have := ih (a + 1) i (by omega)
      rw [Mem.readLE, Nat.pow_succ, Nat.mul_comm (256 ^ i), ← Nat.div_div_eq_div_mul, Nat.add_mul_div_left _ _ (by omega), Nat.div_eq_of_lt hb, Nat.zero_add,
        this, Nat.add_right_comm, Nat.add_assoc]

theorem Mem.readLE_lt (m : Mem) (a n : Nat) : m.readLE a n < 256 ^ n := by
  induction n generalizing a with
  | zero => simp [Mem.readLE]
  | succ n ih =>
    have hb : (m.read a).toNat < 256 := (m.read a).isLt
    have := ih (a + 1)
    rw [Mem.readLE, Nat.pow_succ]; omega

/-- A line that no cache holds modified is the stack's. -/
theorem MemSys.dirty_nil {m : MemSys} (h : m.caches = []) (line : Nat) : m.dirty? line = none := by
  simp [MemSys.dirty?, MemSys.cline?, h, SMap.find?]

/-- A byte of a line that no cache holds is the stack's. -/
theorem MemSys.homeByte_nil {m : MemSys} (h : m.caches = []) (a : Nat) : m.homeByte a = m.dev.read a := by
  have hl : m.dev.readLE (64 * (a / 64)) 64 < 2 ^ 512 := Nat.lt_of_lt_of_eq (m.dev.readLE_lt _ 64) (Nat.pow_mul 2 8 64).symm
  have hd := Mem.readLE_div m.dev (64 * (a / 64)) 64 (a % 64) (Nat.mod_lt _ (by omega))
  apply BitVec.eq_of_toNat_eq
  rw [MemSys.homeByte, MemSys.homeLine, MemSys.dirty_nil h, Mem.readLine, BitVec.toNat_ofNat, BitVec.toNat_ofNat, Nat.mod_eq_of_lt hl]
  exact hd.trans (by rw [Nat.div_add_mod])

/-- Where no cache holds a line, no transaction waits and nothing is poisoned, every line is free and clean. -/
theorem MemSys.free_nil {m : MemSys} (hc : m.caches = []) (hq : m.lineQ = []) (line : Nat) : m.free line = true := by
  simp [MemSys.free, MemSys.blocked, MemSys.queue, hq, MemSys.held, MemSys.cline?, hc, SMap.find?, SMap.at, SMap.get]

theorem MemSys.homePoison_nil {m : MemSys} (hc : m.caches = []) (hp : m.poison = []) (line : Nat) : m.homePoison line = false := by
  simp [MemSys.homePoison, MemSys.dirty_nil hc, hp, SMap.get, SMap.find?]

/-! ## A leaf in the device TLB -/

/-- A leaf of a 32 MiB page of a frame that passes, with the right (10 R301, R302, R305). -/
theorem State.leafPlace_small {s : State} {ctx va : Nat} {r : Right} {e : Word} (hr : leafRight e r = true) (ht : e.fld 1 2 ≠ 2)
    (hf : s.framePasses (s.ctx ctx).part (decide (r = .read)) (e.fld 25 15) = true) :
    s.leafPlace ctx va r e false = some (.stack (e.fld 25 15 * 0x2000000 + va % 0x2000000)) := by
  simp [State.leafPlace, hr, ht, hf]

/-- A read of an address whose small page the device TLB holds goes to the page's frame. -/
theorem State.chPlace_hit {s : State} {ctx va : Nat} {t : TlbEntry} (hv : va < 2 ^ 51) (hh : s.tlbHit 16 ctx va = some t) (hb : t.big = false)
    (hr : leafRight t.leaf .read = true) (ht : t.leaf.fld 1 2 ≠ 2) (hf : s.framePasses (s.ctx ctx).part true (t.leaf.fld 25 15) = true) :
    s.chPlace ctx false va false = .place (.stack (t.leaf.fld 25 15 * 0x2000000 + va % 0x2000000)) := by
  have hp := State.leafPlace_small (va := va) hr ht (by simpa using hf)
  simp only [State.chPlace, State.xlPlinth, hv, if_true, Bool.false_eq_true, if_false, State.xlDevice, hh, hb, hp]

/-- Two addresses of one small page hit the same entries, where no entry is of a big page. -/
theorem State.tlbHit_page {s : State} {ctx va vb : Nat} (hs : ∀ e ∈ s.pl.dtlb, e.big = false) (h : va / 0x2000000 = vb / 0x2000000) :
    s.tlbHit 16 ctx va = s.tlbHit 16 ctx vb := by
  unfold State.tlbHit State.tlbOf
  have : ∀ l : List TlbEntry, (∀ e ∈ l, e.big = false) →
      l.find? (fun e => e.ctx == ctx && (if e.big then e.page == va / 0x40000000 else e.page == va / 0x2000000))
        = l.find? (fun e => e.ctx == ctx && (if e.big then e.page == vb / 0x40000000 else e.page == vb / 0x2000000)) := by
    intro l hl
    induction l with
    | nil => rfl
    | cons x l ih =>
      have hx := hl x (by simp)
      have e := ih fun e he => hl e (by simp [he])
      simp only [h] at e
      simp only [List.find?_cons, hx, h, Bool.false_eq_true, if_false, e]
  simpa using this _ hs

/-- A read of bytes of one small page that the device TLB holds, over memory that nothing holds or poisons, gives the stack's bytes. -/
theorem State.vaRead_page {s : State} {ctx va n : Nat} {t : TlbEntry} (hv : va + n ≤ 2 ^ 51) (hn : va % 0x2000000 + n ≤ 0x2000000)
    (hs : ∀ e ∈ s.pl.dtlb, e.big = false) (hh : s.tlbHit 16 ctx va = some t) (hr : leafRight t.leaf .read = true) (ht : t.leaf.fld 1 2 ≠ 2)
    (hf : s.framePasses (s.ctx ctx).part true (t.leaf.fld 25 15) = true) (hc : s.mem.caches = []) (hq : s.mem.lineQ = []) (hp : s.mem.poison = []) :
    s.vaRead ctx va n = some (some ((List.range n).map fun i => s.mem.dev.read (t.leaf.fld 25 15 * 0x2000000 + va % 0x2000000 + i))) := by
  have hb : t.big = false := hs t (by simpa [State.tlbOf] using List.mem_of_find?_eq_some hh)
  unfold State.vaRead
  simp only
  rw [List.map_congr_left (g := fun i => some (.ok (s.mem.dev.read (t.leaf.fld 25 15 * 0x2000000 + va % 0x2000000 + i)))) fun i hi => ?_]
  · simp [Function.comp_def]
  · have hi : i < n := by simpa using hi
    have hd : (va + i) / 0x2000000 = va / 0x2000000 := by omega
    have hm : (va + i) % 0x2000000 = va % 0x2000000 + i := by omega
    rw [State.chPlace_hit (by omega) (State.tlbHit_page hs hd ▸ hh) hb hr ht hf, hm, ← Nat.add_assoc]
    simp [State.chByte, MemSys.free_nil hc hq, MemSys.homePoison_nil hc hp, MemSys.homeByte_nil hc]

end Sys2Proof.Machine
end

