-- ==== Sys2Proof/Tests/Slice0.lean ====
section
/-! SUPPORT. Small tests of the model: ill-formed commands, states that meet the hypotheses of each statement, and single steps with results written out from the specification. -/

namespace Sys2Proof.Tests
set_option Elab.async false
open Sys2Proof Sys2Proof.Machine

/-! ## The states that the tests run on -/

/-- A word with fields written as (lowest bit, value). -/
def enc (l : List (Nat × Nat)) : Word := Word.ofNat ((l.map fun p => p.2 * 2 ^ p.1).sum)

/-- The complex after start-up, its host link up. -/
def tUp : State := ({ State.reset with board := { portsDown := 0 } }.setFld rstPage .startStat Fld.startStat_ready 1).setFld rstPage .startStat Fld.startStat_step 11

/-- Engine 0 of core 0, of one cell, runs for context 1. -/
def tEng : Engine := { formed := true, state := 1, codeLen := 64, relief := 0x200000, ctx := 1 }

/-- The host answers nothing. -/
def noHost : HostAnswer := ⟨[], [], []⟩

/-- Its cell. -/
def c0 : CellRef := { core := 0, eng := 0, idx := 0 }

/-- The complex with that engine, its cell and what it has in flight. -/
def tRun (x : Cell) (f : Flight := {}) (e : Engine := tEng) : State :=
  { tUp with cores := [(0, { engines := [(0, e)], residents := [1], mapped := true })], cells := [(0, x)], flights := if f = {} then [] else [(0, f)] }

/-- A running cell: s1 = 5, s2 = -3, s3 = 2^63, s4 = 0x100, and addresses in page 1, the aperture, the arena window and past the operand store. -/
def tX : Cell := { phase := .running, sregs := [(1, 5), (2, 0xFFFFFFFFFFFFFFFD), (3, 0x8000000000000000), (4, 0x100), (5, 0x2000000), (7, 2251799813685248), (8, 1125899906842624), (9, 524288)] }

/-- The complex with that cell. -/
def tC : State := tRun tX

/-- A running cell that awaits no register issues any word. -/
theorem issuesIn {s : State} {c : CellRef} (h : s.cellRuns c = true ∧ (s.at c).inCode = true ∧ (s.flightAt c).busy = 0) (regs : List Nat) : s.canIssue c regs := by
  refine ⟨h.1, h.2.1, ?_⟩
  induction regs with
  | nil => rfl
  | cons r rs ih => simp only [List.any_cons, ih, Bool.or_false]; simp [Flight.awaits, h.2.2]

theorem issues (regs : List Nat) : tC.canIssue c0 regs := issuesIn (by decide) regs

/-- A command's next state has what is asked. -/
def ran (o : Host.Outcome State Fault Refusal) (p : State → Bool) : Bool :=
  match o with
  | .next t => p t
  | _ => false

/-- The leaves of context 1, all cached: page 0 is frame 100 with every right, page 1 frame 101 read only, page 2 Relief block 0 of core 0. -/
def tLeaves : List TlbEntry := [⟨1, 0, false, enc [(0, 1), (1, 1), (3, 7), (25, 100)]⟩, ⟨1, 1, false, enc [(0, 1), (1, 1), (3, 1), (25, 101)]⟩, ⟨1, 2, false, enc [(0, 1), (1, 2), (3, 7)]⟩]

/-- Context 1 of partition 0: an arena window at 2^50, an aperture of 4 MiB at 2^51 whose first step is in the ATC. -/
def tCtx : Context :=
  { state := 1, pasid := 5, cores := 0xFFFF, ptRoot := 10 * 0x2000000, arenaWin := 2 ^ 50, monLen := 4, aptCount := 8, saveSize := 2 ^ 40, saveBase := 200 * 0x2000000
    arenas := [⟨0x1000, 0x10000, 0x4000, 40, 6, 0x40, false, false, true⟩] }

/-- A state with context 1, and words in frame 100. -/
def mem1 (words : List (Nat × Nat)) (s : State) : State :=
  { s with
    mem := { s.mem with dev := words.foldl (fun m e => m.writeLE (100 * 0x2000000 + e.1) 8 e.2) [], frames := [(10, { state := 1 }), (100, { state := 1 }), (101, { state := 1 })] }
    sec := { s.sec with parts := [(0, { cores := 0xFFFF })] }
    cores := s.cores.put {} 0 { s.core 0 with tlb := tLeaves }
    pl := { s.pl with
      dtlb := tLeaves
      ctxs := [(1, tCtx)], apts := [(64 + 2, { state := 1, hbase := 0x10000000, dbase := 2 ^ 51, length := 0x400000, flags := 0xE })]
      atc := [⟨0, 5, 0x10000000, 21, 0x77000000, true, true, 0, 0⟩] } }

/-- The first byte of frame 100, where virtual address 0 lies. -/
def f100 : Nat := 100 * 0x2000000

/-! ## Ill-formed commands are refused -/

theorem test_wellFormed_refuses :
    ([.registerWrite ⟨.rootPort 0, 19⟩ 0 8 0, .form 0 16 0, .sop { core := 16, eng := 0, idx := 0 } 0, .sop { core := 0, eng := 64, idx := 0 } 0,
      .sop { core := 0, eng := 0, idx := 64 } 0, .armCellsCleared 16, .softQuarantineTrigger 0 ⟨272, 1⟩, .engineFaulted 0 64, .barrierArrival 0 64 0, .barrierWatchdog 0 32,
      .readOwn 17 0, .stagingRecordReadDone 17 noHost, .commandStart 16384 0, .pageWalk 32 1 0, .pageWalk 16 4096 0, .pageWalk 16 1 (2 ^ 64), .atsInvalidation 0 (2 ^ 20) 0 1,
      .chiselStreamResume 20, .chiselFault 0 16 ⟨0, false⟩ noHost, .quantumExpiry 16 0, .switchDecided 0 4096, .portUp ⟨16, []⟩, .ringTailAdvance 1024, .scrubDone 23040,
      .fixedConditionChange 2048, .icClaim 16, .throttleReqRise 4, .droopTrip (.cell 0 272), .droopTrip (.core 16), .droopTrip (.home 12),
      .handshakeTimeout (.core 0) (.core 16), .refclkLoss 6, .configurationRequest 4 0 .other, .configurationRequest 0 17 .other, .deviceInvalidateDone 17,
      .queueFetch 16384 noHost] : List Instr).all (fun i => !i.wellFormed) = true := by decide

theorem test_wellFormed_accepts :
    ([.registerWrite ⟨.rootPort 0, 20⟩ 0 8 0, .form 18 15 0, .sop { core := 15, eng := 63, idx := 63 } 0, .softQuarantineTrigger 15 ⟨271, 1⟩, .engineFaulted 15 63, .barrierWatchdog 0 31,
      .readOwn 16 0, .commandStart 16383 0, .pageWalk 31 4095 (2 ^ 64 - 1), .atsInvalidation 16 (2 ^ 20 - 1) 0 1, .chiselFault 19 15 ⟨0, false⟩ noHost, .portUp ⟨15, []⟩,
      .ringTailAdvance 1023, .scrubDone 23039, .fixedConditionChange 2047, .icClaim 15, .throttleReqRise 3, .droopTrip (.cell 15 271), .droopTrip (.core 15),
      .droopTrip (.home 11), .refclkLoss 5, .configurationRequest 3 16 .other] : List Instr).all Instr.wellFormed = true := by decide

/-! ## The step -/

theorem holds_StepRunsFrontCommand : { tC with pending := [.linkUp, .pfFlr] }.pending = .linkUp :: [.pfFlr] ∧ tC.pending = [] := by decide
theorem holds_StepTakesOneCommand :
    ({ tC with pending := [.nopInstr c0 (enc [(58, 0x0D)])] }.pending = .nopInstr c0 (enc [(58, 0x0D)]) :: [])
      ∧ ∃ t, step { tC with pending := [.nopInstr c0 (enc [(58, 0x0D)])] } = .next t := ⟨rfl, _, rfl⟩
theorem holds_StepKeepsMemoryCanonical : ({ tC with pending := [.linkUp] }).devWf ∧ ∃ t, step { tC with pending := [.linkUp] } = .next t :=
  ⟨by unfold State.devWf; decide, _, rfl⟩

/-! ## Scalar instructions -/

theorem holds_ScalarResult :
    (∀ fn ∈ [0, 13], let w := enc [(58, 0x00), (52, 63), (46, 1), (40, 2), (34, fn)]; opOf w = 0x00 ∧ w ≠ 0 ∧ w.fld 34 6 ≤ 13 ∧ zeroFld w 0 34 = true)
    ∧ (∀ fn ∈ [0, 13], let w := enc [(58, 0x01), (52, 1), (46, 2), (40, fn), (0, 0xFFFFFFFF)]; opOf w = 0x01 ∧ w.fld 40 6 ≤ 13 ∧ zeroFld w 32 8 = true)
    ∧ (let w := enc [(58, 0x03), (52, 0), (0, 0xFFFFFFFFFFFF)]; opOf w = 0x03 ∧ zeroFld w 48 4 = true)
    ∧ (let w := enc [(58, 0x04), (52, 1), (0, 0xFFFF)]; opOf w = 0x04 ∧ zeroFld w 16 36 = true) ∧ tC.canIssue c0 [63, 1, 2] :=
  ⟨by decide, by decide, by decide, by decide, issues _⟩

/-- 5 - (-3) = 8; s0 discards. -/
theorem test_sop_sub : (∃ t, exec (.sop c0 (enc [(52, 6), (46, 1), (40, 2), (34, 1)])) tC = .next t ∧ (t.cell 0).s 6 = 8 ∧ (t.cell 0).pc = 8)
    ∧ ∃ t, exec (.sop c0 (enc [(52, 0), (46, 1), (40, 2), (34, 1)])) tC = .next t ∧ (t.cell 0).s 0 = 0 := ⟨⟨_, rfl, by decide⟩, _, rfl, by decide⟩
/-- A 32-bit immediate is sign-extended: 5 + (-1) = 4. -/
theorem test_sopi_add : ∃ t, exec (.sopi c0 (enc [(58, 1), (52, 6), (46, 1), (40, 0), (0, 0xFFFFFFFF)])) tC = .next t ∧ (t.cell 0).s 6 = 4 := ⟨_, rfl, by decide⟩
theorem test_movi_movhi : (∃ t, exec (.movi c0 (enc [(58, 3), (52, 6), (0, 0x800000000000)])) tC = .next t ∧ (t.cell 0).s 6 = 0xFFFF800000000000)
    ∧ ∃ t, exec (.movhi c0 (enc [(58, 4), (52, 1), (0, 0xABCD)])) tC = .next t ∧ (t.cell 0).s 1 = 0xABCD000000000005 := ⟨⟨_, rfl, by decide⟩, _, rfl, by decide⟩

theorem holds_SmdResults :
    (∀ fn ∈ [0, 1, 2, 3, 4, 5, 6], let w := enc [(58, 0x02), (52, 6), (46, 3), (40, 2), (34, fn)]; opOf w = 0x02 ∧ zeroFld w 0 34 = true ∧ w.fld 34 6 = fn)
    ∧ (∀ fn ∈ [7, 8, 9], let w := enc [(58, 0x02), (52, 6), (46, 3), (34, fn)]; opOf w = 0x02 ∧ zeroFld w 0 34 = true ∧ w.fld 34 6 = fn ∧ sbOf w = 0)
    ∧ (∀ fn ∈ [7, 9, 10, 63], let w := enc [(58, 0x02), (52, 6), (46, 3), (40, 2), (34, fn)];
        opOf w = 0x02 ∧ zeroFld w 0 34 = true ∧ (10 ≤ w.fld 34 6 ∨ (7 ≤ w.fld 34 6 ∧ sbOf w ≠ 0)))
    ∧ (let s := tRun { tX with sregs := [(2, BitVec.allOnes 64), (3, BitVec.intMin 64)] }
       (s.cellAt c0).s 3 = BitVec.intMin 64 ∧ (s.cellAt c0).s 2 = BitVec.allOnes 64 ∧ s.cellRuns c0 = true ∧ (s.at c0).inCode = true
         ∧ [6, 3, 2].any (s.flightAt c0).awaits = false)
    ∧ tC.canIssue c0 [6, 3, 2] := ⟨by decide, by decide, by decide, by decide, issues _⟩
/-- 5 divided by -3 is -1; the count of leading zeros of 5 is 61. -/
theorem test_smd_div_clz : (∃ t, exec (.smd c0 (enc [(58, 2), (52, 6), (46, 1), (40, 2), (34, 3)])) tC = .next t ∧ (t.cell 0).s 6 = 0xFFFFFFFFFFFFFFFF)
    ∧ ∃ t, exec (.smd c0 (enc [(58, 2), (52, 6), (46, 1), (34, 7)])) tC = .next t ∧ (t.cell 0).s 6 = 61 := ⟨⟨_, rfl, by decide⟩, _, rfl, by decide⟩

theorem holds_BranchResult :
    (∀ cond ∈ [0, 5], let w := enc [(58, 0x08), (46, 1), (40, 2), (37, cond), (0, 0xFFFFFFF8)];
        opOf w = 0x08 ∧ zeroFld w 52 6 = true ∧ w.fld 37 3 ≤ 5 ∧ zeroFld w 32 5 = true ∧ zeroFld w 0 3 = true)
    ∧ (∀ cond ∈ [0, 5], let w := enc [(58, 0x09), (52, 1), (49, cond), (32, 5), (0, 8)]; opOf w = 0x09 ∧ w.fld 49 3 ≤ 5 ∧ zeroFld w 48 1 = true ∧ zeroFld w 0 3 = true)
    ∧ (let w := enc [(58, 0x0A), (52, 1), (0, 16)]; opOf w = 0x0A ∧ zeroFld w 32 20 = true ∧ zeroFld w 0 3 = true)
    ∧ (let w := enc [(58, 0x0B), (52, 6), (46, 4), (0, 8)]; opOf w = 0x0B ∧ zeroFld w 32 14 = true ∧ ((tC.cellAt c0).s (saOf w) + sxFld w 0 32).toNat % 8 = 0)
    ∧ (let w := enc [(58, 0x0B), (52, 6), (46, 1), (0, 8)]; opOf w = 0x0B ∧ zeroFld w 32 14 = true ∧ ((tC.cellAt c0).s (saOf w) + sxFld w 0 32).toNat % 8 ≠ 0)
    ∧ (let w := enc [(58, 0x0D)]; opOf w = 0x0D ∧ zeroFld w 0 58 = true) ∧ tC.canIssue c0 [6, 4] := ⟨by decide, by decide, by decide, by decide, by decide, by decide, issues _⟩
/-- A branch that is taken adds its offset to its own address; JAL leaves the next address. -/
theorem test_branches : (∃ t, exec (.bcci c0 (enc [(58, 9), (52, 1), (49, 0), (32, 5), (0, 24)])) tC = .next t ∧ (t.cell 0).pc = 24)
    ∧ (∃ t, exec (.bcci c0 (enc [(58, 9), (52, 1), (49, 1), (32, 5), (0, 24)])) tC = .next t ∧ (t.cell 0).pc = 8)
    ∧ ∃ t, exec (.jal c0 (enc [(58, 0xA), (52, 6), (0, 16)])) tC = .next t ∧ (t.cell 0).pc = 16 ∧ (t.cell 0).s 6 = 8 :=
  ⟨⟨_, rfl, by decide⟩, ⟨_, rfl, by decide⟩, _, rfl, by decide⟩

theorem holds_SystemRegisters :
    (∀ i ∈ [0, 4, 0x10, 0x12], let w := enc [(58, 0x3E), (54, 0), (48, 6), (41, i)]; opOf w = 0x3E ∧ zeroFld w 16 25 = true ∧ minorOf w = 0 ∧ sysListed (sysIdx w) = true ∧ sysIdx w = i)
    ∧ (∀ i ∈ [0x10, 0x11, 0x12], let w := enc [(58, 0x3E), (54, 1), (48, 1), (41, i)]; opOf w = 0x3E ∧ zeroFld w 16 25 = true ∧ minorOf w = 1 ∧ sysIdx w = i)
    ∧ (tC.cellAt c0).s 1 = 5 ∧ 5 ≤ ((tC.cellAt c0).s 1).fld 0 3 ∧ ((tC.cellAt c0).s 4).fld 0 3 ≤ 4
    ∧ (let w := enc [(58, 0x3E), (54, 2)]; opOf w = 0x3E ∧ zeroFld w 16 25 = true ∧ minorOf w = 2) ∧ tC.canIssue c0 [6] :=
  ⟨by decide, by decide, by decide, by decide, by decide, by decide, issues _⟩

/-- An engine of one cell that is stopping for nothing, in a state whose cell has the lines given. -/
theorem holds_Traps :
    (let w := enc [(58, 0x3E), (54, 3), (0, 0xFFFF)]; opOf w = 0x3E ∧ zeroFld w 16 25 = true ∧ minorOf w = 3)
    ∧ (let w := enc [(58, 0x3E), (54, 4)]; opOf w = 0x3E ∧ zeroFld w 16 25 = true ∧ minorOf w = 4 ∧ tC.coreDebug c0.core = false)
    ∧ ({ tC with sec := { tC.sec with parts := [(0, { cores := 1, debug := true })] }, pl := { tC.pl with ctxs := [(1, { state := 1 })] } } : State).coreDebug 0 = true
    ∧ (tC.cellRuns c0 = true ∧ (tC.at c0).inCode = true ∧ reservedWord (enc [(58, 0x3F)]) = true)
    ∧ ((tRun { tX with pc := 64 }).cellRuns c0 = true ∧ ((tRun { tX with pc := 64 }).at c0).inCode = false ∧ ((tRun { tX with pc := 56 }).at c0).inCode = true)
    ∧ (let s := tRun tX { failed := some (6, 3, 8) }; (s.flightAt c0).failed = some (6, 3, 8) ∧ s.cellWorks c0 = true ∧ (s.flightAt c0).ops = [])
    ∧ (c0.idx < (tC.engine c0.core c0.eng).size ∧ (tC.engine c0.core c0.eng).stopping = 0)
    ∧ (let w := enc [(52, 1), (34, 14)]; opOf w = 0x00 ∧ ¬ w.fld 34 6 ≤ 13) ∧ opOf (0 : Word) = 0x00
    ∧ (let s := tRun tX { busy := 4 }; let w := enc [(52, 1), (46, 2)]; opOf w = 0x00 ∧ s.cellRuns c0 = true ∧ (s.at c0).inCode = true ∧ w ≠ 0 ∧ w.fld 34 6 ≤ 13 ∧ zeroFld w 0 34 = true
        ∧ [sdOf w, saOf w, sbOf w].any (s.flightAt c0).awaits = true) := by decide
/-- TRAP gives code 11 with its IMM; the engine takes the code and stops. -/
theorem test_trap : ∃ t, exec (.trap c0 (enc [(58, 0x3E), (54, 3), (0, 0x1234)])) tC = .next t ∧ (t.cell 0).phase = .stopped ∧ (t.engine 0 0).trapCode = 11 ∧ (t.engine 0 0).stopping = 1 :=
  ⟨_, rfl, by decide⟩

/-! ## Vector instructions -/

/-- A vector word of the three-operand layout: VD, VA, VB, PM, ZM, TY, RND, FN. -/
def vword (op vd va vb pm zm ty rnd fn : Nat) : Word := enc [(58, op), (53, vd), (48, va), (43, vb), (35, pm), (34, zm), (32, ty), (29, rnd), (23, fn)]

theorem holds_VectorArithmetic :
    (∀ fn ∈ [0, 6, 9, 16], ∀ ty ∈ [0, 1], let w := vword 0x20 31 1 2 1 1 ty 0 fn; opOf w = 0x20 ∧ zeroFld w 0 23 = true ∧ tyOf w = ty ∧ vfnOf w = fn ∧ rndCode (vrndOf w) = true ∧ vrndOf w = 0)
    ∧ (let w := vword 0x20 31 1 2 1 0 0 7 0; rndCode (vrndOf w) = true ∧ varExact (vfnOf w) = false)
    ∧ (∀ fn ∈ [0, 13], let w := vword 0x21 31 1 2 1 0 2 0 fn; opOf w = 0x21 ∧ zeroFld w 0 23 = true ∧ tyOf w = 2 ∧ vfnOf w = fn ∧ vrndOf w = 0)
    ∧ (∀ fn ∈ [0, 1, 4], let w := vword 0x23 31 1 2 1 0 0 0 fn; opOf w = 0x23 ∧ zeroFld w 0 23 = true ∧ tyOf w = 0 ∧ vfnOf w = fn ∧ rndCode (vrndOf w) = true ∧ vrndOf w = 0)
    ∧ tC.canIssue c0 [] := ⟨by decide, by decide, by decide, by decide, issues _⟩

theorem holds_PredicateResult :
    (∀ x ∈ [(0, 0), (5, 2), (6, 1), (7, 2), (8, 2)], let w := enc [(58, 0x22), (53, 2), (48, 1), (43, 2), (35, 1), (32, x.2), (23, x.1)]
        opOf w = 0x22 ∧ zeroFld w 0 23 = true ∧ zeroFld w 56 2 = true ∧ tyOf w ≤ 2 ∧ vrndOf w = 0
          ∧ (vfnOf w ≤ 5 ∨ (vfnOf w = 6 ∧ tyOf w ≤ 1) ∨ ((vfnOf w = 7 ∨ vfnOf w = 8) ∧ tyOf w = 2)))
    ∧ (∀ fn ∈ [0, 5, 6], let w := enc [(58, 0x29), (55, 7), (52, 1), (49, 2), (46, fn), (40, 1)]; opOf w = 0x29 ∧ zeroFld w 0 40 = true ∧ w.fld 46 3 = fn)
    ∧ tC.canIssue c0 [1] := ⟨by decide, by decide, issues _⟩
/-- VPRED FN 5 sets as many low bits as s1 says; p0 stays all ones. -/
theorem test_vpred : ran (exec (.vpred c0 (enc [(58, 0x29), (55, 3), (46, 5), (40, 1)])) tC) (fun t => (t.cell 0).pred 3 == 31) = true
    ∧ ran (exec (.vpred c0 (enc [(58, 0x29), (55, 0), (46, 5), (40, 1)])) tC) (fun t => ((t.cell 0).pred 0).toNat.testBit 255) = true := by decide +kernel

theorem holds_VectorMoves :
    (∀ ty ∈ [0, 1, 2], let w := vword 0x2A 3 1 2 1 0 ty 0 0; opOf w = 0x2A ∧ zeroFld w 0 23 = true ∧ vfnOf w = 0 ∧ zmOf w = false ∧ tyOf w = ty ∧ vrndOf w = 0)
    ∧ (∀ fn ∈ [0, 1, 2, 3, 4], let w := enc [(58, 0x27), (53, 3), (48, 1), (43, 2), (37, 6), (34, fn), (0, 127)]; opOf w = 0x27 ∧ zeroFld w 16 18 = true ∧ w.fld 34 3 = fn)
    ∧ (∀ st ∈ [0, 1], let w := enc [(58, 0x28), (53, 3), (50, 7), (45, 30), (44, st)]; opOf w = 0x28 ∧ zeroFld w 0 44 = true ∧ w.fld 45 5 % 2 = 0
        ∧ ((tC.flight (tC.cellKey c0)).tq.any fun o => o.kind.names (w.fld 50 3)) = false ∧ w.bit 44 = (st == 1))
    ∧ tC.canIssue c0 [6] := ⟨by decide, by decide, by decide, issues _⟩

theorem holds_VectorReduceLoadStore :
    (∀ x ∈ [(0, 1), (3, 0), (4, 2)], let w := enc [(58, 0x26), (52, 6), (47, 1), (44, 1), (42, x.2), (36, x.1)]
        opOf w = 0x26 ∧ zeroFld w 0 36 = true ∧ w.fld 36 3 = x.1 ∧ w.fld 42 2 = x.2 ∧ rndCode (w.fld 39 3) = true ∧ w.fld 39 3 = 0)
    ∧ (∀ op ∈ [0x24, 0x25], let w := enc [(58, op), (53, 3), (47, 4)]; opOf w = op ∧ vmLegal w = true ∧ vmPm w = 0 ∧ vmTy w = 0 ∧ vmFmt w = 0 ∧ (vmAddr w (tC.cell (tC.cellKey c0))).isSome = true)
    ∧ (∀ op ∈ [0x24, 0x25], let w := enc [(58, op), (53, 3), (47, 1)]; opOf w = op ∧ vmLegal w = true ∧ vmAddr w (tC.cell (tC.cellKey c0)) = none)
    ∧ (let w := enc [(58, 0x25), (53, 3), (47, 4), (37, 0xC), (27, 1)]; vmLegal w = true ∧ vmFmt w = 0xC ∧ (vmAddr w (tC.cell (tC.cellKey c0))).isSome = true)
    ∧ tC.canIssue c0 [6, 4] := ⟨by decide, by decide, by decide, by decide, issues _⟩

/-! ## Tensor instructions, tokens, descriptors and the asynchronous queues -/

/-- An element descriptor: ADDR, FMT, SPACE, ROWS - 1, COLS - 1, STRIDE. -/
def tile (addr fmt space rows cols stride : Nat) : BitVec 128 :=
  BitVec.ofNat 128 (addr + fmt * 2 ^ 52 + space * 2 ^ 56 + (rows - 1) * 2 ^ 64 + (cols - 1) * 2 ^ 76 + stride * 2 ^ 92)

/-- Descriptors 0 to 6 in the operand store, 8 to 10 in Relief, 12 in device space; 0, 8 and 12 agree, 4 is the transpose of 2. -/
def tDescs : SMap (BitVec 128) :=
  [(0, tile 0 0 0 4 16 256), (2, tile 0x1000 0 0 2 4 256), (4, tile 0x2000 0 0 4 2 256), (6, tile 0x3000 1 0 4 64 256), (8, tile 0 0 1 4 16 256), (9, tile 0x8000 0 1 4 1 256), (10, tile 0x4000 0 1 4 16 256),
    (12, tile 0x1000 0 2 4 16 256), (14, tile 0x5000 1 0 64 4 256)]

/-- The complex whose cell has them. -/
def tD : State := tRun { tX with descs := tDescs }

theorem issuesD (regs : List Nat) : tD.canIssue c0 regs := issuesIn (by decide) regs

theorem holds_TensorIssue :
    (let w := enc [(58, 0x30), (54, 15), (46, 7), (42, 6), (38, 6), (32, 28)]; let a := tD.at c0
       asyncHeader w = true ∧ opOf w = 0x30 ∧ zeroFld w 0 32 = true ∧ tilesFail a.eng.relief (tmmaTiles false w a) = none ∧ tD.asyncRoom c0 w (tmmaKind false w a))
    ∧ (let w := enc [(58, 0x30), (42, 6), (38, 6), (32, 29)]; let a := tD.at c0
       asyncHeader w = true ∧ opOf w = 0x30 ∧ zeroFld w 0 32 = true ∧ tilesFail a.eng.relief (tmmaTiles false w a) = some 5)
    ∧ (let w := enc [(58, 0x31), (42, 6), (38, 6)]; opOf w = 0x31 ∧ zeroFld w 0 32 = true)
    ∧ (let w := enc [(58, 0x32), (46, 1), (42, 0), (32, 28)]; let x := (tD.at c0).cell.tile (descAt w 42)
       asyncHeader w = true ∧ opOf w = 0x32 ∧ zeroFld w 0 24 = true ∧ rndCode (w.fld 39 3) = true ∧ x.lawful (descAt w 42) = true ∧ x.space = 0 ∧ x.below opBytes = true
         ∧ x.sparse = false ∧ x.opRowsT + w.fld 32 5 ≤ 32 ∧ x.opColsT ≤ 64)
    ∧ (let w := enc [(58, 0x33), (46, 1), (42, 0), (39, 1), (34, 28)]; let x := (tD.at c0).cell.tile (descAt w 42)
       asyncHeader w = true ∧ opOf w = 0x33 ∧ zeroFld w 0 34 = true ∧ w.fld 40 2 = 0 ∧ x.lawful (descAt w 42) = true ∧ x.space = 0 ∧ x.below opBytes = true ∧ x.fmt ≤ 2
         ∧ x.trans = false ∧ x.tern = false ∧ x.sparse = false ∧ (w.bit 39 = true → x.fmt = 0) ∧ x.cols ≤ 64 ∧ x.rows + w.fld 34 5 ≤ 32)
    ∧ (let w := enc [(58, 0x33), (46, 1), (40, 2)]; opOf w = 0x33 ∧ zeroFld w 0 34 = true ∧ w.fld 40 2 = 2 ∧ zeroFld w 42 4 = true ∧ w.bit 39 = false ∧ w.fld 34 5 = 0)
    ∧ (let w := enc [(58, 0x35), (46, 1), (43, 2), (40, 3), (38, 2)]; asyncHeader w = true ∧ opOf w = 0x35 ∧ zeroFld w 0 38 = true ∧ w.fld 38 2 ≠ 3)
    ∧ (let w := enc [(58, 0x34), (45, 2), (41, 4)]; let x := (tD.at c0).cell.tile (descAt w 45); let y := (tD.at c0).cell.tile (descAt w 41)
       asyncHeader w = true ∧ opOf w = 0x34 ∧ zeroFld w 0 37 = true ∧ rndCode (w.fld 38 3) = true ∧ x.lawful (descAt w 45) = true ∧ x.space = 0 ∧ x.below opBytes = true
         ∧ y.lawful (descAt w 41) = true ∧ y.space = 0 ∧ y.below opBytes = true ∧ x.trans = false ∧ x.sparse = false ∧ y.trans = false ∧ y.sparse = false ∧ x.rows = y.cols
         ∧ x.cols = y.rows ∧ x.apart y = true)
    ∧ (tD.flightAt c0).tq.length < 2 ∧ (tD.cellAt c0).pendingOf 15 < 255 ∧ tD.canIssue c0 [] := by
  refine ⟨?_, ?_, ?_, ?_, ?_, ?_, ?_, ?_, by decide, by decide, issuesD _⟩ <;> (try unfold State.asyncRoom) <;> decide
/-- A TACX joins the tensor queue and its token's PENDING becomes 1. -/
theorem test_tacx_issues : ∃ t, exec (.tacx c0 (enc [(58, 0x35), (54, 3), (46, 1), (43, 2), (40, 3)])) tD = .next t ∧ (t.cell 0).pendingOf 3 = 1
    ∧ (t.flight 0).tq.map AsyncOp.kind = [.tacx 1 2 3 0] := ⟨_, rfl, by decide⟩

theorem holds_MoveAndReliefIssue :
    (let w := enc [(58, 0x38), (48, 1), (44, 0), (40, 8)]; let o := (tD.at c0).cell.tile (descAt w 44); let m := (tD.at c0).cell.tile (descAt w 40)
       asyncHeader w = true ∧ opOf w = 0x38 ∧ zeroFld w 0 40 = true ∧ tilesFail (tD.at c0).eng.relief [⟨descAt w 44, o, 0, o.agrees m⟩, ⟨descAt w 40, m, 1, true⟩] = none)
    ∧ (∀ dir ∈ [0, 1], let w := enc [(58, 0x39), (48, dir), (44, 0), (40, 12), (36, 15), (35, 1 - dir), (34, dir), (33, 1)]
       let o := (tD.at c0).cell.tile (descAt w 44); let m := (tD.at c0).cell.tile (descAt w 40)
       asyncHeader w = true ∧ opOf w = 0x39 ∧ zeroFld w 0 33 = true ∧ (if w.bit 48 then w.bit 35 = false else w.bit 34 = false)
         ∧ tilesFail (tD.at c0).eng.relief [⟨descAt w 44, o, 0, o.agrees m⟩, ⟨descAt w 40, m, 2, true⟩] = none)
    ∧ (let w := enc [(58, 0x3A), (45, 0), (39, 1)]; let o := (tD.at c0).cell.tile (descAt w 45)
       asyncHeader w = true ∧ opOf w = 0x3A ∧ zeroFld w 0 39 = true ∧ tilesFail (tD.at c0).eng.relief [⟨descAt w 45, o, 0, true⟩] = none)
    ∧ (∀ x ∈ [(0, 0), (0, 3), (0, 10), (1, 0), (1, 1), (5, 0)], let w := enc [(58, 0x3C), (45, x.1), (41, 8), (37, 8), (33, 8), (29, 10), (19, 4), (13, x.2)]
       asyncHeader w = true ∧ opOf w = 0x3C ∧ rMinor w = x.1 ∧ zeroFld w 0 13 = true ∧ rndCode (w.fld 26 3) = true ∧ rFn w = x.2
         ∧ tilesFail (tD.at c0).eng.relief (reliefTiles x.1 x.2 w (tD.at c0)) = none)
    ∧ (∀ x ∈ [(4, 0), (4, 1)], let w := enc [(58, 0x3C), (45, x.1), (19, 4), (13, x.2)]; let a := ((tD.at c0).cell.s (rSa w)).toNat
       opOf w = 0x3C ∧ rMinor w = x.1 ∧ zeroFld w 0 13 = true ∧ rFn w = x.2 ∧ a % 8 = 0 ∧ a % 64 = 0 ∧ a < opBytes)
    ∧ (∀ fn ∈ [0, 4], let w := enc [(58, 0x3C), (45, 2), (41, 9), (37, 8), (13, fn)]
       opOf w = 0x3C ∧ rMinor w = 2 ∧ zeroFld w 0 13 = true ∧ rFn w = fn ∧ tilesFail (tD.at c0).eng.relief (reliefTiles 2 fn w (tD.at c0)) = none)
    ∧ (∀ fn ∈ [0, 1, 2, 3], let w := enc [(58, 0x3C), (45, 3), (41, 8), (37, 8), (33, 10), (29, 10), (19, 4), (13, fn)]
       opOf w = 0x3C ∧ rMinor w = 3 ∧ zeroFld w 0 13 = true ∧ rFn w = fn ∧ tilesFail (tD.at c0).eng.relief (reliefTiles 3 fn w (tD.at c0)) = none)
    ∧ (let w := enc [(58, 0x3D), (45, 0), (41, 12), (37, 15), (36, 1), (34, 2)]; let x := (tD.at c0).cell.tile (descAt w 45); let y := (tD.at c0).cell.tile (descAt w 41)
       asyncHeader w = true ∧ opOf w = 0x3D ∧ zeroFld w 0 34 = true ∧ w.fld 34 2 ≠ 3 ∧ tilesFail (tD.at c0).eng.relief
         [⟨descAt w 45, x, 0, decide (x.fmt ≤ 1) && x.reliefOk y⟩,
          ⟨descAt w 41, y, 2, decide (y.fmt ≤ 1) && y.reliefOk y && y.base % 64 == 0 && y.stride % 64 == 0 && y.rowBytes % 64 == 0⟩] = none)
    ∧ (tD.flightAt c0).mq.length < 8 ∧ (tD.flightAt c0).rq.length < 8 ∧ (tD.cellAt c0).pendingOf 0 < 255 ∧ tD.canIssue c0 [4] :=
  ⟨by decide, by decide, by decide, by decide, by decide, by decide, by decide, by decide, by decide, by decide, by decide, issuesD _⟩

/-- A queued operation with number 7 that has started and advances token 1. -/
def aop (kind : AsyncKind) : AsyncOp := ⟨7, 0, 1, none, kind, true, [], [], none⟩

/-- The descriptors above as tiles: 4 rows of 16 FP32 elements. -/
def tTile : Tile := ⟨tile 0 0 0 4 16 256, 0⟩
def tRel : Tile := ⟨tile 0 0 1 4 16 256, 0⟩

/-- The complex whose cell has one operation in a queue. -/
def tQ (f : Flight) : State := tRun { tX with toks := [(1, 1)] } f

theorem holds_AsyncCompletes :
    (∀ o ∈ [aop (.tacx 1 2 3 0)], let s := tQ { tq := [{ o with started := false }] }
       s.cellWorks c0 = true ∧ findOp (s.flight 0).tq 7 = some { o with started := false } ∧ (s.engine 0 0).stopping ≠ 2 ∧ (s.flight 0).mayStart .tensor { o with started := false } = true)
    ∧ (let s := tQ { tq := [aop (.tmma 1 tTile tTile true 0 false)] }; s.cellWorks c0 = true ∧ (s.flight 0).tq = aop (.tmma 1 tTile tTile true 0 false) :: [] ∧ s.arraysOff 0 = false)
    ∧ (∀ dir ∈ [false, true], let o := aop (.mvrl dir tTile tRel); let s := tQ { mq := [o] }
       s.cellWorks c0 = true ∧ (s.flight 0).moveOp 7 = some o ∧ (s.bank 0).poison = [])
    ∧ (let o := aop (.mvbc tTile 0 0)
       let e : Engine := { tEng with mvbc := [(0, (2, 0))] }
       let s : State := tRun tX { mq := [o] } e
       s.cellWorks c0 = true ∧ (s.flight 0).moveOp 7 = some o ∧ ((s.engine 0 0).mvbc.at (0, 0) 0).1 ≠ 0 ∧ (s.engine 0 0).size ≤ ((s.engine 0 0).mvbc.at (0, 0) 0).1 - 1)
    ∧ (let o := aop (.mvbc tTile 0 0)
       let s : State := tRun tX { mq := [o] } { tEng with mvbc := [(0, (1, 0))] }
       let e := s.engine 0 0
       (s.flight 0).moveOp 7 = some o ∧ c0.idx = (e.mvbc.at (0, 0) 0).1 - 1 ∧ (List.range e.size).all (fun j => j == 0 || (e.mvbc.at (0, 0) 0).2.testBit j) = true)
    ∧ (let o := aop (.mvbc tTile 0 0)
       let s : State := { tRun tX { mq := [o] } { tEng with sizeLog2 := 2, mvbc := [(0, (2, 0))] } with flights := [(0, { mq := [o] }), (1, { mq := [o] })] }
       let e := s.engine 0 0
       (s.flight 0).moveOp 7 = some o ∧ (e.mvbc.at (0, 0) 0).1 - 1 = 1 ∧ 1 < e.size ∧ c0.idx ≠ 1
         ∧ ((s.flight (256 * 0 + e.posOf 1)).mq.findSome? fun p => match p.kind with
             | .mvbc u _ n => if n = 0 ∧ p.started then some u else none
             | _ => none) = some tTile ∧ tTile.agrees tTile = true ∧ tTile.agrees ⟨tile 0 1 0 4 16 256, 0⟩ = false)
    ∧ (∀ x ∈ [(4, 0), (4, 1), (0, 0)], let o := aop (.relief x.1 tRel tRel tRel tRel .rne 0 0x100 x.2); let s := tQ { rq := [o] }
       s.cellWorks c0 = true ∧ (s.flight 0).rq = o :: [] ∧ o.started = true)
    ∧ (let o : AsyncOp := { aop (.racc tTile ⟨tile 0x1000 0 2 4 16 256, 0⟩ 0 false 0) with applied := [0, 1, 2, 3] }; let s := tQ { raccs := [o] }
       findOp (s.flight 0).raccs 7 = some o ∧ (List.range (Tile.granuleCount ⟨tile 0x1000 0 2 4 16 256, 0⟩)).all o.applied.contains = true) := by decide

theorem test_translations :
    let s := mem1 [] tC
    s.xlAccess 0 1 0x18 8 .atomic = .ok (.stack (f100 + 0x18)) ∧ s.xlAccess 0 1 0x2000008 8 .write = .missing ∧ s.xlAccess 0 1 (2 ^ 51 + 8) 8 .write = .ok (.host 0x77000008)
      ∧ s.xlAccess 0 1 (2 ^ 50) 8 .read = .ok (.arena 1 0) ∧ s.xlAccess 0 1 0x4000010 8 .read = .ok (.bank 0 0x10) ∧ s.xlAccess 0 1 0x8000000 8 .read = .missing := by decide +kernel

theorem holds_MoveToMemoryCompletes :
    (∀ dir ∈ [false, true], let m : Tile := ⟨tile 0x40 0 2 1 16 256, 0⟩
       let o := aop (.mvdm dir ⟨tile 0 0 0 1 16 256, 0⟩ m 0 false false false)
       let s := mem1 [] (tQ { mq := [o] })
       let right : Right := if dir then .write else .read
       let filled := s.moveFill 0 1 right m.addrs
       let ps : List (Except Nat Place) := m.addrs.map fun a => .ok (.stack (f100 + a))
       s.cellWorks c0 = true ∧ (s.flight 0).moveOp 7 = some o ∧ (o.acc.all fun x => s.mayPerform 0 0 x) = true ∧ s.movePlaces 0 1 right m.addrs = some ps
         ∧ (dir = false → (filled.ensureAll 0 false noHost [(Place.stack (f100 + 0x40)).granule.1]).isSome = true)
         ∧ (dir = true → firstCode ps = 0 ∧ (filled.storeAll 0 1 false none (gatherPlaces (m.addrs.map fun a => (.stack (f100 + a), 0))) none []).isSome = true))
    ∧ (let dm : Tile := ⟨tile 0x4000000 0 2 4 16 64, 0⟩
       let o := aop (.racc tTile dm 0 false 0)
       let s := mem1 [] (tQ { raccs := [o] })
       s.cellWorks c0 = true ∧ findOp (s.flight 0).raccs 7 = some o ∧ (s.flight 0).waitMet o = true
         ∧ ∀ g ∈ [0, 3], g < dm.granuleCount ∧ o.applied.contains g = false ∧ (o.acc.all fun x => s.mayPerform 0 0 x) = true
           ∧ s.raccPlace 0 1 (0x4000000 + 64 * g) = .ok (.bank 0 (64 * g)) ∧ 64 * g % 64 = 0 ∧ (s.bank 0).poisoned g = false) := by decide +kernel



theorem holds_TokensAndDescriptors :
    (∀ x ∈ [(0, 2), (1, 2 ^ 16 - 1)], let w := enc [(58, 0x36), (0, x.2)]; opOf w = 0x36 ∧ minorOf w = 0 ∧ zeroFld w 16 38 = true ∧ w.fld 0 16 = x.2)
    ∧ (let x := (tQ {}).cell 0; x.pendingOf 1 = 1 ∧ (∀ i, i < 16 → (2 : Nat).testBit i = true → x.pendingOf i ≤ 1) ∧ ∀ i, i < 16 → (4 : Nat).testBit i = true → x.pendingOf i ≤ 0)
    ∧ (∀ n ∈ [0, 1, 255], let w := enc [(58, 0x36), (54, 1), (50, 1), (42, n)]; opOf w = 0x36 ∧ minorOf w = 1 ∧ zeroFld w 0 42 = true ∧ w.fld 42 8 = n ∧ w.fld 50 4 = 1)
    ∧ (let w := enc [(58, 0x36), (54, 2), (50, 15), (44, 6)]; opOf w = 0x36 ∧ minorOf w = 2 ∧ zeroFld w 0 44 = true)
    ∧ (let w := enc [(58, 0x36), (54, 3), (50, 1), (47, 7)]; opOf w = 0x36 ∧ minorOf w = 3 ∧ zeroFld w 0 47 = true)
    ∧ (let s := tRun { tX with phase := .blocked (.tkop 2 1), toks := [(1, 1)] }; (s.cell (s.cellKey c0)).phase = .blocked (.tkop 2 1) ∧ s.cellBlocked c0 = true)
    ∧ (∀ m ∈ [0, 1, 2, 3, 4, 5, 6, 7], let w := enc [(58, 0x37), (54, m), (50, 15), (44, 4), (0, 0x7FFF0)]; opOf w = 0x37 ∧ zeroFld w 32 12 = true ∧ minorOf w = m)
    ∧ (let a := fun (i : Nat) => ((tC.cell 0).s 4 + sxFld (enc [(58, 0x37), (0, i)]) 0 32).toNat; a 0x7FEF0 % 16 = 0 ∧ a 0x7FEF0 < opBytes ∧ ¬ a 0x7FF00 < opBytes ∧ a 8 % 16 ≠ 0)
    ∧ tC.canIssue c0 [4, 6] := ⟨by decide, by decide, by decide, by decide, by decide, by decide, by decide, by decide, issues _⟩

/-! ## Memory instructions of a cell -/


/-! ## Memory instructions of a cell -/

/-- The cell of the running complex, with device memory and context 1. -/
def tM : State := mem1 [(0x100, 0x1122334455667788), (0x108, 9)] tC

theorem issuesM (regs : List Nat) : tM.canIssue c0 regs := issuesIn (by decide) regs

/-- A memory word: opcode, SD, SA, SB, SIZE, SIGN, SP, FN, OFF. -/
def mword (op sd sa sb size sign sp fn off : Nat) : Word := enc [(58, op), (52, sd), (46, sa), (40, sb), (38, size), (37, sign), (35, sp), (25, fn), (0, off)]

theorem holds_LoadsAndStores :
    (∀ x ∈ [(0x10, 6, 0, 1), (0x11, 0, 1, 0)], let op := x.1
      (∀ size ∈ [0, 3], let w := mword op x.2.1 4 x.2.2.1 size x.2.2.2 0 0 0; opOf w = op ∧ (if op = 0x10 then ldLegal w else stLegal w) = true ∧ mSp w = 0 ∧ mAddr w (tM.cell 0) + mSize w ≤ opBytes)
      ∧ (let w := mword op x.2.1 9 x.2.2.1 3 0 0 0 0xFFFF9; mSp w = 0 ∧ opBytes < mAddr w (tM.cell 0) + mSize w)
      ∧ (let w := mword op x.2.1 4 x.2.2.1 2 0 1 0 0; (if op = 0x10 then ldLegal w else stLegal w) = true ∧ mSp w = 1 ∧ mAddr w (tM.cell 0) + mSize w ≤ 0x200000 ∧ (tM.bank 0).anyPoison 0x100 4 = false)
      ∧ (let w := mword op x.2.1 5 x.2.2.1 2 0 1 0 0; mSp w = 1 ∧ 0x200000 < mAddr w (tM.cell 0) + mSize w))
    ∧ (let s := { tM with mem := { tM.mem with banks := [(0, { poison := [(4, true)] })] } }; (s.bank 0).anyPoison 0x100 4 = true)
    ∧ (let w := mword 0x10 6 4 0 3 0 2 0 0; ldLegal w = true ∧ mSp w = 2 ∧ tM.xlAccess 0 1 (mAddr w (tM.cell 0)) 8 .read = .ok (.stack (f100 + 0x100)) ∧ (tM.flight 0).loads.length < 8)
    ∧ (let w := mword 0x10 6 8 0 3 0 2 0 0; ldLegal w = true ∧ tM.xlAccess 0 1 (mAddr w (tM.cell 0)) 8 .read = .ok (.arena 1 0) ∧ mSize w = 8 ∧ tM.arenaAt (2 ^ 50) (.arena 1 0) = true)
    ∧ (let w := mword 0x11 0 4 1 3 0 2 0 0; stLegal w = true ∧ tM.xlAccess 0 1 (mAddr w (tM.cell 0)) 8 .write = .ok (.stack (f100 + 0x100)) ∧ tM.codeHit 1 0x100 8 = false
        ∧ (tM.flight 0).stbuf.length + (pieces 0x100 8).length ≤ 16)
    ∧ (let s := mem1 [] (tRun tX {} { tEng with codeBase := 0x100 }); s.xlAccess 0 1 0x100 8 .write = .ok (.stack (f100 + 0x100)) ∧ s.codeHit 1 0x100 8 = true)
    ∧ (let w := mword 0x11 0 5 1 3 0 2 0 0; stLegal w = true ∧ tM.xlAccess 0 1 (mAddr w (tM.cell 0)) 8 .write = .missing)
    ∧ (let w := mword 0x10 6 7 0 3 0 2 0 0xFFFF8; ldLegal w = true ∧ tM.xlAccess 0 1 (mAddr w (tM.cell 0)) 8 .read = .missing) := by decide +kernel
theorem holds_LoadsAndStores_issue : tM.canIssue c0 [6, 4] := issuesM _
/-- A byte of the operand store is loaded with its sign. -/
theorem test_ld_signed : ran (exec (.ld c0 (mword 0x10 6 4 0 0 1 0 0 1)) (tRun { tX with ops := [(0x101, 0x80)] })) (fun t => (t.cell 0).s 6 == 0xFFFFFFFFFFFFFF80) = true := by decide +kernel
/-- A store of two bytes leaves the third as it was. -/
theorem test_st_half : ran (exec (.st c0 (mword 0x11 0 4 2 1 0 0 0 0)) (tRun { tX with ops := [(0x102, 7)] })) (fun t => (t.cell 0).ops == [(0x100, 0xFD), (0x101, 0xFF), (0x102, 7)]) = true := by decide +kernel

/-- An access that cell 0 has made to device memory. -/
def acc (kind : LoadKind) (p : Place) (done : Option Nat) (failed : Nat) : LoadEntry := ⟨7, 0, 6, kind, 0x100, p, 8, 0, false, false, done, failed, []⟩

/-- Agent `a` holds the line of address 0x100 of frame 100, with 9 in its first word; from its grant it is held a while. -/
def lineIn (a : Nat) (st : LineState) (early : Nat) (s : State) : State :=
  { s with mem := { s.mem with caches := [(a % 17 * 2 ^ 34 + (f100 + 0x100) / 64, { st := st, data := 9, early := early, held := decide (17 ≤ a) })], dir := [((f100 + 0x100) / 64, { owner := a % 17 + 1, sharers := 0 })] } }

theorem holds_Atomics :
    (∀ fn ∈ [0, 8], let w := mword 0x12 6 4 1 3 0 2 fn 0; opOf w = 0x12 ∧ amoLegal w = true) ∧ (let w := mword 0x12 6 4 1 1 0 2 9 0; amoLegal w = true ∧ mSize w = 2)
    ∧ (let w := mword 0x12 6 8 1 3 0 2 1 0; amoLegal w = true ∧ mFn w = 1 ∧ mSize w = 8 ∧ tM.xlAccess 0 1 (mAddr w (tM.cell 0)) 8 .atomic = .ok (.arena 1 0) ∧ tM.arenaAt (2 ^ 50) (.arena 1 0) = true)
    ∧ (let w := mword 0x12 6 4 1 3 0 2 0 4; amoLegal w = true ∧ mAddr w (tM.cell 0) % mSize w ≠ 0)
    ∧ (let w := mword 0x13 6 4 1 3 0 2 0 0; opOf w = 0x13 ∧ casLegal w = true) ∧ (let w := mword 0x14 6 4 0 3 0 2 0 0; opOf w = 0x14 ∧ lrLegal w = true)
    ∧ (let w := mword 0x15 6 4 1 3 0 2 0 0; opOf w = 0x15 ∧ scLegal w = true)
    ∧ (tM.xlAccess 0 1 0x100 8 .atomic = .ok (.stack (f100 + 0x100)) ∧ 0x100 % 8 = 0 ∧ tM.codeHit 1 0x100 8 = false ∧ (tM.flight 0).loads.length < 8)
    ∧ (tM.xlAccess 0 1 (2 ^ 51) 8 .atomic = .ok (.host 0x77000000) ∧ (Place.host 0x77000000).isHost = true)
    ∧ (let w := enc [(58, 0x1B), (46, 4), (40, 1)]; opOf w = 0x1B ∧ zeroFld w 52 6 = true ∧ zeroFld w 0 36 = true ∧ ((tM.cell 0).s 4).toNat % 8 = 0 ∧ ((tM.cell 0).s 1).bit 63 = false
        ∧ tM.inRelief 0 1 0x100 .atomic = false)
    ∧ (((tM.cell 0).s 2).bit 63 = true ∧ ((tM.cell 0).s 1).toNat % 8 ≠ 0)
    ∧ (∀ kind ∈ [.amo 1 5, .cas 9 1, .fsig 8], let e := acc kind (.stack (f100 + 0x100)) none 0
       let s := mem1 [(0x100, 9)] (tRun tX { loads := [e] })
       s.cellWorks c0 = true ∧ (s.flight 0).access 7 = some e ∧ e.done = none ∧ e.failed = 0 ∧ (f100 + 0x100) % e.size = 0 ∧ e.size = 8 ∧ s.mayPerform 0 0 e.acc = true
         ∧ s.mem.free ((f100 + 0x100) / 64) = true ∧ (s.recall ((f100 + 0x100) / 64) none).mem.homePoison ((f100 + 0x100) / 64) = false ∧ s.savedBank (f100 + 0x100) = none)
    ∧ (let e := acc (.amo 1 5) (.stack (f100 + 0x100)) none 0
       let s := lineIn 17 .exclusive 0 (mem1 [(0x100, 9)] (tRun tX { loads := [e] }))
       s.cellWorks c0 = true ∧ (s.flight 0).access 7 = some e ∧ s.mayPerform 0 0 e.acc = true ∧ s.mem.free ((f100 + 0x100) / 64) = false
         ∧ s.mem.blocked ((f100 + 0x100) / 64) = false) := by decide +kernel
theorem holds_Atomics_issue : tM.canIssue c0 [6, 4, 1] := issuesM _
/-- An atomic add of 5 to 9 leaves 14 and takes 9; a fence signal of 8 leaves 9. -/
theorem test_atomicAtHome :
    ran (exec (.atomicAtHome c0 7 noHost) (mem1 [(0x100, 9)] (tRun tX { loads := [acc (.amo 1 5) (.stack (f100 + 0x100)) none 0] })))
      (fun t => t.mem.dev.readLE (f100 + 0x100) 8 == 14 && ((t.flight 0).access 7).map LoadEntry.done == some (some 9)) = true
    ∧ ran (exec (.atomicAtHome c0 7 noHost) (mem1 [(0x100, 9)] (tRun tX { loads := [acc (.fsig 8) (.stack (f100 + 0x100)) none 0] })))
      (fun t => t.mem.dev.readLE (f100 + 0x100) 8 == 9 && (t.flight 0).loads == []) = true := by decide +kernel

theorem holds_AccessReturns :
    (∀ x ∈ [(some 9, 0), (none, 6)], let e := acc (.ld false) (.stack (f100 + 0x100)) x.1 x.2
       let s := mem1 [] (tRun tX { loads := [e], busy := 64 }); s.cellWorks c0 = true ∧ (s.flight 0).access 7 = some e)
    ∧ (let e : StoreEntry := ⟨7, 0, .bank 0 0x38, 8, 5, 0, false⟩; let s := mem1 [] (tRun tX { stbuf := [e] })
       s.cellWorks c0 = true ∧ ((s.flight 0).stbuf.filter fun e => e.id == 7) = [e] ∧ s.mayPerform 0 0 e.acc = true ∧ e.size ≤ 8 ∧ 0x38 % 64 + e.size ≤ 64 ∧ (s.bank 0).poisoned (0x38 / 64) = false)
    ∧ (∀ kind ∈ [.ld false, .lr, .sc 5], let e := acc kind (.stack (f100 + 0x100)) none 0
       let s := lineIn 0 .exclusive 0 (mem1 [(0x100, 9)] (tRun { tX with resv := if kind = .sc 5 then some (.stack (f100 + 0x100)) else none } { loads := [e] }))
       s.cellWorks c0 = true ∧ (s.flight 0).access 7 = some e ∧ s.mayPerform 0 0 e.acc = true ∧ e.place = .stack (f100 + 0x100) ∧ (f100 + 0x100) % 64 + e.size ≤ 64
         ∧ s.mem.cline? 0 ((f100 + 0x100) / 64) = some { st := .exclusive, data := 9, early := 0, held := false } ∧ e.got = [] ∧ e.va % 8 + e.size ≤ 8 ∧ (s.flight 0).stbuf = []
         ∧ s.reserved 0 e.place = decide (kind = .sc 5))
    ∧ (let s := tRun tX { storeFail := some (16, 0) }; s.cellWorks c0 = true ∧ (s.flight 0).storeFail = some (16, 0))
    ∧ (tC.pl.atsInvs = [] ∧ ∀ e ∈ tC.pl.reqs, ∀ r, e.2.apt = some r → r.going = false ∨ r.op ≠ 1) := by decide +kernel
theorem test_memoryAccessReturn :
    ran (exec (.memoryAccessReturn c0 7 noHost) (mem1 [] (tRun tX { loads := [acc (.ld false) (.stack (f100 + 0x100)) (some 9) 0], busy := 64 })))
      (fun t => (t.cell 0).s 6 == 9 && (t.flight 0).busy == 0) = true := by decide +kernel

theorem holds_FenceAndConvert :
    (∀ scope ∈ [0, 1, 2, 3], let w := enc [(58, 0x18), (56, scope), (54, 2), (0, 0xFFFF)]; opOf w = 0x18 ∧ w.fld 54 2 ≠ 3 ∧ zeroFld w 16 38 = true)
    ∧ (let s := tRun { tX with phase := .blocked (.fence 1 0 0 0) }; s.cellBlocked c0 = true ∧ s.fenceHolds 0 0 1 0 0 = true)
    ∧ (let s := tRun { tX with phase := .blocked (.fence 1 0 0 0) } { loads := [acc (.ld false) (.stack f100) none 0] }; s.cellBlocked c0 = true ∧ s.fenceHolds 0 0 1 0 0 = false)
    ∧ (∀ tr ∈ [0, 1], let w := enc [(58, 0x16), (52, 6), (46, 7), (44, tr)]; opOf w = 0x16 ∧ zeroFld w 0 44 = true ∧ w.bit 44 = (tr == 1))
    ∧ tM.convert 1 false 0x10000008 = some (2 ^ 51 + 8) ∧ tM.convert 1 true (2 ^ 51 + 8) = some 0x10000008 ∧ tM.convert 1 false 5 = none := by decide +kernel
theorem holds_FenceAndConvert_issue : tM.canIssue c0 [6, 7] := issuesM _

/-! ## Signals, barriers and fence waits -/

/-- The state with cached map words: signal 0 is counter 9, signal 1 counter 10 with depth 20 against signal 0, barrier 0 is unit 3 of engine 0 alone. -/
def sync (s : State) (counters : SMap Word := []) (bars : SMap BarUnit := []) (addbQ : SMap (List Nat) := []) : State :=
  let m := 2 ^ 20
  { s with cores := s.cores.put {} 0 { s.core 0 with
      mapCache := [(m, Word.ofNat (2 ^ 63 + 9)), (m + 1, Word.ofNat (2 ^ 63 + 10 + 20 * 2 ^ 32)), (m + 1024, Word.ofNat (2 ^ 63 + 3)), (m + 1025, 1)]
      counters := counters, bars := bars, addbQ := addbQ } }

def tS : State := sync tM [(9, 4)]

def sigw (minor ctr imm : Nat) : Word := enc [(58, 0x19), (54, minor), (44, ctr), (38, 1), (32, 6), (0, imm)]

/-- Every cell of engine 0 has issued instance 0 of barrier 0, whose arrival is not yet made. -/
def gathered : State := { sync (mem1 [] (tRun tX {} { tEng with barAt := [(instKey 0 0, (3, 1))] })) with gathers := [(0, { bars := [(0, 1)] })] }

theorem holds_SignalCounters :
    (∀ m ∈ [0, 1, 2, 3], ∀ x ∈ [(0, 9, 0, 0), (1, 10, 20, 9)], let w := sigw m x.1 0xFFFF
       opOf w = 0x19 ∧ minorOf w = m ∧ zeroFld w 16 16 = true ∧ tS.syncReady 0 0 = true ∧ (tS.sigWords 1 0 (sigCtr w)).all (tS.mapReady 1 0) = true ∧ tS.sigEntry 1 0 (sigCtr w) = .ok x.2)
    ∧ (gathered.syncReady 0 0 = false ∧ gathered.cellRuns c0 = true ∧ (gathered.at c0).inCode = true ∧ (gathered.flightAt c0).busy = 0)
    ∧ (let s := sync (mem1 [] (tRun { tX with phase := .blocked (.sigWait 9 4) })) [(9, 4)]; (s.cell 0).phase = .blocked (.sigWait 9 4) ∧ s.cellBlocked c0 = true ∧ s.counterMet 0 9 4 = true)
    ∧ (let s := sync (mem1 [] (tRun { tX with phase := .blocked (.addb 10 24 9 20) })) [(9, 4)] [] [(10, [0])]
       s.cellBlocked c0 = true ∧ ((s.core 0).addbQ.at [] 10).head? = some 0 ∧ s.addbFits 0 10 24 9 20 = true) := by decide +kernel
theorem holds_SignalCounters_issue : tS.canIssue c0 [1] := issuesIn (by decide) _
/-- ADD adds s1 + IMM = 5 + 3 to 4; an ADDB of more than its depth traps, one that fits adds, and one that does not blocks. -/
theorem test_sig : ran (exec (.sigAdd c0 (sigw 0 0 3)) tS) (fun t => t.counter 0 9 == 12) = true
    ∧ ran (exec (.sigAddb c0 (sigw 3 1 16)) tS) (fun t => (t.cell 0).phase == .stopped && t.counter 0 10 == 0) = true
    ∧ ran (exec (.sigAddb c0 (sigw 3 1 15)) tS) (fun t => t.counter 0 10 == 20) = true
    ∧ ran (exec (.sigAddb c0 (sigw 3 1 15)) (sync tM [(10, 5)])) (fun t => t.counter 0 10 == 5 && (t.core 0).addbQ.at [] 10 == [0]) = true := by decide +kernel

def barw (minor : Nat) : Word := enc [(58, 0x1A), (54, minor), (43, 6), (37, 1)]

theorem holds_BarrierInstructions :
    (∀ m ∈ [0, 1, 2], let w := barw m; opOf w = 0x1A ∧ minorOf w = m ∧ zeroFld w 0 37 = true ∧ barBid w = 0 ∧ tS.syncReady 0 0 = true)
    ∧ (tS.mapReady 1 0 1024 = true ∧ tS.mapReady 1 0 1025 = true ∧ tS.barEntry 1 0 0 0 = .ok (3, 1))
    ∧ ((sync tM [] [(3, { lost := [5] })]).bar 0 3).lost.contains 5 = true ∧ ((sync tM [] [(3, { next := 6, done := 6 })]).bar 0 3).complete 5 = true
    ∧ ((sync tM [] [(3, { next := 6, done := 5 })]).bar 0 3).complete 5 = false
    ∧ (let s := gathered; let e := s.engine 0 0
       e.barAt.find? (instKey 0 (e.barServed.at 0 0)) = some (3, 1) ∧ s.serving = true ∧ s.resident 0 0 = true ∧ e.keys 0 ≠ [] ∧ (∀ k ∈ e.keys 0, e.barServed.at 0 0 < (s.gather k).bars.at 0 0)
         ∧ (1 : Nat) = 2 ^ 0 ∧ (s.bar 0 3).rounds = [] ∧ (s.bar 0 3).stalled = []) := by decide +kernel
theorem holds_BarrierInstructions_issue : tS.canIssue c0 [1, 6] := issuesIn (by decide) _

/-- A cell blocked in an FWAIT on virtual address 0x100 for the value 9. -/
def fwaiting (deadline slot : Option Nat) : State :=
  mem1 [(0x100, 9)] (tRun { tX with phase := .blocked (.fwait 6 0x100 9 deadline slot false) })

theorem holds_FenceWaits :
    (let w := enc [(58, 0x1C), (52, 6), (46, 4), (40, 1), (34, 0)]; opOf w = 0x1C ∧ w.fld 32 2 = 0 ∧ zeroFld w 0 15 = true ∧ ((tM.cell 0).s (saOf w)).toNat % 8 = 0
       ∧ tM.xlAccess 0 1 0x100 8 .read = .ok (.stack (f100 + 0x100)) ∧ tM.inRelief 0 1 0x100 .read = false
       ∧ ((tM.xlAccessFill 0 1 0x100 8 .read).fenceRead (tM.at c0) (.stack (f100 + 0x100)) (w.bit 15) noHost).map (fun r => match r.2 with
           | .ok v => v
           | .error _ => 0) = some 0x1122334455667788)
    ∧ (∀ x ∈ [(none, 0), (some 9, 9), (some 9, 8)], let s : State := { fwaiting x.1 none with time := x.2 }; s.cellBlocked c0 = true ∧ s.xlAccess 0 1 0x100 8 .read = .ok (.stack (f100 + 0x100))
       ∧ ((s.xlAccessFill 0 1 0x100 8 .read).fenceRead (s.at c0) (.stack (f100 + 0x100)) false noHost).map (fun r => match r.2 with
           | .ok v => v
           | .error _ => 0) = some 9 ∧ fenceMet 9 9 = true)
    ∧ (let s : State := { fwaiting none (some 2) with pl := { (fwaiting none (some 2)).pl with mons := [(2, { waiters := [0] })] } }
       (s.mon 2).waiters = [0] ∧ s.refOf 0 = some c0 ∧ s.cellBlocked c0 = true)
    ∧ (∀ bound ∈ [none, some (Place.stack f100), some (Place.stack (f100 + 0x100))], let s : State := ({ tM with mem := { tM.mem with poison := [((f100 + 0x100) / 64, true)] }, pl := { tM.pl with mons := [(3, { bound := bound })] } } : State).setFld monPage .monArmAddr Fld.monArmAddr_addr 0x100
       let v := Word.ofNat (2 ^ 63) + Fld.monArmCtl_slot.at 3 + Fld.monArmCtl_context.at 1 + Fld.monArmCtl_source.at 32
       v.bit 63 = true ∧ s.verdict 0 0x4F0 Reg.monArmCtl.off 8 = .perform ∧ (s.ctx (Fld.monArmCtl_context.get v)).state = 1 ∧ 32 ≤ Fld.monArmCtl_source.get v
         ∧ s.armPlace 1 (s.fld monPage .monArmAddr Fld.monArmAddr_addr) = some (some (.stack (f100 + 0x100))) ∧ (s.mon (Fld.monArmCtl_slot.get v)).bound = bound
         ∧ (s.plinthWord (.stack (f100 + 0x100)) noHost).isNone = true) := by decide +kernel

/-! ## Synchronisation registers and watchdogs -/

theorem holds_SynchronisationRegisters :
    (∀ core ∈ [0, 15], tUp.verdict 0 (0x1003 + 0x100 * core) Reg.syncMapinv.off 8 = .perform ∧ tUp.verdict 0 (0x1003 + 0x100 * core) Reg.sigData.off 8 = .perform
       ∧ tUp.verdict 0 (0x1003 + 0x100 * core) Reg.barCtl.off 8 = .perform ∧ (tUp.bar core (tUp.fld (syncPage core) .barIdx Fld.barIdx_unit)).stalled = []) ∧ tUp.funcPart 0 = none
    ∧ (let s := (tRun { tX with phase := .blocked (.sigWait 9 4) }).setFld (syncPage 0) .syncWd Fld.syncWd_engMs 1; (s.cellAt c0).phase = .blocked (.sigWait 9 4) ∧ (Block.sigWait 9 4).watched = true
       ∧ s.cellBlocked c0 = true ∧ s.fld (syncPage 0) .syncWd Fld.syncWd_engMs ≠ 0 ∧ s.board.thrReq.testBit 0 = false)
    ∧ (let s := (sync tM [] [(3, { rounds := [(0, 1)], ctx := some 1 })]).setFld (syncPage 0) .syncWd Fld.syncWd_barMs 1; (s.bar 0 3).ctx = some 1 ∧ 1 ∈ (s.core 0).residents ∧ (s.bar 0 3).rounds ≠ [] ∧ s.fld (syncPage 0) .syncWd Fld.syncWd_barMs ≠ 0 ∧ s.serving = true
       ∧ s.board.thrReq.testBit 0 = false) := by decide +kernel
/-- A barrier watchdog discards the open round. -/
theorem test_barrierWatchdog : ran (exec (.barrierWatchdog 0 3) ((sync tM [] [(3, { rounds := [(0, 1)], next := 1, ctx := some 1 })]).setFld (syncPage 0) .syncWd Fld.syncWd_barMs 1))
    (fun t => (t.bar 0 3).rounds == [] && (t.bar 0 3).lost == [0]) = true := by decide +kernel

/-! ## Coherence -/

/-- The first line of frame 100. -/
def L : Nat := f100 / 64

/-- Frame 100 with a line in a cache, its directory entry and the transactions that wait for it. -/
def cached (agent : Nat) (c : CacheLine) (dir : DirEntry := {}) (q : List LineReq := []) : State :=
  let s := mem1 [(0, 5)] tUp
  { s with mem := { s.mem with caches := [(cacheKey agent L, c)], dir := if dir = {} then [] else [(L, dir)], lineQ := if q = [] then [] else [(L, q)] } }

theorem holds_CacheLines :
    (∀ agent ∈ [0, 16], let s := mem1 [(0, 5)] tUp; s.up = true ∧ s.mayCache agent L = true ∧ s.mem.cline? agent L = none ∧ s.mem.free L = true ∧ s.mem.roomFor agent L = true
       ∧ (agents.filter fun a => a != agent && (s.mem.dirAt L).names a) = [] ∧ .own agent ∉ s.mem.queue L)
    ∧ (let s := cached 1 { st := .shared, data := 0 } ⟨0, 2⟩; s.mem.cline? 0 L = none ∧ s.mem.free L = true ∧ (agents.filter fun a => a != 0 && (s.mem.dirAt L).names a) ≠ [])
    ∧ (let s := cached 1 { st := .shared, data := 0, held := true } ⟨2, 0⟩; s.mem.cline? 0 L = none ∧ s.mem.free L = false)
    ∧ (let s := cached 1 { st := .modified, data := 7 } ⟨2, 0⟩ [.own 0]; (s.mem.queue L).head? = some (.own 0) ∧ s.mem.roomFor 0 L = true
       ∧ ∀ a, a < 17 → a ≠ 0 → (s.mem.cline? a L).all (fun c => !c.held) = true)
    ∧ (∀ st ∈ [LineState.modified, .shared, .exclusive], let c : CacheLine := { st := st, data := 7 }; let s := cached 1 c ⟨2, 0⟩; s.mem.cline? 1 L = some c ∧ c.held = false ∧ c.early = 0 ∧ s.up = true)
    ∧ (let c : CacheLine := { st := .modified, data := 7, held := true }; (cached 1 c ⟨2, 0⟩).mem.cline? 1 L = some c)
    ∧ (let s := cached 1 { st := .shared, data := 0 } ⟨0, 2⟩; s.up = true ∧ s.mem.dirAt L ≠ {} ∧ s.mem.free L = true)
    ∧ ((mem1 [(0, 5)] tUp).mem.queue L = [] ∧ (∀ r ∈ [LineReq.read .ok, .write 1 7], let s := cached 1 { st := .shared, data := 0 } ⟨0, 2⟩ [r, .own 0]
       s.mem.queue L = r :: [.own 0] ∧ s.mem.held L = false)) := by decide +kernel
/-- The write-back of a modified line leaves its byte in the stack and the line invalid. -/
theorem test_writeBack : ran (exec (.writeBack 1 L) (cached 1 { st := .modified, data := 7 } ⟨2, 0⟩)) (fun t => t.mem.dev.read f100 == 7 && (t.mem.cline? 1 L).isNone) = true := by decide +kernel
/-- A read that waits behind a request for ownership is answered after the grant, with the owner's bytes. -/
theorem test_lineQueue : ran (exec (.ownershipGrant 0 L) (cached 1 { st := .modified, data := 7 } ⟨2, 0⟩ [.own 0, .read .ok])) (fun t => (t.mem.queue L == [.read .ok]) && (t.mem.cline? 0 L).any fun c => c.held) = true
    ∧ ran (exec (.holdExpiry 0 L) (cached 0 { st := .modified, data := 7, held := true } ⟨1, 0⟩ [.read .ok])) (fun t => t.mem.queue L == [] && t.reply.take 1 == [7]) = true := by decide +kernel

/-- The link up with one line of host memory cached. -/
def hostLined (l : HostLine) : State := { tUp with mem := { tUp.mem with hlc := [(9, l)] } }

theorem holds_HomesAndHostLines :
    (let s := mem1 [(0, 5)] tUp; s.up = true ∧ bankLine L = none ∧ isLine L = true ∧ s.mem.free L = true ∧ (s.recall L none).mem.homePoison L = false)
    ∧ (cached 1 { st := .shared, data := 0, held := true } ⟨2, 0⟩).mem.free L = false
    ∧ (∀ l ∈ [2 ^ 34, 2 ^ 34 + 5], ∃ p, bankLine l = some p ∧ (tUp.bank p.1).poisoned p.2 = false)
    ∧ (∀ st ∈ [LineState.modified, .shared, .exclusive], let c : CacheLine := { st := st, data := 7 }; let s := cached 1 c ⟨2, 0⟩
       s.mem.cline? 1 L = some c ∧ s.mem.queue L = [] ∧ ∀ a, a < 17 → a ≠ 1 → (s.mem.cline? a L).all (fun d => !d.held) = true)
    ∧ (∀ early ∈ [0, 1], let l : HostLine := ⟨7, true, true, true, early, false⟩; (hostLined l).linkUp = true ∧ (hostLined l).hline? 9 = some l)
    ∧ (∀ valid ∈ [false, true], let l : HostLine := ⟨7, valid, false, false, 1, false⟩; (hostLined l).linkUp = true ∧ (hostLined l).hline? 9 = some l ∧ l.owned = false)
    ∧ (let x : OutReq := ⟨.write (some 1) 0x40 [5], some 2⟩; let s : State := { tUp with pl := { tUp.pl with outbound := [(1, [x])] } }
       s.linkUp = true ∧ s.pl.outbound.at [] 1 = [] ++ x :: [] ∧ x.port ≠ none) := by
  refine ⟨by decide +kernel, by decide +kernel, ?_, by decide +kernel, by decide +kernel, by decide +kernel, by decide +kernel⟩
  intro l h
  simp only [List.mem_cons, List.not_mem_nil, or_false] at h
  rcases h with rfl | rfl <;> exact ⟨_, rfl, by decide +kernel⟩

/-! ## Queues, commands and fences -/

/-- Queue 0 of context 1, which lives at entry 4 of a ring of 64, with a command at entry 4. -/
def tQueue (cmds : List (Nat × Cmd)) : Queue := { state := 1, ring := 0x10000000, ctx := 1, log2 := 6, tail := 6, head := 4, fetched := 6, cmds := cmds }

def queued (cmds : List (Nat × Cmd)) (s : State := tM) : State := { s with pl := { s.pl with queues := [(0, tQueue cmds)] } }

/-- A command of an opcode with a body. -/
def cmdIn (op body : Nat) (state : CmdState) (payload : List Line := []) : Cmd := { cmdOf (1 + payload.length) op payload with body := body, state := state }

/-- A host line of ring entries: a NOP, and a COPY whose reserved bits are set. -/
def ringHost (entry : Nat) : HostAnswer := ⟨[(0x77000000 / 64 + 6, BitVec.ofNat 512 entry)], [], []⟩

def fetching (tail : Nat) : State := { tM with pl := { tM.pl with queues := [(0, { tQueue [] with tail := tail, xlate := 0, head := 6 })] } }

/-- Doorbell page 0 belongs to partition 0 and is bound to context 1. -/
def belled (q : Queue) : State := { queued [] with pl := { (queued []).pl with queues := [(0, q)], dbs := [(0, ⟨0, true, 1, true⟩)] } }

def fop (code : Nat) : FenceOp := ⟨1, false, 0x100, code, 8, 16, none, none, none⟩

theorem holds_DoorbellsAndFences :
    (∀ st ∈ [1, 2], ∀ v ∈ [6, 7, 68, 69], let q := { tQueue [] with state := st }; let s := belled q
       s.serving = true ∧ s.tdispError 0 = false ∧ s.dbQueue 0 0 = some 0 ∧ s.hostReqs 0 = [] ∧ (s.queue 0).state = st
         ∧ (v = 7 → (s.queue 0).tail < v) ∧ (v = 68 → v ≤ (s.queue 0).head + 2 ^ (s.queue 0).log2) ∧ (v = 69 → (s.queue 0).head + 2 ^ (s.queue 0).log2 < v) ∧ (v = 6 → v ≤ (s.queue 0).tail))
    ∧ (let s0 := belled (tQueue []); let s := s0.setHostReqs 0 [.doorbell 0 9]; s.serving = true ∧ s.tdispError 0 = false ∧ s.dbQueue 0 0 = some 0 ∧ s.hostReqs 0 ≠ [])
    ∧ (∀ code ∈ [0, 7], let op := fop code; let s : State := { tM with pl := { tM.pl with fenceOps := [op] } }; let a := f100 + 0x100
       s.serving = true ∧ s.pl.fenceOps[0]? = some op ∧ s.pl.aborts = [] ∧ s.pl.reqs = [] ∧ s.pl.atsInvs = [] ∧ s.fenceBehind op = false ∧ s.hostWritesOpen op = false ∧ op.host = false
         ∧ s.fenceAt op = .place (.stack a) ∧ a % 8 = 0 ∧ s.mem.free (a / 64) = true ∧ ((s.xlFill 16 op.ctx op.va .write 21).recall (a / 64) none).mem.homePoison (a / 64) = false) := by decide +kernel
/-- An error write of code 7 over 0x1122334455667788 leaves the low 48 bits. -/
theorem test_fenceErrorWrite : ran (exec (.fenceErrorWrite 0 noHost) { tM with pl := { tM.pl with fenceOps := [fop 7] } })
    (fun t => t.mem.dev.readLE (f100 + 0x100) 8 == 0x8007334455667788) = true := by decide +kernel
theorem test_doorbell : ran (exec (.doorbellTail ⟨.rootPort 0, 0⟩ 0 8 69) (belled (tQueue []))) (fun t => (t.queue 0).overrun && (t.queue 0).tail == 6) = true
    ∧ ran (exec (.doorbellTail ⟨.rootPort 0, 0⟩ 0 8 68) (belled (tQueue []))) (fun t => !(t.queue 0).overrun && (t.queue 0).tail == 68) = true := by decide +kernel

theorem holds_QueueCommands_fetch :
    ∀ entry ∈ [1, 0], let s := fetching 7; s.serving = true ∧ s.abortFetches 0 = false ∧ (s.queue 0).state = 1 ∧ (s.ctx (s.queue 0).ctx).state = 1 ∧ s.cmdRoom 0 = true
      ∧ (match s.fetchOne (ringHost entry) 0 with
        | .took _ => true
        | _ => false) = true ∧ (s.queue 0).fetched = 6 ∧ s.cmdRule (s.queue 0) entry (cmdOf ((s.queue 0).entriesOf entry) entry []) = (entry == 1) := by decide +kernel

theorem holds_QueueCommands_start :
    (let c := { cmdIn 1 0 .fetched with wait := true }; let s := queued [(4, c)]; s.cmd? 0 4 = some c ∧ s.cmdMay 0 4 = true ∧ c.state = .fetched ∧ c.wait = true)
    ∧ (∀ st ∈ [CmdState.fetched, .ready], let c := cmdIn 1 0 st; let s := queued [(4, c)]; s.cmd? 0 4 = some c ∧ s.cmdMay 0 4 = true ∧ c.wait = false ∧ c.serial = false ∧ s.cmdRoom 0 = true ∧ s.queueTurn 0 = true)
    ∧ (∀ watched ∈ [true, false], ∀ target ∈ [0x1122334455667788, 0x1122334455667789], let c : Cmd := { cmdIn 1 0 .waiting with wait := true, waddr := 0x100, wtarget := target, watched := watched }
       let s := queued [(4, c)]
       s.cmd? 0 4 = some c ∧ s.cmdMay 0 4 = true ∧ c.whost = false ∧ s.xlPlinth 1 0x100 .read = .ok (.stack (f100 + 0x100))
         ∧ ((s.xlFill 16 1 0x100 .read 20).wordAt (.stack (f100 + 0x100)) noHost).map (fun r => match r.2 with
             | .ok v => v
             | .error _ => 0) = some 0x1122334455667788)
    ∧ (let s := queued [] (mem1 [(0x100, 2 ^ 63 + 7 * 2 ^ 48)] tUp); (s.xlFill 16 1 0x100 .read 20).wordAt (.stack (f100 + 0x100)) noHost ≠ none) := by decide +kernel

theorem holds_QueueCommands_run :
    (let c := cmdIn 1 0 .running; let s := queued [(4, c)]; s.cmd? 0 4 = some c ∧ s.serving = true ∧ c.op = 1 ∧ c.state = .running ∧ c.report = none)
    ∧ (∀ code ∈ [0, 15], let c := { cmdIn 1 0 .running with report := some code }; (queued [(4, c)]).cmd? 0 4 = some c)
    ∧ (let c := cmdIn 2 (1 * 2 ^ 64 + 2 * 2 ^ 80) .running; let s := queued [(4, c)]; s.cmd? 0 4 = some c ∧ c.op = 2 ∧ c.chisel = none ∧ s.chChoose c.cls = some 16 ∧ s.activeStreams 16 < 16)
    ∧ (let c := cmdIn 3 (0x108 + 1 * 2 ^ 64) .running [7]; let s := queued [(4, c)]; c.op = 3 ∧ c.bodyAt 0x30 2 = 1 ∧ c.payloadBytes.head? = some 7
        ∧ s.chPlace 1 false (c.bodyAt 0x28 8) true = .place (.stack (f100 + 0x108)) ∧ s.mem.free ((f100 + 0x108) / 64) = true ∧ (s.recall ((f100 + 0x108) / 64) none).mem.homePoison ((f100 + 0x108) / 64) = false)
    ∧ (let c := cmdIn 4 2 .running; let s := queued [(4, c)]; c.op = 4 ∧ c.begun = false ∧ s.engineRefusal 1 c.engCore c.engMask = some 10)
    ∧ (let c := cmdIn 4 1 .running; let s := queued [(4, c)] (mem1 [] (tRun { phase := .halted } {} { tEng with state := 0 }))
       c.op = 4 ∧ s.engineRefusal 1 c.engCore c.engMask = none ∧ (maskEngines c.engMask).all (fun n => s.engineIdle c.engCore n) = true ∧ maskEngines c.engMask = [0] ∧ (s.core c.engCore).waiting = [])
    ∧ (let c := cmdIn 5 0 .running; let s0 := queued [(4, c)]
       let s := { s0 with cores := s0.cores.put {} 0 { s0.core 0 with arm := some { ctx := 1, image := 0, mode := 0, full := false, mask := 0, record := 0, cmd := none, src := 0 } } }
       c.op = 5 ∧ c.begun = false ∧ (s.core (c.bodyAt 0x38 1)).arm.isSome = true)
    ∧ (let c := { cmdIn 4 1 .running with engines := 1, begun := true }; let s := queued [(4, c)] (mem1 [] (tRun { phase := .ended } {} { tEng with cmd := some (0, 4) })); let e := s.engine 0 0
       s.resident 0 0 = true ∧ e.state = 1 ∧ e.stopping = 0 ∧ (e.keys 0).all (fun k => (s.cell k).phase == .ended && (s.flight k).quiet && (s.flight k).failed.isNone && s.fenceHolds 0 k 2 0 0) = true
         ∧ e.cmd = some (0, 4) ∧ c.engines = 2 ^ 0 ∧ c.trapped = 0 ∧ c.report = none)
    ∧ (let s := queued [(4, cmdIn 4 1 .running)] (mem1 [] (tRun { phase := .stopped } {} { tEng with stopping := 1, trapCode := 11, cmd := some (0, 4) })); s.resident 0 0 = true ∧ (s.engine 0 0).stopping = 1 ∧ s.engineQuiet 0 0 = true ∧ s.engineTold 0 0 = true) := by decide +kernel
theorem test_completionReport : ran (exec (.completionReport 0 4) (queued [(4, { cmdIn 1 0 .running with report := some 0 })]))
    (fun t => (t.cmd? 0 4).isNone && (t.queue 0).head == 6 && t.pl.fenceOps.length == 1) = true := by decide +kernel

/-! ## Chisel engines and page requests -/

/-- A descriptor that copies one byte from virtual address 0x100 to 0x200 of the device. -/
def tDesc (rowBytes : Nat) : Nat := 0x100 + 0x200 * 2 ^ 64 + rowBytes * 2 ^ 128 + 1 * 2 ^ 160 + 12 * 2 ^ 320

/-- A COPY of class 2 with one inlined descriptor, which Chisel engine 16 runs. -/
def tCopy (rowBytes next : Nat) : Cmd :=
  { cmdIn 2 (1 * 2 ^ 64 + 2 * 2 ^ 80 + 2 ^ 88) .running [BitVec.ofNat 512 (tDesc rowBytes)] with chisel := some 16, nextDesc := next }

/-- Its stream, in a slot. -/
def tStream (cls : Nat) (desc : Option ChDesc) : Stream := { q := 0, seq := 4, ctx := 1, cls := cls, index := 0, desc := desc }

def chis (c : Cmd) (streams : SMap Stream) (saved : List Stream := []) (extra : List (Nat × Cmd) := []) : State :=
  let s := queued ((4, c) :: extra)
  { s with pl := { s.pl with streams := streams, saved := saved } }

/-- A command whose descriptor list lies in host memory, not yet translated, or at a device address that maps to nothing. -/
def tListed (host : Bool) : Cmd :=
  { cmdIn 2 (0x30000000 + 1 * 2 ^ 64 + 2 * 2 ^ 80 + (if host then 2 ^ 89 else 0)) .running with chisel := some 16 }

def chRead (s : State) (c : Cmd) : Nat × Nat :=
  match s.chDescRead noHost 1 c c.nextDesc with
  | .desc raw => (0, raw)
  | .miss => (1, 0)
  | .fail code => (2, code)
  | .wait => (3, 0)

theorem holds_ChiselStreams_start :
    (∀ n ∈ [0, 1], let c := tCopy n 0; let s := chis c []; let raw := ((c.payload[c.nextDesc]?).getD 0).toNat
       s.serving = true ∧ (s.chUnread noHost 16).isNone = true ∧ s.chReady 16 = [(0, 4)] ∧ s.freeSlot 16 = some 0 ∧ s.cmd? 0 4 = some c ∧ c.report = none
         ∧ chRead s c = (0, raw) ∧ (chDesc raw).serial = false ∧ chDescOk c.cls raw = (n == 1))
    ∧ (∀ host ∈ [true, false], let c := tListed host; let s := chis c []
       (s.chUnread noHost 16).isNone = true ∧ s.chReady 16 = [(0, 4)] ∧ s.freeSlot 16 = some 0 ∧ s.cmd? 0 4 = some c ∧ c.report = none
         ∧ chRead s c = (if host then (1, 0) else (2, 6))) := by decide +kernel

/-- One write, to a place that nothing is read from, has no choice open. -/
theorem chOpen_one (free : Nat → Nat) (srcs : List Place) (w : Place × Byte) (h : srcs.contains w.1 = false) : chOpen free srcs [w] = [w] := by
  have hw : w.1 ∉ srcs := by simpa using h
  simp [chOpen, hw]

def tMoving : State := chis (tCopy 1 1) [(256, tStream 2 (some (chDesc (tDesc 1))))]

theorem holds_ChiselStreams_complete :
    (let c := tCopy 1 1; let d := chDesc (tDesc 1); let x := tStream 2 (some d); let s := tMoving
       let p := s.chPlan noHost 1 2 d (x.rest d)
       s.serving = true ∧ s.stream? 16 0 = some x ∧ x.desc = some d ∧ x.asked = false ∧ x.faulted = false ∧ s.cmd? 0 4 = some c ∧ c.report = none ∧ p.fail = 0 ∧ p.wait = false
         ∧ ((gatherPlaces p.writes).all fun g => s.chDstReady noHost g.1 g.2.1) = true ∧ x.cls = 2 ∧ x.tiles = 0 ∧ x.pos = 0 ∧ x.ahead = [] ∧ d.rows = 1 ∧ d.rowBytes = 1 ∧ d.zero = false
         ∧ s.chPlace 1 false d.src false = .place (.stack (f100 + 0x100)) ∧ s.chPlace 1 false d.dst true = .place (.stack (f100 + 0x200))
         ∧ s.mem.free ((f100 + 0x100) / 64) = true ∧ s.mem.free ((f100 + 0x200) / 64) = true
         ∧ s.mem.homePoison ((f100 + 0x100) / 64) = false ∧ (s.recall ((f100 + 0x200) / 64) none).mem.homePoison ((f100 + 0x200) / 64) = false)
    ∧ (tStream 2 none).rest (chDesc (tDesc 1)) = [0] := by decide +kernel
theorem movingWrites : (tMoving.chPlan noHost 1 2 (chDesc (tDesc 1)) [0]).writes = [(.stack (f100 + 0x200), tMoving.mem.homeByte (f100 + 0x100))] := by decide +kernel
theorem movingApart : (tMoving.chSources 1 2 (chDesc (tDesc 1)) [0]).contains (.stack (f100 + 0x200)) = false := by decide +kernel
theorem movingDone : (tMoving.chApply 1 noHost false [(.stack (f100 + 0x200), tMoving.mem.homeByte (f100 + 0x100))]).2.1 = 0 := by decide +kernel

/-- That stream's one write is performed. -/
theorem holds_ChiselStreams_wrote (free : Nat → Nat) :
    (tMoving.chApply 1 noHost false (chOpen free (tMoving.chSources 1 2 (chDesc (tDesc 1)) [0]) (tMoving.chPlan noHost 1 2 (chDesc (tDesc 1)) [0]).writes)).2.1 = 0 := by
  rw [movingWrites, chOpen_one _ _ (.stack (f100 + 0x200), tMoving.mem.homeByte (f100 + 0x100)) movingApart]
  exact movingDone

/-- A descriptor whose two sides are not translated in the ATC. -/
def tHostDesc : ChDesc := ⟨0x30000000, 0x30000000, 1, 1, 0, 0, 12, false, false⟩

theorem holds_ChiselStreams_fault :
    (∀ w ∈ [false, true], let d := tHostDesc; let x := tStream (if w then 1 else 0) (some d); let s := chis (tCopy 1 1) [(256, x)]
       s.stream? 16 0 = some x ∧ s.cmd? 0 4 = some (tCopy 1 1) ∧ x.cls ≤ 1 ∧ ((x.rest d).find? fun j => (if w then d.dstOf j else d.srcOf j) == 0x30000000) = some 0
         ∧ s.atcLook (s.ctxFunc 1) (s.ctx 1).pasid 0x30000000 w = none ∧ (s.chPlan noHost 1 x.cls d []).fail = 0 ∧ (s.chPlan noHost 1 x.cls d []).wait = false
         ∧ (s.chPlan noHost 1 x.cls d []).writes = [])
    ∧ (let d : ChDesc := { tHostDesc with src := 0x10000000, rows := 2, sStride := 0x20000000, dst := 0x200, dStride := 1 }; let x := tStream 0 (some d); let s := chis (tCopy 1 1) [(256, x)]
       s.stream? 16 0 = some x ∧ ((x.rest d).find? fun j => d.srcOf j == 0x30000000) = some 1
         ∧ ((x.rest d).filter fun j => decide (j < 1)) = [0] ∧ (s.chPlan noHost 1 0 d [0]).fail = 0 ∧ (s.chPlan noHost 1 0 d [0]).wait = true)
    ∧ (let c := tListed true; let x := tStream 2 none; let s := chis c [(256, x)]
       s.stream? 16 0 = some x ∧ s.cmd? 0 4 = some c ∧ x.desc = none ∧ c.dlhost = true ∧ c.dlist + 64 * x.index ≤ 0x30000000 ∧ 0x30000000 < c.dlist + 64 * x.index + 64
         ∧ s.atcLook (s.ctxFunc 1) (s.ctx 1).pasid 0x30000000 false = none) := by decide +kernel

/-- Every stream of the CD engines is in use, and a second command waits for one. -/
def tFull (faulted : Bool) : State :=
  let x := { tStream 2 (some (chDesc (tDesc 1))) with faulted := faulted }
  { chis (tCopy 1 1) ((List.range 64).map fun i => (256 + i, { x with since := if i = 0 then 0 else 1 })) [] [(5, { tCopy 1 0 with chisel := none })] with time := 2 ^ 40 }

theorem holds_ChiselStreams_preempt :
    ∀ faulted ∈ [true, false], let x := { tStream 2 (some (chDesc (tDesc 1))) with faulted := faulted }; let s := tFull faulted
       s.stream? 16 0 = some x ∧ s.chWaiting 16 = [(0, 5)] ∧ s.cmd? 0 5 = some { tCopy 1 0 with chisel := none } ∧ s.sliced 1 = true ∧ x.asked = false ∧ s.freeEntry 1 = some 0
         ∧ (faulted = false → s.oldest 2 x = true) ∧ s.chExpired x = true ∧ x.tiles < (chDesc (tDesc 1)).ntiles ∧ ((x.rest (chDesc (tDesc 1))).filter fun j => decide (j < 0)) = []
         ∧ (s.chPlan noHost 1 2 (chDesc (tDesc 1)) []).fail = 0 ∧ (s.chPlan noHost 1 2 (chDesc (tDesc 1)) []).wait = false := by decide +kernel

theorem holds_ChiselStreams_resume :
    (let x := { tStream 2 (some (chDesc (tDesc 1))) with retry := some (0x30000000, true), entry := 3 }; let s := chis (tCopy 1 1) [] [x]
       (s.pl.saved.find? fun y => y.cls == chClass 16 && !y.faulted) = some x ∧ s.freeSlot 16 = some 0 ∧ s.activeStreams 16 + s.chGranted 16 < 16) := by decide +kernel
def tWaiter : AtsReq := ⟨0, 5, 0x30000000, false, .stream 0 4 0, false⟩

theorem holds_PageRequestsAndPreparation :
    (let g : PageGroup := ⟨0, 5, 0x180, 0x30000000, some 3, true, false, false, [tWaiter]⟩; let c := tCopy 1 1;
     let s : State := { chis c [] with pl := { (chis c []).pl with groups := [g], lateTags := [(0, 4)] } };
       s.serving = true ∧ s.linkUp = true ∧ s.groupOf 0 3 = some g ∧ (g.waiters.map AtsReq.user) = [.stream 0 4 0] ∧ s.savedOf tWaiter.user = none ∧ s.cmd? 0 4 = some c ∧ c.report = none
         ∧ s.groupOf 0 4 = none ∧ (0, 4) ∈ s.pl.lateTags)
    ∧ (∀ n ∈ [0, 1], ∀ resv ∈ [0, 256], let c := { tCopy n 0 with state := .pretrans, resv := resv }; let s := chis c []; let raws := (List.range c.dcount).map fun i => ((c.payload[i]?).getD 0).toNat
       s.serving = true ∧ s.cmd? 0 4 = some c ∧ c.inlined = true ∧ (c.resv ≠ 0 ∨ s.preHeld + 256 ≤ 7168) ∧ c.cls = 2 ∧ raws.all (chDescOk 2) = (n == 1)
         ∧ (n = 1 → s.preDevice 1 ((raws.map chDesc).flatMap fun d => d.devPages 2).eraseDups = none) ∧ (raws.map chDesc).flatMap (fun d => d.hostSteps 2) = [])
    ∧ (∀ va ∈ [0x10000000, 0x30000000], let raw := va + 0x200 * 2 ^ 64 + 1 * 2 ^ 128 + 1 * 2 ^ 160 + 12 * 2 ^ 320
       let c := { cmdIn 2 (1 * 2 ^ 64 + 0 * 2 ^ 80 + 2 ^ 88) .pretrans [BitVec.ofNat 512 raw] with chisel := none }; let s := chis c []; let d := chDesc raw
       c.inlined = true ∧ c.cls = 0 ∧ chDescOk 0 raw = true ∧ s.preDevice 1 (d.devPages 0).eraseDups = none ∧ s.preSteps 0 5 256 [] (firstOfStep [] (d.hostSteps 0)) = [va]
         ∧ (s.atcLook 0 5 va false).isSome = (va == 0x10000000) ∧ s.pl.groups = [])
    ∧ (let s := chis (tCopy 1 1) []; s.linkUp = true ∧ s.pl.reqs = [] ∧ s.pl.aborts = [] ∧ (tCopy 1 1).op = 2 ∧ (tCopy 1 1).state = .running) := by decide +kernel

/-! ## Translation -/

/-- Frame 10 holds context 1's tables: its page 3 is frame 100 too. -/
def tWalk : State :=
  let r := 10 * 0x2000000
  let s := mem1 [] tUp
  { s with mem := { s.mem with dev := [(r, 1 + r + 0x10000), (r + 0x10000, 1 + r + 0x20000), (r + 0x20018, 1 + 2 + 8 * 7 + 100 * 2 ^ 25)].foldl (fun m e => m.writeLE e.1 8 e.2) [], frames := s.mem.frames } }

/-- Frame 100 holds an aperture table at 0x100000: entry 3 is 2 MiB from host address 0x40000000 to 2^51 + 2^30. -/
def tAptTab : State :=
  { mem1 [] tC with
    mem := { (mem1 [] tC).mem with dev := [(f100 + 0x60, 0x40000000), (f100 + 0x68, 2 ^ 51 + 2 ^ 30), (f100 + 0x70, 0x200000), (f100 + 0x78, 7)].foldl (fun m e => m.writeLE e.1 8 e.2) [] }
    pl := { (mem1 [] tC).pl with ctxs := [(1, { tCtx with aptBase := f100 })], atc := [] } }

/-- The steps of entry 3 that the ATC does not hold with its rights. -/
def tLacks (s : State) : List Nat :=
  (aptEntry ((s.aptRead 1 3).getD [])).steps.filter fun va => !(match s.atcFind (s.ctxFunc 1) (s.ctx 1).pasid va with
    | some e => (!(aptNeeds 7).1 || e.r) && (!(aptNeeds 7).2 || e.w)
    | none => false)

/-- A load of the cell's through context 1's aperture 2 has not returned. -/
def tAptBusy : State :=
  let s := tAptTab
  { s with flights := [(0, { loads := [⟨7, 0, 6, .ld false, 2 ^ 51 + 8, .host 0x77000008, 8, 0, false, false, none, 0, []⟩] })] }

def aptCtl (op ctx i : Nat) : Word := Word.ofNat (2 ^ 63) + Fld.xlAptCtl_op.at op + Fld.xlAptCtl_context.at ctx + Fld.xlAptCtl_index.at i

theorem holds_DeviceTranslationsAndApertures :
    (∀ unit ∈ [0, 16], let s := tWalk; s.serving = true ∧ (s.ctx 1).state = 1 ∧ (16 ≤ unit ∨ (s.ctx 1).cores.testBit unit = true) ∧ s.tlbHit (min unit 16) 1 0x6000000 = none
       ∧ (match s.walk (min unit 16) 1 0x6000000 with
         | .leaf e big => (s.leafPlace 1 0x6000000 .read e big).isSome
         | _ => false) = true)
    ∧ (∀ all ∈ [0, 1], let v := Word.ofNat (2 ^ 63) + Fld.xlInvCtl_context.at 1 + Fld.xlInvCtl_all.at all; v.bit 63 = true ∧ tM.verdict 0 0x402 Reg.xlInvCtl.off 8 = .perform
       ∧ tM.xlBusy 0 = false ∧ tM.reachesCtx 0 1 = true ∧ invRule (tM.reg (xlPage 0) .xlInvAddr).toNat v = true ∧ Fld.xlInvCtl_all.get v = all)
    := by decide +kernel
theorem holds_DeviceTranslations_invalidated :
    (let s : State := { tM with pl := { tM.pl with reqs := [(0, { inval := some (1, false, 0, 1) })] } }; (s.freq 0).inval = some (1, false, 0, 1) ∧ s.reachesCtx 0 1 = true ∧ s.deviceQuiet 1 false 0 1 = true)
    ∧ (let s := tAptTab; let v := aptCtl 0 1 3; s.serving = true ∧ v.bit 63 = true ∧ s.verdict 0 0x402 Reg.xlAptCtl.off 8 = .perform ∧ s.xlBusy 0 = false ∧ s.pl.reqs = [] ∧ s.pl.aborts = [] ∧ s.pl.atsInvs = []
       ∧ Fld.xlAptCtl_context.get v = 1 ∧ Fld.xlAptCtl_index.get v = 3 ∧ Fld.xlAptCtl_op.get v = 0 ∧ s.aptChecks 0 1 3 = 0 ∧ s.pl.atc.length ≤ 8192 ∧ s.pl.atsReqs = [] ∧ tLacks s = [0x40000000] ∧ tLacks { s with pl := { s.pl with atc := [⟨0, 5, 0x40000000, 21, 0x88000000, true, true, 0, 0⟩] } } = [] ∧ s.aptChecks 0 1 8 = 3 ∧ s.aptChecks 0 1 2 = 4)
    := by decide +kernel
theorem holds_DeviceTranslations_unload :
    (∀ busy ∈ [false, true], let s := if busy then tAptBusy else tAptTab; let v := aptCtl 1 1 2; s.serving = true ∧ s.verdict 0 0x402 Reg.xlAptCtl.off 8 = .perform ∧ s.xlBusy 0 = false ∧ s.pl.reqs = [] ∧ s.pl.atsInvs = []
       ∧ v.bit 63 = true ∧ Fld.xlAptCtl_op.get v = 1 ∧ s.reachesCtx 0 1 = true ∧ (s.ctx 1).state = 1 ∧ 2 < (s.ctx 1).aptCount ∧ (s.apt 1 2).state = 1 ∧ s.aptQuiet 1 (s.apt 1 2) = !busy) := by decide +kernel
theorem test_aptEntry : aptEntry ((tAptTab.aptRead 1 3).getD []) = { hbase := 0x40000000, dbase := 2 ^ 51 + 2 ^ 30, length := 0x200000, flags := 7 } := by decide +kernel

theorem holds_HostTranslations :
    (let s0 := chis (tCopy 1 1) [(0, { tStream 0 (some (chDesc (tDesc 1))) with asked := true })]
     let s : State := { s0 with pl := { s0.pl with atsReqs := [tWaiter], cfgs := [(0, { atsEnable := true, priEnable := true, priAlloc := 4 })] } }
     s.serving = true ∧ s.linkUp = true ∧ s.pl.reqs = [] ∧ s.pl.aborts = [] ∧ (s.pl.atsReqs.find? fun r => r.f == 0 && r.pasid == 5 && r.va == 0x30000000) = some tWaiter
         ∧ tWaiter.user = .stream 0 4 0 ∧ s.atsWaits tWaiter.user = true ∧ tWaiter.again = false ∧ (s.cfg 0).priEnable = true ∧ (s.cfg 0).priFailure = false ∧ s.pl.groups = [] ∧ s.pl.lateTags = []
         ∧ 0 < (s.cfg 0).priAlloc)
    ∧ (∀ busy ∈ [false, true], let s := if busy then tAptBusy else tM; let l := s.pl.atc.filter fun e => e.meets 0 5 0x10000000 0x200000
       s.pl.atsInvs = [] ∧ s.linkUp = true ∧ (busy = false → l ≠ []) ∧ s.invQuiet [(0x77000000, 21)] = !busy ∧ s.ctxFunc 1 = 0 ∧ (s.apt 1 2).state = 1)
    ∧ ((tM.pl.atc.filter fun e => e.meets 0 5 0x10000000 0x200000).map fun e => (e.hpa, e.log2)) = [(0x77000000, 21)] := by decide +kernel

/-! ## Time-slicing -/

/-- Core 0 with contexts 1 resident and 2 in line, both sliced, and engine 1 of context 2. -/
def slicing (k : Core → Core) : State :=
  let s := tM
  let s : State := { s with pl := { s.pl with ctxs := [(1, tCtx), (2, { tCtx with pasid := 6, saveBase := 300 * 0x2000000 })] } }
  { s with cores := s.cores.put {} 0 (k { s.core 0 with rotation := [1, 2], engines := [(0, tEng), (1, { tEng with ctx := 2, origin := 1, state := 3 })] }) }

theorem holds_TimeSlicing :
    (let s := slicing id; 1 ∈ (s.core 0).residents ∧ 1 ∉ (s.core 0).expired)
    ∧ (let s := slicing fun k => { k with expired := [1], engines := [(0, tEng), (1, { tEng with ctx := 2, origin := 0, state := 4, cmd := some (0, 4) })] }
       (s.core 0).switch = none ∧ s.notForming 0 = true ∧ (s.switchOut 0 2).all s.sliced = true ∧ ((s.core 0).order.find? fun x => s.mayEnter 0 x) = some 2)
    ∧ (let s := slicing fun k => { k with switch := some ⟨[1], 2, 1, 0⟩, engines := [(0, { tEng with state := 0 })] }
       (s.core 0).switch = some ⟨[1], 2, 1, 0⟩ ∧ (s.enginesFor 0 1).all (s.stoppedAt 0) = true ∧ s.enginesFor 0 1 = [0] ∧ (s.core 0).residents.Nodup)
    ∧ (let s := slicing fun k => { k with switch := some ⟨[1], 2, 2, 0⟩, residents := [] }; (s.core 0).switch = some ⟨[1], 2, 2, 0⟩) := by decide +kernel

/-! ## Armature -/

def armCtl (mode ctx : Nat) : Word := Word.ofNat (2 ^ 63) + Fld.armReqCtl_mode.at mode + Fld.armReqCtl_context.at ctx

/-- A formation request of one engine of four cells at origin 0, at a step. -/
def tForm (step image : Nat) : ArmReq :=
  { ctx := 1, image := image, mode := 0, full := false, mask := 0, record := 0, cmd := none, src := 0, step := step
    engines := [⟨0, 0, 0, 0, 0, 0, 0, 0, 0, 0⟩], places := [0] }

/-- Core 0 with changes. -/
def withCore (f : Core → Core) (s : State := tM) : State := { s with cores := s.cores.put {} 0 (f (s.core 0)) }

theorem holds_ArmatureRequests :
    (∀ mode ∈ [0, 1, 2], let s := tM; let v := armCtl mode 1; let r := s.armOf 0 0 v
       (s.core 0).arm = none ∧ (s.core 0).quars = [] ∧ v.bit 63 = true ∧ s.verdict 0 (armNo 0) Reg.armReqCtl.off 8 = .perform
         ∧ s.fld (armPage 0) .armReqStat Fld.armReqStat_busy = 0 ∧ (s.core 0).armQ = [] ∧ s.armCtxOk 0 r.ctx = true ∧ Fld.armReqCtl_mode.get v = mode ∧ r.record = 0)
    ∧ (let v := armCtl 0 2; tM.armCtxOk 0 (tM.armOf 0 0 v).ctx = false ∧ Fld.armReqCtl_mode.get v = 0)
    ∧ (let s := (withCore fun k => { k with engines := [(0, { tEng with state := 0 })] }).setFld (armPage 0) .armReqMask Fld.armReqMask_engines 1; let r := s.armOf 0 0 (armCtl 2 1)
       r.mask = 1 ∧ (s.engine 0 0).formed = true ∧ (s.engine 0 0).ctx = r.ctx ∧ (s.engine 0 0).cmd = none ∧ (s.engine 0 0).state ≠ 5 ∧ (s.engine 0 0).stopping = 0)
    ∧ (let s := (withCore fun k => { k with engines := [(0, { tEng with cmd := some (0, 4) })] }).setFld (armPage 0) .armReqMask Fld.armReqMask_engines 1; let r := s.armOf 0 0 (armCtl 2 1)
       r.mask.testBit 0 = true ∧ (s.engine 0 0).cmd.isSome = true)
    ∧ (let s := withCore fun k => { k with armQ := [tForm 1 0] }; (s.core 0).armQ = tForm 1 0 :: [] ∧ s.serving = true ∧ (tForm 1 0).mode ≤ 1 ∧ s.armCtxOk 0 1 = true) := by decide +kernel

/-- The header of an image with one engine of one cell and one section of code, up to its digest; its tables and its code. -/
def tHd0 (magic : Nat) : List Byte :=
  bytesOf 4 magic ++ bytesOf 4 1 ++ bytesOf 8 0x80 ++ bytesOf 8 0xC0 ++ bytesOf 8 0x80 ++ bytesOf 8 (1 + 1 * 2 ^ 16) ++ bytesOf 8 0 ++ bytesOf 8 0x80 ++ bytesOf 8 0xC0 ++ bytesOf 16 0
def tEtab : List Byte := bytesOf 32 0
def tStab (off : Nat) : List Byte := bytesOf 8 1 ++ bytesOf 8 off ++ bytesOf 8 8 ++ bytesOf 8 0
def tRest : List Byte := tEtab ++ bytesOf 32 0 ++ tStab 0x100 ++ bytesOf 32 0 ++ bytesOf 64 0

/-- That image at virtual address 0, its digest zero, and the core of the request. -/
def tEcger (magic off : Nat) (map : SMap Nat) (engines : SMap Engine) (r : ArmReq) : State :=
  let s0 := mem1 [] tC
  let dev := (((tHd0 magic ++ bytesOf 48 0 ++ tEtab ++ bytesOf 32 0 ++ tStab off).mapIdx fun i b => (f100 + i, b)).filter fun e => e.2 != 0)
  let s : State := { s0 with mem := { s0.mem with dev := dev } }
  withCore (fun k => { k with engines := engines, map := map, mapped := true, arm := some r }) s

/-- The status that the header's checks give: none where it was not read. -/
def headStatus (s : State) : Option (Option Nat) :=
  match s.vaRead 1 0 0x80 with
  | some (some hd) => some ((firstFail (headChecks hd)).map ArmFail.status)
  | _ => none

/-- The request at step 2. -/
def tReq2 : ArmReq := { tForm 2 0 with head := tHd0 0x52474345 ++ bytesOf 48 0 }

/-- Reads of the image's page give the stack's bytes. -/
theorem tEcger_read {magic off : Nat} {map : SMap Nat} {engines : SMap Engine} {r : ArmReq} (va n : Nat) (h : va + n ≤ 0x2000000) :
    (tEcger magic off map engines r).vaRead 1 va n = some (some ((List.range n).map fun i => (tEcger magic off map engines r).mem.dev.read (f100 + va + i))) := by
  have q : va / 0x2000000 = 0 ∨ va = 0x2000000 := by omega
  obtain q | q := q
  · have hh : (tEcger magic off map engines r).tlbHit 16 1 va = some ⟨1, 0, false, enc [(0, 1), (1, 1), (3, 7), (25, 100)]⟩ := by
      rw [State.tlbHit_page (vb := 0) (show ∀ e ∈ tLeaves, e.big = false by decide) (by omega)]; rfl
    rw [State.vaRead_page (t := ⟨1, 0, false, enc [(0, 1), (1, 1), (3, 7), (25, 100)]⟩) (by omega) (by omega) (show ∀ e ∈ tLeaves, e.big = false by decide) hh (by decide) (by decide) rfl rfl rfl rfl]
    rw [show va % 0x2000000 = va by omega]
    rfl
  · have : n = 0 := by omega
    subst q this
    rfl

theorem holds_FormationSteps_image :
    (let s := withCore (fun k => { k with arm := some (tForm 1 3) }) tC; s.serving = true ∧ (s.core 0).arm = some (tForm 1 3) ∧ (tForm 1 3).step = 1 ∧ (tForm 1 3).image % 64 ≠ 0 ∧ (tForm 1 3).record = 0)
    ∧ (let r := { tForm 1 0x4000000 with image := 0x6000000 }; r.image % 64 = 0 ∧ (tEcger 0 0x100 [] [] r).vaRead 1 r.image 0x80 = some none)
    ∧ (∀ magic ∈ [0, 0x52474345], let s := tEcger magic 0x100 [] [] (tForm 1 0); s.serving = true ∧ headStatus s = some (if magic = 0 then some 1 else none))
    ∧ (∀ off ∈ [0x100, 0xC0], let s := tEcger 0x52474345 off [] [] tReq2; (s.core 0).arm = some tReq2
       ∧ s.vaRead 1 (imgEtab tReq2.head) (32 * imgEngines tReq2.head) = some (some tEtab) ∧ s.vaRead 1 (imgStab tReq2.head) (32 * imgSections tReq2.head) = some (some (tStab off))
       ∧ (firstFail (tableChecks tReq2.head tEtab (tStab off))).map ArmFail.status = if off = 0x100 then none else some 3) := by
  refine ⟨by decide +kernel, by decide +kernel, fun magic hm => ?_, fun off ho => ?_⟩
  · simp only [headStatus, tEcger_read 0 0x80 (by omega)]
    revert magic; decide +kernel
  · have h1 : imgEtab tReq2.head = 0x80 ∧ 32 * imgEngines tReq2.head = 32 := by decide +kernel
    have h2 : imgStab tReq2.head = 0xC0 ∧ 32 * imgSections tReq2.head = 32 := by decide +kernel
    rw [h1.1, h1.2, h2.1, h2.2]
    simp only [tEcger_read 0x80 32 (by omega), tEcger_read 0xC0 32 (by omega)]
    revert off; decide +kernel

/-- The digest of the image, which the header of a request at step 3 holds. -/
def tDigest : BitVec 384 := Config.sha384 (tHd0 0x52474345 ++ tRest)
def tReq3 : ArmReq :=
  { tForm 3 0 with head := tHd0 0x52474345 ++ bytesOf 48 tDigest.toNat, etab := tEtab, stab := tStab 0x100, engines := [engEntry tEtab 0], sections := [secEntry (tStab 0x100) 0], places := [] }
/-- The image as it was read. -/
def tImg : List Byte := imgBytes tReq3.head tReq3.etab tReq3.stab (tHd0 0x52474345 ++ bytesOf 48 0 ++ tRest)

theorem ofBytes_bytesOf (k n : Nat) : ofBytes (bytesOf k n) = n % 256 ^ k := by
  induction k generalizing n with
  | zero => simp [bytesOf, ofBytes, Nat.mod_one]
  | succ k ih => simp [bytesOf, ofBytes, ih, Nat.pow_succ, Nat.mul_comm (256 ^ k), Nat.mod_mul]
theorem bodyChecks_nil {s : State} {part : Nat} {img : List Byte} (h1 : (imgFlags (img.take 0x80)).testBit 0 = false) (h2 : (imgFlags (img.take 0x80)).testBit 1 = false)
    (h3 : Config.sha384 (img.take 0x50 ++ (img.take (imgSize (img.take 0x80))).drop 0x80) = BitVec.ofNat 384 (leAt (img.take 0x80) 0x50 48))
    (h4 : (s.part part).requireSigned = false) (h5 : leAt (img.take 0x80) 0x18 2 = 0x80) (h6 : leAt (img.take 0x80) 0x1C 4 ≤ s.board.fwVersion) : s.bodyChecks part img = [] := by
  simp [State.bodyChecks, failIf, h1, h2, h3, h4, h5, Nat.not_lt.mpr h6]
theorem tImg_parts : tImg.take 0x50 = tHd0 0x52474345 ∧ (tImg.take (imgSize (tImg.take 0x80))).drop 0x80 = tRest ∧ (imgFlags (tImg.take 0x80)).testBit 0 = false ∧ (imgFlags (tImg.take 0x80)).testBit 1 = false
    ∧ leAt (tImg.take 0x80) 0x18 2 = 0x80 ∧ leAt (tImg.take 0x80) 0x1C 4 = 0 := by decide +kernel
theorem imgBytes_head (hd etab stab body : List Byte) (h : hd.length = 0x80) (hb : 0x80 ≤ body.length) : (imgBytes hd etab stab body).take 0x80 = hd := by
  refine List.ext_getElem (by simp [imgBytes, h]; omega) fun i h1 h2 => ?_
  have hi : i < 0x80 := by omega
  simp [imgBytes, hi, h2]
theorem length_bytesOf (k n : Nat) : (bytesOf k n).length = k := by
  induction k generalizing n with
  | zero => rfl
  | succ k ih => simp [bytesOf, ih]
theorem tImg_digest : byteSlice (tImg.take 0x80) 0x50 48 = bytesOf 48 tDigest.toNat := by
  have h0 : (tHd0 0x52474345).length = 0x50 := by decide +kernel
  have hb : (tHd0 0x52474345 ++ bytesOf 48 0 ++ tRest).length = 0x140 := by decide +kernel
  rw [tImg, imgBytes_head _ _ _ _ (by simp [tReq3, h0, length_bytesOf]) (by omega)]
  refine List.ext_getElem (by simp [byteSlice, length_bytesOf]) fun i h1 h2 => ?_
  simp only [byteSlice, List.length_map, List.length_range] at h1
  simp [byteSlice, tReq3, List.getElem?_append_right, h0, h2]
/-- Where the digest is the image's, the checks of the whole image find nothing, in any state that asks for no signature. -/
theorem holds_FormationSteps_digest (s : State) (part : Nat) (h : (s.part part).requireSigned = false) : firstFail (s.bodyChecks part tImg) = none := by
  have p := tImg_parts
  have d : leAt (tImg.take 0x80) 0x50 48 = tDigest.toNat := by
    rw [leAt, tImg_digest, ofBytes_bytesOf]
    exact Nat.mod_eq_of_lt (by have := tDigest.isLt; omega)
  rw [bodyChecks_nil p.2.2.1 p.2.2.2.1 (by rw [p.1, p.2.1, d]; simp [tDigest]) h p.2.2.2.2.1 (by rw [p.2.2.2.2.2]; exact Nat.zero_le _)]
  rfl

/-- How placement ends: its status, or 0. -/
def tPlaced (s : State) (r : ArmReq) : Nat :=
  match placeAll (s.reliefRoom r 0) r.engines (placeOrder r.engines) (s.occupied r 0).eraseDups [] with
  | .ok _ => 0
  | .error f => f.status

def tFitting (mapped held : Bool) : State := tEcger 0x52474345 0x100 (if mapped then [(0, 6)] else []) (if held then [(0, tEng)] else []) tReq3
def tFit (s : State) : ArmReq := { tReq3 with free := 256 - ((s.occupied tReq3 0).eraseDups).length }

theorem holds_FormationSteps_body : (tFitting true false).vaRead 1 0 0x140 = some (some (tHd0 0x52474345 ++ bytesOf 48 0 ++ tRest))
    ∧ ((tFitting true false).part 0).requireSigned = false ∧ ((tFitting true false).ctx 1).part = 0 := by
  refine ⟨?_, by decide +kernel, by decide +kernel⟩
  rw [tFitting, tEcger_read 0 0x140 (by omega)]
  decide +kernel
theorem holds_FormationSteps_fit :
    ∀ held ∈ [false, true], (firstFail ((tFitting true held).resourceChecks (tFit (tFitting true held)) 0)).map ArmFail.status = (if held then some 0xA else none) := by decide +kernel
theorem holds_FormationSteps_placed : ∀ mapped ∈ [false, true], tPlaced (tFitting mapped false) (tFit (tFitting mapped false)) = (if mapped then 0 else 0xB) := by decide +kernel

/-- A core whose first position lies over cell 5, all others being spare. -/
def tMapped (k : Core) : Core := { k with map := [(0, 6)], roles := [(5, 1)], mapped := true }
def tQuar : Quar := ⟨5, 0, some 0, 1, false, 0, false, false, some 0⟩

/-- A formation at its last step: an engine of one cell with 8 bytes to preload. -/
def tForm6 : ArmReq := { tForm 6 0 with engines := [⟨0, 0, 0, 0, 0, 0, 0, 1, 64, 0⟩], sections := [⟨2, 0, 0, 0x100, 8, 0⟩] }

theorem holds_FormationSteps_end :
    (let s := withCore fun k => { k with arm := some (tForm 5 0) }; s.serving = true ∧ (s.core 0).arm = some (tForm 5 0) ∧ (tForm 5 0).step = 5 ∧ (tForm 5 0).positions = [0])
    ∧ (let s := withCore fun k => { k with arm := some tForm6 }; let r := tForm6; (s.core 0).arm = some r ∧ r.step = 6 ∧ r.record = 0 ∧ r.lost = false
       ∧ s.armData r ((r.engines.flatMap fun e => (e.preloads r.sections).map fun p => p.1).eraseDups) = some (some [(0, s.mem.homeBytes (f100 + 0x100) 8)])
       ∧ (r.engines.map fun e => e.engine).Nodup ∧ r.positions.Nodup ∧ r.engines.flatMap (fun e => e.preloads r.sections) = [(0, ⟨2, 0, 0, 0x100, 8, 0⟩)]) := by decide +kernel

/-- Migration is enabled, at a threshold of three corrected errors. -/
def tMigrate (f : Core → Core) : State :=
  ((withCore fun k => f (tMapped k)).setFld (armPage 0) .armQpol Fld.armQpol_migrate 1).setFld (armPage 0) .armQpol Fld.armQpol_ceThreshold 3

theorem holds_Quarantine :
    (∀ n ∈ [2, 3], let s := tMigrate id; let u := s.countCe 0 5 n
       s.serving = true ∧ s.posOfCell 0 5 = some 0 ∧ s.forming 0 0 = false ∧ (s.core 0).quars = [] ∧ u.ceReached 0 5 = (n == 3) ∧ s.fld (armPage 0) .armQpol Fld.armQpol_migrate = 1
         ∧ s.spares 0 ≠ [] ∧ s.engineAt 0 0 = some 0 ∧ s.leaving 0 0 = false ∧ (s.engine 0 0).state = 1 ∧ (s.engine 0 0).stopping = 0)
    ∧ (let s := tMigrate fun k => { k with engines := [] }; s.posOfCell 0 5 = some 0 ∧ (s.countCe 0 5 3).ceReached 0 5 = true ∧ s.engineAt 0 0 = none)
    ∧ (let s := tMigrate fun k => { k with switch := some ⟨[1], 2, 1, 0⟩ }; (s.countCe 0 5 3).ceReached 0 5 = true ∧ s.engineAt 0 0 = some 0 ∧ s.leaving 0 0 = true)
    := by decide +kernel
theorem holds_Quarantine_hard :
    (let s := withCore tMapped; s.posOfCell 0 7 = none ∧ (s.spares 0).contains 7 = true)
    ∧ (let s := withCore (fun k => { tMapped k with quars := [tQuar] }) (mem1 [] (tRun { tX with phase := .stopped } {} { tEng with state := 5 }))
       (s.core 0).quars = tQuar :: [] ∧ tQuar.eng = some 0 ∧ tQuar.hard = false ∧ tQuar.drained = false ∧ s.stoppedAt 0 0 = true)
    ∧ (∀ hard ∈ [false, true], ∀ deferred ∈ [false, true], let q := { tQuar with hard := hard, drained := true, deferred := deferred }; let s := withCore (fun k => { tMapped k with quars := [q] })
       (s.core 0).quars = q :: [] ∧ (s.core 0).arm = none ∧ (s.core 0).switch = none ∧ (s.spares 0).contains 5 = false ∧ q.pos < 256 ∧ s.spares 0 ≠ [] ∧ (s.engine 0 0).stopping ≠ 3)
    := by decide +kernel
theorem holds_Quarantine_resume :
    (let s := withCore (fun k => { tMapped k with quars := [{ tQuar with drained := true }], engines := [(0, { tEng with state := 5 })] }); (s.engine 0 0).state = 5)
    ∧ (let s := queued [(4, { cmdIn 4 0 .running with engines := 1 })] (mem1 [] (tRun { tX with phase := .stopped } {} { tEng with stopping := 3, trapCode := 9, cmd := some (0, 4) }))
       s.resident 0 0 = true ∧ (s.engine 0 0).stopping = 3 ∧ s.engineQuiet 0 0 = true ∧ s.engineTold 0 0 = true ∧ (s.core 0).quars = [] ∧ (s.engine 0 0).trapCode ≠ 0
         ∧ s.cmd? 0 4 = some { cmdIn 4 0 .running with engines := 1 }) := by decide +kernel

/-! ## Objects and aborts -/

def objCmd (op id arena : Nat) : Word := Word.ofNat (2 ^ 63) + Fld.objCmd_op.at op + Fld.objCmd_id.at id + Fld.objCmd_arena.at arena

theorem holds_ObjectRequests :
    (∀ x ∈ [(0, 4095, 0), (1, 1, 0), (2, 16383, 0), (3, 0, 0), (4, 0, 0), (5, 1, 0), (6, 1, 0)], let s := queued []; let v := objCmd x.1 x.2.1 x.2.2
       v.bit 63 = true ∧ s.verdict 0 0x400 Reg.objCmd.off 8 = .perform ∧ s.objTakes 0 v = true ∧ s.pl.reqs = [] ∧ s.pl.aborts = [] ∧ Fld.objCmd_op.get v = x.1)
    ∧ ((queued []).ctx 1).state = 1 ∧ ((queued []).ctx 2).state ≠ 1 ∧ ((queued []).queue 0).state = 1 ∧ ((queued []).queue 1).state ≠ 2 ∧ ((belled { tQueue [] with state := 2 }).queue 0).state = 2
    ∧ ((queued []).ctx 1).arenas[0]? = some ⟨0x1000, 0x10000, 0x4000, 40, 6, 0x40, false, false, true⟩ := by decide +kernel

/-- Host memory that answers a record's bytes at address 0. -/
def hostBytes (l : List Byte) (n : Nat) : HostAnswer := ⟨(List.range n).map fun i => (i, BitVec.ofNat 512 (ofBytes ((l.drop (64 * i)).take 64))), [], []⟩
/-- A context record of partition 0 and core 0, whose tables lie in frame 100. -/
def ctxRec : List Byte :=
  bytesOf 4 7 ++ bytesOf 1 0 ++ bytesOf 1 0 ++ bytesOf 2 1 ++ bytesOf 8 f100 ++ bytesOf 8 0 ++ bytesOf 8 0 ++ bytesOf 8 (f100 + 0x10000) ++ bytesOf 8 0 ++ List.replicate 336 0
def queueRec : List Byte := bytesOf 8 0x5000 ++ bytesOf 2 1 ++ bytesOf 1 16 ++ bytesOf 1 31 ++ bytesOf 2 0x87FF ++ List.replicate 50 0
def asking (op id : Nat) : State := { tM with pl := { tM.pl with reqs := [(0, { obj := some ⟨op, id, 0, 0, 0, 0⟩ })], dbs := [(0, ⟨0, true, 1, true⟩)] } }

theorem holds_CreationAndArenas :
    (let s := asking 0 2; s.serving = true ∧ s.pl.reqs = [(0, { obj := some ⟨0, 2, 0, 0, 0, 0⟩ })] ∧ s.pl.aborts = [] ∧ s.hostRead (hostBytes ctxRec 6) 0 384 = some (some ctxRec) ∧ (s.ctx 2).state = 0
       ∧ s.partExists (ctxOf ctxRec).part = true ∧ s.ctxRule ctxRec = true ∧ s.pl.ctxs.all (fun e => e.2.state == 0 || e.2.part != (ctxOf ctxRec).part || e.2.pasid != (ctxOf ctxRec).pasid) = true)
    ∧ (∀ id ∈ [1, 2], (asking 0 id).hostRead ⟨[], [], [0, 1, 2, 3, 4, 5]⟩ 0 384 = some none)
    ∧ (let s := asking 2 3; s.hostRead (hostBytes queueRec 1) 0 64 = some (some queueRec) ∧ (s.queue 3).state = 0 ∧ (s.ctx (queueOf queueRec).ctx).state = 1 ∧ queueRule queueRec = true
       ∧ (s.db (3 / 64)).bound = true ∧ (s.db (3 / 64)).ctx = (queueOf queueRec).ctx ∧ s.ringTotal 1 + 2 ^ (queueOf queueRec).log2 ≤ 262144)
    ∧ (∀ kind ∈ [LoadKind.ld false, .amo 1 0x100, .amo 1 0x20000], let e := acc kind (.arena 1 0) none 0; let s := mem1 [] (tRun tX { loads := [e] })
       s.arenaAccess c0 7 (kind == .ld false) = some (e, 1, 0, ⟨0x1000, 0x10000, 0x4000, 40, 6, 0x40, false, false, true⟩)) := by decide +kernel
/-- An allocation of 0x41 bytes takes 0x80 from cursor 0x40, and returns 0x1040. -/
theorem test_arenaAlloc : ran (exec (.arenaAlloc c0 7) (mem1 [] (tRun tX { loads := [acc (.amo 1 0x41) (.arena 1 0) none 0] })))
    (fun t => ((t.ctx 1).arenas.map Arena.cursor) == [0xC0] && ((t.flight 0).access 7).map LoadEntry.done == some (some 0x1040)) = true := by decide +kernel

def tAbort (step kind : Nat) : Abort := ⟨kind, 0, 1, [0], 1, [(0, 4)], [{ fop 1 with qs := some (0, 4) }], step, 1, 0, [], none, false⟩
def aborting (step : Nat) (e : Engine) : State :=
  let s := queued [] (mem1 [] (tRun { phase := .stopped } {} e))
  { s with pl := { s.pl with aborts := [tAbort step 0] } }

theorem holds_ForcedAborts :
    (let v := Word.ofNat (2 ^ 63); let s := (queued [(4, cmdIn 1 0 .fetched)]).wr (abtPage 0 + Reg.abtSeq.off) 4; v.bit 63 = true ∧ s.verdict 0 0x401 Reg.abtReq.off 8 = .perform
       ∧ s.fld (objPage 0) .objStat Fld.objStat_busy = 0 ∧ s.fld (abtPage 0) .abtStat Fld.abtStat_busy = 0 ∧ s.pl.aborts = [] ∧ s.pl.reqs = [] ∧ Fld.abtReq_queue.get v = 0 ∧ (s.queue 0).state = 1
       ∧ v.bit 14 = false ∧ (s.reg (abtPage 0) .abtSeq).toNat = 4 ∧ 4 < (s.queue 0).fetched ∧ 4 < (s.queue 0).tail ∧ s.cmd? 0 4 = some (cmdIn 1 0 .fetched))
    ∧ (let s0 := queued []; let s : State := { s0 with pl := { s0.pl with queues := [(0, { tQueue [] with ended := [(4, 1)] })] } }; s.cmd? 0 4 = none ∧ (s.queue 0).ended.find? 4 = some 1)
    ∧ (Word.ofNat (2 ^ 63 + 2 ^ 14)).bit 14 = true
    ∧ (∀ st ∈ [1, 4], let s := aborting 1 { tEng with state := st, cmd := some (0, 4) }; s.serving = true ∧ s.pl.aborts = [tAbort 1 0] ∧ s.abortEngines (tAbort 1 0) = [(0, 0)]
       ∧ (s.abortEngines (tAbort 1 0)).all s.abortReaches = true ∧ (s.engine 0 0).stopping = 0)
    ∧ (let s := aborting 2 { tEng with stopping := 2, cmd := some (0, 4) }; (tAbort 2 0).step = 2 ∧ (tAbort 2 0).kind = 0 ∧ (tAbort 2 0).owns { fop 1 with qs := some (0, 4) } = true ∧ s.abortQuiet (tAbort 2 0) = true)
    ∧ (let b := { tAbort 2 3 with jobs := true, tails := [(0, 6)] }; let s := aborting 2 { tEng with stopping := 2, cmd := some (0, 4) }; s.abortQuiet b = true ∧ 6 ≤ (s.queue 0).fetched ∧ s.unreadRings 1 3 = some []) := by decide +kernel

theorem holds_Ownership :
    (let s := (queued []).setFld (objPage 0) .objIdx Fld.objIdx_dbpage 255; let v := Fld.dbOwner_assigned.at 1 + Fld.dbOwner_bound.at 1 + Fld.dbOwner_context.at 1
       s.verdict 0 0x400 Reg.dbOwner.off 8 = .perform ∧ s.fld (objPage 0) .objIdx Fld.objIdx_dbpage = 255 ∧ s.dbAllowed 255 (s.dbAsked 0 255 v) = true ∧ (s.db 255).assigned = false)
    ∧ (let s := belled (tQueue []); s.dbAllowed 0 (s.dbAsked 0 0 0) = false)
    ∧ (let s := tM.setFld (objPage 0) .objIdx Fld.objIdx_frame 23039; let v := Fld.frameData_owned.at 1 + Fld.frameData_partition.at 3
       s.verdict 0 0x400 Reg.frameData.off 8 = .perform ∧ s.fld (objPage 0) .objIdx Fld.objIdx_frame = 23039 ∧ 23039 < devFrames ∧ (s.frame 23039).state = 0 ∧ Fld.frameData_owned.get v = 1)
    ∧ (let s : State := { tM with mem := { tM.mem with frames := [(100, { state := 2, part := 0, next := 1 })] }, pl := { tM.pl with scrubs := [100] } }
       s.serving = true ∧ (s.frame 100).state = 2 ∧ s.pl.scrubs.contains 100 = true ∧ s.frameQuiet 100 = true ∧ ∀ i, i < 15 → (s.cast i).state ≠ 3) := by decide +kernel

/-- The physical function's window is on context 1. -/
def tWin : State := (tM.setFld (funcPage 0) .winCtl Fld.winCtl_en 1).setFld (funcPage 0) .winCtl Fld.winCtl_context 1

theorem holds_Window :
    tM.up = true ∧ tM.winCtx 0 = none ∧ tWin.winCtx 0 = some 1 ∧ tWin.hostReqs 0 = [] ∧ (0x100 : Nat) + 1 ≤ 2 ^ 32 ∧ 0x100 % 64 + 1 ≤ 64 ∧ (2 ^ 32 - 1 : Nat) + 1 ≤ 2 ^ 32 ∧ tWin.winVa 0 0 = 0
    ∧ (∀ r ∈ [Right.read, .write], tWin.xlPlinth 1 0x100 r = .ok (.stack (f100 + 0x100)) ∧ tWin.xlPlinth 1 0x6000000 r = .missing) ∧ tWin.mem.free ((f100 + 0x100) / 64) = true
    ∧ (f100 + 0x100) % 64 = 0x100 % 64 ∧ tWin.mem.homePoison ((f100 + 0x100) / 64) = false ∧ (tWin.recall ((f100 + 0x100) / 64) none).mem.homePoison ((f100 + 0x100) / 64) = false
    ∧ (let s : State := { tWin with mem := { tWin.mem with poison := [((f100 + 0x100) / 64, true)] } }; s.mem.homePoison ((f100 + 0x100) / 64) = true)
    ∧ (let s := tWin.setHostReqs 0 [.doorbell 0 9]; s.winCtx 0 = some 1 ∧ s.hostReqs 0 ≠ [])
    ∧ (let s : State := { tM with pl := { tM.pl with sriov := true } }; s.up = true ∧ s.funcPart 3 = none) := by decide +kernel
theorem test_windowRead : ran (exec (.windowRead ⟨.rootPort 2, 0⟩ 0x101 1) tWin) (fun t => t.reply == [0x77, 0] && t.replyPort == 2) = true := by decide +kernel

/-! ## Interrupts -/

/-- The link up with one source of the interrupt controller. -/
def irqs (n : Nat) (x : IrqSource) (s : State := tUp) : State := { s with pl := { s.pl with irqs := [(n, x)], harts := [(3, { en := true, queue := [7, 8] })], cfgs := [(0, { msixEnable := true })] } }

theorem holds_InterruptEvents :
    (∀ n ∈ [0, 31, 32, 2047], n < 2048 ∧ Fld.icRaise_source.get (Fld.icRaise_source.at n) = n) ∧ ((irqs 40 { en := true, count := 255 }).irq 40).en = true ∧ ((irqs 40 {}).irq 40).en = false
    ∧ (irqs 40 {}).verdict 0 0x500 Reg.icRaise.off 8 = .perform ∧ ((irqs 2047 { en := true }).irq 2047).func = 0 ∧ ((irqs 32 {}).irq 32).func = 0
    ∧ (∀ cond ∈ [true, false], let s := irqs 4 { en := true, cond := cond } ((tUp.accessErr (objPage 0)).wr (objPage 0 + 0x20) (if cond then 0 else 1)); s.up = true ∧ s.fixedCondition 4 = !(s.irq 4).cond) := by decide +kernel
theorem test_irqEvent : (((irqs 40 { en := true, count := 255 }).irqEvent 40).irq 40).ovf = true ∧ (((irqs 40 { en := true, count := 255 }).irqEvent 40).irq 40).count = 255
    ∧ (((irqs 40 { en := true, count := 254 }).irqEvent 40).irq 40).ovf = false ∧ (((irqs 40 { en := true, count := 254 }).irqEvent 40).irq 40).count = 255 := by decide +kernel

theorem holds_InterruptService :
    (∀ x ∈ [(5, 0), (5, 5), (5, 6)], let s := irqs 40 { en := true, count := x.1, inService := true }; let v := Fld.icAck_source.at 40 + Fld.icAck_n.at x.2
       Fld.icAck_source.get v = 40 ∧ Fld.icAck_n.get v = x.2 ∧ s.verdict 0 0x500 Reg.icAck.off 8 = .perform)
    ∧ (let s := (irqs 40 { en := true, count := 1 }).wr (icIdxKey 0 .icSrcIdx) (Fld.icSrcIdx_source.at 40); let v := Fld.icSrcCtl_func.at 16 + Fld.icSrcCtl_en.at 1; s.icSource 0 = 40
       ∧ s.verdict 0 0x500 Reg.icSrcCtl.off 8 = .perform ∧ s.verdict 0 0x500 Reg.icSrcTgt.off 8 = .perform ∧ Fld.icSrcCtl_func.get v = 16 ∧ (s.irq 40).func = 0 ∧ (s.irq 40).asserted = true)
    ∧ (let s := irqs 5 {}; s.icSource 0 = 0 ∧ Fld.icSrcCtl_func.get (Fld.icSrcCtl_func.at 1) = 1)
    ∧ (let s := irqs 40 { en := true, count := 1, timer := true, harts := 8 }; s.up = true ∧ (s.irq 40).timer = true ∧ (s.irq 40).asserted = true ∧ s.nextTarget (s.irq 40) = some (0, .hart 3))
    ∧ (let s := irqs 40 { en := true, count := 1, timer := true, vecBase := 9, vecN := 1 }; s.nextTarget (s.irq 40) = some (0, .vector 9) ∧ (s.msixAt 0 9).masked = true)
    ∧ (let s := irqs 40 { en := true, count := 1, timer := true }; s.nextTarget (s.irq 40) = none)
    ∧ (∀ x ∈ [(0, 0), (0, 2047)], x.2 < vectorsOf x.1 ∧ tUp.verdict x.1 (0x510 + (16 * x.2 + 12) / 0x1000) ((16 * x.2 + 12) % 0x1000) 4 = .perform ∧ (tUp.msixAt x.1 x.2).addr % 4 = 0
       ∧ (tUp.msixAt x.1 x.2).addr < 2 ^ 64 ∧ (tUp.msixAt x.1 x.2).data < 2 ^ 32)
    ∧ (tUp.answers 0 0x500 = true ∧ (tUp.hart 0).queue = [] ∧ ((irqs 40 {}).hart 3).queue = 7 :: [8]) := by decide +kernel

/-! ## Register accesses -/

theorem holds_RegisterAccesses :
    (∀ p ∈ [0x10, 0x400, 0x700, 0x1003], (pageOf p).isSome = true ∧ tUp.verdict 0 p 0x010 8 = .perform ∧ tUp.verdict 0 p 0x012 8 = .error (pageKey 0 p) ∧ tUp.verdict 0 p 0x010 4 = .error (pageKey 0 p))
    ∧ ((tUp.setFld rstPage .startStat Fld.startStat_ready 0).setFld rstPage .startStat Fld.startStat_step 0).verdict 0 0x400 0x100 8 = .ignore
    ∧ (tUp.ready = true ∧ tUp.answers 0 0x400 = true ∧ tUp.answers 0 0x3FF = false)
    ∧ (∀ x ∈ [(0, 0x400100, 4), (0, 0x400101, 8), (2, 0x104, 4)], tUp.up = true ∧ readRefused x.1 x.2.1 x.2.2 = true)
    ∧ (let s := belled (tQueue []); s.ready = true ∧ s.tdispError 0 = false ∧ s.dbPageAt 0 0 ≠ none ∧ s.dbPageAt 0 256 = none ∧ (∀ off ∈ [8, 16, 24], s.dbQueue 0 off = some 0) ∧ s.dbQueue 0 0x100008 = none
       ∧ (s.queue 0).head < 2 ^ 64 ∧ (s.queue 0).state < 2 ^ 64)
    ∧ tUp.up = true ∧ tUp.linkUp = true ∧ ∀ p : Nat, Requester.other 1 2 ≠ .rootPort p := by
  refine ⟨by decide +kernel, by decide +kernel, by decide +kernel, by decide +kernel, by decide +kernel, by decide +kernel, by decide +kernel, fun p h => by cases h⟩

/-! ## The fabric -/

/-- The transport on, this complex 7, port 2 up, a route to devices 256 to 511 by port 2 with lane pair 1; job slot 0 bound for job 9 and context 1 at rank 0, with a peer 1 at device 300. -/
def tFab (rings : SMap Ring := []) (unacked : List Unacked := []) (peer : Nat := 300 + 2 ^ 31) (rx : Nat := 0) : State :=
  let s := mem1 [(0x100, 7), (0x420, peer), (0x430, rx), (0x800, 2 ^ 20)] tUp
  { (s.setFld fabPage .fabCtl Fld.fabCtl_en 1).setFld fabPage .fabId Fld.fabId_devid 7 with
    fab := { s.fab with ports := [(2, { state := 2, en := true })], routes := [(1, 4 + 2 ^ 16)]
                        jobs := [(0, { bound := true, job := 9, ctx := 1, base := f100 + 0x400, count := 2, key0 := some 5 })], rings := rings, unacked := unacked } }

/-- A plain packet from the peer to this complex, and the packet that the peer sends for it under key 5. -/
def pkt (typ psn addr ref : Nat) (payload : List Byte) : Packet := ⟨typ, 0, 0, 7, 15, 300, 9, 0, psn, addr, 1, ref, payload, 0⟩
def sealedPkt (typ psn addr ref : Nat) (payload : List Byte) : Packet := (pkt typ psn addr ref payload).sealed 5

theorem crypt_crypt (p : Packet) (key : Nat) : { p with payload := p.crypt key }.crypt key = p.payload := by
  refine List.ext_getElem (by simp [Packet.crypt]) fun i h1 h2 => ?_
  have iv : ∀ l, ({ p with payload := l } : Packet).iv = p.iv := fun _ => rfl
  simp [Packet.crypt, iv]
/-- Opening what was sealed gives the plain packet, and its tag verifies, whatever the cipher is (R408, R409). -/
theorem opened_sealed (p : Packet) (key : Nat) : ((p.sealed key).opened key).payload = p.payload := crypt_crypt p key
theorem verifies_sealed (p : Packet) (key : Nat) : (p.sealed key).verifies key = true := by simp [Packet.verifies, Packet.sealed, Packet.tagOf, Packet.aad, Packet.iv, Packet.header, Packet.cls]

/-- A packet has arrived on port 2. -/
def arrivedAt (p : Packet) (s : State) : State := { s with fab := { s.fab with ingress := [⟨some 2, p⟩] } }

theorem holds_FabricPackets_arrival (p : Packet) (s : State) : (arrivedAt p s).arrivalOf p = some ⟨some 2, p⟩ := by simp [arrivedAt, State.arrivalOf]
/-- What the complex of these tests holds for the job accepts such a packet, and reads it as it was before it was sealed. -/
theorem holds_FabricPackets_accepts (p : Packet) (s : State) (h : s.slotOf p.job = some 0 ∧ (s.job 0).key p.keyIdx = some 5 ∧ s.peerValid (s.job 0) p.srank = true ∧ s.peerDev (s.job 0) p.srank = p.src
      ∧ s.peerDead (s.job 0) p.srank = false) : s.accepts (p.sealed 5) = some 0 ∧ (s.openFor 0 (p.sealed 5)).payload = p.payload := by
  have hs : s.slotOf (p.sealed 5).job = some 0 := h.1
  have hk : (s.job 0).key (p.sealed 5).keyIdx = some 5 := h.2.1
  have hv : s.peerValid (s.job 0) (p.sealed 5).srank = true := h.2.2.1
  have hd : s.peerDev (s.job 0) (p.sealed 5).srank = (p.sealed 5).src := h.2.2.2.1
  have hz : s.peerDead (s.job 0) (p.sealed 5).srank = false := h.2.2.2.2
  refine ⟨?_, ?_⟩
  · simp only [State.accepts, hs]
    rw [hk, hv, hd, hz]
    simp [verifies_sealed]
  · simp only [State.openFor]
    rw [hk]
    exact opened_sealed p 5
/-- Their premises hold of each type of packet in the complex of these tests. -/
theorem holds_FabricPackets_peer : ∀ typ ∈ [1, 2, 3, 4, 5, 6, 7], let p := pkt typ 1 0x100 0 []; let s := tFab
    s.fabOn = true ∧ p.dst = s.devId ∧ p.typ = typ ∧ s.slotOf p.job = some 0 ∧ (s.job 0).key p.keyIdx = some 5 ∧ s.peerValid (s.job 0) p.srank = true ∧ s.peerDev (s.job 0) p.srank = p.src
      ∧ s.peerDead (s.job 0) p.srank = false ∧ s.accepts { p with job := 10 } = none := by decide +kernel

/-- A link header in order. -/
def lhdr (seq : Nat) : LinkHdr := ⟨seq, 0, [(8, 2)]⟩
/-- Ports 2 and 4 up, with credits for lane 2 of class 0. -/
def twoPorts (a b : Nat) : State :=
  let s := tFab
  { s with fab := { s.fab with ports := [(2, { state := 2, en := true, credits := [(2, a)] }), (4, { state := 2, en := true, credits := [(2, b)] })], routes := [(1, 0x14 + 2 ^ 16)] } }

theorem holds_FabricPortsAndRouting :
    (let s := tFab; s.up = true ∧ (s.port 2).state = 2 ∧ s.portOn 2 = true ∧ (s.port 3).state = 0 ∧ s.fabOn = true ∧ s.fab.egress = [] ∧ (pkt 1 1 0 0 []).dst = s.devId ∧ (lhdr 0).seq = (s.port 2).rxSeq ∧ (lhdr 1).seq ≠ (s.port 2).rxSeq)
    ∧ (let s := { tFab with fab := { tFab.fab with ports := [(2, { state := 1, en := true, fails := 8 })] } }; s.portOn 2 = true ∧ (s.port 2).state ≠ 2 ∧ 8 ≤ (s.port 2).fails)
    ∧ (let s := { tFab with fab := { tFab.fab with ports := [(2, { state := 2 })] } }; s.portOn 2 = false)
    ∧ (∀ a ∈ [0, 3], let p := { pkt 1 1 0 0 [] with dst := 300 }; let s := (twoPorts a a).linkTook 2 (lhdr 0); p.dst ≠ s.devId ∧ 2 ≤ p.ttl ∧ s.candidates p.dst = [2, 4]
       ∧ (s.port 2).credits.at 0 2 = a ∧ (s.port 4).credits.at 0 2 = a)
    ∧ (let p := { pkt 1 1 0 0 [] with dst := 600, ttl := 1 }; p.dst ≠ tFab.devId ∧ p.ttl ≤ 1 ∧ (tFab.linkTook 2 (lhdr 0)).candidates p.dst = []) := by decide +kernel
/-- A packet goes by the port with more credits, one of them is used, and its TTL is one lower; equals leave by the lower-numbered port; with no credit it waits; with one hop left it is dropped. -/
theorem test_packetForward :
    ran (exec (.packetForward ⟨2, lhdr 0⟩ { pkt 1 1 0 0 [] with dst := 300 }) (twoPorts 1 3)) (fun t => (t.port 4).credits.at 0 2 == 2 && (t.port 4).kept.map (fun k => (k.1, k.2.ttl, k.2.vl)) == [(0, 14, 2)] && (t.port 2).freed.at 0 0 == 1) = true
    ∧ ran (exec (.packetForward ⟨2, lhdr 0⟩ { pkt 1 1 0 0 [] with dst := 300 }) (twoPorts 3 3)) (fun t => (t.port 2).credits.at 0 2 == 2 && (t.port 4).kept.isEmpty) = true
    ∧ ran (exec (.packetForward ⟨2, lhdr 0⟩ { pkt 1 1 0 0 [] with dst := 300 }) (twoPorts 0 0)) (fun t => t.fab.egress.length == 1 && (t.port 2).freed == []) = true
    ∧ ran (exec (.packetForward ⟨2, lhdr 0⟩ { pkt 1 1 0 0 [] with dst := 300, ttl := 1 }) tFab) (fun t => t.fab.egress == [] && t.fld fabPage .fabErr Fld.fabErr_dropped == 1) = true := by decide +kernel

def tUnacked (typ : Nat) : Unacked := ⟨0, 1, { pkt typ 3 0x100 0 (bytesOf 8 0x100 ++ bytesOf 8 8) with src := 7, dst := 300 }, some (5, 4), none, 1⟩

/-- The context of the jobs is being aborted. -/
def tLeaving : State := { tFab with pl := { tFab.pl with aborts := [⟨1, 0, 1, [0], 1, [], [], 1, 0, 0, [], none, true⟩] } }

theorem holds_Fabric_idle (us : List Unacked) (peer rx : Nat) : (tFab [] us peer rx).fabIdle ∧ tLeaving.fabIdle :=
  ⟨⟨rfl, fun _ h => absurd h List.not_mem_nil⟩, rfl, fun _ h => absurd h List.not_mem_nil⟩

theorem holds_FabricPackets_requests :
    (tFab.psnSeen (tFab.job 0) 1 1 = false ∧ tFab.jobServes 1 = true)
    ∧ (let s := tFab [] [] (300 + 2 ^ 31) (2 ^ 63 + 1); s.psnSeen (s.job 0) 1 1 = true ∧ s.fab.refused = [])
    ∧ (tLeaving.psnSeen (tLeaving.job 0) 1 1 = false ∧ tLeaving.jobServes 1 = false)
    ∧ (tFab.chPlace 1 false 0x108 true = .place (.stack (f100 + 0x108)) ∧ tFab.mem.free ((f100 + 0x108) / 64) = true ∧ (f100 + 0x108) / 64 ∉ linesOf ((tFab.job 0).entry 1 + 0x10) 16
       ∧ ((tFab.fabTouch 1 0x108 1 .write).recall ((f100 + 0x108) / 64) none).mem.homePoison ((f100 + 0x108) / 64) = false ∧ (tFab.fabWrite 1 0x108 [5]).isSome = true)
    ∧ (let s := tFab [] [tUnacked 4]; s.getFor 0 (pkt 5 1 0x100 3 [1, 2, 3, 4, 5, 6, 7, 8]) = true ∧ s.getFor 0 (pkt 5 1 0x100 4 [1]) = false)
    ∧ (let u := tFab.xlFill 16 1 0x100 .atomic 0xFF; tFab.xlPlinth 1 0x100 .atomic = .ok (.stack (f100 + 0x100)) ∧ tFab.inRelief 16 1 0x100 .atomic = false ∧ tFab.mem.free ((f100 + 0x100) / 64) = true
       ∧ (u.recall ((f100 + 0x100) / 64) none).mem.homePoison ((f100 + 0x100) / 64) = false ∧ (f100 + 0x100) % 8 = 0 ∧ 0x101 % 8 ≠ 0) := by decide +kernel
theorem holds_FabricPackets_get :
    (let u := tFab.acceptSeq (pkt 4 1 0x100 0 (bytesOf 8 0x200 ++ bytesOf 8 8)) 0;
       u.flowOpen 0 1 = true ∧ (8 : Nat) ≤ 4096 - 0x200 % 4096 ∧ u.flowSpent 0 1 = false ∧ (match u.fabRead 1 0x100 8 with
         | some (.ok l) => l == bytesOf 8 7
         | _ => false) = true ∧ tFab.chPlace 1 false 0x6000000 false = .fail 6)
    ∧ (let s := tFab [] [tUnacked 1]; (s.fab.unacked.find? fun u => u.slot == 0 && u.rank == 1 && u.pkt.psn == 3) = some (tUnacked 1) ∧ (tUnacked 1).get = none) := by decide +kernel
theorem holds_FabricPackets_acc :
    let p := pkt 2 1 0x140 0 (List.replicate 64 0)
    p.payload.length = 64 ∧ ((tFab.xlFill 16 1 0x140 .atomic 0xFF).accGranule 1 0x140 0 false p.payload).isSome = true := by decide +kernel
/-- A payload byte is written where ADDR says, and the code is 0. -/
theorem test_fabWrite : (match tFab.fabWrite 1 0x108 [5] with
    | some (t, code) => t.mem.dev.read (f100 + 0x108) == 5 && code == 0
    | none => false) = true := by decide +kernel

/-- A ring of slot 0 with one descriptor. -/
def tRing (d : RingDesc) : Ring := { en := true, log2 := 6, base := 0x600, tailVa := 0x800, headVa := 0x808, tail := 5, next := 5, head := 4, descs := [d] }
def rdesc (kind : Nat) : RingDesc := { idx := 4, kind := kind, dflags := 0, peer := 1, laddr := 0x100, raddr := 0x5000, length := 8, value := 3, faddr := 0, fval := 0 }

theorem holds_FabricRings :
    (let s := tFab [(5, { tRing (rdesc 1) with tail := 2 ^ 20 - 1, next := 2 ^ 20 - 1, head := 2 ^ 20 - 1, descs := [] })]; let r := s.ring 5
       s.fabOn = true ∧ r.stopped = false ∧ (s.job r.slot).bound = true ∧ r.en = true ∧ (s.ctx 1).state = 1 ∧ s.xlPlinth 1 r.tailVa .read = .ok (.stack (f100 + 0x800))
         ∧ (s.mem.homeWord (f100 + 0x800)).toNat = r.tail + 1 ∧ r.tail + 1 ≤ r.head + 2 ^ r.log2 ∧ r.desc? r.next = none ∧ r.descs.length < 64 ∧ s.mem.free ((f100 + 0x800) / 64) = true ∧ s.mem.homePoison ((f100 + 0x800) / 64) = false
         ∧ (match ((s.setRing 5 { r with tail := 2 ^ 20 }).fabTouch 1 r.tailVa 8 .read).fabRead 1 (r.base + 64 * (r.next % 2 ^ r.log2)) 64 with
           | some (.ok _) => true
           | _ => false) = true)
    ∧ (∀ kind ∈ [1, 2, 3, 4, 5], let d := rdesc kind; let s := tFab [(5, tRing d)]; let r := s.ring 5; r.desc? 4 = some d ∧ r.mayStart d = true ∧ d.code = 0
       ∧ s.peerValid (s.job 0) 1 = true ∧ s.peerDead (s.job 0) 1 = false ∧ s.flowOpen 0 1 = true ∧ s.flowSpent 0 1 = false ∧ (r.descs.all fun x => decide (4 ≤ x.idx) || x.done) = true)
    ∧ (∀ kind ∈ [1, 3, 4], let d := rdesc kind; (match tFab.descPiece 1 d with
       | some (.ok (_, n)) => n == d.total - d.sent && decide (d.sent < d.total)
       | _ => false) = true)
    ∧ (let s := tFab [] [] 300; s.peerValid (s.job 0) 1 = false) ∧ (let s := tFab [] [] (300 + 2 ^ 31 + 2 ^ 32); s.peerValid (s.job 0) 1 = true ∧ s.peerDead (s.job 0) 1 = true)
    ∧ (let d := { rdesc 1 with started := true, done := true }; let s := tFab [(5, tRing d)]; (s.ring 5).desc? 4 = some d ∧ d.dflags % 2 = 0 ∧ s.xlPlinth 1 0x808 .write = .ok (.stack (f100 + 0x808))
       ∧ s.mem.free ((f100 + 0x808) / 64) = true ∧ (((s.setRing 5 { tRing d with descs := [] }).fabTouch 1 0x808 8 .write).recall ((f100 + 0x808) / 64) none).mem.homePoison ((f100 + 0x808) / 64) = false)
    ∧ barrierCode [] = 0 := by decide +kernel

/-- An unbound slot whose peer table the context cannot write: its translation root lies in a frame that is not its partition's. -/
def tUnbound : State :=
  let s := tFab.setJob 0 { base := f100 + 0x400, count := 2 }
  { s with pl := { s.pl with ctxs := [(1, { tCtx with ptRoot := 500 * 0x2000000 })] } }

theorem holds_FabricJobs_table (base len : Nat) : tUnbound.ctxWrites 1 base len = false := by
  have hp : tUnbound.framePasses (tUnbound.ctx 1).part false 500 = false := by decide +kernel
  have hr : (tUnbound.ctx 1).ptRoot = 500 * 0x2000000 := rfl
  simp only [State.ctxWrites, hr, State.tableWrites, List.any_eq_false]
  intro i hi
  have hf : frameOf (500 * 0x2000000 + 8 * i) = 500 := by
    have := List.mem_range.1 hi
    unfold frameOf
    simp at this
    omega
  simp [hf, hp]
theorem holds_FabricJobs_bind :
    let s := tUnbound; let v := Word.ofNat (2 ^ 63 + Fld.fjCtl_context.at 1 + Fld.fjCtl_jobid.at 9); let j := s.job 0
    s.verdict 0 0x801 Reg.fjCtl.off 8 = .perform ∧ s.fld jobPage .fjIdx Fld.fjIdx_slot = 0 ∧ j.bound = false ∧ v.bit 63 = true ∧ Fld.fjCtl_context.get v = 1 ∧ (s.ctx 1).state = 1 ∧ j.base % 64 = 0 ∧ j.count = 2
      ∧ s.ownedRange 0 j.base (32 * j.count) = true ∧ (s.ctx 1).part = 0 ∧ (∀ m, m < 256 → (s.job m).bound = false)
      ∧ (s.ctx (Fld.fjCtl_context.get (Word.ofNat (2 ^ 63)))).state ≠ 1 := by decide +kernel

theorem holds_FabricJobs :
    (let s := tFab [] [tUnacked 1]; s.fabOn = true ∧ (s.fab.unacked.find? fun u => u.slot == 0 && u.rank == 1 && u.pkt.psn == 3) = some (tUnacked 1) ∧ (s.job 0).keyOn 0 = true
       ∧ (tUnacked 1).ring = some (5, 4) ∧ s.fab.gets = [])
    ∧ (let s := tFab [] [] (600 + 2 ^ 31); (s.job 0).bound = true ∧ s.peerValid (s.job 0) 1 = true ∧ s.peerDead (s.job 0) 1 = false ∧ s.peerDev (s.job 0) 1 ≠ s.devId ∧ s.candidates (s.peerDev (s.job 0) 1) = [])
    ∧ (let s := tFab; s.verdict 0 0x801 Reg.fjCtl.off 8 = .perform ∧ s.verdict 0 0x801 Reg.frCtl.off 8 = .perform ∧ s.fld jobPage .fjIdx Fld.fjIdx_slot = 0 ∧ (s.job 0).bound = true)
    ∧ (let v := Word.ofNat (2 ^ 63 + Fld.frCtl_log2Entries.at 16); v.bit 63 = true ∧ Fld.frCtl_slot.get v = 0 ∧ Fld.frCtl_log2Entries.get v = 16 ∧ (tFab.ring (tFab.fld jobPage .frIdx Fld.frIdx_ring)).en = false)
    ∧ (tFab.setJob 0 {}).job 0 = {} ∧ ({} : Job).bound = false ∧ (0 : Word).bit 63 = false := by decide +kernel

/-! ## The root of trust -/

/-- A GO write of MB_CMD, and a mailbox of the physical function whose buffer begins with words. -/
def mbGo (op len : Nat) : Word := Word.ofNat (2 ^ 63 + Fld.mbCmd_op.at op + Fld.mbCmd_len.at len)
def mbox (words : List (Nat × Nat)) (s : State := tUp) : State := words.foldl (fun t w => t.wr (mbPage 0 + Reg.mbBuf.off + 8 * w.1) (Word.ofNat w.2)) s

/-- A mailbox request of the physical function passes the checks of every request. -/
def mbReady (s : State) (op len : Nat) : Bool :=
  let v := mbGo op len
  let u := s.triggered 0 0x610 .mbCmd v
  v.bit 63 && (s.verdict 0 0x610 Reg.mbCmd.off 8 == .perform) && s.fld (mbPage 0) .mbStat Fld.mbStat_busy == 0 && Fld.mbCmd_op.get v == op
    && u.mbCheck 0 op (u.mbRequest 0 (Fld.mbCmd_len.get v)) == 0

theorem holds_MailboxRequests :
    (∀ x ∈ [(0x01, 48), (0x02, 8), (0x03, 48), (0x40, 0), (0x45, 0), (0x47, 0)], mbReady (mbox []) x.1 x.2 = true)
    ∧ (∀ x ∈ [(0x01, 47), (0x77, 0)], let u := tUp.triggered 0 0x610 .mbCmd (mbGo x.1 x.2); u.mbCheck 0 x.1 (u.mbRequest 0 x.2) = 1)
    ∧ (let s := tUp.setFld (mbPage 0) .mbStat Fld.mbStat_busy 1; s.fld (mbPage 0) .mbStat Fld.mbStat_busy = 1 ∧ s.verdict 0 0x610 Reg.mbCmd.off 8 = .perform)
    ∧ (let s : State := { tUp with pl := { tUp.pl with sriov := true }, sec := { tUp.sec with parts := [(0, { cores := 1 })] } }; let u := s.triggered 1 0x611 .mbCmd (mbGo 0x47 0); u.mbCheck 1 0x47 (u.mbRequest 1 0) = 2)
    ∧ (∀ n ∈ [3072, 3073], let s := mbox [(0, n * 2 ^ 32)]; mbReady s 0x02 8 = true ∧ ofBytes (((s.mbRequest 0 8).drop 4).take 4) = n) := by decide +kernel

/-- Partition 0 with one context, Casts, and job slot 3 bound. -/
def trusted (words : List (Nat × Nat)) (casts : SMap CastSlot) : State :=
  mbox words { mem1 [] tUp with
    sec := { tUp.sec with parts := [(0, { cores := 3, keys := [(0, 1)] }), (1, { cores := 4 })], casts := casts, spdm := [(5, {}), (6, { requester := true })] }
    fab := { tUp.fab with jobs := [(3, { bound := true, job := 9 })] } }

theorem holds_PartitionsAndCasts :
    (∀ x ∈ [(0x10, 32), (0x11, 648), (0x20, 120), (0x21, 4), (0x22, 1), (0x23, 16), (0x30, 8), (0x31, 2)], mbReady (trusted [] []) x.1 x.2 = true)
    ∧ ((trusted [] []).partSetStatus [3, 3] = 3 ∧ (trusted [] []).partSetStatus [1, 4] = 4 ∧ (trusted [] []).partSetStatus [3] = 0)
    ∧ ((trusted [] []).policyRule (bytesOf 8 1 ++ List.replicate 640 0) = true ∧ (trusted [] []).partBusy 0 = true ∧ (trusted [] []).partBusy 1 = false ∧ ((trusted [] []).part 1).tdisp = 0
       ∧ (trusted [] []).flash.debugFused = false)
    ∧ (∀ st ∈ [0, 2], ((trusted [] [(14, { state := st, frames := 1, first := 200 })]).cast 14).state = st)
    ∧ ((trusted [] []).sec.spdm.find? 4 = none ∧ (trusted [] []).sec.spdm.find? 5 = some {} ∧ (trusted [] []).sec.spdm.find? 6 = some { requester := true })
    ∧ ((trusted [] []).job 3).bound = true ∧ ((trusted [] []).job 4).bound = false
    ∧ (let hd := bytesOf 4 0x5453434B ++ bytesOf 2 1 ++ bytesOf 2 256 ++ bytesOf 4 (2 ^ 20) ++ List.replicate 244 0; castHeadRule hd (castContent 256 (2 ^ 20) + 0x10000 * 2 ^ 20) = true)
    ∧ 100 + castFrames 512 ≤ devFrames := by decide +kernel
/-- CAST_ADMIT of a LOADED Cast records the partitions. -/
theorem test_castResupply : ran (exec (.castResupply 0 (mbGo 0x23 16)) (trusted [(0, 14), (1, 0x1234000)] [(14, { state := 2 })])) (fun t => (t.cast 14).imgAddr == 0x1234000) = true := by decide +kernel

def tRecast (data : Option (List Byte)) : State :=
  let s := trusted [] [(2, { state := 2, first := 100, frames := 1, chunks := 1 })]
  { s with sec := { s.sec with recasts := [{ slot := 2, chunk := 0, data := data }] } }
def tReq (mode : Nat) : JobKeyRequester := ⟨5, 9, 0, 0, mode == 1, false, 77⟩

theorem holds_TrustMessages :
    ((tRecast none).sec.recasts = { slot := 2, chunk := 0 } :: [] ∧ (tRecast none).ready = true ∧ ∀ n, n < 15 → ((tRecast none).cast n).overflow = false)
    ∧ ((tRecast (some [1])).sec.recasts = { slot := 2, chunk := 0, data := some [1] } :: [])
    ∧ (∀ chan ∈ [SpdmChannel.doe 0, .mctp, .relay 5], (tRecast none).chanOpen chan = true)
    ∧ (let s : State := { tRecast none with pl := { (tRecast none).pl with sriov := true }, sec := { (tRecast none).sec with spdm := [(257, { session := true })] } }
       s.chanOpen (.doe 1) = true ∧ s.funcPart 1 = some 0 ∧ ((s.sec.spdm.find? (spdmKey (.doe 1))).getD {}).session = true)
    ∧ (let s : State := { tRecast none with sec := { (tRecast none).sec with spdm := [(5, { session := true, mutualAuth := true })] } }
       s.sec.spdm.find? ((tReq 1).conv % 256) = some { session := true, mutualAuth := true } ∧ (s.job 3).bound = true ∧ (s.job 3).job = (tReq 1).job ∧ s.keyTrusted 3 (tReq 1) = true ∧ s.keyTrusted 3 (tReq 0) = false
       ∧ s.elsewhere 9 3 = false ∧ s.elsewhere 9 4 = true ∧ (s.job 4).bound = false ∧ s.elsewhere 8 4 = false)
    ∧ (∀ st ∈ [0, 1, 2, 3], let s : State := { tUp with pl := { tUp.pl with sriov := true }, sec := { tUp.sec with parts := [(0, { cores := 1, confidential := true, ideIo := true, tdisp := st })] } }
       s.ready = true ∧ s.funcPart 1 = some 0 ∧ s.pl.sriov = true ∧ (s.part 0).tdisp = st ∧ (s.part 0).confidential = true ∧ (s.part 0).ideIo = true ∧ s.pl.ctxs = [] ∧ s.pl.reqs = [] ∧ s.pl.aborts = [])
    ∧ (let s : State := { tUp with sec := { tUp.sec with parts := [(0, { cores := 1 })] } }; s.funcPart 1 = some 0 ∧ (s.part 0).confidential = false)
    ∧ (let s := mem1 [] tUp; s.pl.reqs = [] ∧ (s.ctx 1).state = 1 ∧ (s.ctx 1).part = 0) := by decide +kernel

/-! ## Clocks, power and heat -/

theorem holds_ClocksAndThrottle :
    (∀ i ∈ [Island.cell 15 271, .core 15, .home 11], tUp.ready = true ∧ islandOk i = true ∧ tUp.board.droop.contains (islandKey i) = false ∧ [islandKey i].contains (islandKey i) = true)
    ∧ (tUp.board.pwrGood = true ∧ tUp.board.thrReq.testBit 3 = false ∧ tUp.board.thrAck.testBit 3 = false ∧ tUp.up = true)
    ∧ (let b : Board := { thrReq := 8 }; b.thrReq.testBit 3 = true ∧ b.thrLong.testBit 3 = false) ∧ tUp.confidential (tUp.coreOwner 15) = false ∧ tUp.fatal = false := by decide +kernel

theorem holds_PowerAndThermal :
    (let s := ((tUp.setFld pwrPage .pwrCap Fld.pwrCap_prio0 2).setFld pwrPage .pwrCap Fld.pwrCap_prio1 1).setFld pwrPage .pwrCap Fld.pwrCap_prio2 0
     s.ready = true ∧ s.fld pwrPage .pwrCap Fld.pwrCap_prio0 = 2 ∧ s.fld pwrPage .pwrCap Fld.pwrCap_prio1 = 1 ∧ s.fld pwrPage .pwrCap Fld.pwrCap_prio2 = 0)
    ∧ (let limit := tUp.tripLimit 131; (List.replicate 131 0 ++ [limit + 1]).length = 132 ∧ limit + 1 ≤ 255 ∧ tUp.fld pwrPage .pwrStat Fld.pwrStat_tripped = 0 ∧ (∀ n, n < 132 → 0 ≤ tUp.tripLimit n))
    ∧ (let die := tUp.fld thPage .thLimits Fld.thLimits_dieThr; let s : State := { tUp with board := { tUp.board with sensors := [(111, { now := die + 1 })] } }; die < s.temp 111)
    ∧ (let stk := tUp.fld thPage .thLimits Fld.thLimits_stkThr; let s : State := { tUp with board := { tUp.board with sensors := [(131, { now := stk + 1 })] } }; stk < s.temp (120 + 11) ∧ tUp.temp 131 ≤ stk)
    ∧ (let s : State := { mem1 [] tUp with board := { tUp.board with seen := [1] } }; 1 ∈ (s.board.seen ++ s.residentNow).eraseDups ∧ (s.ctx 1).state ≠ 0)
    ∧ (tUp.verdict 0 0x700 Reg.pwrCtl.off 8 = .perform ∧ tUp.mayStandby = true ∧ (mem1 [] tUp).mayStandby = false ∧ (1 : Word).bit 0 = true) := by decide +kernel
/-- A die throttles, and PWR_THR counts it. -/
theorem test_throttle : ran (exec (.throttleReqRise 3) tUp) (fun t => t.board.arraysStopped == 8 && t.fld pwrPage .pwrThr Fld.pwrThr_events == 1) = true := by decide +kernel

/-! ## Fatal causes, resets and start-up -/

theorem holds_FatalCausesAndResets :
    (tUp.up = true ∧ tUp.recovery = false ∧ tUp.fatal = false ∧ tUp.ready = true ∧ tUp.serving = true ∧ tUp.linkUp = true ∧ tUp.flash.writing = [] ∧ tUp.board.pwrGood = true)
    ∧ (∀ agent ∈ [0, 22, 32, 65], supervised agent = true) ∧ (1 ≤ 8 ∧ 0xFFFF < 2 ^ 16)
    ∧ (let s := (tUp.fatalOp 3 7); s.up = true ∧ s.fatal = true)
    ∧ (let s := State.reset.setFld rstPage .startStat Fld.startStat_step 5; let r : State := { s with board := { s.board with clkLost := 1 } }
       s.up = true ∧ s.trained = false ∧ s.fatal = false ∧ s.fld rstPage .startStat Fld.startStat_step = 5 ∧ r.up = false ∧ r.board.clkLost.testBit 1 = false)
    ∧ (∀ clk ∈ [0, 5], tUp.board.clkLost.testBit clk = false)
    ∧ (∀ key ∈ [0xA5, 0xA4], let v := Word.ofNat (Fld.rstCtl_full.at 1 + Fld.rstCtl_key.at key); tUp.verdict 0 0x10 Reg.rstCtl.off 8 = .perform ∧ Fld.rstCtl_full.get v = 1 ∧ Fld.rstCtl_key.get v = key)
    ∧ (let s : State := { tUp with flash := { tUp.flash with writing := [.quarantine [1]] } }; s.flash.writing ≠ [] ∧ s.board.resetPend = none)
    ∧ (let s : State := { tUp with board := { tUp.board with pwrGood := false } }; s.board.pwrGood = false)
    ∧ (let s : State := { tUp with pl := { tUp.pl with sriov := true }, sec := { tUp.sec with parts := [(0, { cores := 1 })] } }
       s.funcPart 1 = some 0 ∧ s.ready = true ∧ s.pl.sriov = true ∧ s.linkUp = true ∧ s.pl.ctxs = [] ∧ s.pl.reqs = [] ∧ s.pl.aborts = [])
    ∧ (let s := mem1 [] tUp; s.funcPart 1 = some 0 ∧ s.serving = true ∧ s.pl.reqs = [] ∧ (s.ctx 1).state = 1 ∧ (s.ctx 1).part = 0) := by decide +kernel
/-- A reset pulse leaves the cause 2 and start-up at its beginning. -/
theorem test_resetNPulse : ran (exec .resetNPulse (mem1 [(0x100, 7)] tC)) (fun t => t.fld rstPage .rstCause Fld.rstCause_cause == 2 && !t.ready && t.cells == [] && t.mem.dev.read (f100 + 0x100) == 0) = true := by decide +kernel

theorem holds_HostLink :
    (tUp.trained = true ∧ tUp.linkUp = true)
    ∧ (let s : State := { tUp with board := { tUp.board with portsDown := 8 } }; s.trained = true ∧ s.linkUp = false ∧ s.board.resetPend = none)
    ∧ (∀ x ∈ [(3, 16), (1, 0)], let s : State := { tUp with pl := { tUp.pl with sriov := true } }; s.up = true ∧ s.linkUp = true ∧ x.1 < 4 ∧ x.2 ≤ 16 ∧ x.1 ≠ 0 ∧ s.trained = true ∧ s.pl.sriov = true ∧ s.pl.reqs = [] ∧ s.pl.aborts = [])
    ∧ (tUp.flash.tapFused = false ∧ tUp.board.tapOpen = false ∧ ∀ p, p < 16 → (tUp.part p).confidential = false)
    ∧ (let s : State := { tUp with sec := { tUp.sec with parts := [(15, { confidential := true })] } }; (s.part 15).confidential = true) ∧ (tUp.board.pwrGood = true ∧ 127 < 128) := by decide +kernel

/-- Start-up at a step. -/
def starting (n : Nat) : State := State.reset.setFld rstPage .startStat Fld.startStat_step n

theorem holds_StartUp :
    (∀ n ∈ [0, 1, 2, 3, 4, 5, 6, 7, 8, 9, 10], (starting n).up = true ∧ (starting n).trained = false ∧ (starting n).board.resetPend = none ∧ (starting n).fld rstPage .startStat Fld.startStat_step = n)
    ∧ (let s : State := { starting 2 with flash := { (starting 2).flash with image := [] } }; imgFormat s.flash.image = false)
    ∧ ((starting 5).board.thrReq % 16 = 0 ∧ (starting 4).fatal = false)
    ∧ (let s : State := { starting 5 with board := { (starting 5).board with thrReq := 1 } }; s.board.thrReq % 16 ≠ 0)
    ∧ lanesBad ⟨none, [], none, [(64 * 11 + 15, [0, 41])], none, 15, 0⟩ = none ∧ lanesBad ⟨none, [], none, [(64 * 11 + 15, [0, 1, 2])], none, 15, 0⟩ = some (11 + 16 * 15)
    ∧ 256 ≤ ((List.range 272).filter fun n => (starting 6).flash.roleOf 15 n == 0).length := by decide +kernel
theorem test_startUp_last : ran (exec (.startUpStepDone ⟨none, [], none, [], none, 15, 0⟩) (starting 10)) (fun t => t.ready && t.fld rstPage .startStat Fld.startStat_step == 11) = true := by decide +kernel

/-- A firmware image of an empty body with a security version. -/
def tImage (svn : Nat) : List Byte := bytesOf 4 0x57464B4A ++ bytesOf 2 1 ++ List.replicate 6 0 ++ bytesOf 4 svn ++ List.replicate (0x150) 0

theorem holds_Firmware :
    (∀ x ∈ [(0x41, 16), (0x42, 1), (0x43, 0), (0x44, 0), (0x46, 3)], mbReady (mbox []) x.1 x.2 = true)
    ∧ (let h := hostBytes (tImage 3) 6; tUp.hostRead h 0 0x160 = some (some (tImage 3))) ∧ (imgFormat (tImage 3) = true ∧ 0x160 = 0x160 + imgBody (tImage 3) ∧ imgSvn (tImage 3) < 4)
    ∧ imgFormat (List.replicate 0x160 0) = false
    ∧ (let s := mbox [(1, 0x15F)]; mbReady s 0x41 16 = true ∧ ofBytes (((s.mbRequest 0 16).drop 8).take 8) = 0x15F) ∧ (let s := mbox [(1, 0x1100001)]; mbReady s 0x41 16 = true ∧ ofBytes (((s.mbRequest 0 16).drop 8).take 8) = 0x1100001)
    ∧ (tUp.board.staged = none ∧ tUp.flash.writing = [] ∧ tUp.board.resetPend = none)
    ∧ (let s : State := { tUp with board := { tUp.board with staged := some (tImage 3) } }; s.board.staged = some (tImage 3) ∧ s.board.resetPend = none ∧ s.flash.writing = [])
    ∧ (mem1 [] tUp).pl.ctxs.any (fun e => e.2.state == 1) = true ∧ tUp.pl.ctxs.all (fun e => e.2.state != 1) = true
    ∧ (let s : State := { tUp with flash := { tUp.flash with writing := [.quarantine [1], .image [] true] } }; s.flash.writing = .quarantine [1] :: [.image [] true] ∧ s.board.resetPend = none)
    ∧ (let s : State := { tUp with flash := { tUp.flash with writing := [.quarantine [1]] }, board := { tUp.board with resetPend := some 15 } }; s.flash.writing = .quarantine [1] :: [] ∧ s.board.resetPend = some 15) := by decide +kernel
/-- A cleared quarantine record is gone when its write ends. -/
theorem test_flashWriteComplete : ran (exec .flashWriteComplete { tUp with flash := { tUp.flash with quarantine := [1, 2], writing := [.quarantine [1]] } }) (fun t => t.flash.quarantine == [2] && t.flash.writing == []) = true := by decide +kernel

/-- The update in a state. -/
def updating (x : PldmState) (data : List Byte) : State := { tUp with board := { tUp.board with pldm := x, pldmLen := 2, pldmData := data } }

theorem holds_PldmUpdate :
    (∀ x ∈ [PldmState.idle, .learn, .ready, .download, .verify, .apply, .activate], (updating x []).pldmUp = true ∧ (updating x []).board.pldm = x ∧ (updating x []).board.staged = none ∧ (updating x []).flash.writing = [] ∧ (updating x []).board.resetPend = none
       ∧ (updating x []).recovery = false)
    ∧ (let s : State := { updating .apply [] with board := { (updating .apply []).board with staged := some (tImage 3) } }; s.pldmUp = true ∧ s.board.pldm = .apply ∧ s.board.staged = some (tImage 3) ∧ s.recovery = false)
    ∧ ((updating .download [7]).board.pldmData.length + 1 = (updating .download [7]).board.pldmLen ∧ 1 ≤ ([8] : List Byte).length ∧ (updating .download [7, 8]).board.pldmData.length = (updating .download [7, 8]).board.pldmLen) := by decide +kernel
theorem test_requestFirmwareData : ran (exec (.requestFirmwareData 1 [8]) (updating .download [7])) (fun t => t.board.pldmData == [7, 8] && t.reply == [0]) = true
    ∧ ran (exec (.requestFirmwareData 1 [8, 9]) (updating .download [7])) (fun t => t.board.pldmData == [7] && t.reply == [0x84]) = true := by decide +kernel

end Sys2Proof.Tests
end

section
/-! SUPPORT. The state after reset, and how a BAR access reaches the complex. -/

namespace Sys2Proof.Machine

/-! ## After reset (00 R9, 18 R534, R542) -/

/-- RST_CAUSE is written with the cause of the reset, and no other register is. -/
theorem State.reset_rd (key : Nat) :
    State.reset.rd key = if key = rstCauseKey then Word.ofNat (1 + 65536 * Flash.initial.starts) else regDefault key := by
  unfold State.rd State.reset State.afterReset
  dsimp only
  rw [SMap.get_set]
  rfl

/-- Nothing is formed, nothing waits, and the log is empty. -/
theorem State.reset_idle : State.reset.time = 0 ∧ (∀ p, State.reset.partExists p = false) ∧ (∀ c e, (State.reset.engine c e).formed = false)
    ∧ (∀ n, (State.reset.ctx n).state = 0) ∧ State.reset.pl.patina.count = 0 ∧ State.reset.pending = [] :=
  ⟨rfl, fun _ => rfl, fun _ _ => rfl, fun _ => rfl, rfl, rfl⟩

/-- Settles O4: one key of the register map is listed after reset, and every other map is empty. -/
theorem resetState : Obligations.ResetState := by
  unfold Obligations.ResetState
  refine ⟨⟨fun key h => ?_, ?_, State.reset_idle⟩, MemSys.reset_wf, fun _ => rfl⟩
  · rw [State.reset_rd, if_neg h]
  · have hkey : rstPage + Reg.rstCause.off = rstCauseKey := by decide
    rw [State.fld, State.reg, State.reset_rd, if_pos hkey]
    decide

/-! ## Accesses to a BAR (11 R339, R346) -/

/-- A request from a root port is taken up with its completion's port noted, which is one of four. -/
theorem State.accept_rootPort (s : State) (port : Nat) (act : State → State) :
    s.accept (.rootPort port) act = act { s with replyPort := port % 4 } := rfl

/-- A register write that finds no page that answers leaves the complex as it was. -/
theorem opRegisterWrite_ignored {src off size : Nat} {v : Word} {s : State} {k : PageKind} {i : Nat} (hp : pageOf (off / 0x1000) = some (k, i)) (hk : k ≠ .msix)
    (hv : s.verdict src (off / 0x1000) (off % 0x1000) size = .ignore) : opRegisterWrite src off size v s = s := by
  simp only [opRegisterWrite, hp, hv]

/-- Refutes O45: it lets a root port have any number and asks for a completion on that very port. The host has four ports (11 R338),
and the model takes the number modulo 4, so the completion of an ignored write by port 4 is on port 0. -/
theorem not_registerAccesses : ¬ Obligations.RegisterAccesses := by
  unfold Obligations.RegisterAccesses
  rintro ⟨hwrite, -⟩
  have hp : pageOf (0 / 0x1000) = some (.identity, 0) := by decide
  have hv : State.reset.verdict 0 (0 / 0x1000) (0 % 0x1000) 8 = .ignore := by decide
  have hclaim : exec (.registerWrite ⟨.rootPort 4, 0⟩ 0 8 0) State.reset = .next { State.reset with replyPort := 4 } :=
    (hwrite 4 0 8 0 State.reset .identity 0 hp (by decide)).1 hv
  have hmodel : exec (.registerWrite ⟨.rootPort 4, 0⟩ 0 8 0) State.reset = .next State.reset :=
    congrArg Host.Outcome.next ((State.accept_rootPort _ _ _).trans (opRegisterWrite_ignored hp (by decide) hv))
  rw [hmodel] at hclaim
  injection hclaim with hstate
  exact absurd (congrArg State.replyPort hstate) (by decide)

end Sys2Proof.Machine
end

section
/-! SUPPORT. A line recalled to its home, and bytes of one line written there (07 R220). -/

namespace Sys2Proof.Machine

/-! ## What an agent holds after it gave a line up -/

theorem cacheKey_eq_iff (a b line : Nat) : cacheKey b line = cacheKey a line ↔ b = a := by
  unfold cacheKey; omega

theorem MemSys.cline?_dropCline (m : MemSys) (a b line : Nat) : (m.dropCline a line).cline? b line = if b = a then none else m.cline? b line := by
  simp only [MemSys.cline?, MemSys.dropCline, SMap.find?_erase, cacheKey_eq_iff]

theorem MemSys.cline?_setCline (m : MemSys) (a b line : Nat) (c : CacheLine) :
    (m.setCline a line c).cline? b line = if b = a then some c else m.cline? b line := by
  simp only [MemSys.cline?, MemSys.setCline, SMap.find?_insert, cacheKey_eq_iff]

/-- An agent that does not hold a line has nothing to give up. -/
theorem MemSys.giveUp_none {m : MemSys} {a line : Nat} (h : m.cline? a line = none) : m.giveUp a line = m := by
  simp only [MemSys.giveUp, h]

/-- A line modified after an agent gave it up was modified before, in another agent. -/
theorem MemSys.modified_giveUp {m : MemSys} {a b line : Nat} {c : CacheLine} (h : (m.giveUp a line).cline? b line = some c) (hc : c.st = .modified) :
    b ≠ a ∧ m.cline? b line = some c := by
  cases hd : m.cline? a line with
  | none =>
    rw [MemSys.giveUp_none hd] at h
    exact ⟨fun hb => by simp [hb, hd] at h, h⟩
  | some d =>
    have hm : (if d.st = .modified then m.stackWrite line d.data d.poison else m).cline? b line = m.cline? b line := by split <;> rfl
    simp only [MemSys.giveUp, hd] at h
    by_cases hb : b = a
    · subst hb
      split at h
      · simp [MemSys.cline?_dropCline] at h
      · simp only [MemSys.cline?_setCline, if_true, Option.some.injEq] at h
        simp [← h] at hc
    · refine ⟨hb, ?_⟩
      split at h
      · rwa [MemSys.cline?_dropCline, if_neg hb, hm] at h
      · rwa [MemSys.cline?_setCline, if_neg hb, hm] at h

/-- Giving up a line that is not modified leaves memory's bytes and its poison. -/
theorem MemSys.giveUp_clean {m : MemSys} {a line : Nat} (h : ∀ c, m.cline? a line = some c → c.st ≠ .modified) :
    (m.giveUp a line).dev = m.dev ∧ (m.giveUp a line).poison = m.poison := by
  cases hd : m.cline? a line with
  | none => rw [MemSys.giveUp_none hd]; exact ⟨rfl, rfl⟩
  | some d =>
    simp only [MemSys.giveUp, hd, if_neg (h d hd)]
    split <;> exact ⟨rfl, rfl⟩

/-! ## A recall -/

/-- The memory after several agents gave a line up. -/
def MemSys.giveUpAll (m : MemSys) (line : Nat) (l : List Nat) : MemSys := l.foldl (fun m a => m.giveUp a line) m

/-- A line modified after several agents gave it up was modified before, in none of them. -/
theorem MemSys.modified_giveUpAll {line b : Nat} {c : CacheLine} (hc : c.st = .modified) (l : List Nat) (m : MemSys)
    (h : (m.giveUpAll line l).cline? b line = some c) : b ∉ l ∧ m.cline? b line = some c := by
  induction l generalizing m with
  | nil => exact ⟨List.not_mem_nil, h⟩
  | cons a l ih =>
    obtain ⟨hl, hm⟩ := ih _ h
    obtain ⟨ha, hm⟩ := MemSys.modified_giveUp hm hc
    exact ⟨by simp [ha, hl], hm⟩

/-- Where none of them holds it modified, memory's bytes and its poison stay. -/
theorem MemSys.giveUpAll_clean {line : Nat} (l : List Nat) (m : MemSys) (h : ∀ a ∈ l, ∀ c, m.cline? a line = some c → c.st ≠ .modified) :
    (m.giveUpAll line l).dev = m.dev ∧ (m.giveUpAll line l).poison = m.poison := by
  induction l generalizing m with
  | nil => exact ⟨rfl, rfl⟩
  | cons a l ih =>
    have hl : ∀ b ∈ l, ∀ c, (m.giveUp a line).cline? b line = some c → c.st ≠ .modified := fun b hb c hcl hc =>
      h b (List.mem_cons_of_mem _ hb) c (MemSys.modified_giveUp hcl hc).2 hc
    obtain ⟨hdev, hpoison⟩ := ih _ hl
    obtain ⟨hdev', hpoison'⟩ := MemSys.giveUp_clean (h a List.mem_cons_self)
    exact ⟨hdev.trans hdev', hpoison.trans hpoison'⟩

/-- No agent holds a line modified. -/
theorem MemSys.dirty?_eq_none {m : MemSys} {line : Nat} :
    m.dirty? line = none ↔ ∀ a ∈ agents, ∀ c, m.cline? a line = some c → c.st ≠ .modified := by
  rw [MemSys.dirty?, List.findSome?_eq_none_iff]
  refine forall₂_congr fun a _ => ?_
  cases m.cline? a line <;> simp

/-- Poison of a line that no agent holds modified is its stack's. -/
theorem MemSys.homePoison_clean {m : MemSys} {line : Nat} (h : m.dirty? line = none) : m.homePoison line = m.poison.get (fun _ => false) line := by
  rw [MemSys.homePoison, h]

/-- What taking a line from an agent does to memory. -/
theorem State.takeFrom_mem (line : Nat) (s : State) (a : Nat) : (State.takeFrom line s a).mem = s.mem.giveUp a line := by
  have h1 : (if (s.mem.dirAt line).names a then s.countSnoop a line else s).mem = s.mem := by split <;> simp
  unfold State.takeFrom
  dsimp only
  split
  · next h => rw [h1] at h; rw [h1, MemSys.giveUp_none h]
  · dsimp only
    congr 1
    split <;> simp [h1]

/-- What taking a line from an agent does to the Plinth: nothing. -/
theorem State.takeFrom_pl (line : Nat) (s : State) (a : Nat) : (State.takeFrom line s a).pl = s.pl := by
  have h1 : (if (s.mem.dirAt line).names a then s.countSnoop a line else s).pl = s.pl := by split <;> simp
  unfold State.takeFrom
  dsimp only
  split
  · exact h1
  · dsimp only
    split <;> simp [h1]

/-- A recall's effect on memory depends on memory only. -/
theorem State.recall_mem (s : State) (line : Nat) (keep : Option Nat) :
    (s.recall line keep).mem = (s.mem.giveUpAll line (agents.filter fun a => some a != keep)).setDir line {} := by
  have h := List.foldl_hom State.mem (g₁ := State.takeFrom line) (g₂ := fun m a => m.giveUp a line) (init := s)
    (l := agents.filter fun a => some a != keep) fun t a => (State.takeFrom_mem line t a).symm
  rw [MemSys.giveUpAll, h]
  rfl

theorem State.recall_mem_congr {s t : State} (h : t.mem = s.mem) (line : Nat) (keep : Option Nat) : (t.recall line keep).mem = (s.recall line keep).mem := by
  rw [State.recall_mem, State.recall_mem, h]

@[simp] theorem State.recall_pl (s : State) (line : Nat) (keep : Option Nat) : (s.recall line keep).pl = s.pl := by
  have h : ∀ l : List Nat, (l.foldl (State.takeFrom line) s).pl = s.pl := fun l =>
    foldl_keeps (P := fun t : State => t.pl = s.pl) (fun t a ht => (State.takeFrom_pl line t a).trans ht) rfl l
  exact h _

@[simp] theorem MemSys.setDir_dirty? (m : MemSys) (l line : Nat) (d : DirEntry) : (m.setDir l d).dirty? line = m.dirty? line := rfl

/-- After a recall from every agent none holds the line modified. -/
theorem State.recall_dirty? (s : State) (line : Nat) : (s.recall line none).mem.dirty? line = none := by
  rw [State.recall_mem, MemSys.setDir_dirty?, MemSys.dirty?_eq_none]
  intro a ha c hcl hc
  have hall : a ∈ agents.filter fun a => some a != none := List.mem_filter.mpr ⟨ha, rfl⟩
  exact (MemSys.modified_giveUpAll hc _ _ hcl).1 hall

@[simp] theorem MemSys.setDir_poison (m : MemSys) (l : Nat) (d : DirEntry) : (m.setDir l d).poison = m.poison := rfl

/-- A recall of a line that no agent holds modified leaves memory's bytes and its poison. -/
theorem State.recall_clean {s : State} {line : Nat} (h : s.mem.dirty? line = none) :
    (s.recall line none).mem.dev = s.mem.dev ∧ (s.recall line none).mem.poison = s.mem.poison := by
  rw [State.recall_mem, MemSys.setDir_dev, MemSys.setDir_poison]
  exact MemSys.giveUpAll_clean _ _ fun a ha => MemSys.dirty?_eq_none.mp h a (List.mem_filter.mp ha).1

/-! ## Bytes of one line (00 R6) -/

/-- A digit of a number written out in a base. -/
theorem sum_digits_digit {B : Nat} (f : Nat → Nat) (hf : ∀ i, f i < B) (n j : Nat) (hj : j < n) :
    ((List.range n).map fun i => f i * B ^ i).sum / B ^ j % B = f j := by
  have hB : 0 < B := Nat.lt_of_le_of_lt (Nat.zero_le _) (hf 0)
  have hlt : ∀ n, ((List.range n).map fun i => f i * B ^ i).sum < B ^ n := by
    intro n
    induction n with
    | zero => simp
    | succ n ih =>
      have hn : (f n + 1) * B ^ n ≤ B * B ^ n := Nat.mul_le_mul_right _ (hf n)
      rw [List.range_succ, List.map_append, List.sum_append, Nat.pow_succ']
      simp only [List.map_cons, List.map_nil, List.sum_cons, List.sum_nil]
      rw [Nat.add_mul] at hn
      omega
  induction n with
  | zero => omega
  | succ n ih =>
    rw [List.range_succ, List.map_append, List.sum_append]
    simp only [List.map_cons, List.map_nil, List.sum_cons, List.sum_nil, Nat.add_zero]
    rcases Nat.lt_succ_iff_lt_or_eq.mp hj with h | rfl
    · obtain ⟨k, rfl⟩ : ∃ k, n = j + (k + 1) := ⟨n - j - 1, by omega⟩
      have e : f (j + (k + 1)) * B ^ (j + (k + 1)) = B ^ j * (B * (f (j + (k + 1)) * B ^ k)) := by ring
      rw [e, Nat.add_mul_div_left _ _ (Nat.pow_pos hB), Nat.add_mul_mod_self_left, ih h]
    · rw [Nat.add_mul_div_right _ _ (Nat.pow_pos hB), Nat.div_eq_of_lt (hlt j), Nat.zero_add, Nat.mod_eq_of_lt (hf j)]

/-- The mask of the part of bytes that lies in a line names the bytes' places. -/
theorem linePart_mask (a : Nat) (bytes : List Byte) (line i : Nat) (hi : i < 64) :
    (linePart a bytes line).1.testBit i = decide (a ≤ 64 * line + i ∧ 64 * line + i < a + bytes.length) := by
  have h := sum_digits_digit (B := 2) (fun i => if a ≤ 64 * line + i ∧ 64 * line + i < a + bytes.length then 1 else 0) (fun i => by split <;> omega) 64 i hi
  simp only [ite_mul, Nat.one_mul, Nat.zero_mul] at h
  rw [Nat.testBit_eq_decide_div_mod_eq, linePart]
  simp only [h]
  split <;> simp_all

/-- A byte of a number is a byte of the word that holds it. -/
theorem ofNat_byte {w i : Nat} (x : Nat) (h : 8 * i + 8 ≤ w) : (BitVec.ofNat w x).toNat / 256 ^ i % 2 ^ 8 = x / 256 ^ i % 2 ^ 8 := by
  have hpow : 2 ^ w = 256 ^ i * 2 ^ (w - 8 * i) := by
    rw [← Nat.pow_mul 2 8, ← Nat.pow_add, Nat.add_sub_cancel' (by omega)]
  rw [BitVec.toNat_ofNat, hpow, Nat.mod_mul_right_div_self, Nat.mod_mod_of_dvd _ (Nat.pow_dvd_pow 2 (by omega))]

/-- The data of that part holds each byte at its place. -/
theorem linePart_data {a : Nat} (bytes : List Byte) {line i : Nat} (hi : i < 64) (ha : a ≤ 64 * line + i) :
    BitVec.ofNat 8 ((linePart a bytes line).2.toNat / 256 ^ i) = (bytes[64 * line + i - a]?).getD 0 := by
  have h := sum_digits_digit (B := 256) (fun i => if a ≤ 64 * line + i then ((bytes[64 * line + i - a]?).getD 0).toNat else 0)
    (fun i => by split <;> omega) 64 i hi
  simp only [ite_mul, Nat.zero_mul, if_pos ha] at h
  apply BitVec.eq_of_toNat_eq
  rw [BitVec.toNat_ofNat, linePart, ofNat_byte _ (by omega)]
  exact h

@[simp] theorem bytesOf_length (k n : Nat) : (bytesOf k n).length = k := by
  induction k generalizing n with
  | zero => rfl
  | succ k ih => rw [bytesOf, List.length_cons, ih]

theorem bytesOf_getElem? {k i : Nat} (n : Nat) (h : i < k) : (bytesOf k n)[i]? = some (BitVec.ofNat 8 (n / 256 ^ i)) := by
  induction k generalizing n i with
  | zero => omega
  | succ k ih =>
    cases i with
    | zero => simp [bytesOf]
    | succ i => rw [bytesOf, List.getElem?_cons_succ, ih _ (by omega), Nat.div_div_eq_div_mul, Nat.pow_succ']

/-- A little-endian read of the bytes of a number. -/
theorem Mem.readLE_of_bytes (m : Mem) (n : Nat) (a v : Nat) (h : ∀ i, i < n → m.read (a + i) = BitVec.ofNat 8 (v / 256 ^ i)) :
    m.readLE a n = v % 256 ^ n := by
  induction n generalizing a v with
  | zero => simp [Mem.readLE, Nat.mod_one]
  | succ n ih =>
    have hrest : m.readLE (a + 1) n = v / 256 % 256 ^ n := ih _ _ fun i hi => by
      rw [Nat.add_assoc, Nat.add_comm 1 i, h (i + 1) (by omega), Nat.div_div_eq_div_mul, Nat.pow_succ']
    have hfirst : m.read a = BitVec.ofNat 8 v := by simpa using h 0 (by omega)
    rw [Mem.readLE, hrest, hfirst, BitVec.toNat_ofNat, Nat.pow_succ' (m := 256), Nat.mod_mul (a := 256)]

/-- A number whose bytes are written into one line is read back. -/
theorem Mem.readLE_writeMasked_linePart (m : Mem) {a n : Nat} (v : Nat) (h : a % 64 + n ≤ 64) :
    let p := linePart a (bytesOf n v) (a / 64)
    (m.writeMasked (64 * (a / 64)) p.1 p.2.toNat).readLE a n = v % 256 ^ n := by
  refine Mem.readLE_of_bytes _ _ _ _ fun i hi => ?_
  have hpos : a + i - 64 * (a / 64) < 64 := by omega
  have hat : 64 * (a / 64) + (a + i - 64 * (a / 64)) = a + i := by omega
  have hmask : (linePart a (bytesOf n v) (a / 64)).1.testBit (a + i - 64 * (a / 64)) = true := by
    rw [linePart_mask _ _ _ _ hpos, hat, bytesOf_length, decide_eq_true_eq]; omega
  rw [Mem.read_writeMasked, if_pos ⟨by omega, by omega, hmask⟩, linePart_data _ hpos (by omega), hat, Nat.add_sub_cancel_left,
    bytesOf_getElem? _ hi, Option.getD_some]

/-! ## A write at the home -/

/-- Bytes that lie in one line touch that line. -/
theorem linesOf_one {a n : Nat} (hn : 0 < n) (h : a % 64 + n ≤ 64) : linesOf a n = [a / 64] := by
  have h1 : (a + n - 1) / 64 - a / 64 + 1 = 1 := by omega
  rw [linesOf, if_neg (by omega), h1]
  rfl

section
variable {s : State} {line : Nat} (hd : s.mem.dirty? line = none) (hp : s.mem.homePoison line = false)
include hd hp

/-- A write of a line that no agent holds modified and that is not poisoned merges the masked bytes in its stack. -/
theorem State.homeWrite_clean (mask : Nat) (data : Line) :
    (s.homeWrite line mask data).1.mem.dev = s.mem.dev.writeMasked (64 * line) mask data.toNat := by
  obtain ⟨hdev, hpoison⟩ := State.recall_clean hd
  have hclean : (s.recall line none).mem.homePoison line = false := by
    rw [MemSys.homePoison_clean (State.recall_dirty? s line), hpoison, ← MemSys.homePoison_clean hd, hp]
  unfold State.homeWrite State.lineWrite
  rw [State.carveAccess_mem, if_neg (by rw [hclean]; exact Bool.false_ne_true)]
  exact congrArg (Mem.writeMasked · (64 * line) mask data.toNat) hdev

end

/-- A word that lies in one line is written at its home by one write. -/
theorem State.homeStore_one {a n : Nat} (s : State) (v : Nat) (hn : 0 < n) (h : a % 64 + n ≤ 64) :
    let p := linePart a (bytesOf n v) (a / 64)
    s.homeStore a n v = (s.homeWrite (a / 64) p.1 p.2).1 := by
  unfold State.homeStore State.homeWriteBytes
  rw [bytesOf_length, linesOf_one hn h, List.foldl_cons, List.foldl_nil]

/-- Such a word written at its home is read back. -/
theorem State.readLE_homeStore {s : State} {a n : Nat} (v : Nat) (hn : 0 < n) (h : a % 64 + n ≤ 64) (hd : s.mem.dirty? (a / 64) = none)
    (hp : s.mem.homePoison (a / 64) = false) : (s.homeStore a n v).mem.dev.readLE a n = v % 256 ^ n := by
  rw [State.homeStore_one s v hn h, State.homeWrite_clean hd hp]
  exact Mem.readLE_writeMasked_linePart s.mem.dev v h

theorem State.lineWrite_pl (s : State) (line mask : Nat) (data : Line) : (s.lineWrite line mask data).1.pl = s.pl := by
  unfold State.lineWrite
  split
  · split <;> rfl
  · rfl

/-- A write at the home leaves the Plinth. -/
theorem State.homeWrite_pl (s : State) (line mask : Nat) (data : Line) : (s.homeWrite line mask data).1.pl = s.pl := by
  unfold State.homeWrite
  rw [State.lineWrite_pl, State.carveAccess_pl, State.recall_pl]

theorem State.homeStore_pl {a n : Nat} (s : State) (v : Nat) (hn : 0 < n) (h : a % 64 + n ≤ 64) : (s.homeStore a n v).pl = s.pl := by
  rw [State.homeStore_one s v hn h, State.homeWrite_pl]

end Sys2Proof.Machine
end

section
/-! SUPPORT. Fence words (08 R249 to R252, 09 R285): what a fence operation leaves in its word, and what it leaves of the Plinth. -/

namespace Sys2Proof.Machine

/-! ## The Plinth's objects: what the log, the streams, the interrupts and the device TLB are no part of -/

/-- The Plinth without its Patina log, outbound streams, interrupts and device TLB: its contexts, queues, requests and aborts. -/
def Plinth.objects (p : Plinth) : Plinth := { p with patina := Patina.reset, outbound := [], irqs := [], harts := [], msix := [], dtlb := [] }

/-- The objects of a state's Plinth. -/
def State.objects (s : State) : Plinth := s.pl.objects

theorem State.objects_of_pl {s t : State} (h : t.pl = s.pl) : t.objects = s.objects := congrArg Plinth.objects h

@[simp] theorem State.setIrq_objects (s : State) (n : Nat) (x : IrqSource) : (s.setIrq n x).objects = s.objects := rfl
@[simp] theorem State.bump_objects (s : State) (a : Nat) (r : Reg) (f : Fld) (n : Nat) : (s.bump a r f n).objects = s.objects := rfl
@[simp] theorem State.deliverHart_objects (s : State) (n m : Nat) : (s.deliverHart n m).objects = s.objects := rfl
@[simp] theorem State.deliverVector_objects (s : State) (f v : Nat) : (s.deliverVector f v).objects = s.objects := by
  unfold State.deliverVector
  dsimp only
  split <;> rfl

@[simp] theorem State.irqTry_objects (s : State) (n : Nat) : (s.irqTry n).objects = s.objects := by
  obtain h | ⟨x, h⟩ | ⟨x, m, h⟩ | ⟨x, f, v, h⟩ := s.irqTry_cases n <;> simp [h]

@[simp] theorem State.irqEvent_objects (s : State) (n : Nat) : (s.irqEvent n).objects = s.objects := by
  unfold State.irqEvent State.irqUpdate
  dsimp only
  split <;> simp

/-- A raise leaves the objects, wherever it goes (15 R449). -/
@[simp] theorem State.irqRaise_objects (s : State) (n : Nat) (p : Option Nat) : (s.irqRaise n p).objects = s.objects := by
  unfold State.irqRaise State.misroute
  split
  · rfl
  · split
    · exact State.irqEvent_objects s n
    · split
      · exact State.irqEvent_objects s n
      · rfl

@[simp] theorem State.mirrorMany_objects (n : Nat) (s : State) : (State.mirrorMany n s).objects = s.objects := by
  induction n generalizing s with
  | zero => rfl
  | succ n ih => rw [State.mirrorMany, ih]; rfl

/-- An entry of the log leaves the objects. -/
@[simp] theorem State.patina_objects (s : State) (a b c d e f g : Nat) : (s.patina a b c d e f g).objects = s.objects := by
  have hplace : ∀ x, (s.placeEntry x).objects = s.objects := fun x => by
    unfold State.placeEntry
    dsimp only
    split <;> rfl
  unfold State.patina State.mirrorFlush
  dsimp only
  split
  · rw [State.mirrorMany_objects, hplace]
  · exact hplace _

@[simp] theorem State.logEvent_objects (s : State) (k : Nat) (p : Option Nat) (a b c d : Nat) : (s.logEvent k p a b c d).objects = s.objects :=
  State.patina_objects ..

@[simp] theorem State.consumePoison_objects (s : State) (l c : Nat) : (s.consumePoison l c).objects = s.objects := by
  unfold State.consumePoison
  dsimp only
  split
  · exact State.logEvent_objects ..
  · rfl

/-! ## A translation by the device TLB (10 R307, R308) -/

@[simp] theorem State.snoopRead_mem (s : State) (l : Nat) : (s.snoopRead l).mem = s.mem := by
  unfold State.snoopRead
  dsimp only
  split <;> simp

@[simp] theorem State.snoopRead_pl (s : State) (l : Nat) : (s.snoopRead l).pl = s.pl := by
  unfold State.snoopRead
  dsimp only
  split <;> simp

@[simp] theorem State.snoopReads_mem (s : State) (l : List Nat) : (s.snoopReads l).mem = s.mem :=
  foldl_keeps (P := fun t : State => t.mem = s.mem) (fun t x ht => (State.snoopRead_mem t x).trans ht) rfl l

@[simp] theorem State.snoopReads_pl (s : State) (l : List Nat) : (s.snoopReads l).pl = s.pl :=
  foldl_keeps (P := fun t : State => t.pl = s.pl) (fun t x ht => (State.snoopRead_pl t x).trans ht) rfl l

@[simp] theorem State.atuFault_mem (s : State) (a c g o : Nat) : (s.atuFault a c g o).mem = s.mem := by
  unfold State.atuFault
  dsimp only
  rw [State.wr_mem, State.wr_mem]
  split <;> rfl

@[simp] theorem State.atuFault_pl (s : State) (a c g o : Nat) : (s.atuFault a c g o).pl = s.pl := by
  unfold State.atuFault
  dsimp only
  rw [State.wr_pl, State.wr_pl]
  split <;> rfl

/-- All that filling the device TLB does: nothing on a hit; else it reads tables, and takes the leaf or records why there is none. -/
theorem State.xlFill_device_cases (s : State) (ctx va : Nat) (r : Right) (agent : Nat) :
    let t := s.xlFill 16 ctx va r agent
    t = s ∨ ∃ l, let u := s.snoopReads l
      (∃ d, t = { u with pl := { u.pl with dtlb := d } }) ∨ (∃ o, t = u.atuFault va ctx agent o) ∨ ∃ p o, t = (u.consumePoison p ctx).atuFault va ctx agent o := by
  intro t
  have ht : t = s.xlFill 16 ctx va r agent := rfl
  unfold State.xlFill at ht
  simp only [Nat.lt_irrefl, decide_false, Bool.false_eq_true, if_false, false_and] at ht
  split_ifs at ht
  · exact .inl ht
  · refine .inr ⟨s.walkLines 16 ctx va 3 0 (s.ctx ctx).ptRoot, ?_⟩
    split at ht
    · split at ht
      · exact .inl ⟨_, ht⟩
      · exact .inr (.inl ⟨_, ht⟩)
    · exact .inr (.inl ⟨_, ht⟩)
    · exact .inr (.inr ⟨_, _, ht⟩)

/-- Filling the device TLB leaves memory. -/
theorem State.xlFill_device_mem (s : State) (ctx va : Nat) (r : Right) (agent : Nat) : (s.xlFill 16 ctx va r agent).mem = s.mem := by
  obtain h | ⟨l, ⟨d, h⟩ | ⟨o, h⟩ | ⟨p, o, h⟩⟩ := s.xlFill_device_cases ctx va r agent <;> simp [h]

/-- Filling the device TLB leaves the objects. -/
theorem State.xlFill_device_objects (s : State) (ctx va : Nat) (r : Right) (agent : Nat) : (s.xlFill 16 ctx va r agent).objects = s.objects := by
  have hread : ∀ l, (s.snoopReads l).objects = s.objects := fun l => State.objects_of_pl (State.snoopReads_pl s l)
  have hfault : ∀ (t : State) (o : Nat), (t.atuFault va ctx agent o).objects = t.objects := fun t o => State.objects_of_pl (State.atuFault_pl ..)
  obtain h | ⟨l, ⟨d, h⟩ | ⟨o, h⟩ | ⟨p, o, h⟩⟩ := s.xlFill_device_cases ctx va r agent
  · rw [h]
  · rw [h]; exact hread l
  · rw [h, hfault, hread]
  · rw [h, hfault, State.consumePoison_objects, hread]

/-! ## The word (08 R249 to R252) -/

/-- A signal leaves an error word, and else the greater value. -/
theorem signalWord_eq_max (w v : Nat) : signalWord w v = if 2 ^ 63 ≤ w then w else max w v := by
  unfold signalWord
  split
  · rfl
  · split <;> omega

/-- What a fence operation makes of its word. -/
def FenceOp.word (op : FenceOp) (old : Nat) : Nat := if op.code = 0 then signalWord old op.value else errorWord old op.code

@[simp] theorem State.noteSignal_mem (s : State) (w v ctx origin va : Nat) : (s.noteSignal w v ctx origin va).mem = s.mem := by
  unfold State.noteSignal
  split_ifs
  · rfl
  · exact State.bump_mem ..
  · rfl
  · rw [State.wr_mem, State.wr_mem, State.bump_mem]
  · rfl

@[simp] theorem State.noteSignal_pl (s : State) (w v ctx origin va : Nat) : (s.noteSignal w v ctx origin va).pl = s.pl := by
  unfold State.noteSignal
  split_ifs
  · rfl
  · exact State.bump_pl ..
  · rfl
  · rw [State.wr_pl, State.wr_pl, State.bump_pl]
  · rfl

/-- Flags of arithmetic at a stack address go to a core's record, and leave memory. -/
theorem State.reliefFlag_stack_mem (s : State) (a fl : Nat) : (s.reliefFlag (.stack a) fl).mem = s.mem := by
  unfold State.reliefFlag
  dsimp only
  split <;> simp

theorem State.reliefFlag_stack_pl (s : State) (a fl : Nat) : (s.reliefFlag (.stack a) fl).pl = s.pl := by
  unfold State.reliefFlag
  dsimp only
  split <;> simp

/-- An operation at an aligned word of a line that is not poisoned recalls the line, and leaves its new word there and the Plinth as it was. -/
theorem State.fencePerform_stack {s : State} {a : Nat} (op : FenceOp) (h : HostAnswer) (ha : a % 8 = 0)
    (hp : (s.recall (a / 64) none).mem.homePoison (a / 64) = false) :
    ∃ t, s.fencePerform op (.stack a) h = some t ∧ t.pl = s.pl
      ∧ t.mem.dev.readLE a 8 = op.word ((s.recall (a / 64) none).mem.dev.readLE a 8) % 2 ^ 64 := by
  let u := s.recall (a / 64) none
  let old := u.mem.dev.readLE a 8
  have hready : s.atomicReady h (.stack a) 8 = some (u, .ok old) := by
    simp only [State.atomicReady, hp, Bool.false_eq_true, if_false]; rfl
  let w := (u.homeStore a 8 (op.word old)).reliefFlag (.stack a) 0
  have hmem : w.mem.dev.readLE a 8 = op.word old % 2 ^ 64 := by
    rw [State.reliefFlag_stack_mem]
    exact State.readLE_homeStore _ (by omega) (by omega) (State.recall_dirty? s _) hp
  have hpl : w.pl = s.pl := by
    rw [State.reliefFlag_stack_pl, State.homeStore_pl _ _ (by omega) (by omega), State.recall_pl]
  refine ⟨if op.code = 0 then w.noteSignal old op.value op.ctx op.origin op.va else w, ?_, ?_, ?_⟩
  · simp only [State.fencePerform, hready]; rfl
  · split
    · rw [State.noteSignal_pl, hpl]
    · exact hpl
  · split
    · rw [State.noteSignal_mem]; exact hmem
    · exact hmem

/-! ## The step (09 R285) -/

/-- A raise that follows a fence write leaves memory and the objects. -/
theorem State.fenceRaise_mem (s : State) (op : FenceOp) : (s.fenceRaise op).mem = s.mem := by
  unfold State.fenceRaise
  split <;> simp

theorem State.fenceRaise_objects (s : State) (op : FenceOp) : (s.fenceRaise op).objects = s.objects := by
  unfold State.fenceRaise
  split <;> simp

/-- With no request, no abort and no invalidation held there is nothing to settle. -/
theorem State.settle_idle {s : State} (ha : s.objects.aborts = []) (hr : s.objects.reqs = []) (hi : s.objects.atsInvs = []) : s.settle = s := by
  have ha' : s.pl.aborts = [] := ha
  have hr' : s.pl.reqs = [] := hr
  have hi' : s.pl.atsInvs = [] := hi
  have hpass : s.settlePass = s := by
    simp [State.settlePass, State.reqOrder, hr', State.settleAborts, ha', State.settleInvs, hi']
  rw [State.settle, hpass, hpass]

/-- The state in which a device word is written: the device TLB has been asked for an address of the device half. -/
def State.fenceSought (s : State) (op : FenceOp) : State := if 2 ^ 51 ≤ op.va then s else s.xlFill 16 op.ctx op.va .write 21

theorem State.fenceSought_mem (s : State) (op : FenceOp) : (s.fenceSought op).mem = s.mem := by
  unfold State.fenceSought
  split
  · rfl
  · exact State.xlFill_device_mem ..

theorem State.fenceSought_objects (s : State) (op : FenceOp) : (s.fenceSought op).objects = s.objects := by
  unfold State.fenceSought
  split
  · rfl
  · exact State.xlFill_device_objects ..

/-- The i-th operation has left the list. -/
def State.fenceTaken (s : State) (l : List FenceOp) (i : Nat) : State := { s with pl := { s.pl with fenceOps := l.eraseIdx i } }

section
variable {s : State} {i a : Nat} {op : FenceOp} {h : HostAnswer} (hs : s.serving = true) (hop : s.pl.fenceOps[i]? = some op)
  (hbehind : s.fenceBehind op = false) (hopen : s.hostWritesOpen op = false) (hhost : op.host = false) (hat : s.fenceAt op = .place (.stack a))
include hs hop hbehind hopen hhost hat

/-- A fence operation on a device word in its turn leaves the list once it has been performed, and its raise follows. -/
theorem State.fenceStep_performed {t : State} (ht : (s.fenceSought op).fencePerform op (.stack a) h = some t) :
    s.fenceStep i h (op.code != 0) = (t.fenceTaken s.pl.fenceOps i).fenceRaise op := by
  simp only [State.fenceStep, hop, hs, hbehind, hopen, hhost, hat, not_true_eq_false, ne_eq, Bool.false_eq_true, false_or, false_and, if_false]
  rw [State.fenceSought] at ht
  rw [ht]
  rfl

/-- It leaves its word, and, with no request, abort or invalidation to go on with, nothing else follows of it. -/
theorem State.fenceStep_device (haborts : s.pl.aborts = []) (hreqs : s.pl.reqs = []) (hinvs : s.pl.atsInvs = []) (ha : a % 8 = 0)
    (hp : ((s.xlFill 16 op.ctx op.va .write 21).recall (a / 64) none).mem.homePoison (a / 64) = false) :
    ∃ t, (s.fenceStep i h (op.code != 0)).settle = t ∧ t.pl.fenceOps = s.pl.fenceOps.eraseIdx i
      ∧ t.mem.dev.readLE a 8 = op.word ((s.recall (a / 64) none).mem.dev.readLE a 8) % 2 ^ 64 := by
  have hrecall : ((s.fenceSought op).recall (a / 64) none).mem = (s.recall (a / 64) none).mem := State.recall_mem_congr (s.fenceSought_mem op) _ _
  have hfill := State.recall_mem_congr (s.xlFill_device_mem op.ctx op.va .write 21) (a / 64) none
  have hclean : ((s.fenceSought op).recall (a / 64) none).mem.homePoison (a / 64) = false :=
    (congrArg (MemSys.homePoison · (a / 64)) (hrecall.trans hfill.symm)).trans hp
  obtain ⟨w, hw, hpl, hword⟩ := State.fencePerform_stack op h ha hclean
  have hobj : ((w.fenceTaken s.pl.fenceOps i).fenceRaise op).objects = { s.objects with fenceOps := s.pl.fenceOps.eraseIdx i } := by
    rw [State.fenceRaise_objects, ← s.fenceSought_objects op, ← State.objects_of_pl hpl]
    rfl
  refine ⟨_, rfl, ?_⟩
  rw [State.fenceStep_performed hs hop hbehind hopen hhost hat hw,
    State.settle_idle (by rw [hobj]; exact haborts) (by rw [hobj]; exact hreqs) (by rw [hobj]; exact hinvs)]
  refine ⟨congrArg Plinth.fenceOps hobj, ?_⟩
  rw [State.fenceRaise_mem, ← hrecall]
  exact hword

end

/-- A signal's word, at the width of a word (08 R250). -/
theorem FenceOp.word_signal {op : FenceOp} (hc : op.code = 0) (old : Nat) : op.word old = if 2 ^ 63 ≤ old then old else max old op.value := by
  rw [FenceOp.word, if_pos hc, signalWord_eq_max]

/-- An error write's word fits (08 R252). -/
theorem FenceOp.word_error {op : FenceOp} (hc : op.code ≠ 0) {old : Nat} (h : old < 2 ^ 64) :
    op.word old % 2 ^ 64 = if 2 ^ 63 ≤ old then old else 2 ^ 63 + (op.code % 2 ^ 15) * 2 ^ 48 + old % 2 ^ 48 := by
  rw [FenceOp.word, if_neg hc, errorWord]
  split <;> omega

end Sys2Proof.Machine
end

section
/-! SUPPORT. Doorbells: what a TAIL write does to its queue (09 R282), and how it takes its turn among its function's requests (07 R228). -/

namespace Sys2Proof.Machine

/-! ## Requests that wait (07 R228) -/

@[simp] theorem State.hostReqs_setHostReqs_self (s : State) (f : Nat) (l : List HostReq) : (s.setHostReqs f l).hostReqs f = l := by
  rw [State.hostReqs, State.setHostReqs, SMap.at_put, if_pos rfl]

theorem State.queue_of_queues {s t : State} (h : t.pl.queues = s.pl.queues) (q : Nat) : t.queue q = s.queue q :=
  congrArg (fun m : SMap Queue => m.at {} q) h

/-! ## What a TAIL write does (09 R282) -/

/-- A tail that is not above the present one is ignored. -/
theorem State.doorbellAct_ignored {s : State} {f off q : Nat} {v : Word} (hq : s.dbQueue f off = some q) (hv : v.toNat ≤ (s.queue q).tail) :
    s.doorbellAct f off v = s := by
  simp only [State.doorbellAct, hq, hv, or_true, if_true]

/-- The rule of R282 for a tail above the present one of a queue that is LIVE or STOPPED. -/
theorem State.doorbellAct_above {s : State} {f off q : Nat} {v : Word} (hq : s.dbQueue f off = some q) (ho : off % 64 = 0)
    (hs : (s.queue q).state = 1 ∨ (s.queue q).state = 2) (hv : (s.queue q).tail < v.toNat) : s.doorbellAct f off v =
      if (s.queue q).head + 2 ^ (s.queue q).log2 < v.toNat then s.setQueue q { s.queue q with overrun := true }
      else s.setQueue q { s.queue q with tail := v.toNat, head := ({ s.queue q with tail := v.toNat } : Queue).headNow } := by
  have hrule : ¬(off % 64 ≠ 0 ∨ ((s.queue q).state ≠ 1 ∧ (s.queue q).state ≠ 2) ∨ v.toNat ≤ (s.queue q).tail) := by omega
  simp only [State.doorbellAct, hq, if_neg hrule]

/-- Acting on a TAIL write leaves the requests that wait. -/
@[simp] theorem State.doorbellAct_hostReqs (s : State) (f g off : Nat) (v : Word) : (s.doorbellAct f off v).hostReqs g = s.hostReqs g := by
  unfold State.doorbellAct
  split
  · rfl
  · dsimp only
    split
    · rfl
    · split <;> rfl

/-! ## A TAIL write in its turn (07 R228) -/

/-- With nothing waiting, a TAIL write is acted on at once, and nothing waits after it. -/
theorem State.hostReceive_doorbell_first {s : State} {f : Nat} (h : s.hostReqs f = []) (off : Nat) (v : Word) :
    s.hostReceive f (.doorbell off v) = ((s.setHostReqs f [.doorbell off v]).doorbellAct f off v).setHostReqs f [] := by
  simp [State.hostReceive, h, State.hostRun, State.hostHead, State.hostEnd]

/-- Behind other requests, it waits. -/
theorem State.hostReceive_behind {s : State} {f : Nat} (h : s.hostReqs f ≠ []) (x : HostReq) :
    s.hostReceive f x = s.setHostReqs f (s.hostReqs f ++ [x]) := by
  simp [State.hostReceive, h]

/-! ## The access (00 R8, 09 R282) -/

/-- An access-error bit that is set reads as set (19 R561). -/
theorem Word.bit_setFld_top (w : Word) : (w.setFld 63 1 1).bit 63 = true := by
  have hw := w.isLt
  have hset : (w.setFld 63 1 1).toNat = w.toNat % 2 ^ 63 + 2 ^ 63 := by
    rw [Word.setFld, BitVec.toNat_ofNat, nbits]
    omega
  rw [Word.bit, hset, Nat.testBit_eq_decide_div_mod_eq, decide_eq_true_eq]
  omega

theorem State.accessErr_bit (s : State) (pk : Nat) : ((s.accessErr pk).pageErrs pk).bit 63 = true := by
  rw [State.accessErr, State.pageErr, State.pageErrs, State.rd_wr_self]
  exact Word.bit_setFld_top _

/-- The meaning of DOORBELL_TAIL from a root port: only the completion's port depends on which. -/
theorem exec_doorbellTail_rootPort (port f off size : Nat) (v : Word) (s : State) :
    exec (.doorbellTail ⟨.rootPort port, f⟩ off size v) s = .next (opDoorbellTail f off size v { s with replyPort := port % 4 }) := rfl

section
variable {s : State} {f off q : Nat} {v : Word} (port : Nat) (hs : s.serving = true) (ht : s.tdispError f = false) (hq : s.dbQueue f off = some q)
include hs ht hq

/-- An aligned 64-bit TAIL write of a slot that shows a queue is received. -/
theorem exec_doorbellTail_received (ho : off % 8 = 0) :
    exec (.doorbellTail ⟨.rootPort port, f⟩ off 8 v) s = .next (({ s with replyPort := port % 4 } : State).hostReceive f (.doorbell off v)) := by
  have hs' : ({ s with replyPort := port % 4 } : State).serving = true := hs
  have ht' : ({ s with replyPort := port % 4 } : State).tdispError f = false := ht
  have hq' : ({ s with replyPort := port % 4 } : State).dbQueue f off = some q := hq
  simp [exec_doorbellTail_rootPort, opDoorbellTail, hs', ht', hq', ho]

/-- A write of another width sets the access-error bit of the function page. -/
theorem exec_doorbellTail_width {size : Nat} (h8 : size ≠ 8) :
    ∃ t, exec (.doorbellTail ⟨.rootPort port, f⟩ off size v) s = .next t ∧ (t.pageErrs (funcPage f)).bit 63 = true ∧ t.pl.queues = s.pl.queues := by
  have hs' : ({ s with replyPort := port % 4 } : State).serving = true := hs
  have ht' : ({ s with replyPort := port % 4 } : State).tdispError f = false := ht
  have hq' : ({ s with replyPort := port % 4 } : State).dbQueue f off = some q := hq
  refine ⟨({ s with replyPort := port % 4 } : State).accessErr (funcPage f), ?_, State.accessErr_bit _ _, by rw [State.accessErr_pl]⟩
  simp [exec_doorbellTail_rootPort, opDoorbellTail, hs', ht', hq', h8]

/-- Behind other requests the write waits. -/
theorem exec_doorbellTail_waits (ho : off % 8 = 0) (hw : s.hostReqs f ≠ []) :
    ∃ t, exec (.doorbellTail ⟨.rootPort port, f⟩ off 8 v) s = .next t ∧ t.hostReqs f = s.hostReqs f ++ [.doorbell off v] ∧ t.pl.queues = s.pl.queues := by
  rw [exec_doorbellTail_received port hs ht hq ho, State.hostReceive_behind (s := { s with replyPort := port % 4 }) hw]
  exact ⟨_, rfl, State.hostReqs_setHostReqs_self _ _ _, rfl⟩

/-- With nothing waiting the write is acted on at once, in a state `u` that differs in the completion's port and the request itself. -/
theorem exec_doorbellTail_first (ho : off % 64 = 0) (hw : s.hostReqs f = []) :
    ∃ u : State, exec (.doorbellTail ⟨.rootPort port, f⟩ off 8 v) s = .next ((u.doorbellAct f off v).setHostReqs f [])
      ∧ u.dbQueue f off = some q ∧ u.pl.queues = s.pl.queues ∧ u.mem = s.mem ∧ u.regs = s.regs := by
  rw [exec_doorbellTail_received port hs ht hq (by omega), State.hostReceive_doorbell_first (s := { s with replyPort := port % 4 }) hw]
  exact ⟨_, rfl, hq, rfl, rfl, rfl⟩

/-- A tail that is not above the present one changes nothing. -/
theorem exec_doorbellTail_ignored (ho : off % 64 = 0) (hw : s.hostReqs f = []) (hv : v.toNat ≤ (s.queue q).tail) :
    ∃ t, exec (.doorbellTail ⟨.rootPort port, f⟩ off 8 v) s = .next t ∧ t.pl.queues = s.pl.queues ∧ t.mem = s.mem ∧ t.regs = s.regs := by
  obtain ⟨u, hexec, huq, hqueues, hmem, hregs⟩ := exec_doorbellTail_first (v := v) port hs ht hq ho hw
  have hqueue : ∀ p, u.queue p = s.queue p := State.queue_of_queues hqueues
  rw [hexec, State.doorbellAct_ignored huq (by rwa [hqueue])]
  exact ⟨_, rfl, hqueues, hmem, hregs⟩

/-- A tail above the present one changes its queue as R282 says, and nothing else of queues or memory. -/
theorem exec_doorbellTail_above (ho : off % 64 = 0) (hl : (s.queue q).state = 1 ∨ (s.queue q).state = 2) (hw : s.hostReqs f = [])
    (hv : (s.queue q).tail < v.toNat) : ∃ t, exec (.doorbellTail ⟨.rootPort port, f⟩ off 8 v) s = .next t
      ∧ t.queue q = (if (s.queue q).head + 2 ^ (s.queue q).log2 < v.toNat then { s.queue q with overrun := true }
          else { s.queue q with tail := v.toNat, head := ({ s.queue q with tail := v.toNat } : Queue).headNow })
      ∧ (∀ p, p ≠ q → t.queue p = s.queue p) ∧ t.mem = s.mem := by
  obtain ⟨u, hexec, huq, hqueues, hmem, -⟩ := exec_doorbellTail_first (v := v) port hs ht hq ho hw
  have hqueue : ∀ p, u.queue p = s.queue p := State.queue_of_queues hqueues
  have hact := State.doorbellAct_above (v := v) huq ho (by rwa [hqueue]) (by rwa [hqueue])
  rw [hqueue, ← apply_ite (u.setQueue q)] at hact
  rw [hexec, hact]
  exact ⟨_, rfl, State.queue_setQueue_self u q _, fun p hp => ((State.queue_setQueue u q p _).trans (if_neg hp)).trans (hqueue p), hmem⟩

end

end Sys2Proof.Machine
end

section
/-! Doorbells and fence words: the obligation, from the rules above. -/

namespace Sys2Proof.Machine

/-- Settles O28: a TAIL write is received in its turn and acted on by the rule of R282, and a fence operation recalls its line, writes its word there and leaves. -/
theorem doorbellsAndFences : Obligations.DoorbellsAndFences := by
  unfold Obligations.DoorbellsAndFences
  constructor
  · intro port f off size q v s hs ht hq
    refine ⟨?_, ?_, exec_doorbellTail_width port hs ht hq⟩
    · rintro rfl ho hl hw
      refine ⟨fun hv hroom => ?_, fun hv hfar => ?_, exec_doorbellTail_ignored port hs ht hq ho hw⟩
      · obtain ⟨t, ht, hqueue, hrest⟩ := exec_doorbellTail_above port hs ht hq ho hl hw hv
        exact ⟨t, ht, hqueue.trans (if_neg (Nat.not_lt.mpr hroom)), hrest⟩
      · obtain ⟨t, ht, hqueue, hrest⟩ := exec_doorbellTail_above port hs ht hq ho hl hw hv
        exact ⟨t, ht, hqueue.trans (if_pos hfar), hrest⟩
    · rintro rfl ho hw
      exact exec_doorbellTail_waits port hs ht hq ho hw
  · intro i a h s op old hs hop haborts hreqs hinvs hbehind hopen hhost hat ha _ hp
    obtain ⟨t, ht, hops, hword⟩ := State.fenceStep_device (h := h) hs hop hbehind hopen hhost hat haborts hreqs hinvs ha hp
    refine ⟨fun hc => ⟨t, ?_, hops, ?_⟩, fun hc => ⟨t, ?_, hops, ?_⟩⟩
    · rw [hc] at ht; exact congrArg Host.Outcome.next ht
    · rw [hword, FenceOp.word_signal hc]
    · rw [bne_iff_ne.mpr hc] at ht; exact congrArg Host.Outcome.next ht
    · rw [hword, FenceOp.word_error hc (Mem.readLE_lt _ _ 8)]

end Sys2Proof.Machine
end

section
/-! SUPPORT. Fields of register words: what a field reads as after it or another was written, and registers that the Patina log leaves (00 R5, R8, 16 R488). -/

namespace Sys2Proof.Machine

/-! ## Fields of a word (00 R5) -/

/-- A word with a field replaced keeps the bits below the field and above it. -/
theorem Word.toNat_setFld (w : Word) {lo n : Nat} (v : Nat) (h : lo + n ≤ 64) :
    (w.setFld lo n v).toNat = w.toNat % 2 ^ lo + 2 ^ lo * (v % 2 ^ n + 2 ^ n * (w.toNat / 2 ^ lo / 2 ^ n)) := by
  have hw := w.isLt
  have hlow : w.toNat % 2 ^ lo < 2 ^ lo := Nat.mod_lt _ (Nat.two_pow_pos _)
  have hv : v % 2 ^ n < 2 ^ n := Nat.mod_lt _ (Nat.two_pow_pos _)
  have hsplit : w.toNat = w.toNat % 2 ^ lo + 2 ^ lo * (w.toNat / 2 ^ lo % 2 ^ n + 2 ^ n * (w.toNat / 2 ^ lo / 2 ^ n)) := by
    rw [Nat.mod_add_div, Nat.mod_add_div]
  have htop : w.toNat / 2 ^ lo / 2 ^ n < 2 ^ (64 - lo - n) := by
    rw [Nat.div_div_eq_div_mul, ← Nat.pow_add, Nat.div_lt_iff_lt_mul (Nat.two_pow_pos _), ← Nat.pow_add]
    exact lt_of_lt_of_eq hw (congrArg (2 ^ ·) (by omega))
  have hpow : 2 ^ 64 = 2 ^ lo * (2 ^ n * 2 ^ (64 - lo - n)) := by rw [← Nat.pow_add, ← Nat.pow_add]; exact congrArg (2 ^ ·) (by omega)
  generalize w.toNat % 2 ^ lo = c at *
  generalize w.toNat / 2 ^ lo / 2 ^ n = a at *
  have hb : nbits w.toNat lo n = w.toNat / 2 ^ lo % 2 ^ n := rfl
  rw [Word.setFld, BitVec.toNat_ofNat, hb]
  generalize w.toNat / 2 ^ lo % 2 ^ n = b at *
  generalize v % 2 ^ n = x at *
  have hsum : w.toNat - b * 2 ^ lo + x * 2 ^ lo = c + 2 ^ lo * (x + 2 ^ n * a) := by
    rw [hsplit, Nat.mul_add, Nat.mul_add, Nat.mul_comm b, Nat.mul_comm x]
    omega
  have hfit : c + 2 ^ lo * (x + 2 ^ n * a) < 2 ^ 64 := by
    rw [hpow]
    calc c + 2 ^ lo * (x + 2 ^ n * a) < 2 ^ lo * (x + 2 ^ n * a + 1) := by rw [Nat.mul_add _ _ 1]; omega
      _ ≤ 2 ^ lo * (2 ^ n * (a + 1)) := Nat.mul_le_mul_left _ (by rw [Nat.mul_add _ _ 1]; omega)
      _ ≤ 2 ^ lo * (2 ^ n * 2 ^ (64 - lo - n)) := Nat.mul_le_mul_left _ (Nat.mul_le_mul_left _ htop)
  rw [hsum, Nat.mod_eq_of_lt hfit]

/-- A field just written reads as the low bits of the value. -/
theorem Word.fld_setFld_self (w : Word) {lo n : Nat} (v : Nat) (h : lo + n ≤ 64) : (w.setFld lo n v).fld lo n = v % 2 ^ n := by
  rw [Word.fld, nbits, Word.toNat_setFld w v h, Nat.add_mul_div_left _ _ (Nat.two_pow_pos _), Nat.div_eq_of_lt (Nat.mod_lt _ (Nat.two_pow_pos _)),
    Nat.zero_add, Nat.add_mul_mod_self_left, Nat.mod_mod]

/-- A field apart from the one written reads as before. -/
theorem Word.fld_setFld_apart (w : Word) {lo n lo' n' : Nat} (v : Nat) (h : lo + n ≤ 64) (ha : lo' + n' ≤ lo ∨ lo + n ≤ lo') :
    (w.setFld lo n v).fld lo' n' = w.fld lo' n' := by
  simp only [Word.fld, nbits]
  rcases ha with ha | ha
  · have hlow : ∀ x : Nat, x / 2 ^ lo' % 2 ^ n' = x % 2 ^ lo / 2 ^ lo' % 2 ^ n' := fun x => by
      obtain ⟨k, rfl⟩ : ∃ k, lo = lo' + (n' + k) := ⟨lo - lo' - n', by omega⟩
      rw [Nat.pow_add, Nat.mod_mul_right_div_self, Nat.mod_mod_of_dvd _ (Nat.pow_dvd_pow 2 (by omega))]
    rw [hlow, hlow w.toNat, Word.toNat_setFld w v h, Nat.add_mul_mod_self_left, Nat.mod_mod]
  · have hhigh : ∀ x : Nat, x / 2 ^ lo' = x / 2 ^ lo / 2 ^ n / 2 ^ (lo' - lo - n) := fun x => by
      rw [Nat.div_div_eq_div_mul, Nat.div_div_eq_div_mul, ← Nat.pow_add, ← Nat.pow_add]
      exact congrArg (x / 2 ^ ·) (by omega)
    rw [hhigh, hhigh w.toNat, Word.toNat_setFld w v h, Nat.add_mul_div_left _ _ (Nat.two_pow_pos _),
      Nat.div_eq_of_lt (Nat.mod_lt _ (Nat.two_pow_pos _)), Nat.zero_add, Nat.add_mul_div_left _ _ (Nat.two_pow_pos _),
      Nat.div_eq_of_lt (Nat.mod_lt _ (Nat.two_pow_pos _)), Nat.zero_add]

/-- A register's field reads as the value written that fits it. -/
theorem State.fld_setFld_self (s : State) (pk : Nat) (r : Reg) {f : Fld} {v : Nat} (h : f.lo + f.width ≤ 64) (hv : v < 2 ^ f.width) :
    (s.setFld pk r f v).fld pk r f = v := by
  rw [State.fld, State.reg, State.setFld, State.rd_wr_self, Fld.get, Fld.put, Word.fld_setFld_self _ _ h, Nat.mod_eq_of_lt hv]

/-- Another field of that register reads as before. -/
theorem State.fld_setFld_apart (s : State) (pk : Nat) (r : Reg) {f g : Fld} (v : Nat) (h : f.lo + f.width ≤ 64)
    (ha : g.lo + g.width ≤ f.lo ∨ f.lo + f.width ≤ g.lo) : (s.setFld pk r f v).fld pk r g = s.fld pk r g := by
  rw [State.fld, State.reg, State.setFld, State.rd_wr_self, Fld.get, Fld.put, Word.fld_setFld_apart _ _ h ha]
  rfl

/-! ## Registers that the Patina log leaves (16 R488, R491) -/

theorem State.rd_of_regs {s t : State} (h : t.regs = s.regs) (a : Nat) : t.rd a = s.rd a := congrArg (SMap.get regDefault · a) h

theorem State.rd_wr_of_ne (s : State) {a b : Nat} (w : Word) (h : b ≠ a) : (s.wr a w).rd b = s.rd b := by rw [State.rd_wr, if_neg h]

theorem State.rd_mirrorMany {a : Nat} (ha : a ≠ patPage + Reg.patMseq.off) (n : Nat) (s : State) : (State.mirrorMany n s).rd a = s.rd a := by
  induction n generalizing s with
  | zero => rfl
  | succ n ih =>
    rw [State.mirrorMany, ih]
    exact State.rd_wr_of_ne _ _ ha

/-- An entry of the log writes registers of the Patina page only. -/
theorem State.rd_patina {a : Nat} (hseq : a ≠ patPage + Reg.patMseq.off) (hlost : a ≠ patPage + Reg.patLost.off) (s : State)
    (kind origin part flags subject addr data : Nat) : (s.patina kind origin part flags subject addr data).rd a = s.rd a := by
  have hplace : ∀ e, (s.placeEntry e).rd a = s.rd a := fun e => by
    unfold State.placeEntry
    dsimp only
    refine (State.rd_of_regs rfl a).trans ?_
    split
    · exact State.rd_wr_of_ne _ _ hlost
    · rfl
  unfold State.patina State.mirrorFlush
  dsimp only
  split
  · rw [State.rd_mirrorMany hseq, hplace]
  · exact hplace _

/-- The entry of an accepted write writes, besides, its page's PAGE_LOGSEQ. -/
theorem State.rd_logWrite {a page : Nat} (hseq : a ≠ patPage + Reg.patMseq.off) (hlost : a ≠ patPage + Reg.patLost.off)
    (hlog : a ≠ pageKey 0 page + 0x30) (s : State) (src off : Nat) (v prev : Word) (changes : Bool) :
    (s.logWrite src page off v prev changes).rd a = s.rd a := by
  unfold State.logWrite
  dsimp only
  split
  · exact State.rd_patina hseq hlost ..
  · exact (State.rd_wr_of_ne _ _ hlog).trans (State.rd_patina hseq hlost ..)

@[simp] theorem State.logWrite_objects (s : State) (src page off : Nat) (v prev : Word) (changes : Bool) :
    (s.logWrite src page off v prev changes).objects = s.objects := by
  unfold State.logWrite
  dsimp only
  split
  · exact State.patina_objects ..
  · exact (State.objects_of_pl (State.wr_pl ..)).trans (State.patina_objects ..)

end Sys2Proof.Machine
end

section
/-! SUPPORT. Armature's requests: how one ends, how a GO write submits it, and what a release frees (02 R38, R39, R43, R46). -/

namespace Sys2Proof.Machine

/-! ## The end of a request (02 R38, R46) -/

/-- A request of a core has ended with a status: Armature is free, and the registers show how it ended. -/
structure ArmEnded (s t : State) (core status : Nat) : Prop where
  core_eq : t.core core = { s.core core with arm := none }
  cells_eq : t.cells = s.cells
  status_eq : t.fld (armPage core) .armReqStat Fld.armReqStat_status = status
  done_eq : t.fld (armPage core) .armReqStat Fld.armReqStat_done = 1
  busy_eq : t.fld (armPage core) .armReqStat Fld.armReqStat_busy = b2n (!(s.core core).armQ.isEmpty)

/-- A core read in a state with the same cores. -/
theorem State.core_of_cores {s t : State} (h : t.cores = s.cores) (c : Nat) : t.core c = s.core c := congrArg (fun m : SMap Core => m.at {} c) h

/-- The end of a request is seen in the cores, the cells and the registers. -/
theorem ArmEnded.congr {s t u : State} {core status : Nat} (h : ArmEnded s t core status) (hcores : u.cores = t.cores) (hcells : u.cells = t.cells)
    (hregs : u.regs = t.regs) : ArmEnded s u core status := by
  have hfld : ∀ r f, u.fld (armPage core) r f = t.fld (armPage core) r f := fun r f => by rw [State.fld, State.reg, State.rd_of_regs hregs]; rfl
  exact ⟨(State.core_of_cores hcores core).trans h.core_eq, hcells.trans h.cells_eq, (hfld _ _).trans h.status_eq, (hfld _ _).trans h.done_eq,
    (hfld _ _).trans h.busy_eq⟩

/-- A report of a command's outcome changes nothing but its queue. -/
theorem State.report_cases (s : State) (q seq code : Nat) : s.report q seq code = s ∨ ∃ x, s.report q seq code = s.setQueue q x := by
  unfold State.report
  split
  · split
    · exact .inr ⟨_, rfl⟩
    · exact .inl rfl
  · exact .inl rfl

@[simp] theorem State.armBusy_cores (s : State) (core : Nat) : (s.armBusy core).cores = s.cores := State.setFld_cores ..
@[simp] theorem State.armBusy_cells (s : State) (core : Nat) : (s.armBusy core).cells = s.cells := State.setFld_cells ..
@[simp] theorem State.armBusy_mem (s : State) (core : Nat) : (s.armBusy core).mem = s.mem := State.setFld_mem ..

/-- BUSY shows whether a request is in progress or waits. -/
theorem State.armBusy_busy (s : State) (core : Nat) :
    (s.armBusy core).fld (armPage core) .armReqStat Fld.armReqStat_busy = b2n ((s.core core).arm.isSome || !(s.core core).armQ.isEmpty) :=
  State.fld_setFld_self _ _ _ (by decide) (by rw [b2n]; split <;> decide)

/-- The state that shows a request's end: Armature is free, and the registers tell how it ended. -/
def State.armShown (s : State) (core status index : Nat) : State :=
  ((((((s.setCore core { s.core core with arm := none }).drew 1).armBusy core).setFld (armPage core) .armReqStat Fld.armReqStat_done 1).setFld
    (armPage core) .armReqStat Fld.armReqStat_status status).setFld (armPage core) .armReqStat Fld.armReqStat_index index)

@[simp] theorem State.armShown_cores (s : State) (core status index : Nat) :
    (s.armShown core status index).cores = (s.setCore core { s.core core with arm := none }).cores := by
  rw [State.armShown, State.setFld_cores, State.setFld_cores, State.setFld_cores, State.armBusy_cores, State.drew_cores]

theorem State.armShown_ended (s : State) (core index : Nat) {status : Nat} (hst : status < 256) : ArmEnded s (s.armShown core status index) core status where
  core_eq := by rw [State.core_of_cores (State.armShown_cores ..), State.core_setCore_self]
  cells_eq := by
    rw [State.armShown, State.setFld_cells, State.setFld_cells, State.setFld_cells, State.armBusy_cells, State.drew_cells, State.setCore_cells]
  status_eq := by rw [State.armShown, State.fld_setFld_apart _ _ _ _ (by decide) (by decide), State.fld_setFld_self _ _ _ (by decide) hst]
  done_eq := by
    rw [State.armShown, State.fld_setFld_apart _ _ _ _ (by decide) (by decide), State.fld_setFld_apart _ _ _ _ (by decide) (by decide),
      State.fld_setFld_self _ _ _ (by decide) (by decide)]
  busy_eq := by
    have hfree : ((s.setCore core { s.core core with arm := none }).drew 1).core core = { s.core core with arm := none } :=
      (State.core_of_cores (State.drew_cores _ _) core).trans (State.core_setCore_self s core _)
    rw [State.armShown, State.fld_setFld_apart _ _ _ _ (by decide) (by decide), State.fld_setFld_apart _ _ _ _ (by decide) (by decide),
      State.fld_setFld_apart _ _ _ _ (by decide) (by decide), State.armBusy_busy, hfree]
    rfl

/-- A request without a result record ends with its status, and its command, where a queue gave it, is reported. -/
theorem State.armEnd_of_noRecord (s : State) (core : Nat) {r : ArmReq} {status : Nat} (index : Nat) (hr : r.record = 0) (hst : status < 256) :
    ∃ t, s.armEnd core r status index = some t ∧ ArmEnded s t core status := by
  let s1 := s.patina 2 19 (partByte (s.coreOwner core) false) (b2n (r.mode == 1 || status != 0)) (armNo core + 65536 * status)
    (if r.mode = 2 then r.mask else r.image) (packFields [(2, r.ctx), (1, r.mode)])
  have hcore : s1.core core = s.core core := State.core_of_cores (State.patina_cores ..) core
  obtain ⟨hk, hcells, hstatus, hdone, hbusy⟩ := s1.armShown_ended core index hst
  rw [hcore] at hk hbusy
  have hshown : ArmEnded s (s1.armShown core status index) core status := ⟨hk, hcells.trans (State.patina_cells ..), hstatus, hdone, hbusy⟩
  have hend : s.armEnd core r status index = some (match r.cmd with
      | some (q, n) => (s1.armShown core status index).report q n (if status = 0 then 0 else 15)
      | none => s1.armShown core status index) := by
    simp only [State.armEnd, hr, true_or, if_true]
    rfl
  refine ⟨_, hend, ?_⟩
  split
  · next q n _ =>
    obtain h | ⟨x, h⟩ := (s1.armShown core status index).report_cases q n (if status = 0 then 0 else 15)
    · rwa [h]
    · rw [h]; exact hshown.congr (State.setQueue_cores ..) (State.setQueue_cells ..) (State.setQueue_regs ..)
  · exact hshown

/-! ## The start of a request (02 R38, R39) -/

/-- A form request or a Maquette run of a context that may ask begins with the reads of its image. -/
theorem State.armStart_of_ctxOk {s : State} {core : Nat} {r : ArmReq} (hm : r.mode ≤ 1) (hok : s.armCtxOk core r.ctx = true) :
    s.armStart core r = some ((s.setArm core { r with start := s.time, step := 1 }).armBusy core) := by
  have h3 : r.mode ≠ 3 := by omega
  have h2 : r.mode ≠ 2 := by omega
  simp only [State.armStart, h3, h2, hok, if_false, not_true_eq_false]

/-- Then it is the request in progress, and BUSY shows it. -/
theorem State.armStarted (s : State) (core : Nat) (r : ArmReq) :
    let t := (s.setArm core r).armBusy core
    t.core core = { s.core core with arm := some r } ∧ t.fld (armPage core) .armReqStat Fld.armReqStat_busy = 1 ∧ t.cells = s.cells ∧ t.mem = s.mem := by
  have hcore : (s.setArm core r).core core = { s.core core with arm := some r } := State.core_setCore_self ..
  refine ⟨(State.core_of_cores (State.armBusy_cores _ _) core).trans hcore, ?_, State.armBusy_cells .., State.armBusy_mem ..⟩
  rw [State.armBusy_busy, hcore]
  rfl

/-- A request of a context that may not ask ends with BAD_CONTEXT. -/
theorem State.armStart_badContext {s : State} {core : Nat} {r : ArmReq} (hm : r.mode ≠ 3) (hok : s.armCtxOk core r.ctx = false) :
    s.armStart core r = s.armEnd core { r with start := s.time } 0x10 noIndex := by
  simp only [State.armStart, hm, hok, if_false, Bool.false_eq_true, not_false_eq_true, if_true]

/-- A release is performed at once. -/
theorem State.armStart_release {s : State} {core : Nat} {r : ArmReq} (hm : r.mode = 2) (hok : s.armCtxOk core r.ctx = true) :
    s.armStart core r = s.armRelease core { r with start := s.time } := by
  simp [State.armStart, hm, hok]

/-! ## A GO write (02 R38, R63) -/

/-- Where a request may be submitted is decided by the context's record and the core's owner. -/
theorem State.armCtxOk_congr {s u : State} (ho : u.objects = s.objects) (hs : u.sec = s.sec) (core ctx : Nat) :
    u.armCtxOk core ctx = s.armCtxOk core ctx := by
  have hctx := congrArg (fun p : Plinth => p.ctxs.at {} ctx) ho
  replace hctx : u.ctx ctx = s.ctx ctx := hctx
  have hown : u.coreOwner core = s.coreOwner core := by
    unfold State.coreOwner State.part
    rw [hs]
  rw [State.armCtxOk, hctx, hown, State.armCtxOk]

/-- A state that differs from another in registers and the log only, as the record of an accepted write leaves it. -/
structure Logged (s u : State) : Prop where
  cores_eq : u.cores = s.cores
  cells_eq : u.cells = s.cells
  mem_eq : u.mem = s.mem
  time_eq : u.time = s.time
  objects_eq : u.objects = s.objects
  sec_eq : u.sec = s.sec

/-- A performed GO write while no request is in progress submits the request that the registers hold. -/
theorem State.armGo_perform {s : State} {core : Nat} {v : Word} (hv : s.verdict 0 (armNo core) Reg.armReqCtl.off 8 = .perform)
    (hb : s.fld (armPage core) .armReqStat Fld.armReqStat_busy = 0) :
    ∃ u, s.armGo 0 core v = u.armSubmit core (s.armOf 0 core v) ∧ Logged s u := by
  have hpk : pageKey (srcFunc 0) (armNo core) = armPage core := by simp [pageKey, srcFunc, armPage, corePage, regKey, armNo]
  let u := (s.logWrite 0 (armNo core) Reg.armReqCtl.off v (s.reg (armPage core) .armReqCtl) true).writeReg (armPage core) .armReqCtl v
  have hreg : ∀ q : Reg, q.off < 0x1000 → q.off ≠ Reg.armReqCtl.off → q.off ≠ 0x30 → u.reg (armPage core) q = s.reg (armPage core) q :=
    fun q hq hctl hlog => by
      have hpage : armPage core = 0x1000000 + 0x100000 * core := by simp only [armPage, corePage, regKey]; omega
      have hseq : patPage + Reg.patMseq.off < 0x1000000 := by decide
      have hlost : patPage + Reg.patLost.off < 0x1000000 := by decide
      refine (State.rd_wr_of_ne _ _ (by omega)).trans (State.rd_logWrite (by omega) (by omega) ?_ ..)
      rw [show pageKey 0 (armNo core) = armPage core from hpk]
      omega
  have hof : u.armOf 0 core v = s.armOf 0 core v := by
    simp only [State.armOf, State.fld, hreg .armReqAddr (by decide) (by decide) (by decide), hreg .armReqMask (by decide) (by decide) (by decide),
      hreg .armResAddr (by decide) (by decide) (by decide)]
  have hpl : u.objects = _ := State.objects_of_pl (State.writeReg_pl ..)
  refine ⟨u, ?_, by simp [u], by simp [u], by simp [u], by simp [u], hpl.trans (State.logWrite_objects ..), by simp [u]⟩
  rw [← hof]
  simp only [State.armGo, State.triggerIf, State.offer, hv, hb, hpk, beq_self_eq_true, if_true]
  rfl

/-- A request submitted to a free Armature starts at once where it can. -/
theorem State.armSubmit_free {s t : State} {core : Nat} {r : ArmReq} (ha : (s.core core).arm = none) (hq : (s.core core).armQ = [])
    (hquars : (s.core core).quars = []) (ht : s.armStart core r = some t) : s.armSubmit core r = t := by
  simp [State.armSubmit, ha, hq, hquars, ht]

/-! ## Release (02 R43) -/

/-- An engine read after one was released. -/
theorem State.engine_releaseEngine (s : State) (core n m : Nat) :
    (s.releaseEngine core n).engine core m = if m = n then {} else s.engine core m := by
  have herase : ((s.core core).engines.erase n).at {} m = if m = n then {} else s.engine core m := by
    unfold State.engine SMap.at SMap.get
    rw [SMap.find?_erase]
    split <;> rfl
  have hfirst : ∀ k : Core, k.engines = (s.core core).engines.erase n → ∀ u : State, (u.setCore core k).engine core m = if m = n then {} else s.engine core m :=
    fun k hk u => by rw [State.engine, State.core_setCore_self, hk, herase]
  unfold State.releaseEngine
  dsimp only
  split
  · exact hfirst _ rfl s
  · exact hfirst _ (by rw [State.core_setCore_self]) _

/-- Engines read after a list of them was released. -/
theorem State.engine_releaseEngines (core m : Nat) (l : List Nat) (s : State) :
    (l.foldl (fun t n => t.releaseEngine core n) s).engine core m = if m ∈ l then {} else s.engine core m := by
  induction l generalizing s with
  | nil => simp
  | cons n l ih =>
    rw [List.foldl_cons, ih, State.engine_releaseEngine]
    by_cases hl : m ∈ l
    · simp [hl]
    · by_cases hn : m = n <;> simp [hl, hn]

/-- The engines that a release names. -/
def ArmReq.named (r : ArmReq) : List Nat := (List.range 64).filter fun n => r.mask.testBit n

theorem ArmReq.mem_named {r : ArmReq} {n : Nat} : n ∈ r.named ↔ n < 64 ∧ r.mask.testBit n = true := by
  simp [ArmReq.named]

/-- An engine that a release must leave: it runs a command, migrates or stops. -/
def Engine.busy (e : Engine) : Bool := e.cmd.isSome || e.state == 5 || e.stopping != 0

section
variable {s : State} {core : Nat} {r : ArmReq} (hmine : ∀ n ∈ r.named, (s.engine core n).formed = true ∧ (s.engine core n).ctx = r.ctx)
include hmine

/-- A release of the context's own engines is refused while one of them is busy. -/
theorem State.armRelease_active {n : Nat} (hn : n ∈ r.named) (hb : (s.engine core n).busy = true) :
    s.armRelease core r = s.armEnd core r 0x12 noIndex := by
  have hany : (r.named.any fun n => ((s.engine core n).formed && (s.engine core n).ctx == r.ctx) && (s.engine core n).busy) = true :=
    List.any_eq_true.mpr ⟨n, hn, by simp [hmine n hn, hb]⟩
  exact if_pos hany

/-- A release of the context's own engines, none of them busy, frees them all. -/
theorem State.armRelease_idle (hb : ∀ n ∈ r.named, (s.engine core n).busy = false) :
    s.armRelease core r = (r.named.foldl (fun t n => t.releaseEngine core n) s).armEnd core r 0 noIndex := by
  have hactive : (r.named.any fun n => ((s.engine core n).formed && (s.engine core n).ctx == r.ctx) && (s.engine core n).busy) = false :=
    List.any_eq_false.mpr fun n hn => by simp [hb n hn]
  have habsent : (r.named.any fun n => !((s.engine core n).formed && (s.engine core n).ctx == r.ctx)) = false :=
    List.any_eq_false.mpr fun n hn => by simp [hmine n hn]
  exact (if_neg (by exact ne_true_of_eq_false hactive)).trans (if_neg (by exact ne_true_of_eq_false habsent))

end

end Sys2Proof.Machine
end

section
/-! Armature's requests: the obligation, from the rules above. -/

namespace Sys2Proof.Machine

/-- The meanings of the commands that a GO write gives: the write itself, in its mode. -/
theorem exec_form {core : Nat} {v : Word} (hgo : v.bit 63 = true) (hm : Fld.armReqCtl_mode.get v = 0) (s : State) :
    exec (.form 0 core v) s = .next (s.armGo 0 core v) := congrArg Host.Outcome.next (if_pos ⟨hgo, hm⟩)

theorem exec_maquette {core : Nat} {v : Word} (hgo : v.bit 63 = true) (hm : Fld.armReqCtl_mode.get v = 1) (s : State) :
    exec (.maquette 0 core v) s = .next (s.armGo 0 core v) := congrArg Host.Outcome.next (if_pos ⟨hgo, hm⟩)

theorem exec_release {core : Nat} {v : Word} (hgo : v.bit 63 = true) (hm : Fld.armReqCtl_mode.get v = 2) (s : State) :
    exec (.release 0 core v) s = .next (s.armGo 0 core v) := congrArg Host.Outcome.next (if_pos ⟨hgo, hm⟩)

/-- The engines of a core after a request's end. -/
theorem ArmEnded.engine_eq {s t : State} {core status : Nat} (h : ArmEnded s t core status) (n : Nat) : t.engine core n = s.engine core n := by
  rw [State.engine, h.core_eq, State.engine]

section
variable {s : State} {core : Nat} {v : Word} (ha : (s.core core).arm = none) (hquars : (s.core core).quars = []) (hq : (s.core core).armQ = [])
  (hv : s.verdict 0 (armNo core) Reg.armReqCtl.off 8 = .perform) (hb : s.fld (armPage core) .armReqStat Fld.armReqStat_busy = 0)
include ha hquars hq hv hb

/-- With Armature free, a performed GO write is the start of the request that the registers hold, in a state that differs in registers and the log. -/
theorem State.armGo_free : ∃ u, Logged s u ∧ ∀ t, u.armStart core (s.armOf 0 core v) = some t → s.armGo 0 core v = t := by
  obtain ⟨u, hu, hlog⟩ := State.armGo_perform hv hb
  have hcore : u.core core = s.core core := State.core_of_cores hlog.cores_eq core
  exact ⟨u, hlog, fun t ht => hu.trans (State.armSubmit_free (by rw [hcore, ha]) (by rw [hcore, hq]) (by rw [hcore, hquars]) ht)⟩

/-- A form request or a Maquette run of a context that may ask is then in progress. -/
theorem State.armGo_started (hm : Fld.armReqCtl_mode.get v ≤ 1) (hok : s.armCtxOk core (s.armOf 0 core v).ctx = true) :
    ((s.armGo 0 core v).core core).arm = some { s.armOf 0 core v with start := s.time, step := 1 }
      ∧ (s.armGo 0 core v).fld (armPage core) .armReqStat Fld.armReqStat_busy = 1 ∧ (s.armGo 0 core v).cells = s.cells ∧ (s.armGo 0 core v).mem = s.mem := by
  obtain ⟨u, hlog, hgo⟩ := State.armGo_free ha hquars hq hv hb
  rw [hgo _ (State.armStart_of_ctxOk hm ((State.armCtxOk_congr hlog.objects_eq hlog.sec_eq core _).trans hok)), hlog.time_eq]
  obtain ⟨hcore, hbusy, hcells, hmem⟩ := u.armStarted core { s.armOf 0 core v with start := s.time, step := 1 }
  exact ⟨by rw [hcore], hbusy, hcells.trans hlog.cells_eq, hmem.trans hlog.mem_eq⟩

/-- A form request of a context that may not ask ends with BAD_CONTEXT. -/
theorem State.armGo_badContext (hm : Fld.armReqCtl_mode.get v = 0) (hok : s.armCtxOk core (s.armOf 0 core v).ctx = false)
    (hr : (s.armOf 0 core v).record = 0) : ∃ u, Logged s u ∧ ArmEnded u (s.armGo 0 core v) core 0x10 := by
  obtain ⟨u, hlog, hgo⟩ := State.armGo_free ha hquars hq hv hb
  obtain ⟨t, ht, hended⟩ := u.armEnd_of_noRecord core (r := { s.armOf 0 core v with start := u.time }) noIndex hr (by decide : 0x10 < 256)
  have hmode : (s.armOf 0 core v).mode ≠ 3 := fun h => absurd (hm.symm.trans h) (by decide)
  rw [hgo t ((State.armStart_badContext hmode ((State.armCtxOk_congr hlog.objects_eq hlog.sec_eq core _).trans hok)).trans ht)]
  exact ⟨u, hlog, hended⟩

/-- A release of the context's own engines, none of them busy, frees those that it names and no other. -/
theorem State.armGo_release_idle (hm : Fld.armReqCtl_mode.get v = 2) (hok : s.armCtxOk core (s.armOf 0 core v).ctx = true)
    (hr : (s.armOf 0 core v).record = 0)
    (hmine : ∀ n ∈ (s.armOf 0 core v).named, (s.engine core n).formed = true ∧ (s.engine core n).ctx = (s.armOf 0 core v).ctx)
    (hidle : ∀ n ∈ (s.armOf 0 core v).named, (s.engine core n).busy = false) :
    (∃ u, ArmEnded u (s.armGo 0 core v) core 0)
      ∧ ∀ n, (s.armGo 0 core v).engine core n = if n ∈ (s.armOf 0 core v).named then {} else s.engine core n := by
  obtain ⟨u, hlog, hgo⟩ := State.armGo_free ha hquars hq hv hb
  have hengine : ∀ n, u.engine core n = s.engine core n := fun n => by rw [State.engine, State.core_of_cores hlog.cores_eq]; rfl
  let r : ArmReq := { s.armOf 0 core v with start := u.time }
  let w := r.named.foldl (fun t n => t.releaseEngine core n) u
  obtain ⟨t, ht, hended⟩ := w.armEnd_of_noRecord core (r := r) noIndex hr (by decide : 0 < 256)
  have hrelease : u.armRelease core r = some t :=
    (State.armRelease_idle (r := r) (fun n hn => by rw [hengine]; exact hmine n hn) fun n hn => by rw [hengine]; exact hidle n hn).trans ht
  rw [hgo t ((State.armStart_release hm ((State.armCtxOk_congr hlog.objects_eq hlog.sec_eq core _).trans hok)).trans hrelease)]
  exact ⟨⟨w, hended⟩, fun n => by rw [hended.engine_eq, State.engine_releaseEngines, hengine]; rfl⟩

/-- A release of the context's own engines, one of them busy, ends with ENGINE_ACTIVE and frees none. -/
theorem State.armGo_release_active (hm : Fld.armReqCtl_mode.get v = 2) (hok : s.armCtxOk core (s.armOf 0 core v).ctx = true)
    (hr : (s.armOf 0 core v).record = 0)
    (hmine : ∀ n ∈ (s.armOf 0 core v).named, (s.engine core n).formed = true ∧ (s.engine core n).ctx = (s.armOf 0 core v).ctx)
    {n : Nat} (hn : n ∈ (s.armOf 0 core v).named) (hbusy : (s.engine core n).busy = true) :
    (∃ u, ArmEnded u (s.armGo 0 core v) core 0x12) ∧ ∀ m, (s.armGo 0 core v).engine core m = s.engine core m := by
  obtain ⟨u, hlog, hgo⟩ := State.armGo_free ha hquars hq hv hb
  have hengine : ∀ n, u.engine core n = s.engine core n := fun n => by rw [State.engine, State.core_of_cores hlog.cores_eq]; rfl
  let r : ArmReq := { s.armOf 0 core v with start := u.time }
  obtain ⟨t, ht, hended⟩ := u.armEnd_of_noRecord core (r := r) noIndex hr (by decide : 0x12 < 256)
  have hrelease : u.armRelease core r = some t :=
    (State.armRelease_active (r := r) (fun n hn => by rw [hengine]; exact hmine n hn) (n := n) hn (by rw [hengine]; exact hbusy)).trans ht
  rw [hgo t ((State.armStart_release hm ((State.armCtxOk_congr hlog.objects_eq hlog.sec_eq core _).trans hok)).trans hrelease)]
  exact ⟨⟨u, hended⟩, fun m => (hended.engine_eq m).trans (hengine m)⟩

end

/-- The first waiting request, of a context that may ask, is the request in progress once Armature is free. -/
theorem exec_armQueuedRequestStart {s : State} {core : Nat} {r : ArmReq} {rest : List ArmReq} (ha : (s.core core).arm = none)
    (hquars : (s.core core).quars = []) (hq : (s.core core).armQ = r :: rest) (hs : s.serving = true) (hm : r.mode ≤ 1)
    (hok : s.armCtxOk core r.ctx = true) :
    exec (.armQueuedRequestStart core) s
      = .next (((s.setCore core { s.core core with armQ := rest }).setArm core { r with start := s.time, step := 1 }).armBusy core) := by
  have hstart : (s.setCore core { s.core core with armQ := rest }).armStart core r = _ := State.armStart_of_ctxOk hm hok
  have hfree : (s.serving && (s.core core).arm.isNone && (s.core core).quars.isEmpty) = true := by rw [hs, ha, hquars]; rfl
  refine congrArg Host.Outcome.next ?_
  unfold opArmQueuedRequestStart
  dsimp only
  split
  · next r' rest' hq' =>
    obtain ⟨rfl, rfl⟩ := List.cons.inj (hq.symm.trans hq')
    exact (if_pos hfree).trans (congrArg (Option.getD · s) hstart)
  · next hq' => exact absurd (hq.symm.trans hq') (List.cons_ne_nil _ _)

/-- Settles O35: a GO write with Armature free is the start of the request that the registers hold, and a waiting request starts in the same way. -/
theorem armatureRequests : Obligations.ArmatureRequests := by
  unfold Obligations.ArmatureRequests
  intro core s pk k stat ha hquars
  constructor
  · intro v r hgo hv hb hq started
    refine ⟨fun hok hm => ⟨_, exec_form hgo hm s, ?_⟩, fun hok hm => ⟨_, exec_maquette hgo hm s, ?_⟩, fun hok hm hr => ⟨_, exec_form hgo hm s, ?_⟩,
      fun hok hm hr hmine => ?_⟩
    · exact State.armGo_started ha hquars hq hv hb (by omega) hok
    · exact State.armGo_started ha hquars hq hv hb (by omega) hok
    · obtain ⟨u, hlog, hended⟩ := State.armGo_badContext ha hquars hq hv hb hm hok hr
      have hwait : (u.core core).armQ = [] := (congrArg Core.armQ (State.core_of_cores hlog.cores_eq core)).trans hq
      exact ⟨by rw [hended.core_eq], hended.status_eq, hended.done_eq, hended.busy_eq.trans (by rw [hwait]; rfl)⟩
    · have hnamed : ∀ {n}, n ∈ r.named ↔ n < 64 ∧ r.mask.testBit n = true := ArmReq.mem_named
      have hown : ∀ n ∈ r.named, (s.engine core n).formed = true ∧ (s.engine core n).ctx = r.ctx := fun n hn =>
        hmine n (hnamed.mp hn).1 (hnamed.mp hn).2
      constructor
      · intro hidle
        have hfree : ∀ n ∈ r.named, (s.engine core n).busy = false := fun n hn => by
          obtain ⟨hcmd, hstate, hstop⟩ := hidle n (hnamed.mp hn).1 (hnamed.mp hn).2
          simp [Engine.busy, hcmd, hstate, hstop]
        obtain ⟨⟨u, hended⟩, hread⟩ := State.armGo_release_idle ha hquars hq hv hb hm hok hr hown hfree
        refine ⟨_, exec_release hgo hm s, hended.status_eq, hended.done_eq, fun n hn hbit => ?_, fun n hbit => ?_⟩
        · rw [hread, if_pos (hnamed.mpr ⟨hn, hbit⟩)]
        · have hout : n ∉ r.named := fun h => Bool.false_ne_true (hbit.symm.trans (hnamed.mp h).2)
          rw [hread, if_neg hout]
      · intro n hn hbit hcmd
        have hbusy : (s.engine core n).busy = true := by simp [Engine.busy, hcmd]
        obtain ⟨⟨u, hended⟩, hread⟩ := State.armGo_release_active ha hquars hq hv hb hm hok hr hown (hnamed.mpr ⟨hn, hbit⟩) hbusy
        exact ⟨_, exec_release hgo hm s, hended.status_eq, hread⟩
  · intro r rest hq hs hm hok
    obtain ⟨hcore, hbusy, -, -⟩ := (s.setCore core { k with armQ := rest }).armStarted core { r with start := s.time, step := 1 }
    exact ⟨_, exec_armQueuedRequestStart ha hquars hq hs hm hok, by rw [hcore], by rw [hcore, State.core_setCore_self], hbusy⟩

end Sys2Proof.Machine
end

section
/-! SUPPORT. Reading an image (02 R39, R48): the status of a failed check fits its field, a failed read is recorded beside the cells, and each part of the image goes on or ends. -/

namespace Sys2Proof.Machine

/-! ## The statuses of the checks (02 R48) -/

/-- Every failure of a list has a status that STATUS can show. -/
def StatusesFit (l : List ArmFail) : Prop := ∀ f ∈ l, f.status < 256

theorem StatusesFit.append {l m : List ArmFail} (hl : StatusesFit l) (hm : StatusesFit m) : StatusesFit (l ++ m) := fun f hf =>
  (List.mem_append.mp hf).elim (hl f) (hm f)

theorem StatusesFit.failIf (c : Bool) {status : Nat} (table index : Nat) (h : status < 256) : StatusesFit (failIf c status table index) := fun f hf => by
  cases c
  · exact absurd hf List.not_mem_nil
  · rw [List.mem_singleton.mp hf]; exact h

theorem StatusesFit.map {α : Type} (l : List α) {status : Nat} (table : Nat) (index : α → Nat) (h : status < 256) :
    StatusesFit (l.map fun x => ⟨status, table, index x⟩) := fun f hf => by
  obtain ⟨x, -, rfl⟩ := List.mem_map.mp hf
  exact h

theorem StatusesFit.flatMap {α : Type} (l : List α) {g : α → List ArmFail} (h : ∀ x, StatusesFit (g x)) : StatusesFit (l.flatMap g) := fun f hf => by
  obtain ⟨x, -, hx⟩ := List.mem_flatMap.mp hf
  exact h x f hx

theorem StatusesFit.nil : StatusesFit [] := fun _ hf => absurd hf List.not_mem_nil

theorem StatusesFit.ite {c : Prop} [Decidable c] {l m : List ArmFail} (hl : StatusesFit l) (hm : StatusesFit m) : StatusesFit (if c then l else m) := by
  split
  · exact hl
  · exact hm

/-- The first failure is one of the failures. -/
theorem firstFail_mem {l : List ArmFail} {f : ArmFail} (h : firstFail l = some f) : f ∈ l := by
  let next : Option ArmFail → ArmFail → Option ArmFail := fun best f => match best with
    | none => some f
    | some b => if f.before b then some f else some b
  have hfold : ∀ (l : List ArmFail) (best : Option ArmFail), l.foldl next best = some f → f ∈ l ∨ best = some f := by
    intro l
    induction l with
    | nil => exact fun best hb => .inr hb
    | cons a l ih =>
      intro best hb
      obtain hl | hl := ih _ hb
      · exact .inl (List.mem_cons_of_mem _ hl)
      · have hnext : next best a = some a ∨ next best a = best := by
          cases best with
          | none => exact .inl rfl
          | some b => exact (ite_eq_or_eq _ _ _ : next (some b) a = _ ∨ _)
        rcases hnext with hn | hn
        · rw [hn] at hl
          obtain rfl := Option.some.inj hl
          exact .inl List.mem_cons_self
        · exact .inr (hn.symm.trans hl)
  exact (hfold l none h).resolve_right (by simp)

theorem StatusesFit.firstFail {l : List ArmFail} (hl : StatusesFit l) {f : ArmFail} (h : firstFail l = some f) : f.status < 256 := hl f (firstFail_mem h)

theorem headChecks_fit (hd : List Byte) : StatusesFit (headChecks hd) :=
  ((StatusesFit.failIf _ _ _ (by decide)).append (.failIf _ _ _ (by decide))).append (.failIf _ _ _ (by decide))

theorem engChecks_fit (tab : List Byte) (secs : List SecEntry) (n : Nat) : StatusesFit (engChecks tab secs n) :=
  ((StatusesFit.failIf _ _ _ (by decide)).append (.failIf _ _ _ (by decide))).append
    (.ite .nil ((StatusesFit.map _ 2 _ (by decide)).append (.map _ 2 _ (by decide))))

theorem secChecks_fit (size : Nat) (tab : List Byte) (n : Nat) : StatusesFit (secChecks size tab n) :=
  ((StatusesFit.failIf _ _ _ (by decide)).append (.failIf _ _ _ (by decide))).append (.failIf _ _ _ (by decide))

theorem crossChecks_fit (hd : List Byte) (secs : List SecEntry) : StatusesFit (crossChecks hd secs) := by
  refine ((StatusesFit.failIf _ _ _ (by decide)).append (.map _ 2 _ (by decide))).append ?_
  split
  · exact StatusesFit.failIf true _ _ (by decide)
  · exact StatusesFit.failIf true _ _ (by decide)
  · exact .nil

theorem tableChecks_fit (hd etab stab : List Byte) : StatusesFit (tableChecks hd etab stab) :=
  (((StatusesFit.failIf _ _ _ (by decide)).append (.flatMap _ (engChecks_fit _ _))).append (.flatMap _ (secChecks_fit _ _))).append (crossChecks_fit _ _)

theorem State.bodyChecks_fit (s : State) (part : Nat) (img : List Byte) : StatusesFit (s.bodyChecks part img) :=
  ((((((StatusesFit.failIf _ _ _ (by decide)).append (.failIf _ _ _ (by decide))).append (.failIf _ _ _ (by decide))).append
    (.failIf _ _ _ (by decide))).append (.failIf _ _ _ (by decide))).append (.failIf _ _ _ (by decide))).append (.failIf _ _ _ (by decide))

theorem State.resourceChecks_fit (s : State) (r : ArmReq) (core : Nat) : StatusesFit (s.resourceChecks r core) :=
  ((((((StatusesFit.map _ 1 _ (by decide)).append (.map _ 1 _ (by decide))).append (.map _ 2 _ (by decide))).append (.map _ 1 _ (by decide))).append
    (.map _ 2 _ (by decide))).append (.failIf _ _ _ (by decide))).append (.failIf _ _ _ (by decide))

/-- A placement fails with NO_ROOM or BAD_PLACEMENT. -/
theorem placeAll_error {room : List Nat} {es : List EngEntry} {f : ArmFail} (order : List Nat) (occ : List Nat) (out : List (Nat × Nat))
    (h : placeAll room es order occ out = .error f) : f.status < 256 := by
  have hcode : ∀ {status table index : Nat} {x : ArmFail}, status < 256 →
      (Except.error ⟨status, table, index⟩ : Except ArmFail (List (Nat × Nat))) = .error x → x.status < 256 := fun hst hx => by
    rw [← Except.error.inj hx]; exact hst
  induction order generalizing occ out with
  | nil => exact nomatch h
  | cons n ns ih =>
    rw [placeAll] at h
    split at h
    · exact ih _ _ h
    · split at h
      · split at h
        · exact ih _ _ h
        · split at h
          · exact hcode (by decide) h
          · exact hcode (by decide) h
      · split at h
        · exact ih _ _ h
        · exact hcode (by decide) h

/-! ## A failed read (02 R39, 16 R483) -/

@[simp] theorem State.snoopRead_cells (s : State) (l : Nat) : (s.snoopRead l).cells = s.cells := by
  unfold State.snoopRead
  dsimp only
  split <;> simp

@[simp] theorem State.snoopReads_cells (s : State) (l : List Nat) : (s.snoopReads l).cells = s.cells :=
  foldl_keeps (P := fun t : State => t.cells = s.cells) (fun t x ht => (State.snoopRead_cells t x).trans ht) rfl l

@[simp] theorem State.atuFault_cells (s : State) (a c g o : Nat) : (s.atuFault a c g o).cells = s.cells := by
  unfold State.atuFault
  dsimp only
  rw [State.wr_cells, State.wr_cells]
  split <;> rfl

@[simp] theorem State.consumePoison_cells (s : State) (l c : Nat) : (s.consumePoison l c).cells = s.cells := by
  unfold State.consumePoison
  dsimp only
  split
  · exact State.logEvent_cells ..
  · rfl

theorem State.xlFill_device_cells (s : State) (ctx va : Nat) (r : Right) (agent : Nat) : (s.xlFill 16 ctx va r agent).cells = s.cells := by
  obtain h | ⟨l, ⟨d, h⟩ | ⟨o, h⟩ | ⟨p, o, h⟩⟩ := s.xlFill_device_cases ctx va r agent <;> simp [h]

/-- What a failed read of an image leaves is recorded, and the cells are as they were. -/
theorem State.vaConsume_cells (s : State) (ctx va n : Nat) : (s.vaConsume ctx va n).cells = s.cells := by
  refine foldl_keeps (P := fun t : State => t.cells = s.cells) (fun t i ht => ?_)
    (foldl_keeps (P := fun t : State => t.cells = s.cells) (fun t a ht => ?_) rfl _) _
  · split
    · split
      · exact (State.consumePoison_cells ..).trans ht
      · exact ht
    · exact ht
  · split
    · exact (State.xlFill_device_cells ..).trans ht
    · exact ht

/-! ## What a part of the image leads to (02 R39, R44, R47) -/

theorem State.armRead_ok {s : State} {core : Nat} {r : ArmReq} {off n : Nat} {bytes : List Byte}
    (h : s.vaRead r.ctx (r.image + off) n = some (some bytes)) (k : List Byte → Option State) : s.armRead core r off n k = k bytes := by
  simp only [State.armRead, h]

theorem State.armRead_failed {s : State} {core : Nat} {r : ArmReq} {off n : Nat} (h : s.vaRead r.ctx (r.image + off) n = some none)
    (k : List Byte → Option State) : s.armRead core r off n k = (s.vaConsume r.ctx (r.image + off) n).armEnd core r 0x11 noIndex := by
  simp only [State.armRead, h]

/-- A placed form request is in step 5, or waits in step 4 for a switch. -/
theorem State.armPlaced_arm (s : State) (core : Nat) (r : ArmReq) :
    ((s.armPlaced core r).core core).arm = some { r with step := if s.armNeedsSwitch core r then 4 else 5 } ∧ (s.armPlaced core r).mem = s.mem
      ∧ (s.armPlaced core r).cells = s.cells := by
  unfold State.armPlaced
  split
  · exact ⟨congrArg Core.arm (State.core_setCore_self ..), State.setCore_mem .., State.setCore_cells ..⟩
  · refine ⟨congrArg Core.arm (State.core_setCore_self ..), ?_, ?_⟩
    · rw [State.setArm, State.setCore_mem, State.setCore_mem, State.noteUse_mem]
    · rw [State.setArm, State.setCore_cells, State.setCore_cells, State.noteUse_cells]

/-- The request with FREE as step 3 finds it. -/
def ArmReq.counted (r : ArmReq) (occ : List Nat) : ArmReq := { r with free := 256 - occ.length }

/-- The request with its engines placed. -/
def ArmReq.placed (r : ArmReq) (out : List (Nat × Nat)) : ArmReq := { r with places := originsOf r.engines out }

section
variable {s : State} {core : Nat} {r : ArmReq} {occ : List Nat} (hocc : (s.occupied r core).eraseDups = occ)
include hocc

/-- A resource that is missing ends the request. -/
theorem State.armFit_resources {f : ArmFail} (h : firstFail (s.resourceChecks (r.counted occ) core) = some f) :
    s.armFit core r = s.armEnd core (r.counted occ) f.status f.index := by
  subst hocc
  unfold State.armFit
  dsimp only
  split
  · next g hg =>
    obtain rfl := Option.some.inj (h.symm.trans hg)
    rfl
  · next hg => exact nomatch h.symm.trans hg

variable (hres : firstFail (s.resourceChecks (r.counted occ) core) = none)
include hres

/-- An engine that finds no place ends the request. -/
theorem State.armFit_unplaced {f : ArmFail} (h : placeAll (s.reliefRoom (r.counted occ) core) r.engines (placeOrder r.engines) occ [] = .error f) :
    s.armFit core r = s.armEnd core (r.counted occ) f.status f.index := by
  subst hocc
  unfold State.armFit
  dsimp only
  split
  · next hg => exact nomatch hres.symm.trans hg
  · split
    · next g hg =>
      obtain rfl := Except.error.inj (h.symm.trans hg)
      rfl
    · next hg => exact nomatch h.symm.trans hg

/-- With every engine placed a Maquette run ends, and a formation goes on. -/
theorem State.armFit_placed {out : List (Nat × Nat)}
    (h : placeAll (s.reliefRoom (r.counted occ) core) r.engines (placeOrder r.engines) occ [] = .ok out) :
    s.armFit core r = if r.mode = 1 then s.armEnd core ((r.counted occ).placed out) 0 noIndex else some (s.armPlaced core ((r.counted occ).placed out)) := by
  subst hocc
  unfold State.armFit
  dsimp only
  split
  · next hg => exact nomatch hres.symm.trans hg
  · split
    · next hg => exact nomatch h.symm.trans hg
    · next out' hg =>
      obtain rfl := Except.ok.inj (h.symm.trans hg)
      rfl

end

/-! ## ARM_IMAGE_READ_DONE by step (02 R48) -/

section
variable {s : State} {core : Nat} {r : ArmReq} (ha : (s.core core).arm = some r) (hs : s.serving = true)
include ha hs

/-- An image that is not at a multiple of 64 cannot be read. -/
theorem opArmImageReadDone_misaligned (h1 : r.step = 1) (hi : r.image % 64 ≠ 0) :
    opArmImageReadDone core s = (s.armEnd core r 0x11 noIndex).getD s := by
  simp only [opArmImageReadDone, ha, hs, h1, hi, not_true_eq_false, if_false, if_true, ne_eq, not_false_eq_true]

/-- Nor can one whose header meets poison or a missing translation. -/
theorem opArmImageReadDone_unreadable (h1 : r.step = 1) (hi : r.image % 64 = 0) (hread : s.vaRead r.ctx (r.image + 0) 0x80 = some none) :
    opArmImageReadDone core s = ((s.vaConsume r.ctx (r.image + 0) 0x80).armEnd core r 0x11 noIndex).getD s := by
  simp only [opArmImageReadDone, ha, hs, h1, hi, not_true_eq_false, if_false, if_true, ne_eq, State.armRead_failed hread]

/-- Step 1 reads the header and goes on to step 2, or ends with the first check of the header that fails. -/
theorem opArmImageReadDone_head (h1 : r.step = 1) (hi : r.image % 64 = 0) {hd : List Byte} (hread : s.vaRead r.ctx (r.image + 0) 0x80 = some (some hd)) :
    (firstFail (headChecks hd) = none → opArmImageReadDone core s = s.setArm core { r with step := 2, head := hd })
      ∧ ∀ f, firstFail (headChecks hd) = some f → opArmImageReadDone core s = (s.armEnd core r f.status f.index).getD s := by
  constructor
  · intro h
    simp only [opArmImageReadDone, ha, hs, h1, hi, not_true_eq_false, if_false, if_true, ne_eq, State.armRead_ok hread, h, Option.getD_some]
  · intro f h
    simp only [opArmImageReadDone, ha, hs, h1, hi, not_true_eq_false, if_false, if_true, ne_eq, State.armRead_ok hread, h]

/-- The request with its tables read. -/
def ArmReq.tabled (r : ArmReq) (et st : List Byte) : ArmReq :=
  { r with
    step := 3, etab := et, stab := st, engines := (List.range (imgEngines r.head)).map (engEntry et)
    sections := (List.range (imgSections r.head)).map (secEntry st), signals := leAt r.head 0x26 2
    barriers := leAt r.head 0x24 1, monitors := leAt r.head 0x28 4 }

/-- Step 2 reads the tables and goes on to step 3, or ends with the first of their checks that fails. -/
theorem opArmImageReadDone_tables (h2 : r.step = 2) {et st : List Byte}
    (het : s.vaRead r.ctx (r.image + imgEtab r.head) (32 * imgEngines r.head) = some (some et))
    (hst : s.vaRead r.ctx (r.image + imgStab r.head) (32 * imgSections r.head) = some (some st)) :
    (firstFail (tableChecks r.head et st) = none → opArmImageReadDone core s = s.setArm core (r.tabled et st))
      ∧ ∀ f, firstFail (tableChecks r.head et st) = some f → opArmImageReadDone core s = (s.armEnd core (r.tabled et st) f.status f.index).getD s := by
  have h21 : (2 : Nat) ≠ 1 := by decide
  constructor
  · intro h
    simp only [opArmImageReadDone, ha, hs, h2, h21, not_true_eq_false, if_false, if_true, State.armRead_ok het, State.armRead_ok hst, h, Option.getD_some,
      ArmReq.tabled]
  · intro f h
    simp only [opArmImageReadDone, ha, hs, h2, h21, not_true_eq_false, if_false, if_true, State.armRead_ok het, State.armRead_ok hst, h, ArmReq.tabled]

/-- Step 3 reads the whole image and judges resources and placement, or ends with the first check of the image that fails. -/
theorem opArmImageReadDone_body (h3 : r.step = 3) {body : List Byte}
    (hread : s.vaRead r.ctx (r.image + 0) (imgSize r.head + if (imgFlags r.head).testBit 0 then 0x80 else 0) = some (some body)) :
    let checks := s.bodyChecks (s.ctx r.ctx).part (imgBytes r.head r.etab r.stab body)
    (firstFail checks = none → opArmImageReadDone core s = (s.armFit core r).getD s)
      ∧ ∀ f, firstFail checks = some f → opArmImageReadDone core s = (s.armEnd core r f.status f.index).getD s := by
  have h31 : (3 : Nat) ≠ 1 := by decide
  have h32 : (3 : Nat) ≠ 2 := by decide
  constructor
  · intro h
    simp only [opArmImageReadDone, ha, hs, h3, h31, h32, not_true_eq_false, if_false, if_true, State.armRead_ok hread, h]
  · intro f h
    simp only [opArmImageReadDone, ha, hs, h3, h31, h32, not_true_eq_false, if_false, if_true, State.armRead_ok hread, h]

end

end Sys2Proof.Machine
end

section
/-! SUPPORT. Clearing and preloading the cells of new engines (02 R41, R51, R52, R54): which cells a step writes, and what it leaves in them. -/

namespace Sys2Proof.Machine

/-! ## One element of a list in a fold -/

/-- Where one element of a list alone bears on a view of the state, those that stand apart from it not, a fold over the list changes that view as the element does. -/
theorem foldl_view {σ β α : Type} (view : σ → α) {f : σ → β → σ} {g : α → α} {apart : β → β → Prop} (hsymm : ∀ {a b}, apart a b → apart b a)
    {l : List β} (hl : l.Pairwise apart) {x : β} (hx : x ∈ l) (hother : ∀ t b, apart b x → view (f t b) = view t)
    (hself : ∀ t, view (f t x) = g (view t)) (s : σ) : view (l.foldl f s) = g (view s) := by
  obtain ⟨l₁, l₂, rfl⟩ := List.append_of_mem hx
  obtain ⟨-, hright, hcross⟩ := List.pairwise_append.mp hl
  have hkeep : ∀ (l : List β) (s : σ), (∀ b ∈ l, apart b x) → view (l.foldl f s) = view s := fun l s h =>
    List.foldlRecOn (motive := fun t => view t = view s) l f rfl fun t ht b hb => (hother t b (h b hb)).trans ht
  rw [List.foldl_append, List.foldl_cons, hkeep l₂ _ fun b hb => hsymm ((List.pairwise_cons.mp hright).1 b hb), hself,
    hkeep l₁ _ fun b hb => hcross b hb x List.mem_cons_self]

/-! ## Clearing a cell (02 R41) -/

theorem State.cell_setBank (s : State) (b : Nat) (x : Bank) (j : Nat) : (s.setBank b x).cell j = s.cell j := rfl

@[simp] theorem State.dropResv_cores (s : State) (k : Nat) : (s.dropResv k).cores = s.cores := by
  unfold State.dropResv
  dsimp only
  rw [State.setCell_cores]
  split <;> rfl

@[simp] theorem State.dropResv_flights (s : State) (k : Nat) : (s.dropResv k).flights = s.flights := by
  unfold State.dropResv
  dsimp only
  rw [State.setCell_flights]
  split <;> rfl

/-- A lost reservation changes its own cell only. -/
theorem State.cell_dropResv_of_ne (s : State) {k j : Nat} (h : j ≠ k) : (s.dropResv k).cell j = s.cell j := by
  unfold State.dropResv
  dsimp only
  rw [State.cell_setCell, if_neg h]
  split <;> rfl

@[simp] theorem State.clearCell_cores (s : State) (k : Nat) : (s.clearCell k).cores = s.cores := by
  rw [State.clearCell, State.setGather_cores, State.setFlight_cores, State.setCell_cores, State.dropResv_cores]

theorem State.cell_of_cells {s t : State} (h : t.cells = s.cells) (j : Nat) : t.cell j = s.cell j := congrArg (fun m : SMap Cell => m.at {} j) h

theorem State.flight_of_flights {s t : State} (h : t.flights = s.flights) (j : Nat) : t.flight j = s.flight j :=
  congrArg (fun m : SMap Flight => m.at {} j) h

theorem State.cell_clearCell (s : State) (k j : Nat) : (s.clearCell k).cell j = if j = k then {} else s.cell j := by
  have hcell : (s.clearCell k).cell j = ((s.dropResv k).setCell k {}).cell j := State.cell_of_cells (by
    rw [State.clearCell, State.setGather_cells, State.setFlight_cells]) j
  rw [hcell, State.cell_setCell]
  split
  · rfl
  · next h => exact State.cell_dropResv_of_ne s h

theorem State.flight_clearCell (s : State) (k j : Nat) : (s.clearCell k).flight j = if j = k then {} else s.flight j := by
  have hflight : (s.clearCell k).flight j = (((s.dropResv k).setCell k {}).setFlight k {}).flight j := State.flight_of_flights (by
    rw [State.clearCell, State.setGather_flights]) j
  rw [hflight, State.flight_setFlight]
  split
  · rfl
  · exact State.flight_of_flights (by rw [State.setCell_flights, State.dropResv_flights]) j

/-- The cells at several positions are cleared. -/
def State.clearCells (s : State) (core : Nat) (ps : List Nat) : State := ps.foldl (fun t p => t.clearCell (256 * core + p)) s

/-- A cell is cleared with the rest, and is then empty with nothing in flight; or it is none of them, and as it was. -/
theorem State.clearCells_cell (s : State) (core : Nat) (ps : List Nat) (j : Nat) :
    ((∃ p ∈ ps, j = 256 * core + p) ∧ (s.clearCells core ps).cell j = {} ∧ (s.clearCells core ps).flight j = {})
      ∨ ((∀ p ∈ ps, j ≠ 256 * core + p) ∧ (s.clearCells core ps).cell j = s.cell j ∧ (s.clearCells core ps).flight j = s.flight j) := by
  induction ps generalizing s with
  | nil => exact .inr ⟨fun _ hp => absurd hp List.not_mem_nil, rfl, rfl⟩
  | cons a ps ih =>
    have hcons : s.clearCells core (a :: ps) = (s.clearCell (256 * core + a)).clearCells core ps := rfl
    rw [hcons]
    obtain ⟨⟨p, hp, hj⟩, hclear⟩ | ⟨hout, hcell, hflight⟩ := ih (s.clearCell (256 * core + a))
    · exact .inl ⟨⟨p, List.mem_cons_of_mem _ hp, hj⟩, hclear⟩
    · rw [hcell, hflight, State.cell_clearCell, State.flight_clearCell]
      by_cases hj : j = 256 * core + a
      · rw [if_pos hj, if_pos hj]
        exact .inl ⟨⟨a, List.mem_cons_self, hj⟩, rfl, rfl⟩
      · rw [if_neg hj, if_neg hj]
        exact .inr ⟨List.forall_mem_cons.mpr ⟨hj, hout⟩, rfl, rfl⟩

/-! ## Preloading (02 R51, R52) -/

/-- A piece of a preload section is written in one cell: in its operand store, or in its Relief bank. -/
def State.preloadCell (s : State) (x : SecEntry) (key : Nat) (piece : List Byte) : State :=
  if x.typ = 2 then s.setCell key { s.cell key with ops := (s.cell key).ops.writeBytes x.dest piece } else (s.bankWrite key x.dest piece none).1

theorem State.preloadCell_cores (s : State) (x : SecEntry) (key : Nat) (piece : List Byte) : (s.preloadCell x key piece).cores = s.cores := by
  unfold State.preloadCell
  split
  · rfl
  · rfl

theorem State.cell_preloadCell (s : State) (x : SecEntry) (key : Nat) (piece : List Byte) (j : Nat) :
    (s.preloadCell x key piece).cell j
      = if j = key ∧ x.typ = 2 then { s.cell key with ops := (s.cell key).ops.writeBytes x.dest piece } else s.cell j := by
  unfold State.preloadCell
  by_cases ht : x.typ = 2
  · simp only [ht, if_true, and_true]
    exact State.cell_setCell ..
  · simp only [ht, if_false, and_false]
    exact State.cell_setBank ..

/-- The cells of an engine with the place of each among them. -/
def indexed (l : List Nat) : List (Nat × Nat) := l.mapIdx fun i p => (i, p)

theorem map_snd_indexed (l : List Nat) : (indexed l).map Prod.snd = l := by
  refine List.ext_getElem (by simp [indexed]) fun i _ _ => ?_
  simp [indexed]

theorem mem_of_mem_indexed {l : List Nat} {e : Nat × Nat} (h : e ∈ indexed l) : e.2 ∈ l := by
  rw [← map_snd_indexed l]
  exact List.mem_map_of_mem h

/-- The piece of a section for the i-th cell of an engine. -/
def SecEntry.piece (x : SecEntry) (d : List Byte) (i : Nat) : List Byte := if x.perCell then (d.drop (i * x.stride)).take x.stride else d

theorem State.preload_eq (s : State) (core origin k : Nat) (x : SecEntry) (d : List Byte) :
    s.preload core origin k x d = (indexed (rectOf origin k)).foldl (fun t e => t.preloadCell x (256 * core + e.2) (x.piece d e.1)) s := rfl

@[simp] theorem State.preload_cores (s : State) (core origin k : Nat) (x : SecEntry) (d : List Byte) : (s.preload core origin k x d).cores = s.cores := by
  rw [State.preload_eq]
  exact foldl_keeps (P := fun t : State => t.cores = s.cores) (fun t _ ht => (State.preloadCell_cores ..).trans ht) rfl _

/-- A preload writes cells of its engine only. -/
theorem State.cell_preload_of_notMem (s : State) {core origin k j : Nat} (x : SecEntry) (d : List Byte)
    (hj : ∀ p ∈ rectOf origin k, j ≠ 256 * core + p) : (s.preload core origin k x d).cell j = s.cell j := by
  rw [State.preload_eq]
  refine List.foldlRecOn (motive := fun t : State => t.cell j = s.cell j) _ _ rfl fun t ht e he => ?_
  rw [State.cell_preloadCell, if_neg fun h => hj _ (mem_of_mem_indexed he) h.1, ht]

/-- A shared section of operand-store data is written whole in each cell of an engine. -/
theorem State.ops_preload (s : State) {core origin k p : Nat} {x : SecEntry} (d : List Byte) (ht : x.typ = 2) (hx : x.perCell = false)
    (hnd : (rectOf origin k).Nodup) (hp : p ∈ rectOf origin k) :
    ((s.preload core origin k x d).cell (256 * core + p)).ops = (s.cell (256 * core + p)).ops.writeBytes x.dest d := by
  rw [← map_snd_indexed (rectOf origin k)] at hp hnd
  obtain ⟨e, he, rfl⟩ := List.mem_map.mp hp
  rw [State.preload_eq]
  refine foldl_view (fun t : State => (t.cell (256 * core + e.2)).ops) (g := fun m => m.writeBytes x.dest d) Ne.symm (List.pairwise_map.mp hnd) he
    (fun t b hb => ?_) (fun t => ?_) s
  · rw [State.cell_preloadCell, if_neg fun h => hb (by omega)]
  · rw [State.cell_preloadCell, if_pos ⟨rfl, ht⟩, SecEntry.piece, hx]
    rfl

/-! ## Forming an engine (02 R41, R54) -/

/-- The program counters of an engine's cells are set to its entry. -/
def State.setPcs (s : State) (core : Nat) (ps : List Nat) (entry : Nat) : State :=
  ps.foldl (fun t p => t.setCell (256 * core + p) { t.cell (256 * core + p) with pc := entry }) s

@[simp] theorem State.setPcs_cores (s : State) (core : Nat) (ps : List Nat) (entry : Nat) : (s.setPcs core ps entry).cores = s.cores :=
  foldl_keeps (P := fun t : State => t.cores = s.cores) (fun _ _ ht => (State.setCell_cores ..).trans ht) rfl ps

/-- A cell whose program counter is set keeps the rest. -/
theorem State.cell_setPcs (s : State) (core : Nat) (ps : List Nat) (entry j : Nat) :
    (s.setPcs core ps entry).cell j = if (∃ p ∈ ps, j = 256 * core + p) then { s.cell j with pc := entry } else s.cell j := by
  induction ps generalizing s with
  | nil => simp [State.setPcs]
  | cons a ps ih =>
    have hcons : s.setPcs core (a :: ps) entry = (s.setCell (256 * core + a) { s.cell (256 * core + a) with pc := entry }).setPcs core ps entry := rfl
    rw [hcons, ih, State.cell_setCell]
    by_cases ha : j = 256 * core + a
    · subst ha
      simp
    · simp [ha]

/-- The preload sections of an engine are written. -/
def State.preloadAll (s : State) (core origin : Nat) (e : EngEntry) (secs : List SecEntry) (data : List (Nat × List Byte)) : State :=
  (e.preloads secs).foldl (fun t p =>
    match data.find? fun d => d.1 == p.1 with
    | some d => t.preload core origin e.sizeLog2 p.2 d.2
    | none => t) s

theorem State.preloadAll_cores (s : State) (core origin : Nat) (e : EngEntry) (secs : List SecEntry) (data : List (Nat × List Byte)) :
    (s.preloadAll core origin e secs data).cores = s.cores := by
  refine foldl_keeps (P := fun t : State => t.cores = s.cores) (fun t p ht => ?_) rfl _
  split
  · exact (State.preload_cores ..).trans ht
  · exact ht

theorem State.cell_preloadAll_of_notMem (s : State) {core origin j : Nat} {e : EngEntry} (secs : List SecEntry) (data : List (Nat × List Byte))
    (hj : ∀ p ∈ rectOf origin e.sizeLog2, j ≠ 256 * core + p) : (s.preloadAll core origin e secs data).cell j = s.cell j := by
  refine foldl_keeps (P := fun t : State => t.cell j = s.cell j) (fun t p ht => ?_) rfl _
  split
  · exact (State.cell_preload_of_notMem t _ _ hj).trans ht
  · exact ht

/-- The engine that an entry of the table describes, with a place in the core's order of formation. -/
def ArmReq.engineOf (r : ArmReq) (e : EngEntry) (origin order : Nat) : Engine :=
  { formed := true, sizeLog2 := e.sizeLog2, origin := origin, ctx := r.ctx, entry := e.entry
    codeBase := r.image + ((r.sections[e.codeSec]?).getD ⟨0, 0, 0, 0, 0, 0⟩).offset, codeLen := ((r.sections[e.codeSec]?).getD ⟨0, 0, 0, 0, 0, 0⟩).length
    opstore := e.opstore, relief := e.relief, order := order }

/-- An engine is formed: its sections are written, its cells stand at the entry, and the map of engines holds it. -/
theorem State.formEngine_eq (s : State) (core : Nat) (r : ArmReq) (data : List (Nat × List Byte)) (e : EngEntry) (origin : Nat) :
    s.formEngine core r data e origin = ((s.preloadAll core origin e r.sections data).setPcs core (rectOf origin e.sizeLog2) e.entry).setCore core
      { s.core core with engines := (s.core core).engines.put {} e.engine (r.engineOf e origin ((s.core core).formed + 1)), formed := (s.core core).formed + 1 } := by
  have hcore : ((s.preloadAll core origin e r.sections data).setPcs core (rectOf origin e.sizeLog2) e.entry).core core = s.core core :=
    State.core_of_cores ((State.setPcs_cores ..).trans (State.preloadAll_cores ..)) core
  rw [← hcore]
  rfl

theorem State.core_formEngine (s : State) (core : Nat) (r : ArmReq) (data : List (Nat × List Byte)) (e : EngEntry) (origin : Nat) :
    (s.formEngine core r data e origin).core core
      = { s.core core with engines := (s.core core).engines.put {} e.engine (r.engineOf e origin ((s.core core).formed + 1)), formed := (s.core core).formed + 1 } := by
  rw [State.formEngine_eq, State.core_setCore_self]

theorem State.engine_formEngine (s : State) (core : Nat) (r : ArmReq) (data : List (Nat × List Byte)) (e : EngEntry) (origin n : Nat) :
    (s.formEngine core r data e origin).engine core n = if n = e.engine then r.engineOf e origin ((s.core core).formed + 1) else s.engine core n := by
  rw [State.engine, State.core_formEngine]
  exact SMap.at_put (s.core core).engines {} e.engine n (r.engineOf e origin ((s.core core).formed + 1))

theorem State.cell_formEngine (s : State) (core : Nat) (r : ArmReq) (data : List (Nat × List Byte)) (e : EngEntry) (origin j : Nat) :
    (s.formEngine core r data e origin).cell j = ((s.preloadAll core origin e r.sections data).setPcs core (rectOf origin e.sizeLog2) e.entry).cell j := by
  rw [State.formEngine_eq]
  exact State.cell_of_cells (State.setCore_cells ..) j

/-- Cells outside an engine are as they were. -/
theorem State.cell_formEngine_of_notMem (s : State) {core origin j : Nat} (r : ArmReq) (data : List (Nat × List Byte)) {e : EngEntry}
    (hj : ∀ p ∈ rectOf origin e.sizeLog2, j ≠ 256 * core + p) : (s.formEngine core r data e origin).cell j = s.cell j := by
  rw [State.cell_formEngine, State.cell_setPcs, if_neg fun ⟨p, hp, h⟩ => hj p hp h, State.cell_preloadAll_of_notMem s _ _ hj]

/-- The cells of an engine stand at its entry. -/
theorem State.pc_formEngine (s : State) {core origin p : Nat} (r : ArmReq) (data : List (Nat × List Byte)) {e : EngEntry}
    (hp : p ∈ rectOf origin e.sizeLog2) : ((s.formEngine core r data e origin).cell (256 * core + p)).pc = e.entry := by
  rw [State.cell_formEngine, State.cell_setPcs, if_pos ⟨p, hp, rfl⟩]

/-- The operand stores of an engine with one shared section hold its bytes. -/
theorem State.ops_formEngine (s : State) {core origin p j : Nat} {r : ArmReq} {data : List (Nat × List Byte)} {e : EngEntry} {x : SecEntry} {d : List Byte}
    (hpre : e.preloads r.sections = [(j, x)]) (ht : x.typ = 2) (hx : x.perCell = false) (hd : (data.find? fun z => z.1 == j) = some (j, d))
    (hnd : (rectOf origin e.sizeLog2).Nodup) (hp : p ∈ rectOf origin e.sizeLog2) :
    ((s.formEngine core r data e origin).cell (256 * core + p)).ops = (s.cell (256 * core + p)).ops.writeBytes x.dest d := by
  have hone : s.preloadAll core origin e r.sections data = s.preload core origin e.sizeLog2 x d := by
    rw [State.preloadAll, hpre, List.foldl_cons, List.foldl_nil, hd]
  rw [State.cell_formEngine, State.cell_setPcs, if_pos ⟨p, hp, rfl⟩, hone]
  exact State.ops_preload s d ht hx hnd hp

end Sys2Proof.Machine
end

section
/-! SUPPORT. The end of a formation (02 R41, R44, R54, 06 R181): its engines, its cells and its blocks. -/

namespace Sys2Proof.Machine

/-- Pairs of two lists stand to each other as their first components do. -/
theorem pairwise_zip_of_fst {α β : Type} {rel : α → α → Prop} {l : List α} (h : l.Pairwise rel) (m : List β) :
    (l.zip m).Pairwise fun a b => rel a.1 b.1 := by
  rw [List.zip_eq_zip_take_min, ← List.pairwise_map (f := Prod.fst), List.map_fst_zip (by simp)]
  exact h.sublist (List.take_sublist ..)

/-- The engines of a placed request are formed. -/
def State.formAll (s : State) (core : Nat) (r : ArmReq) (data : List (Nat × List Byte)) : State :=
  (r.engines.zip r.places).foldl (fun t p => t.formEngine core r data p.1 p.2) s

/-- The blocks of a placed request are claimed, and its context is in the rotation. -/
def State.armCommit (s : State) (core : Nat) (r : ArmReq) : State :=
  s.setCore core { s.core core with
    claims := r.blocks.foldl (fun m b => m.put 0 b (r.ctx + 1)) (s.core core).claims
    rotation := if (s.core core).rotation.contains r.ctx then (s.core core).rotation else (s.core core).rotation ++ [r.ctx] }

/-- The preload sections that a request names, once each. -/
def ArmReq.preloadKeys (r : ArmReq) : List Nat := (r.engines.flatMap fun e => (e.preloads r.sections).map fun p => p.1).eraseDups

/-- A formation whose data has been read forms its engines, commits them and ends. -/
theorem opArmPreloadDone_formed {s : State} {core : Nat} {r : ArmReq} {data : List (Nat × List Byte)} (ha : (s.core core).arm = some r)
    (hs : s.serving = true) (h6 : r.step = 6) (hl : r.lost = false) (hdata : s.armData r r.preloadKeys = some (some data)) :
    opArmPreloadDone core s = (((s.formAll core r data).armCommit core r).armEnd core r 0 noIndex).getD s := by
  rw [ArmReq.preloadKeys] at hdata
  simp only [opArmPreloadDone, ha, hs, h6, hl, hdata, not_true_eq_false, ne_eq, or_self, Bool.false_eq_true, if_false]
  rfl

section
variable (s : State) (core : Nat) {r : ArmReq} (data : List (Nat × List Byte)) {x : EngEntry × Nat} (hx : x ∈ r.engines.zip r.places)
include hx

/-- Each entry of the table has its engine, where the entries name different engines. -/
theorem State.engine_formAll (hnd : (r.engines.map fun e => e.engine).Nodup) :
    ∃ order, (s.formAll core r data).engine core x.1.engine = r.engineOf x.1 x.2 order := by
  refine of_eq_true (foldl_view (fun t : State => ∃ order, t.engine core x.1.engine = r.engineOf x.1 x.2 order) (g := fun _ => True) Ne.symm
    (pairwise_zip_of_fst (List.pairwise_map.mp hnd) r.places) hx (fun t b hb => ?_) (fun t => ?_) s)
  · rw [State.engine_formEngine, if_neg hb.symm]
  · rw [State.engine_formEngine, if_pos rfl]
    exact eq_true ⟨_, rfl⟩

section
variable {p : Nat} (hnd : r.positions.Nodup) (hp : p ∈ rectOf x.2 x.1.sizeLog2)
include hnd hp

/-- A view of one engine's cell is changed by the forming of that engine alone. -/
theorem State.cell_formAll {α : Type} (view : Cell → α) {g : α → α}
    (hself : ∀ t : State, view ((t.formEngine core r data x.1 x.2).cell (256 * core + p)) = g (view (t.cell (256 * core + p)))) :
    view ((s.formAll core r data).cell (256 * core + p)) = g (view (s.cell (256 * core + p))) := by
  refine foldl_view (fun t : State => view (t.cell (256 * core + p))) List.Disjoint.symm (List.nodup_flatMap.mp hnd).2 hx (fun t b hb => ?_) hself s
  have hout : ∀ q ∈ rectOf b.2 b.1.sizeLog2, 256 * core + p ≠ 256 * core + q := fun q hq h => hb hq (by rwa [← Nat.add_left_cancel h])
  rw [State.cell_formEngine_of_notMem t r data hout]

/-- Every cell of the new engines stands at its engine's entry. -/
theorem State.pc_formAll : ((s.formAll core r data).cell (256 * core + p)).pc = x.1.entry :=
  State.cell_formAll s core data hx hnd hp Cell.pc (g := fun _ => x.1.entry) fun t => State.pc_formEngine t r data hp

/-- A shared section of operand-store data stands in every cell of its engine. -/
theorem State.ops_formAll {j : Nat} {y : SecEntry} {d : List Byte} (hpre : x.1.preloads r.sections = [(j, y)]) (ht : y.typ = 2) (hy : y.perCell = false)
    (hd : (data.find? fun z => z.1 == j) = some (j, d)) :
    ((s.formAll core r data).cell (256 * core + p)).ops = (s.cell (256 * core + p)).ops.writeBytes y.dest d :=
  State.cell_formAll s core data hx hnd hp Cell.ops (g := fun m => m.writeBytes y.dest d) fun t =>
    State.ops_formEngine t hpre ht hy hd ((List.nodup_flatMap.mp hnd).1 x hx) hp

end

end

/-- A block of a list that is claimed is claimed. -/
theorem at_foldl_put (bs : List Nat) (c b : Nat) (m : SMap Nat) : (bs.foldl (fun m b => m.put 0 b c) m).at 0 b = if b ∈ bs then c else m.at 0 b := by
  induction bs generalizing m with
  | nil => simp
  | cons a bs ih =>
    rw [List.foldl_cons, ih, SMap.at_put]
    by_cases hb : b ∈ bs
    · simp [hb]
    · by_cases ha : b = a <;> simp [hb, ha]

/-- Committing claims the request's blocks for its context. -/
theorem State.claimant_armCommit (s : State) (core : Nat) {r : ArmReq} {b : Nat} (hb : b ∈ r.blocks) : (s.armCommit core r).claimant core b = some r.ctx := by
  have hclaim : ((s.armCommit core r).core core).claims.at 0 b = r.ctx + 1 := by
    rw [State.armCommit, State.core_setCore_self]
    exact (at_foldl_put r.blocks (r.ctx + 1) b _).trans (if_pos hb)
  rw [State.claimant, hclaim]
  rfl

/-- Committing puts the request's context in the rotation. -/
theorem State.rotation_armCommit (s : State) (core : Nat) (r : ArmReq) : r.ctx ∈ ((s.armCommit core r).core core).rotation := by
  rw [State.armCommit, State.core_setCore_self]
  dsimp only
  split
  · next h => exact List.contains_iff_mem.mp h
  · exact List.mem_append_right _ List.mem_cons_self

@[simp] theorem State.engine_armCommit (s : State) (core n : Nat) (r : ArmReq) : (s.armCommit core r).engine core n = s.engine core n := by
  rw [State.armCommit, State.engine, State.core_setCore_self]
  rfl

/-! ## The results of ARM_IMAGE_READ_DONE -/

/-- A read that goes on leaves the request in its next step, and memory and the cells as they were. -/
theorem exec_armImageReadDone_goes {s : State} {core : Nat} {y : ArmReq} (h : opArmImageReadDone core s = s.setArm core y) :
    ∃ t, exec (.armImageReadDone core) s = .next t ∧ (t.core core).arm = some y ∧ t.mem = s.mem ∧ t.cells = s.cells :=
  ⟨_, congrArg Host.Outcome.next h, congrArg Core.arm (State.core_setCore_self ..), State.setCore_mem .., State.setCore_cells ..⟩

/-- A request without a result record that ends shows its status, and leaves the cells. -/
theorem exec_armImageReadDone_ends {s u : State} {core status index : Nat} {y : ArmReq}
    (h : opArmImageReadDone core s = (u.armEnd core y status index).getD s) (hy : y.record = 0) (hst : status < 256) (hu : u.cells = s.cells) :
    ∃ t, exec (.armImageReadDone core) s = .next t ∧ ((t.core core).arm = none ∧ t.fld (armPage core) .armReqStat Fld.armReqStat_status = status
      ∧ t.fld (armPage core) .armReqStat Fld.armReqStat_done = 1) ∧ t.cells = s.cells := by
  obtain ⟨t, ht, hended⟩ := u.armEnd_of_noRecord core index hy hst
  rw [ht] at h
  exact ⟨t, congrArg Host.Outcome.next h, ⟨by rw [hended.core_eq], hended.status_eq, hended.done_eq⟩, hended.cells_eq.trans hu⟩

/-- In step 5 the cells of the new engines are cleared, and the request goes on to step 6. -/
theorem exec_armCellsCleared {s : State} {core : Nat} {r : ArmReq} (ha : (s.core core).arm = some r) (hs : s.serving = true) (h5 : r.step = 5) :
    exec (.armCellsCleared core) s = .next ((s.clearCells core r.positions).setArm core { r with step := 6 }) := by
  refine congrArg Host.Outcome.next ?_
  have hgo : (s.serving && r.step == 5) = true := by rw [hs, h5]; rfl
  simp only [opArmCellsCleared, ha]
  exact if_pos hgo

end Sys2Proof.Machine
end

section
/-! Formation: the obligation, from the rules above. -/

namespace Sys2Proof.Machine

/-- Settles O36: each part of an image is read and checked, clearing leaves the cells zero, and preloading leaves engines at their entry. -/
theorem formationSteps : Obligations.FormationSteps := by
  unfold Obligations.FormationSteps
  intro core s r hs ha pk ended goes ends read tables occ fit
  refine ⟨fun h1 => ⟨fun hi hr => ?_, fun hi hread hr => ?_, fun hd hi hread => ?_⟩, fun et st h2 het hst => ?_, fun body h3 hread => ?_, fun h5 => ?_,
    fun data h6 hr hl hdata hengines hpositions => ?_⟩
  · exact exec_armImageReadDone_ends (opArmImageReadDone_misaligned ha hs h1 hi) hr (by decide) rfl
  · exact exec_armImageReadDone_ends (opArmImageReadDone_unreadable ha hs h1 hi hread) hr (by decide) (State.vaConsume_cells ..)
  · obtain ⟨hgo, hfail⟩ := opArmImageReadDone_head ha hs h1 hi hread
    exact ⟨fun h => exec_armImageReadDone_goes (hgo h), fun f h hr => exec_armImageReadDone_ends (hfail f h) hr ((headChecks_fit hd).firstFail h) rfl⟩
  · obtain ⟨hgo, hfail⟩ := opArmImageReadDone_tables ha hs h2 het hst
    exact ⟨fun h => exec_armImageReadDone_goes (hgo h), fun f h hr => exec_armImageReadDone_ends (hfail f h) hr ((tableChecks_fit _ et st).firstFail h) rfl⟩
  · obtain ⟨hfit, hfail⟩ := opArmImageReadDone_body ha hs h3 hread
    refine ⟨fun f h hr => exec_armImageReadDone_ends (hfail f h) hr ((State.bodyChecks_fit s _ _).firstFail h) rfl, fun hok => ?_⟩
    have hop : opArmImageReadDone core s = (s.armFit core r).getD s := hfit hok
    refine ⟨fun f h hr => ?_, fun hres => ⟨fun f h hr => ?_, fun out h => ⟨fun hm hr => ?_, fun hm => ?_⟩⟩⟩
    · exact exec_armImageReadDone_ends (hop.trans (congrArg (Option.getD · s) (State.armFit_resources rfl h))) hr ((State.resourceChecks_fit s _ core).firstFail h) rfl
    · exact exec_armImageReadDone_ends (hop.trans (congrArg (Option.getD · s) (State.armFit_unplaced rfl hres h))) hr (placeAll_error _ _ _ h) rfl
    · rw [State.armFit_placed rfl hres h, if_pos hm] at hop
      exact exec_armImageReadDone_ends hop hr (by decide) rfl
    · rw [State.armFit_placed rfl hres h, if_neg hm] at hop
      exact ⟨_, congrArg Host.Outcome.next hop, State.armPlaced_arm ..⟩
  · refine ⟨_, exec_armCellsCleared ha hs h5, congrArg Core.arm (State.core_setCore_self ..), fun p hp => ?_, fun j hj => ?_⟩
    · obtain ⟨-, hclear⟩ | ⟨hout, -⟩ := s.clearCells_cell core r.positions (256 * core + p)
      · exact hclear
      · exact absurd rfl (hout p hp)
    · obtain ⟨⟨p, hp, hjp⟩, -⟩ | ⟨-, hcell, -⟩ := s.clearCells_cell core r.positions j
      · exact absurd hjp (hj p hp)
      · exact hcell
  · obtain ⟨t, ht, hended⟩ := ((s.formAll core r data).armCommit core r).armEnd_of_noRecord core (status := 0) noIndex hr (by decide)
    have hop : opArmPreloadDone core s = t := (opArmPreloadDone_formed ha hs h6 hl hdata).trans (congrArg (Option.getD · s) ht)
    have hcell : ∀ j, t.cell j = (s.formAll core r data).cell j := State.cell_of_cells (hended.cells_eq.trans (State.setCore_cells ..))
    refine ⟨t, congrArg Host.Outcome.next hop, ⟨by rw [hended.core_eq], hended.status_eq, hended.done_eq⟩, fun b hb => ?_, ?_, fun x hx => ?_⟩
    · rw [State.claimant, hended.core_eq]
      exact State.claimant_armCommit _ core hb
    · rw [hended.core_eq]
      exact State.rotation_armCommit ..
    · intro g
      obtain ⟨order, horder⟩ := State.engine_formAll s core data hx hengines
      have hg : g = r.engineOf x.1 x.2 order := (hended.engine_eq _).trans ((State.engine_armCommit ..).trans horder)
      rw [hg]
      refine ⟨rfl, rfl, rfl, rfl, rfl, rfl, rfl, fun p hp => ?_, fun j y d hpre hty hy hd p hp => ?_⟩
      · rw [hcell]
        exact State.pc_formAll s core data hx hpositions hp
      · rw [hcell]
        exact State.ops_formAll s core data hx hpositions hp hpre hty hy hd

end Sys2Proof.Machine
end

section
/-! SUPPORT. What operations on memory leave: the cores, the queues and the package flash, whatever they recall, evict, write back, poison or log. -/

namespace Sys2Proof.Machine

/-- The cores, the queues and the package flash. -/
def State.control (s : State) : SMap Core × SMap Queue × Flash := (s.cores, s.pl.queues, s.flash)

section
variable {s t : State}

theorem State.cores_of_control (h : t.control = s.control) : t.cores = s.cores := congrArg (·.1) h
theorem State.queues_of_control (h : t.control = s.control) : t.pl.queues = s.pl.queues := congrArg (·.2.1) h
theorem State.flash_of_control (h : t.control = s.control) : t.flash = s.flash := congrArg (·.2.2) h

theorem State.queues_of_objects (h : t.objects = s.objects) : t.pl.queues = s.pl.queues := by
  have hqueues : t.objects.queues = s.objects.queues := congrArg Plinth.queues h
  exact hqueues

theorem State.control_of_pl (hcores : t.cores = s.cores) (hpl : t.pl = s.pl) (hflash : t.flash = s.flash) : t.control = s.control := by
  rw [State.control, hcores, hpl, hflash, State.control]

end

/-- A fold leaves the control state where each of its steps does. -/
theorem State.control_foldl {β : Type} {f : State → β → State} (hf : ∀ t b, (f t b).control = t.control) (l : List β) (s : State) :
    (l.foldl f s).control = s.control :=
  foldl_keeps (P := fun t : State => t.control = s.control) (fun t b h => (hf t b).trans h) rfl l

/-! ## Writes of one part of the state -/

@[simp] theorem State.control_withMem (s : State) (m : MemSys) : State.control { s with mem := m } = s.control := rfl
@[simp] theorem State.setCell_control (s : State) (k : Nat) (x : Cell) : (s.setCell k x).control = s.control := rfl
@[simp] theorem State.setFlight_control (s : State) (k : Nat) (x : Flight) : (s.setFlight k x).control = s.control := rfl
@[simp] theorem State.setGather_control (s : State) (k : Nat) (x : Gather) : (s.setGather k x).control = s.control := rfl
@[simp] theorem State.setBank_control (s : State) (k : Nat) (x : Bank) : (s.setBank k x).control = s.control := rfl
@[simp] theorem State.setMon_control (s : State) (n : Nat) (x : MonSlot) : (s.setMon n x).control = s.control := rfl
@[simp] theorem State.setHline_control (s : State) (k : Nat) (x : HostLine) : (s.setHline k x).control = s.control := rfl
@[simp] theorem State.send_control (s : State) (f : Nat) (m : OutMsg) : (s.send f m).control = s.control := rfl
@[simp] theorem State.drew_control (s : State) (n : Nat) : (s.drew n).control = s.control := rfl
@[simp] theorem State.wr_control (s : State) (a : Nat) (w : Word) : (s.wr a w).control = s.control := rfl
@[simp] theorem State.setFld_control (s : State) (a : Nat) (r : Reg) (f : Fld) (v : Nat) : (s.setFld a r f v).control = s.control := rfl
@[simp] theorem State.bump_control (s : State) (a : Nat) (r : Reg) (f : Fld) (n : Nat) : (s.bump a r f n).control = s.control := rfl

@[simp] theorem State.bumpCore_control (s : State) (c a : Nat) (r : Reg) (f : Fld) (n : Nat) : (s.bumpCore c a r f n).control = s.control :=
  State.control_of_pl (State.bumpCore_cores ..) (State.bumpCore_pl ..) (State.bumpCore_flash ..)

@[simp] theorem State.queueRecast_control (s : State) (a b : Nat) : (s.queueRecast a b).control = s.control :=
  State.control_of_pl (State.queueRecast_cores ..) (State.queueRecast_pl ..) (State.queueRecast_flash ..)

@[simp] theorem State.carveAccess_control (s : State) (l : Nat) (w : Bool) : (s.carveAccess l w).control = s.control :=
  State.control_of_pl (State.carveAccess_cores ..) (State.carveAccess_pl ..) (State.carveAccess_flash ..)

@[simp] theorem State.countSnoop_control (s : State) (a l : Nat) : (s.countSnoop a l).control = s.control :=
  State.control_of_pl (State.countSnoop_cores ..) (State.countSnoop_pl ..) (State.countSnoop_flash ..)

@[simp] theorem State.logEvent_control (s : State) (k : Nat) (p : Option Nat) (a b c d : Nat) : (s.logEvent k p a b c d).control = s.control := by
  rw [State.control, State.logEvent_cores, State.logEvent_flash, State.queues_of_objects (State.logEvent_objects ..), State.control]

/-! ## Lines of device memory -/

@[simp] theorem State.poisonLine_control (s : State) (line cause : Nat) : (s.poisonLine line cause).control = s.control := by
  unfold State.poisonLine
  dsimp only
  have hcount : ∀ t : State, (if cause = 1 ∨ cause = 3 then t.bump (homePage (stackOf s.wide (64 * line)).1) .hmErrcnt Fld.hmErrcnt_uncorr 1
      else if cause = 2 then t.bump (homePage (stackOf s.wide (64 * line)).1) .hmErrcnt Fld.hmErrcnt_tagfail 1 else t).control = t.control := by
    intro t
    split
    · exact State.bump_control ..
    · split
      · exact State.bump_control ..
      · rfl
  split
  · split
    · rw [State.queueRecast_control, State.logEvent_control, State.setFld_control, State.setFld_control, State.setFld_control, hcount, State.control_withMem]
    · rw [State.logEvent_control, State.setFld_control, State.setFld_control, State.setFld_control, hcount, State.control_withMem]
  · rw [State.logEvent_control, State.setFld_control, State.setFld_control, State.setFld_control, hcount, State.control_withMem]

theorem State.takeFrom_control (line : Nat) (s : State) (agent : Nat) : (State.takeFrom line s agent).control = s.control := by
  have hsnoop : (if (s.mem.dirAt line).names agent then s.countSnoop agent line else s).control = s.control := by
    split
    · exact State.countSnoop_control ..
    · rfl
  unfold State.takeFrom
  dsimp only
  split
  · exact hsnoop
  · rw [State.control_withMem]
    split
    · exact (State.carveAccess_control ..).trans hsnoop
    · exact hsnoop

@[simp] theorem State.clearResvOn_control (s : State) (line : Nat) (keep : Option Nat) : (s.clearResvOn line keep).control = s.control := rfl
@[simp] theorem State.clearResv_control (s : State) (core line : Nat) : (s.clearResv core line).control = s.control := rfl
@[simp] theorem State.clearResvBut_control (s : State) (core line own : Nat) : (s.clearResvBut core line own).control = s.control := rfl
@[simp] theorem State.clearHostResv_control (s : State) (line own : Nat) : (s.clearHostResv line own).control = s.control := rfl

@[simp] theorem State.recall_control (s : State) (line : Nat) (keep : Option Nat) : (s.recall line keep).control = s.control := by
  unfold State.recall
  dsimp only
  rw [State.control_withMem, State.clearResvOn_control, State.control_foldl (State.takeFrom_control line)]

@[simp] theorem State.writeBackOp_control (s : State) (agent line : Nat) : (s.writeBackOp agent line).control = s.control := by
  unfold State.writeBackOp
  dsimp only
  split
  · rfl
  · split
    · rw [State.poisonLine_control, State.clearResv_control, State.control_withMem, State.carveAccess_control]
    · rw [State.clearResv_control, State.control_withMem, State.carveAccess_control]

@[simp] theorem State.evict_control (s : State) (agent line : Nat) : (s.evict agent line).control = s.control := by
  unfold State.evict
  split
  · rfl
  · split
    · exact State.writeBackOp_control ..
    · rw [State.clearResv_control, State.control_withMem]

@[simp] theorem State.makeRoom_control (s : State) (agent line : Nat) : (s.makeRoom agent line).control = s.control := by
  unfold State.makeRoom
  dsimp only
  split
  · rfl
  · split
    · rw [State.drew_control, State.evict_control]
    · rfl

@[simp] theorem State.ownOp_control (s : State) (agent line : Nat) : (s.ownOp agent line).control = s.control := by
  have hroom : ((s.makeRoom agent line).recall line (some agent)).control = s.control := by rw [State.recall_control, State.makeRoom_control]
  unfold State.ownOp
  extract_lets s0 own s1 m base c
  rw [State.control_withMem]
  show (if own.all fun c => c.st == .pending then s0.carveAccess line false else s0).control = s.control
  split
  · exact (State.carveAccess_control ..).trans hroom
  · exact hroom

@[simp] theorem State.lineWrite_control (s : State) (line mask : Nat) (data : Line) : (s.lineWrite line mask data).1.control = s.control := by
  unfold State.lineWrite
  split
  · split <;> rfl
  · rfl

@[simp] theorem State.homeWrite_control (s : State) (line mask : Nat) (data : Line) : (s.homeWrite line mask data).1.control = s.control := by
  rw [State.homeWrite, State.lineWrite_control, State.carveAccess_control, State.recall_control]

@[simp] theorem State.coreStore_control (s : State) (core line mask : Nat) (data : Line) : (s.coreStore core line mask data).1.control = s.control := by
  unfold State.coreStore
  dsimp only
  split
  · rfl
  · split <;> rfl

/-! ## Lines of host memory -/

@[simp] theorem State.hostCount_control (s : State) (hit : Bool) : (s.hostCount hit).control = s.control := State.bump_control ..

@[simp] theorem State.noteHostWriter_control (s : State) (line ctx : Nat) : (s.noteHostWriter line ctx).control = s.control := by
  unfold State.noteHostWriter
  dsimp only
  split <;> rfl

@[simp] theorem State.hostEvict_control (s : State) (line : Nat) (l : HostLine) : (s.hostEvict line l).control = s.control := by
  unfold State.hostEvict
  dsimp only
  split
  · rw [State.send_control, State.clearHostResv_control, State.control_withMem]
  · rw [State.send_control, State.clearHostResv_control, State.control_withMem]

theorem State.hostRoom_control {s t : State} {line : Nat} (h : s.hostRoom line = some t) : t.control = s.control := by
  unfold State.hostRoom at h
  split at h
  · rw [Option.some.inj h]
  · obtain ⟨e, -, rfl⟩ := Option.map_eq_some_iff.mp h
    rw [State.drew_control, State.hostEvict_control]

theorem State.hostStore_control {s t : State} {line mask : Nat} {data : Line} {ctx : Nat} (h : s.hostStore line mask data ctx = some t) :
    t.control = s.control := by
  unfold State.hostStore at h
  split at h
  · dsimp only at h
    split at h
    · rw [← Option.some.inj h, State.setHline_control, State.hostCount_control]
    · rw [← Option.some.inj h, State.noteHostWriter_control, State.setHline_control, State.hostCount_control]
  · obtain ⟨u, hu, rfl⟩ := Option.map_eq_some_iff.mp h
    rw [State.noteHostWriter_control, State.setHline_control, State.hostCount_control, State.hostRoom_control hu]

/-! ## A cell's store -/

/-- A store that is done leaves the control state, wherever it went. -/
theorem State.storeAt_control {s t : State} {core ctx : Nat} {na : Bool} {own : Option Nat} {g : Place} {mask : Nat} {data : Line} {code : Option Nat}
    {early : Option (Nat × Bool)} (h : s.storeAt core ctx na own g mask data = .done t code early) : t.control = s.control := by
  have hput : ∀ (u : State) (line : Nat), ((u.coreStore core line mask data).1.clearResvBut core line (own.getD 0x10000)).control = u.control := fun u line => by
    rw [State.clearResvBut_control, State.coreStore_control]
  unfold State.storeAt at h
  split at h
  case h_1 a =>
    dsimp only at h
    split at h
    · split at h
      · cases h
      · rw [← (Stored.done.inj h).1]
        exact hput ..
    · split at h
      · cases h
      · split at h
        · rw [← (Stored.done.inj h).1]
          split
          · rw [State.setCell_control, State.homeWrite_control]
          · exact State.homeWrite_control ..
        · split at h
          · rw [← (Stored.done.inj h).1, hput, State.ownOp_control]
          · cases h
  case h_2 k off =>
    rw [← (Stored.done.inj h).1, State.setBank_control]
  case h_3 a =>
    split at h
    · cases h
    · next u hu =>
      rw [← (Stored.done.inj h).1, State.clearHostResv_control, State.hostStore_control hu]
  case h_4 c a =>
    rw [← (Stored.done.inj h).1]

end Sys2Proof.Machine
end

section
/-! SUPPORT. Stopping, cutting and halting one engine (04 R111, 05 R172, 02 R57) leave the other engines of its core, its Armature request and its quarantines, and the queues. -/

namespace Sys2Proof.Machine

/-- What lies beyond one engine of a core: the queues, and of the core its request, its quarantines and its other engines. -/
def State.beyond (s : State) (core eng : Nat) : SMap Queue × Option ArmReq × List Quar × (Nat → Engine) :=
  (s.pl.queues, (s.core core).arm, (s.core core).quars, fun n => if n = eng then {} else s.engine core n)

section
variable {s t : State} {core eng : Nat}

theorem State.queues_of_beyond (h : t.beyond core eng = s.beyond core eng) : t.pl.queues = s.pl.queues := congrArg (·.1) h
theorem State.armReq_of_beyond (h : t.beyond core eng = s.beyond core eng) : (t.core core).arm = (s.core core).arm := congrArg (·.2.1) h
theorem State.quars_of_beyond (h : t.beyond core eng = s.beyond core eng) : (t.core core).quars = (s.core core).quars := congrArg (·.2.2.1) h

theorem State.engine_of_beyond (h : t.beyond core eng = s.beyond core eng) {n : Nat} (hn : n ≠ eng) : t.engine core n = s.engine core n := by
  have hengine := congrFun (congrArg (·.2.2.2) h) n
  dsimp only [State.beyond] at hengine
  rwa [if_neg hn, if_neg hn] at hengine

theorem State.beyond_of_core (hqueues : t.pl.queues = s.pl.queues) (hcore : t.core core = s.core core) : t.beyond core eng = s.beyond core eng := by
  unfold State.beyond State.engine
  rw [hqueues, hcore]

theorem State.beyond_of_control (h : t.control = s.control) : t.beyond core eng = s.beyond core eng :=
  State.beyond_of_core (State.queues_of_control h) (State.core_of_cores (State.cores_of_control h) core)

end

section
variable (s : State) (core eng : Nat)

@[simp] theorem State.setEngine_beyond (x : Engine) : (s.setEngine core eng x).beyond core eng = s.beyond core eng := by
  unfold State.beyond
  rw [State.setEngine_pl, State.setEngine, State.core_setCore_self]
  refine congrArg (fun f => (s.pl.queues, (s.core core).arm, (s.core core).quars, f)) (funext fun n => ?_)
  split
  · rfl
  · next hn => rw [← State.setEngine, State.engine_setEngine, if_neg (fun h => hn h.2)]

@[simp] theorem State.setCell_beyond (k : Nat) (x : Cell) : (s.setCell k x).beyond core eng = s.beyond core eng := State.beyond_of_control (State.setCell_control ..)
@[simp] theorem State.setFlight_beyond (k : Nat) (x : Flight) : (s.setFlight k x).beyond core eng = s.beyond core eng :=
  State.beyond_of_control (State.setFlight_control ..)
@[simp] theorem State.setGather_beyond (k : Nat) (x : Gather) : (s.setGather k x).beyond core eng = s.beyond core eng :=
  State.beyond_of_control (State.setGather_control ..)
@[simp] theorem State.drew_beyond (n : Nat) : (s.drew n).beyond core eng = s.beyond core eng := State.beyond_of_control (State.drew_control ..)

/-- A fold leaves what lies beyond an engine where each of its steps does. -/
theorem State.beyond_foldl {β : Type} {f : State → β → State} (hf : ∀ t b, (f t b).beyond core eng = t.beyond core eng) (l : List β) :
    (l.foldl f s).beyond core eng = s.beyond core eng :=
  foldl_keeps (P := fun t : State => t.beyond core eng = s.beyond core eng) (fun t b h => (hf t b).trans h) rfl l

/-! ## Stopping -/

@[simp] theorem State.leaveAddb_beyond (phys k : Nat) : (s.leaveAddb core phys k).beyond core eng = s.beyond core eng := by
  unfold State.leaveAddb State.beyond State.engine
  rw [State.setCore_pl, State.core_setCore_self]

@[simp] theorem State.unblock_beyond (k : Nat) : (s.unblock core k).beyond core eng = s.beyond core eng := by
  unfold State.unblock
  split
  · exact State.leaveAddb_beyond ..
  · exact State.beyond_of_control (State.setMon_control ..)
  · rfl

@[simp] theorem State.stopCell_beyond (k : Nat) : (s.stopCell core k).beyond core eng = s.beyond core eng := by
  unfold State.stopCell
  dsimp only
  split
  · rw [State.setCell_beyond, State.unblock_beyond]
  · rw [State.setCell_beyond, State.unblock_beyond]
  · exact State.unblock_beyond ..

theorem State.dropResv_control (s : State) (k : Nat) : (s.dropResv k).control = s.control := by
  unfold State.dropResv
  dsimp only
  rw [State.setCell_control]
  split
  · exact State.setBank_control ..
  · rfl

@[simp] theorem State.dropResv_beyond (k : Nat) : (s.dropResv k).beyond core eng = s.beyond core eng := State.beyond_of_control (State.dropResv_control ..)

@[simp] theorem State.serveMvbc_beyond (k inst : Nat) : (s.serveMvbc core eng k inst).beyond core eng = s.beyond core eng := by
  unfold State.serveMvbc
  dsimp only
  split
  · rfl
  · exact State.setEngine_beyond ..

@[simp] theorem State.cutMvbc_beyond (k : Nat) (o : AsyncOp) (t : Tile) (inst : Nat) : (s.cutMvbc core eng k o t inst).beyond core eng = s.beyond core eng := by
  rw [State.cutMvbc, State.drew_beyond, State.serveMvbc_beyond, State.setFlight_beyond, State.setCell_beyond]

@[simp] theorem State.cutCollectives_beyond : (s.cutCollectives core eng).beyond core eng = s.beyond core eng := by
  unfold State.cutCollectives
  dsimp only
  rw [State.beyond_foldl _ _ _ fun t k => State.setGather_beyond t core eng k _]
  refine State.beyond_foldl _ _ _ (fun t k => State.beyond_foldl _ _ _ (fun u o => ?_) _) _
  split
  · split
    · exact State.cutMvbc_beyond ..
    · rfl
  · rfl

@[simp] theorem State.withdrawBars_beyond : (s.withdrawBars core eng).beyond core eng = s.beyond core eng := by
  unfold State.withdrawBars
  dsimp only
  rw [State.beyond_foldl _ _ _ fun t k => by rw [State.setFlight_beyond, State.setGather_beyond], State.setEngine_beyond]

@[simp] theorem State.stopEngine_beyond (why : Nat) : (s.stopEngine core eng why).beyond core eng = s.beyond core eng := by
  rw [State.stopEngine, State.setEngine_beyond, State.withdrawBars_beyond, State.cutCollectives_beyond,
    State.beyond_foldl _ _ _ fun t k => by rw [State.dropResv_beyond, State.stopCell_beyond]]

/-! ## Cutting -/

@[simp] theorem State.cutBank_control (s : State) (k : Nat) (free : Nat → Nat) (hurt : List Nat) (ws : List (Nat × Byte)) :
    (s.cutBank k free hurt ws).control = s.control := State.setBank_control ..

@[simp] theorem State.cutMvdm_control (s : State) (core ctx k : Nat) (free : Nat → Nat) (dir : Bool) (op mem : Tile) (tag : Nat) (na : Bool) :
    (s.cutMvdm core ctx k free dir op mem tag na).control = s.control := by
  unfold State.cutMvdm
  dsimp only
  split
  · rfl
  · split
    · refine State.control_foldl (fun t e => ?_) _ _
      split
      · rfl
      · next hstore => rw [State.setFlight_control, State.storeAt_control hstore]
    · exact State.setCell_control ..

/-- What a cut operation leaves half done is memory's or its cell's. -/
@[simp] theorem State.cutOp_beyond (k : Nat) (o : AsyncOp) : (s.cutOp core eng k o).beyond core eng = s.beyond core eng := by
  unfold State.cutOp
  extract_lets e free c b part drop
  have hpart : part.control = s.control := by
    dsimp only [part]
    split
    · rfl
    · split
      · split
        · exact State.cutBank_control ..
        · exact State.setCell_control ..
      · exact State.cutMvdm_control ..
      · split
        · rfl
        · rw [State.setBank_control, State.cutBank_control]
      · rfl
      · rfl
      · exact State.setCell_control ..
  have hdrop : ∀ t : State, (drop t).control = t.control := fun t => by
    dsimp only [drop]
    rw [State.setFlight_control, State.setCell_control]
  split
  · split
    · exact State.cutMvbc_beyond ..
    · rw [State.serveMvbc_beyond, State.beyond_of_control (hdrop s)]
  · rw [State.drew_beyond, State.beyond_of_control ((hdrop part).trans hpart)]

@[simp] theorem State.cutCell_beyond (k : Nat) : (s.cutCell core eng k).beyond core eng = s.beyond core eng :=
  State.beyond_foldl _ _ _ (fun t o => State.cutOp_beyond t core eng k o) _

@[simp] theorem State.cutEngine_beyond : (s.cutEngine core eng).beyond core eng = s.beyond core eng :=
  State.beyond_foldl _ _ _ (fun t k => State.cutCell_beyond t core eng k) _

/-! ## Halting, and the hard stop -/

@[simp] theorem State.haltEngine_beyond : (s.haltEngine core eng).beyond core eng = s.beyond core eng := by
  unfold State.haltEngine
  dsimp only
  split
  · rw [State.cutEngine_beyond, State.stopEngine_beyond]
  · split
    · rfl
    · exact State.cutEngine_beyond ..

/-- The state in which a hard stop judges the engine's codes. -/
def State.hardCut (s : State) (core n pos : Nat) : State :=
  let e := s.engine core n
  let k := 256 * core + pos
  let i := ((List.range e.size).find? fun j => e.posOf j == pos).getD 0
  let s1 := if e.stopping = 0 then s.stopEngine core n 3 else s
  let s2 := (e.keys core).foldl (fun t c => (t.flight c).mq.foldl (fun u o => match o.kind with
    | .mvbc tl _ inst => if ((u.engine core n).mvbc.at (0, 0) inst).1 = i + 1 ∧ c ≠ k then u.cutMvbc core n c o tl inst else u
    | _ => u) t) s1
  let s3 := (s2.cutCell core n k).stopCell core k
  s3.setFlight k { s3.flight k with failed := none }

theorem State.hardStop_eq (pos code : Nat) : ∃ tcode tcell tpc, s.hardStop core eng pos code =
    (s.hardCut core eng pos).setEngine core eng { (s.hardCut core eng pos).engine core eng with
      stopping := 3
      faultCode := if (s.engine core eng).stopping = 3 ∨ (s.engine core eng).state = 2 then ((s.hardCut core eng pos).engine core eng).faultCode else code
      trapCode := tcode
      trapCell := tcell
      trapPc := tpc } := ⟨_, _, _, rfl⟩

@[simp] theorem State.hardCut_beyond (pos : Nat) : (s.hardCut core eng pos).beyond core eng = s.beyond core eng := by
  unfold State.hardCut
  dsimp only
  rw [State.setFlight_beyond, State.stopCell_beyond, State.cutCell_beyond,
    State.beyond_foldl _ _ _ fun t c => State.beyond_foldl _ _ _ (fun u o => ?_) _]
  · split
    · exact State.stopEngine_beyond ..
    · rfl
  · split
    · split
      · exact State.cutMvbc_beyond ..
      · rfl
    · rfl

@[simp] theorem State.hardStop_beyond (pos code : Nat) : (s.hardStop core eng pos code).beyond core eng = s.beyond core eng := by
  obtain ⟨tcode, tcell, tpc, h⟩ := s.hardStop_eq core eng pos code
  rw [h, State.setEngine_beyond, State.hardCut_beyond]

/-- A hard stop leaves its engine stopping for a hard quarantine, with the code of the failure where it had none (02 R57). -/
theorem State.engine_hardStop (pos code : Nat) : ((s.hardStop core eng pos code).engine core eng).stopping = 3
    ∧ ((s.engine core eng).stopping ≠ 3 → (s.engine core eng).state ≠ 2 → ((s.hardStop core eng pos code).engine core eng).faultCode = code) := by
  obtain ⟨tcode, tcell, tpc, h⟩ := s.hardStop_eq core eng pos code
  rw [h, State.engine_setEngine, if_pos ⟨rfl, rfl⟩]
  exact ⟨rfl, fun h3 h2 => if_neg (by rintro (h | h); exacts [h3 h, h2 h])⟩

end

end Sys2Proof.Machine
end

section
/-! SUPPORT. The triggers of a quarantine (02 R27, R55, R57, R60): what a count of corrected errors leaves, and how a quarantine joins the core's list. -/

namespace Sys2Proof.Machine

/-! ## Counting corrected errors (02 R27) -/

section
variable (s : State) (core cell n : Nat)

/-- A count changes the core's log of corrected errors, and nothing else of the core. -/
theorem State.core_countCe : ∃ log, (s.countCe core cell n).core core = { s.core core with ceLog := log } := ⟨_, State.core_setCore_self ..⟩

@[simp] theorem State.engine_countCe (m : Nat) : (s.countCe core cell n).engine core m = s.engine core m := by
  obtain ⟨log, h⟩ := s.core_countCe core cell n
  rw [State.engine, h, State.engine]

@[simp] theorem State.serving_countCe : (s.countCe core cell n).serving = s.serving := rfl

@[simp] theorem State.posOfCell_countCe (c : Nat) : (s.countCe core cell n).posOfCell core c = s.posOfCell core c := by
  obtain ⟨log, h⟩ := s.core_countCe core cell n
  rw [State.posOfCell, h, State.posOfCell]

@[simp] theorem State.spares_countCe : (s.countCe core cell n).spares core = s.spares core := by
  obtain ⟨log, h⟩ := s.core_countCe core cell n
  rw [State.spares, h, State.spares]

@[simp] theorem State.forming_countCe (pos : Nat) : (s.countCe core cell n).forming core pos = s.forming core pos := by
  obtain ⟨log, h⟩ := s.core_countCe core cell n
  rw [State.forming, h, State.forming]

@[simp] theorem State.leaving_countCe (m : Nat) : (s.countCe core cell n).leaving core m = s.leaving core m := by
  obtain ⟨log, h⟩ := s.core_countCe core cell n
  rw [State.leaving, h, State.engine_countCe, State.leaving]

@[simp] theorem State.engineAt_countCe (pos : Nat) : (s.countCe core cell n).engineAt core pos = s.engineAt core pos := by
  obtain ⟨log, h⟩ := s.core_countCe core cell n
  unfold State.engineAt State.resident
  simp only [State.engine_countCe, h]

end

/-! ## The core's list of quarantines (02 R60) -/

theorem State.core_addQuar (s : State) (core : Nat) (q : Quar) : (s.addQuar core q).core core =
    { s.core core with quars := (s.core core).quars ++ [{ q with deferred := (s.core core).arm.isSome }] } := State.core_setCore_self ..

@[simp] theorem State.engine_addQuar (s : State) (core m : Nat) (q : Quar) : (s.addQuar core q).engine core m = s.engine core m := by
  rw [State.engine, State.core_addQuar, State.engine]

theorem State.quars_addQuar (s : State) (core : Nat) (q : Quar) : ((s.addQuar core q).core core).quars =
    (s.core core).quars ++ [{ q with deferred := (s.core core).arm.isSome }] := by
  rw [State.core_addQuar]

/-- No quarantine of a list is of a cell. -/
theorem any_cell_eq_false {l : List Quar} {cell : Nat} (h : ∀ q ∈ l, q.cell ≠ cell) : (l.any fun x => x.cell == cell) = false :=
  List.any_eq_false.mpr fun q hq => by simpa using h q hq

/-- A quarantine that joins the list after a count follows those that were in it, and waits for the request that is in progress. -/
theorem State.core_addQuar_countCe (s : State) (core cell n : Nat) (q : Quar) : ∃ log, ((s.countCe core cell n).addQuar core q).core core =
    { s.core core with ceLog := log, quars := (s.core core).quars ++ [{ q with deferred := (s.core core).arm.isSome }] } := by
  obtain ⟨log, h⟩ := s.core_countCe core cell n
  exact ⟨log, by rw [State.core_addQuar, h]⟩

/-! ## The soft trigger (02 R55, R56) -/

section
variable {s : State} {core cell pos n : Nat}

/-- Corrected errors below the threshold are only counted. -/
theorem opSoftQuarantineTrigger_counted (hs : s.serving = true) (hpos : s.posOfCell core cell = some pos)
    (hr : (s.countCe core cell n).ceReached core cell = false) : opSoftQuarantineTrigger core cell n s = s.countCe core cell n := by
  simp [opSoftQuarantineTrigger, hs, hpos, hr]

/-- The quarantine that a soft trigger begins. -/
def State.softQuar (s : State) (core cell pos : Nat) : Quar := ⟨cell, pos, s.engineAt core pos, 1, false, s.time, false, (s.core core).arm.isSome, s.engineAt core pos⟩

/-- The state after a soft trigger that reaches the threshold, by the engine over the cell. -/
def State.softBegun (s : State) (core cell pos n : Nat) : State :=
  match s.engineAt core pos with
  | some m =>
    if s.leaving core m then (s.countCe core cell n).addQuar core { s.softQuar core cell pos with eng := none, drained := true }
    else
      let e := s.engine core m
      let s1 := if e.state = 1 ∧ e.stopping = 0 then (s.countCe core cell n).setEngine core m { e with state := 5 } else s.countCe core cell n
      s1.addQuar core { s.softQuar core cell pos with drained := e.state != 1 && e.state != 5 && e.stopping == 0 }
  | none => (s.countCe core cell n).addQuar core { s.softQuar core cell pos with drained := true }

variable (hs : s.serving = true) (hpos : s.posOfCell core cell = some pos) (hf : s.forming core pos = false)
  (hq : ∀ q ∈ (s.core core).quars, q.cell ≠ cell) (hr : (s.countCe core cell n).ceReached core cell = true)
  (hm : s.fld (armPage core) .armQpol Fld.armQpol_migrate = 1) (hsp : s.spares core ≠ [])
include hs hpos hf hq hr hm hsp

/-- Once the threshold is reached, the trigger goes by the engine over the cell. -/
theorem opSoftQuarantineTrigger_reached : opSoftQuarantineTrigger core cell n s = s.softBegun core cell pos n := by
  obtain ⟨log, hcore⟩ := s.core_countCe core cell n
  have hquars : (((s.countCe core cell n).core core).quars.any fun x => x.cell == cell) = false := by
    rw [hcore]
    exact any_cell_eq_false hq
  have hfld : (s.countCe core cell n).fld (armPage core) .armQpol Fld.armQpol_migrate = 1 := hm
  have hempty : (s.spares core).isEmpty = false := List.isEmpty_eq_false_iff.mpr hsp
  simp only [opSoftQuarantineTrigger, hs, hpos, hr, hquars, hfld, hempty, hf, State.posOfCell_countCe, State.serving_countCe, State.spares_countCe,
    State.forming_countCe, State.engineAt_countCe, State.leaving_countCe, State.engine_countCe, if_true, if_false, not_true_eq_false, Bool.false_eq_true,
    Nat.one_ne_zero, or_self]
  rfl

end

/-- A soft trigger leaves the cells and memory: a migration copies them later. -/
theorem State.softBegun_cells_mem (s : State) (core cell pos n : Nat) :
    (s.softBegun core cell pos n).cells = s.cells ∧ (s.softBegun core cell pos n).mem = s.mem := by
  have hadd : ∀ (t : State) (q : Quar), t.cells = s.cells → t.mem = s.mem → (t.addQuar core q).cells = s.cells ∧ (t.addQuar core q).mem = s.mem :=
    fun t q hcells hmem => ⟨hcells, hmem⟩
  unfold State.softBegun
  dsimp only
  split
  · split
    · exact hadd _ _ rfl rfl
    · split
      · exact hadd _ _ rfl rfl
      · exact hadd _ _ rfl rfl
  · exact hadd _ _ rfl rfl

section
variable {s : State} {core cell pos n : Nat}

/-- A cell that no engine holds needs no stop. -/
theorem State.core_softBegun_free (h : s.engineAt core pos = none) : ∃ log, (s.softBegun core cell pos n).core core = { s.core core with
    ceLog := log, quars := (s.core core).quars ++ [{ s.softQuar core cell pos with drained := true }] } := by
  rw [State.softBegun, h]
  exact s.core_addQuar_countCe core cell n _

/-- The cell of an engine that leaves in a switch needs no other stop. -/
theorem State.core_softBegun_leaving {m : Nat} (h : s.engineAt core pos = some m) (hl : s.leaving core m = true) :
    ∃ log, (s.softBegun core cell pos n).core core = { s.core core with
      ceLog := log, quars := (s.core core).quars ++ [{ s.softQuar core cell pos with eng := none, drained := true }] } := by
  rw [State.softBegun, h]
  dsimp only
  rw [if_pos hl]
  exact s.core_addQuar_countCe core cell n _

/-- An engine that runs stops for the migration. -/
theorem State.softBegun_running {m : Nat} (h : s.engineAt core pos = some m) (hl : s.leaving core m = false) (h1 : (s.engine core m).state = 1)
    (h0 : (s.engine core m).stopping = 0) : ((s.softBegun core cell pos n).core core).quars = (s.core core).quars ++ [s.softQuar core cell pos]
      ∧ (s.softBegun core cell pos n).engine core m = { s.engine core m with state := 5 } := by
  have hstep : s.softBegun core cell pos n =
      ((s.countCe core cell n).setEngine core m { s.engine core m with state := 5 }).addQuar core (s.softQuar core cell pos) := by
    rw [State.softBegun, h]
    dsimp only
    rw [hl, if_neg Bool.false_ne_true, if_pos ⟨h1, h0⟩, h1]
    rfl
  obtain ⟨log, hcore⟩ := s.core_countCe core cell n
  have hbeyond := (s.countCe core cell n).setEngine_beyond core m { s.engine core m with state := 5 }
  rw [hstep]
  refine ⟨?_, ?_⟩
  · rw [State.quars_addQuar, State.quars_of_beyond hbeyond, State.armReq_of_beyond hbeyond, hcore]
    rfl
  · rw [State.engine_addQuar, State.engine_setEngine, if_pos ⟨rfl, rfl⟩]

end

/-! ## The hard trigger (02 R57) -/

/-- The quarantine that a hard trigger begins. -/
def State.hardQuar (s : State) (core cell pos trigger : Nat) : Quar :=
  ⟨cell, pos, s.engineAt core pos, trigger, true, s.time, false, (s.core core).arm.isSome, s.engineAt core pos⟩

/-- The engine that holds a failed position stops. -/
def State.hardHit (s : State) (core pos trigger : Nat) : State :=
  match s.engineAt core pos with
  | some n => s.hardStop core n pos (if trigger = 2 then 7 else 9)
  | none => s

theorem State.armReq_hardHit (s : State) (core pos trigger : Nat) : ((s.hardHit core pos trigger).core core).arm = (s.core core).arm := by
  unfold State.hardHit
  split
  · exact State.armReq_of_beyond (State.hardStop_beyond ..)
  · rfl

/-- Quarantines of a core that a hard one of the same cell or engine replaces are taken from its list. -/
def State.withoutQuars (s : State) (core : Nat) (keep : Quar → Bool) : State :=
  s.setCore core { s.core core with quars := (s.core core).quars.filter keep }

@[simp] theorem State.engine_withoutQuars (s : State) (core m : Nat) (keep : Quar → Bool) : (s.withoutQuars core keep).engine core m = s.engine core m := by
  rw [State.engine, State.withoutQuars, State.core_setCore_self, State.engine]

/-- A hard trigger under a mapped position stops its engine, and its quarantine joins the list. -/
theorem opHardQuarantineTrigger_mapped {s : State} {core cell pos trigger : Nat} (hs : s.serving = true) (hpos : s.posOfCell core cell = some pos)
    (hf : s.forming core pos = false) (hq : ∀ q ∈ (s.core core).quars, q.cell ≠ cell) (h2 : 2 ≤ trigger) (h4 : trigger ≤ 4) :
    ∃ keep, opHardQuarantineTrigger core cell trigger s =
      ((s.hardHit core pos trigger).withoutQuars core keep).addQuar core (s.hardQuar core cell pos trigger) := by
  have hquars : ((s.core core).quars.any fun x => x.cell == cell && x.hard) = false := List.any_eq_false.mpr fun q hq' => by simp [hq q hq']
  have hrange : between 2 trigger 4 = true := by simp [between, h2, h4]
  simp only [opHardQuarantineTrigger, hpos, hs, hrange, hquars, hf, not_true_eq_false, Bool.false_eq_true, or_self, if_false]
  exact ⟨_, rfl⟩

/-! ## A failing spare (02 R33) -/

@[simp] theorem State.noteHealth_control (s : State) : s.noteHealth.control = s.control := by
  unfold State.noteHealth
  split <;> rfl

theorem opHardQuarantineTrigger_spare {s : State} {core cell trigger : Nat} (hs : s.serving = true) (hpos : s.posOfCell core cell = none)
    (hsp : (s.spares core).contains cell = true) (h2 : 2 ≤ trigger) (h4 : trigger ≤ 4) :
    opHardQuarantineTrigger core cell trigger s = s.quarantineSpare core cell trigger := by
  have hrange : between 2 trigger 4 = true := by simp [between, h2, h4]
  simp only [opHardQuarantineTrigger, hpos, hs, hrange, hsp, Bool.and_self, if_true]

/-- A spare that fails has its role, and its entry in the record. -/
theorem State.quarantineSpare_control (s : State) (core cell trigger : Nat) :
    ((s.quarantineSpare core cell trigger).core core) = { s.core core with roles := (s.core core).roles.put 0 cell 3 }
    ∧ (s.quarantineSpare core cell trigger).flash.quarantine = s.flash.quarantine ++ [512 * core + cell] := by
  have hcontrol : (s.quarantineSpare core cell trigger).control =
      State.control { s.setCore core { s.core core with roles := (s.core core).roles.put 0 cell 3 } with
        flash := { s.flash with quarantine := s.flash.quarantine ++ [512 * core + cell] } } := by
    rw [State.quarantineSpare, State.noteHealth_control, State.logEvent_control, State.wr_control, State.bump_control, State.bump_control]
  refine ⟨(State.core_of_cores (State.cores_of_control hcontrol) core).trans (State.core_setCore_self ..), ?_⟩
  rw [State.flash_of_control hcontrol]

/-! ## The stop for a migration (02 R56) -/

/-- Once its engine has stopped at instruction boundaries, the first quarantine notes it. -/
theorem opMigrationDrained_stopped {s : State} {core n : Nat} {q : Quar} {rest : List Quar} (hs : s.serving = true)
    (hquars : (s.core core).quars = q :: rest) (heng : q.eng = some n) (hh : q.hard = false) (hd : q.drained = false) (hstop : s.stoppedAt core n = true) :
    ((opMigrationDrained core s).core core).quars = { q with drained := true } :: rest := by
  simp only [opMigrationDrained, hquars, heng, hs, hh, hd, hstop, Bool.not_false, Bool.and_self, if_true]
  rw [State.core_setCore_self]

end Sys2Proof.Machine
end

section
/-! SUPPORT. The substitution of a quarantined cell (02 R30, R33, R56 to R58): the remapping of its position, the loss of its state, and the end of the quarantine. -/

namespace Sys2Proof.Machine

theorem State.clearCell_control (s : State) (k : Nat) : (s.clearCell k).control = s.control := by
  rw [State.clearCell, State.setGather_control, State.setFlight_control, State.setCell_control, State.dropResv_control]

@[simp] theorem State.bankLog_control (s : State) (core pos granule cause : Nat) : (s.bankLog core pos granule cause).control = s.control := by
  rw [State.bankLog, State.logEvent_control, State.setFld_control, State.setFld_control, State.setFld_control, State.setFld_control]

/-- Whatever becomes of the bank of a failed cell, the control state stays. -/
@[simp] theorem State.hardBank_control (s : State) (core pos : Nat) (spare : Bool) : (s.hardBank core pos spare).control = s.control := by
  unfold State.hardBank
  dsimp only
  split
  · rw [State.bankLog_control, State.setBank_control]
  · split
    · rw [State.drew_control, State.control_foldl fun t g => State.bankLog_control t core pos g 1, State.bumpCore_control, State.setBank_control]
    · exact State.drew_control ..

/-! ## The steps of a substitution -/

/-- The spare that a substitution takes. -/
def State.sparePick (s : State) (core : Nat) : Option Nat := (s.spares core)[s.draw % (s.spares core).length]?

/-- A substitution's roles: the cell is quarantined, and the spare mapped. -/
def rolesWith (roles : SMap Nat) (cell : Nat) : Option Nat → SMap Nat
  | some n => (roles.put 0 cell 3).put 0 n 1
  | none => roles.put 0 cell 3

/-- The place of a spare in the position map: 0 where there is none. -/
def spareMark : Option Nat → Nat
  | some n => n + 1
  | none => 0

/-- The position is mapped to the spare, and the cell entered in the record. -/
def State.remap (s : State) (core : Nat) (q : Quar) (pick : Option Nat) : State :=
  ({ (s.setCore core { s.core core with roles := rolesWith (s.core core).roles q.cell pick, map := (s.core core).map.put 0 q.pos (spareMark pick) }) with
    flash := { s.flash with quarantine := s.flash.quarantine ++ [512 * core + q.cell] } }).drew 1

/-- A hard failure takes the state at its position, or stops the engine that was switched in there. -/
def State.takeState (s : State) (core : Nat) (q : Quar) (spare : Bool) : State :=
  match s.engineAt core q.pos with
  | some m => if q.holder = some m then s.clearCell (256 * core + q.pos) else if spare then s else s.hardStop core m q.pos 9
  | none => s.clearCell (256 * core + q.pos)

/-- A substitution remaps the position, takes the state of a hard failure, and logs it. -/
theorem State.substitute_control (s : State) (core : Nat) (q : Quar) : (s.substitute core q).control =
    (if q.hard then (s.remap core q (s.sparePick core)).takeState core q (s.sparePick core).isSome else s.remap core q (s.sparePick core)).control := by
  have hsteps : (s.substitute core q).control = (if q.hard then
      ((s.remap core q (s.sparePick core)).takeState core q (s.sparePick core).isSome).hardBank core q.pos (s.sparePick core).isSome
      else s.remap core q (s.sparePick core)).control := by
    unfold State.substitute State.takeState State.remap State.sparePick
    dsimp only
    rw [State.noteHealth_control, State.logEvent_control, State.wr_control, State.bump_control, State.bump_control]
    cases (s.spares core)[s.draw % (s.spares core).length]? <;> rfl
  rw [hsteps]
  split
  · exact State.hardBank_control ..
  · rfl

section
variable (s : State) (core : Nat) (q : Quar)

theorem State.core_remap (pick : Option Nat) : (s.remap core q pick).core core =
    { s.core core with roles := rolesWith (s.core core).roles q.cell pick, map := (s.core core).map.put 0 q.pos (spareMark pick) } :=
  State.core_setCore_self ..

/-- With a spare the failure takes nothing but its own cell's state. -/
theorem State.takeState_spare : (s.takeState core q true).control = s.control := by
  unfold State.takeState
  split
  · split
    · exact State.clearCell_control ..
    · rfl
  · exact State.clearCell_control ..

/-- A failure leaves the engine that held its cell. -/
theorem State.engine_takeState {n : Nat} (spare : Bool) (h : q.holder = some n) : (s.takeState core q spare).engine core n = s.engine core n := by
  have hclear : (s.clearCell (256 * core + q.pos)).engine core n = s.engine core n := by
    rw [State.engine, State.core_of_cores (State.clearCell_cores ..), State.engine]
  unfold State.takeState
  split
  · next m _ =>
    split
    · exact hclear
    · next hm =>
      split
      · rfl
      · refine State.engine_of_beyond (State.hardStop_beyond ..) fun hn => hm ?_
        rw [h, hn]
  · exact hclear

/-- A substitution leaves the engine that held a hard failure's cell. -/
theorem State.engine_substitute {n : Nat} (h : q.hard = true → q.holder = some n) : (s.substitute core q).engine core n = s.engine core n := by
  have hremap : (s.remap core q (s.sparePick core)).engine core n = s.engine core n := by rw [State.engine, State.core_remap, State.engine]
  rw [State.engine, State.core_of_cores (State.cores_of_control (s.substitute_control core q))]
  split
  · next hh => exact (State.engine_takeState _ core q _ (h hh)).trans hremap
  · exact hremap

end

/-- Where a spare is free the substitution takes one, and changes the map and the roles of its core alone. -/
theorem State.substitute_spare {s : State} {core : Nat} (q : Quar) (hsp : s.spares core ≠ []) : ∃ n ∈ s.spares core,
    ((s.substitute core q).core core = { s.core core with
      roles := ((s.core core).roles.put 0 q.cell 3).put 0 n 1, map := (s.core core).map.put 0 q.pos (n + 1) })
    ∧ (s.substitute core q).flash.quarantine = s.flash.quarantine ++ [512 * core + q.cell] := by
  have hlen : s.draw % (s.spares core).length < (s.spares core).length := Nat.mod_lt _ (List.length_pos_iff.mpr hsp)
  have hpick : s.sparePick core = some (s.spares core)[s.draw % (s.spares core).length] := List.getElem?_eq_getElem hlen
  have hcontrol : (s.substitute core q).control = (s.remap core q (s.sparePick core)).control := by
    rw [State.substitute_control, hpick]
    split
    · exact State.takeState_spare ..
    · rfl
  refine ⟨_, List.getElem_mem hlen, ?_, ?_⟩
  · rw [State.core_of_cores (State.cores_of_control hcontrol), State.core_remap, hpick]
    rfl
  · rw [State.flash_of_control hcontrol]
    rfl

/-! ## The end of a quarantine -/

theorem State.core_resumeEngine (s : State) (core n : Nat) : ∃ engines, (s.resumeEngine core n).core core = { s.core core with engines := engines } := by
  unfold State.resumeEngine
  dsimp only
  split
  · exact ⟨_, State.core_setCore_self ..⟩
  · exact ⟨_, rfl⟩

@[simp] theorem State.resumeEngine_flash (s : State) (core n : Nat) : (s.resumeEngine core n).flash = s.flash := by
  unfold State.resumeEngine
  dsimp only
  split <;> rfl

/-- A migrated engine runs again, where no other quarantine holds it. -/
theorem State.engine_resumeEngine {s : State} {core n : Nat} (h5 : (s.engine core n).state = 5) (hy : ∀ y ∈ (s.core core).quars, y.eng ≠ some n) :
    ((s.resumeEngine core n).engine core n).state = 1 := by
  have hany : ((s.core core).quars.any fun q => q.eng == some n) = false := List.any_eq_false.mpr fun y hm => by simpa using hy y hm
  have hgo : (s.engine core n).state = 5 ∧ ¬((s.core core).quars.any fun q => q.eng == some n) = true := ⟨h5, by rw [hany]; exact Bool.false_ne_true⟩
  rw [State.resumeEngine, if_pos hgo, State.engine_setEngine, if_pos ⟨rfl, rfl⟩]

/-- A quarantine leaves the list of its core. -/
def State.dequar (s : State) (core : Nat) (rest : List Quar) : State := s.setCore core { s.core core with quars := rest }

section
variable {s : State} {core : Nat} {q : Quar} {rest : List Quar}

theorem State.core_dequar : (s.dequar core rest).core core = { s.core core with quars := rest } := State.core_setCore_self ..

theorem State.spares_dequar : (s.dequar core rest).spares core = s.spares core := by
  rw [State.spares, State.core_dequar, State.spares]

variable (hquars : (s.core core).quars = q :: rest)
include hquars

/-- A quarantine's end substitutes its cell where it is hard or a spare is free. -/
theorem State.quarDone_eq : s.quarDone core =
    let s2 := if q.hard || !(s.spares core).isEmpty then (s.dequar core rest).substitute core q else s.dequar core rest
    match q.eng with
    | some n => if q.hard then s2 else s2.resumeEngine core n
    | none => s2 := by
  rw [State.quarDone, hquars]
  rfl

/-- A hard quarantine's end leaves the engine that held its cell. -/
theorem State.engine_quarDone_hard {n : Nat} (hh : q.hard = true) (hn : q.holder = some n) : (s.quarDone core).engine core n = s.engine core n := by
  have hdone : s.quarDone core = (s.dequar core rest).substitute core q := by
    rw [State.quarDone_eq hquars]
    simp only [hh, Bool.true_or, if_true]
    split <;> rfl
  rw [hdone, State.engine_substitute _ _ _ fun _ => hn, State.engine, State.core_dequar, State.engine]

/-- With a spare free, the position of the first quarantine is remapped to one, and the quarantine leaves the list. -/
theorem State.quarDone_spare (hsp : s.spares core ≠ []) : ∃ n ∈ s.spares core,
    ((s.quarDone core).core core).quars = rest ∧ ((s.quarDone core).core core).roles = ((s.core core).roles.put 0 q.cell 3).put 0 n 1
    ∧ ((s.quarDone core).core core).map = (s.core core).map.put 0 q.pos (n + 1) ∧ (s.quarDone core).flash.quarantine = s.flash.quarantine ++ [512 * core + q.cell]
    ∧ ∀ m, q.hard = false → q.eng = some m → (s.engine core m).state = 5 → (∀ y ∈ rest, y.eng ≠ some m) → ((s.quarDone core).engine core m).state = 1 := by
  have hempty : (s.spares core).isEmpty = false := List.isEmpty_eq_false_iff.mpr hsp
  have hsp' : (s.dequar core rest).spares core ≠ [] := by rwa [State.spares_dequar]
  obtain ⟨n, hn, hcore, hflash⟩ := State.substitute_spare q hsp'
  rw [State.spares_dequar] at hn
  rw [State.core_dequar] at hcore
  refine ⟨n, hn, ?_⟩
  rw [State.quarDone_eq hquars, hempty, Bool.not_false, Bool.or_true, if_pos rfl]
  dsimp only
  split
  · next m heng =>
    split
    · next hh => exact ⟨by rw [hcore], by rw [hcore], by rw [hcore], hflash, fun _ hh' => absurd (hh.symm.trans hh') (by decide)⟩
    · obtain ⟨engines, hresume⟩ := ((s.dequar core rest).substitute core q).core_resumeEngine core m
      rw [hcore] at hresume
      refine ⟨by rw [hresume], by rw [hresume], by rw [hresume], (congrArg Flash.quarantine (State.resumeEngine_flash ..)).trans hflash, fun m' _ heng' h5 hrest => ?_⟩
      obtain rfl : m = m' := Option.some.inj (heng.symm.trans heng')
      refine State.engine_resumeEngine ?_ ?_
      · rw [State.engine, hcore]
        exact h5
      · rw [hcore]
        exact hrest
  · next heng => exact ⟨by rw [hcore], by rw [hcore], by rw [hcore], hflash, fun m' _ heng' => absurd (heng.symm.trans heng') (by simp)⟩

/-! ## A quarantine that may be carried out -/

variable (hs : s.serving = true) (harm : (s.core core).arm = none) (hsw : (s.core core).switch = none)
include hs harm hsw

/-- A soft quarantine is ready once its engine has stopped. -/
theorem State.quarReady_soft (hh : q.hard = false) (hd : q.eng = none ∨ q.drained = true) : s.quarReady core = some q := by
  rw [State.quarReady, hquars]
  cases heng : q.eng with
  | none => simp [heng, hs, harm, hsw]
  | some n =>
    have hdrained : q.drained = true := hd.resolve_left (by simp [heng])
    simp [heng, hs, harm, hsw, hh, hdrained]

/-- A hard quarantine is ready once its engine is no longer stopping for it. -/
theorem State.quarReady_hard (hh : q.hard = true) (hstop : ∀ n, q.eng = some n → (s.engine core n).stopping ≠ 3) : s.quarReady core = some q := by
  rw [State.quarReady, hquars]
  cases heng : q.eng with
  | none => simp [heng, hs, harm, hsw]
  | some n => simp [heng, hs, harm, hsw, hh, hstop n heng]

end

end Sys2Proof.Machine
end

section
/-! SUPPORT. The end of an engine's part of its command (05 R170, R172, 11 R358), and the end of a failed engine (02 R57). -/

namespace Sys2Proof.Machine

theorem clearBit_two_pow (n : Nat) : clearBit (2 ^ n) n = 0 := by
  rw [clearBit, if_pos Nat.testBit_two_pow_self, Nat.sub_self]

/-! ## Commands of a queue -/

section
variable {s t : State} {q seq : Nat}

theorem State.cmd?_of_queues (h : t.pl.queues = s.pl.queues) : t.cmd? q seq = s.cmd? q seq := by
  rw [State.cmd?, State.queue_of_queues h, State.cmd?]

@[simp] theorem State.setCmd_cores (c : Cmd) : (s.setCmd q seq c).cores = s.cores := State.setQueue_cores ..

theorem State.cmd?_setCmd_self (c : Cmd) : (s.setCmd q seq c).cmd? q seq = some c := by
  rw [State.cmd?, State.setCmd, State.queue_setQueue_self, SMap.find?_insert, if_pos rfl]

@[simp] theorem State.report_cores (code : Nat) : (s.report q seq code).cores = s.cores := by
  obtain h | ⟨x, h⟩ := s.report_cases q seq code
  · rw [h]
  · rw [h, State.setQueue_cores]

/-- The first report of a command stands. -/
theorem State.cmd?_report {c : Cmd} (code : Nat) (h : s.cmd? q seq = some c) (hr : c.report = none) :
    (s.report q seq code).cmd? q seq = some { c with report := some code } := by
  have hstep : s.report q seq code = s.setCmd q seq { c with report := some code } := by
    simp only [State.report, h, hr, Option.isNone_none, if_true]
  rw [hstep, State.cmd?_setCmd_self]

end

/-! ## The end of a part of a command -/

/-- What a step leaves that halts other engines: the queues, the core's quarantines and the engine. -/
structure EngineKept (s t : State) (core eng : Nat) : Prop where
  queues_eq : t.pl.queues = s.pl.queues
  quars_eq : (t.core core).quars = (s.core core).quars
  engine_eq : t.engine core eng = s.engine core eng

/-- Halting engines leaves each other engine. -/
theorem State.haltEngines_kept {core eng : Nat} {l : List Nat} (h : eng ∉ l) (s : State) :
    EngineKept s (l.foldl (fun t m => t.haltEngine core m) s) core eng := by
  refine List.foldlRecOn l _ (motive := fun t => EngineKept s t core eng) ⟨rfl, rfl, rfl⟩ fun t ht m hm => ?_
  have hbeyond := t.haltEngine_beyond core m
  exact ⟨(State.queues_of_beyond hbeyond).trans ht.queues_eq, (State.quars_of_beyond hbeyond).trans ht.quars_eq,
    (State.engine_of_beyond hbeyond fun hn => h (by rw [hn]; exact hm)).trans ht.engine_eq⟩

/-- An engine as the end of its part of a command leaves it. -/
def Engine.ended (e : Engine) (state : Nat) : Engine := { e with state := state, stopping := 0, cmd := none }

section
variable (s : State) (core eng code state : Nat)

/-- An engine whose part has ended runs no command. -/
theorem State.notMem_enginesOf {q seq : Nat} (h : (s.engine core eng).cmd = none) : eng ∉ s.enginesOf core q seq := fun hm => by
  have hcmd := (List.mem_filter.mp hm).2
  rw [h] at hcmd
  simp at hcmd

/-- The command's first error halts its other engines. -/
def State.haltOthers (q seq : Nat) (first : Bool) : State :=
  if first then (s.enginesOf core q seq).foldl (fun t m => t.haltEngine core m) s else s

theorem State.haltOthers_kept {q seq : Nat} (first : Bool) (h : (s.engine core eng).cmd = none) : EngineKept s (s.haltOthers core q seq first) core eng := by
  unfold State.haltOthers
  split
  · exact State.haltEngines_kept (s.notMem_enginesOf core eng h) s
  · exact ⟨rfl, rfl, rfl⟩

/-- The end of an engine's part, by its command. -/
theorem State.engineEnds_cmd {q seq : Nat} {c : Cmd} (he : (s.engine core eng).cmd = some (q, seq)) (hc : s.cmd? q seq = some c) :
    s.engineEnds core eng code state =
      let c1 : Cmd := { c with engines := clearBit c.engines eng, trapped := if c.trapped = 0 then code else c.trapped }
      let s3 := ((s.setEngine core eng ((s.engine core eng).ended state)).setCmd q seq c1).haltOthers core q seq (decide (code ≠ 0 ∧ c.trapped = 0))
      if c1.engines = 0 then s3.report q seq c1.trapped else s3 := by
  have hcmd : (s.setEngine core eng ((s.engine core eng).ended state)).cmd? q seq = some c := (State.cmd?_of_queues rfl).trans hc
  rw [Engine.ended] at hcmd
  simp only [State.engineEnds, he, hcmd, State.haltOthers, decide_eq_true_eq]
  rfl

/-- The engine whose part ends takes its new state, and the core's quarantines stay. -/
theorem State.engineEnds_self : (s.engineEnds core eng code state).engine core eng = (s.engine core eng).ended state
    ∧ ((s.engineEnds core eng code state).core core).quars = (s.core core).quars := by
  have hset : (s.setEngine core eng ((s.engine core eng).ended state)).engine core eng = (s.engine core eng).ended state := by
    rw [State.engine_setEngine, if_pos ⟨rfl, rfl⟩]
  have hquars := State.quars_of_beyond (s.setEngine_beyond core eng ((s.engine core eng).ended state))
  cases he : (s.engine core eng).cmd with
  | none =>
    rw [State.engineEnds, he]
    exact ⟨hset, hquars⟩
  | some p =>
    obtain ⟨q, seq⟩ := p
    cases hc : s.cmd? q seq with
    | none =>
      have hcmd : (s.setEngine core eng ((s.engine core eng).ended state)).cmd? q seq = none := (State.cmd?_of_queues rfl).trans hc
      rw [Engine.ended] at hcmd
      simp only [State.engineEnds, he, hcmd]
      exact ⟨hset, hquars⟩
    | some c =>
      rw [State.engineEnds_cmd s core eng code state he hc]
      extract_lets c1 s3
      have hcore : ((s.setEngine core eng ((s.engine core eng).ended state)).setCmd q seq c1).core core =
          (s.setEngine core eng ((s.engine core eng).ended state)).core core := State.core_of_cores (State.setCmd_cores ..) core
      have hengine : ((s.setEngine core eng ((s.engine core eng).ended state)).setCmd q seq c1).engine core eng = (s.engine core eng).ended state := by
        rw [State.engine, hcore]
        exact hset
      obtain ⟨-, hq3, he3⟩ := State.haltOthers_kept (q := q) (seq := seq) _ core eng (decide (code ≠ 0 ∧ c.trapped = 0))
        (show (((s.setEngine core eng ((s.engine core eng).ended state)).setCmd q seq c1).engine core eng).cmd = none by rw [hengine]; rfl)
      rw [hcore, hquars] at hq3
      rw [hengine] at he3
      split
      · have hreport : (s3.report q seq c1.trapped).core core = s3.core core := State.core_of_cores (State.report_cores ..) core
        rw [State.engine, hreport]
        exact ⟨he3, hq3⟩
      · exact ⟨he3, hq3⟩

/-- The last engine of a command to end reports the code that was the command's first error. -/
theorem State.cmd?_engineEnds {q seq : Nat} {c : Cmd} (he : (s.engine core eng).cmd = some (q, seq)) (hc : s.cmd? q seq = some c)
    (hone : c.engines = 2 ^ eng) (htrapped : c.trapped = 0) (hreport : c.report = none) :
    (s.engineEnds core eng code state).cmd? q seq = some { c with engines := 0, trapped := code, report := some code } := by
  rw [State.engineEnds_cmd s core eng code state he hc]
  simp only [hone, clearBit_two_pow, htrapped, if_true]
  refine State.cmd?_report (c := { c with engines := 0, trapped := code }) code ?_ hreport
  have hengine : (((s.setEngine core eng ((s.engine core eng).ended state)).setCmd q seq { c with engines := 0, trapped := code }).engine core eng).cmd = none := by
    rw [State.engine, State.core_of_cores (State.setCmd_cores ..), ← State.engine, State.engine_setEngine, if_pos ⟨rfl, rfl⟩]
    rfl
  rw [State.cmd?_of_queues (State.haltOthers_kept _ core eng _ hengine).queues_eq, State.cmd?_setCmd_self]

end

/-! ## The end of a failed engine (02 R57) -/

/-- A quarantine that may be carried out is the first of its core. -/
theorem State.quars_of_quarReady {s : State} {core : Nat} {q : Quar} (h : s.quarReady core = some q) : ∃ rest, (s.core core).quars = q :: rest := by
  unfold State.quarReady at h
  dsimp only at h
  split at h
  · cases h
  · next q' rest hquars =>
    obtain ⟨-, h'⟩ := Option.ite_none_right_eq_some.mp h
    exact ⟨rest, by rw [hquars, Option.some.inj h']⟩

/-- A failed engine's flights are cleared, and the cells that hard quarantines took from it. -/
def State.failedCleared (s : State) (core eng : Nat) : State :=
  ((s.core core).quars.filter fun q => q.hard && q.eng == some eng).foldl (fun t q => t.clearCell (256 * core + q.pos)) (s.clearFlights core eng)

theorem State.clearFlights_control (s : State) (core eng : Nat) : (s.clearFlights core eng).control = s.control := by
  unfold State.clearFlights
  exact State.control_foldl (fun _ _ => State.setFlight_control ..) _ s

theorem State.failedCleared_control (s : State) (core eng : Nat) : (s.failedCleared core eng).control = s.control := by
  rw [State.failedCleared, State.control_foldl fun _ _ => State.clearCell_control .., State.clearFlights_control]

/-- The engine of a hard quarantine ends as faulted. -/
def State.failedEnded (s : State) (core eng : Nat) : State :=
  (s.failedCleared core eng).engineEnds core eng (if (s.engine core eng).cmd.isSome then (s.engine core eng).trapCode else 0) 2

section
variable {s : State} {core eng : Nat}

theorem State.failedEnded_self : (s.failedEnded core eng).engine core eng = (s.engine core eng).ended 2
    ∧ ((s.failedEnded core eng).core core).quars = (s.core core).quars := by
  have hcore : (s.failedCleared core eng).core core = s.core core := State.core_of_cores (State.cores_of_control (s.failedCleared_control core eng)) core
  have hengine : (s.failedCleared core eng).engine core eng = s.engine core eng := by rw [State.engine, hcore, State.engine]
  obtain ⟨heng, hquars⟩ :=
    (s.failedCleared core eng).engineEnds_self core eng (if (s.engine core eng).cmd.isSome then (s.engine core eng).trapCode else 0) 2
  rw [hengine] at heng
  rw [hcore] at hquars
  exact ⟨heng, hquars⟩

theorem State.cmd?_failedEnded {q seq : Nat} {c : Cmd} (he : (s.engine core eng).cmd = some (q, seq)) (hc : s.cmd? q seq = some c)
    (hone : c.engines = 2 ^ eng) (htrapped : c.trapped = 0) (hreport : c.report = none) : (s.failedEnded core eng).cmd? q seq =
      some { c with engines := 0, trapped := (s.engine core eng).trapCode, report := some (s.engine core eng).trapCode } := by
  have hcontrol := s.failedCleared_control core eng
  have he' : ((s.failedCleared core eng).engine core eng).cmd = some (q, seq) := by
    rw [State.engine, State.core_of_cores (State.cores_of_control hcontrol)]
    exact he
  rw [State.failedEnded, he]
  exact State.cmd?_engineEnds _ core eng _ 2 he' ((State.cmd?_of_queues (State.queues_of_control hcontrol)).trans hc) hone htrapped hreport

variable (hs : s.serving = true) (hres : s.resident core eng = true) (hstop : (s.engine core eng).stopping = 3)
  (hquiet : s.engineQuiet core eng = true) (htold : s.engineTold core eng = true)
include hs hres hstop hquiet htold

/-- The end of a failed engine goes on to its quarantine where that may be carried out. -/
theorem opEngineFaulted_eq : opEngineFaulted core eng s = s.failedEnded core eng
    ∨ ∃ q, (s.failedEnded core eng).quarReady core = some q ∧ q.hard = true ∧ q.eng = some eng
      ∧ opEngineFaulted core eng s = (s.failedEnded core eng).quarDone core := by
  have hop : opEngineFaulted core eng s = match (s.failedEnded core eng).quarReady core with
      | some q => if q.hard && q.eng == some eng then (s.failedEnded core eng).quarDone core else s.failedEnded core eng
      | none => s.failedEnded core eng := by
    simp only [opEngineFaulted, hs, hres, hstop, hquiet, htold, BEq.rfl, Bool.and_self, if_true]
    rfl
  cases hready : (s.failedEnded core eng).quarReady core with
  | none =>
    rw [hready] at hop
    exact .inl hop
  | some q =>
    rw [hready] at hop
    dsimp only at hop
    split at hop
    · next hq =>
      obtain ⟨hh, heng⟩ := Bool.and_eq_true_iff.mp hq
      exact .inr ⟨q, rfl, hh, eq_of_beq heng, hop⟩
    · exact .inl hop

/-- A failed engine is left faulted. -/
theorem engine_opEngineFaulted (hholder : ∀ q ∈ (s.core core).quars, q.hard = true → q.holder = q.eng) :
    (opEngineFaulted core eng s).engine core eng = (s.engine core eng).ended 2 := by
  obtain ⟨hengine, hquars⟩ := s.failedEnded_self (core := core) (eng := eng)
  obtain hop | ⟨q, hready, hh, heng, hop⟩ := opEngineFaulted_eq hs hres hstop hquiet htold
  · rw [hop, hengine]
  · obtain ⟨rest, hfirst⟩ := State.quars_of_quarReady hready
    have hmem : q ∈ (s.core core).quars := by rw [← hquars, hfirst]; exact List.mem_cons_self
    rw [hop, State.engine_quarDone_hard hfirst hh ((hholder q hmem hh).trans heng), hengine]

/-- Where no quarantine is in the list, nothing but the engine's end happens. -/
theorem opEngineFaulted_noQuars (hquars : (s.core core).quars = []) : opEngineFaulted core eng s = s.failedEnded core eng := by
  obtain hop | ⟨q, hready, -⟩ := opEngineFaulted_eq hs hres hstop hquiet htold
  · exact hop
  · obtain ⟨rest, hfirst⟩ := State.quars_of_quarReady hready
    rw [State.failedEnded_self.2, hquars] at hfirst
    cases hfirst

end

end Sys2Proof.Machine
end

section
/-! Quarantine: the obligation, from the rules above. -/

namespace Sys2Proof.Machine

section
variable {s : State} {core cell pos : Nat} (hs : s.serving = true) (hpos : s.posOfCell core cell = some pos) (hf : s.forming core pos = false)
  (hq : ∀ q ∈ (s.core core).quars, q.cell ≠ cell)
include hs hpos hf hq

/-- A hard trigger stops the engine over the cell and joins the list. -/
theorem exec_hardQuarantineTrigger_mapped {trigger : Nat} (h2 : 2 ≤ trigger) (h4 : trigger ≤ 4) :
    ∃ t, exec (.hardQuarantineTrigger core cell trigger) s = .next t ∧ s.hardQuar core cell pos trigger ∈ (t.core core).quars
      ∧ ∀ n, s.engineAt core pos = some n → (t.engine core n).stopping = 3
        ∧ ((s.engine core n).stopping ≠ 3 → (s.engine core n).state ≠ 2 → (t.engine core n).faultCode = (if trigger = 2 then 7 else 9)) := by
  obtain ⟨keep, hop⟩ := opHardQuarantineTrigger_mapped hs hpos hf hq h2 h4
  refine ⟨_, congrArg Host.Outcome.next hop, ?_, fun n hn => ?_⟩
  · have harm : (((s.hardHit core pos trigger).withoutQuars core keep).core core).arm = (s.core core).arm := by
      rw [State.withoutQuars, State.core_setCore_self]
      exact State.armReq_hardHit ..
    rw [State.quars_addQuar, harm]
    exact List.mem_append_right _ (List.mem_singleton.mpr rfl)
  · have hhit : s.hardHit core pos trigger = s.hardStop core n pos (if trigger = 2 then 7 else 9) := by rw [State.hardHit, hn]
    rw [State.engine_addQuar, State.engine_withoutQuars, hhit]
    exact s.engine_hardStop core n pos _

end

/-- A failing spare is quarantined, and no position moves. -/
theorem exec_hardQuarantineTrigger_spare {s : State} {core cell trigger : Nat} (hs : s.serving = true) (hpos : s.posOfCell core cell = none)
    (hsp : (s.spares core).contains cell = true) (h2 : 2 ≤ trigger) (h4 : trigger ≤ 4) :
    ∃ t, exec (.hardQuarantineTrigger core cell trigger) s = .next t ∧ (t.core core).roles.at 0 cell = 3 ∧ (t.core core).map = (s.core core).map
      ∧ 512 * core + cell ∈ t.flash.quarantine := by
  obtain ⟨hcore, hflash⟩ := s.quarantineSpare_control core cell trigger
  refine ⟨_, congrArg Host.Outcome.next (opHardQuarantineTrigger_spare hs hpos hsp h2 h4), ?_, ?_, ?_⟩
  · rw [hcore, SMap.at_put, if_pos rfl]
  · rw [hcore]
  · rw [hflash]
    exact List.mem_append_right _ (List.mem_singleton.mpr rfl)

/-- What a quarantine leaves that has been carried out with a spare: it is off the list, its cell is quarantined and in the record, and its position is mapped to a spare. -/
def State.substituted (s t : State) (core : Nat) (q : Quar) (rest : List Quar) : Prop :=
  (t.core core).quars = rest ∧ (t.core core).roles.at 0 q.cell = 3
    ∧ (∃ n, (s.spares core).contains n = true ∧ (t.core core).map.at 0 q.pos = n + 1 ∧ (t.core core).roles.at 0 n = 1)
    ∧ 512 * core + q.cell ∈ t.flash.quarantine

/-- With a spare free, the first quarantine's end leaves its cell substituted, and the engine of a soft one runs again. -/
theorem State.quarDone_substituted {s : State} {core : Nat} {q : Quar} {rest : List Quar} (hquars : (s.core core).quars = q :: rest)
    (hcell : (s.spares core).contains q.cell = false) (hsp : s.spares core ≠ []) : s.substituted (s.quarDone core) core q rest
      ∧ ∀ m, q.hard = false → q.eng = some m → (s.engine core m).state = 5 → (∀ y ∈ rest, y.eng ≠ some m) → ((s.quarDone core).engine core m).state = 1 := by
  obtain ⟨n, hn, hrest, hroles, hmap, hflash, hresume⟩ := State.quarDone_spare hquars hsp
  have hne : q.cell ≠ n := fun h => by
    rw [h, List.contains_iff_mem.mpr hn] at hcell
    cases hcell
  refine ⟨⟨hrest, ?_, ⟨n, List.contains_iff_mem.mpr hn, ?_, ?_⟩, ?_⟩, hresume⟩
  · rw [hroles, SMap.at_put, if_neg hne, SMap.at_put, if_pos rfl]
  · rw [hmap, SMap.at_put, if_pos rfl]
  · rw [hroles, SMap.at_put, if_pos rfl]
  · rw [hflash]
    exact List.mem_append_right _ (List.mem_singleton.mpr rfl)

/-- Settles O37: the triggers begin a quarantine, its engine stops, its cell is substituted, and a failed engine ends as faulted. -/
theorem quarantine : Obligations.Quarantine := by
  unfold Obligations.Quarantine
  intro core cell pos s hs k after
  refine ⟨fun hpos hf hq => ⟨fun n => ⟨fun hr => ?_, fun hr hm hsp => ?_⟩, fun trigger h2 h4 => ?_⟩, fun hpos hsp trigger h2 h4 => ?_,
    fun q rest hquars => ⟨fun n heng hh hd hstop => ?_, fun harm hsw hcell _ hsp => ?_⟩, fun n hres hstop hquiet htold hholder => ?_⟩
  · exact congrArg Host.Outcome.next (opSoftQuarantineTrigger_counted hs hpos hr)
  · obtain ⟨hcells, hmem⟩ := s.softBegun_cells_mem core cell pos n
    refine ⟨_, congrArg Host.Outcome.next (opSoftQuarantineTrigger_reached hs hpos hf hq hr hm hsp), hcells, hmem, fun hheld => ?_, fun m hheld hl => ?_,
      fun m hheld hl h1 h0 => State.softBegun_running hheld hl h1 h0⟩
    · obtain ⟨log, hcore⟩ := State.core_softBegun_free (cell := cell) (n := n) hheld
      exact ⟨by rw [hcore]; rfl, by rw [hcore]⟩
    · obtain ⟨log, hcore⟩ := State.core_softBegun_leaving (cell := cell) (n := n) hheld hl
      exact ⟨by rw [hcore]; rfl, by rw [hcore]⟩
  · exact exec_hardQuarantineTrigger_mapped hs hpos hf hq h2 h4
  · exact exec_hardQuarantineTrigger_spare hs hpos hsp h2 h4
  · exact ⟨_, rfl, opMigrationDrained_stopped hs hquars heng hh hd hstop⟩
  · obtain ⟨hafter, hresume⟩ := State.quarDone_substituted hquars hcell hsp
    refine ⟨fun hh hd => ⟨fun hdef => ?_, fun hdef => ?_⟩, fun hh hstop => ?_⟩
    · have hop : opMigrationComplete core s = s.quarDone core := by
        simp only [opMigrationComplete, State.quarReady_soft hquars hs harm hsw hh hd, hh, hdef, Bool.not_false, Bool.and_self, if_true]
      exact ⟨_, congrArg Host.Outcome.next hop, hafter, fun n heng => hresume n hh heng⟩
    · have hop : opQuarantineDeferredStart core s = s.quarDone core := by
        simp only [opQuarantineDeferredStart, State.quarReady_soft hquars hs harm hsw hh hd, hdef, Bool.or_true, if_true]
      exact ⟨_, congrArg Host.Outcome.next hop, hafter⟩
    · have hop : opQuarantineDeferredStart core s = s.quarDone core := by
        simp only [opQuarantineDeferredStart, State.quarReady_hard hquars hs harm hsw hh hstop, hh, Bool.true_or, if_true]
      exact ⟨_, congrArg Host.Outcome.next hop, hafter⟩
  · have hengine := engine_opEngineFaulted hs hres hstop hquiet htold hholder
    refine ⟨_, rfl, by rw [hengine]; rfl, by rw [hengine]; rfl, by rw [hengine]; rfl, by rw [hengine]; rfl, fun q seq c hcmd hc hone _ htrapped hreport _ hquars => ?_⟩
    rw [opEngineFaulted_noQuars hs hres hstop hquiet htold hquars]
    exact State.cmd?_failedEnded hcmd hc hone htrapped hreport

end Sys2Proof.Machine
end

section
/-! SUPPORT. How a cell issues a word (05 R132, R137, R171, R172): at once where it is ready, into a trap where the word is unlawful, and what an instruction of one cell leaves. -/

namespace Sys2Proof.Machine

/-! ## Issue (05 R132, R137) -/

section
variable {s : State} {c : CellRef} {row legal : Bool} {regs : List Nat} {body : At → State} (hrow : row = true)
include hrow

/-- A ready cell performs a lawful word of the row. -/
theorem State.issue_ready (h : s.canIssue c regs) (hlegal : legal = true) : s.issue c row legal regs body = body (s.at c) := by
  obtain ⟨hruns, hcode, hregs⟩ := h
  have hawaits : regs.any (s.at c).fl.awaits = false := hregs
  simp only [State.issue, hruns, hrow, hcode, hlegal, hawaits, Bool.and_self, Bool.false_eq_true, not_true_eq_false, if_false]

/-- An unlawful word traps with ILLEGAL_INSTR. -/
theorem State.issue_illegal (hruns : s.cellRuns c = true) (hcode : (s.at c).inCode = true) (hlegal : legal = false) :
    s.issue c row legal regs body = s.trapCell c 5 0 (s.cellAt c).pc := by
  simp only [State.issue, hruns, hrow, hcode, hlegal, Bool.and_self, Bool.false_eq_true, not_true_eq_false, not_false_eq_true, if_false, if_true]
  rfl

/-- A lawful word that names an awaited register stalls. -/
theorem State.issue_stalled (hruns : s.cellRuns c = true) (hcode : (s.at c).inCode = true) (hlegal : legal = true)
    (hawaits : regs.any (s.flightAt c).awaits = true) : s.issue c row legal regs body = s := by
  have hawaits' : regs.any (s.at c).fl.awaits = true := hawaits
  simp only [State.issue, hruns, hrow, hcode, hlegal, hawaits', Bool.and_self, not_true_eq_false, if_false, if_true]

variable {n : Nat} {f : (Nat → Nat) → Cell → Cell}

/-- So does an unlawful word of an instruction that changes its cell alone. -/
theorem State.issueCell_illegal (hruns : s.cellRuns c = true) (hcode : (s.at c).inCode = true) (hlegal : legal = false) :
    s.issueCell c row legal regs n f = s.trapCell c 5 0 (s.cellAt c).pc := State.issue_illegal hrow hruns hcode hlegal

theorem State.issueCell_stalled (hruns : s.cellRuns c = true) (hcode : (s.at c).inCode = true) (hlegal : legal = true)
    (hawaits : regs.any (s.flightAt c).awaits = true) : s.issueCell c row legal regs n f = s := State.issue_stalled hrow hruns hcode hlegal hawaits

end

/-! ## One cell changed -/

/-- Replacing a cell keeps everything but that cell, whatever free values are drawn. -/
theorem State.keptButCell_setCell (s : State) (k : Nat) (x : Cell) (n : Nat) : s.keptButCell ((s.setCell k x).drew n) k :=
  ⟨rfl, fun j hj => (State.cell_setCell s k j x).trans (if_neg hj)⟩

section
variable {s t : State} {c : CellRef}

theorem State.cellDone_setCell (s : State) (c : CellRef) (y : Cell) (n : Nat) : s.cellDone ((s.setCell (s.cellKey c) y.next).drew n) c y :=
  ⟨State.cell_setCell_self .., State.keptButCell_setCell ..⟩

/-- An instruction of one cell leaves its function of the cell, done. -/
theorem State.issueCell_done {row legal : Bool} {regs : List Nat} (n : Nat) (f : (Nat → Nat) → Cell → Cell) (hrow : row = true) (h : s.canIssue c regs)
    (hlegal : legal = true) : s.cellDone (s.issueCell c row legal regs n f) c (f (fun i => Config.freeNat (s.draws + i)) (s.cellAt c)) := by
  rw [State.issueCell, State.issue_ready hrow h hlegal]
  exact State.cellDone_setCell ..

/-! ## Scalar registers, descriptors and predicates (05 R129, R131, 04 R99) -/

theorem Cell.s_setS (x : Cell) (r q : Nat) (v : Word) : (x.setS r v).s q = if q = r then (if r = 0 then 0 else v) else x.s q := by
  unfold Cell.setS Cell.s
  by_cases hr : r = 0
  · simp only [hr, if_true]
    split <;> rfl
  · simp only [hr, if_false, SMap.at_put]
    by_cases hq : q = 0
    · simp [hq, Ne.symm hr]
    · simp [hq]

theorem Cell.desc_setDesc (x : Cell) (d n : Nat) (v : BitVec 128) : (x.setDesc d v).desc n = if n = d then v else x.desc n := SMap.at_put ..

theorem Cell.pred_setPred_self (x : Cell) (p : Nat) (v : BitVec 256) : (x.setPred p v).pred p = if p = 0 then BitVec.allOnes 256 else v := by
  unfold Cell.setPred Cell.pred
  split
  · rfl
  · rw [SMap.at_put, if_pos rfl]

/-- An instruction that has written a scalar register has done so as R129 says. -/
theorem State.cellDone.scalarDone {rd : Nat} {v : Word} (h : s.cellDone t c ((s.cellAt c).setS rd v)) : s.scalarDone t c rd v := by
  obtain ⟨hcell, hkept⟩ := h
  have hreg : ∀ q, (t.cell (s.cellKey c)).s q = if q = rd then (if rd = 0 then 0 else v) else (s.cell (s.cellKey c)).s q := fun q => by
    rw [hcell]
    exact Cell.s_setS ..
  refine ⟨(hreg rd).trans (if_pos rfl), fun q hq => (hreg q).trans (if_neg hq), ?_, hkept⟩
  rw [hcell]
  unfold Cell.setS
  split <;> rfl

end

end Sys2Proof.Machine
end

section
/-! SUPPORT. A trap (05 R168, R171, R172): the trapping cell is stopped with its TRAPREC, and no cell of its engine goes on running. -/

namespace Sys2Proof.Machine

/-- The phase of a cell that its engine stops: one that runs or blocks is stopped (05 R172). -/
def Phase.stop : Phase → Phase
  | .running | .blocked _ => .stopped
  | p => p

theorem Phase.stop_stop (p : Phase) : p.stop.stop = p.stop := by cases p <;> rfl

theorem Phase.stop_ne_running (p : Phase) : p.stop ≠ .running := by cases p <;> exact Phase.noConfusion

/-- The phase and TRAPREC of each cell. -/
def State.posture (s : State) (k : Nat) : Phase × Word := ((s.cell k).phase, (s.cell k).traprec)

theorem State.posture_of_cells {s t : State} (h : t.cells = s.cells) : t.posture = s.posture := by
  unfold State.posture State.cell
  rw [h]

section
variable (s : State) (core eng k : Nat)

/-! ## Stopping one cell -/

@[simp] theorem State.unblock_cells : (s.unblock core k).cells = s.cells := by
  unfold State.unblock
  split <;> rfl

theorem State.posture_setCell (x : Cell) (j : Nat) : (s.setCell k x).posture j = if j = k then (x.phase, x.traprec) else s.posture j := by
  unfold State.posture
  rw [State.cell_setCell]
  split <;> rfl

theorem State.posture_stopCell (j : Nat) : (s.stopCell core k).posture j = if j = k then ((s.posture k).1.stop, (s.posture k).2) else s.posture j := by
  have hsame := congrFun (State.posture_of_cells (s.unblock_cells core k))
  have hphase : ((s.unblock core k).cell k).phase = (s.posture k).1 := congrArg Prod.fst (hsame k)
  have htrap : ((s.unblock core k).cell k).traprec = (s.posture k).2 := congrArg Prod.snd (hsame k)
  unfold State.stopCell
  dsimp only
  split
  · next h =>
    rw [State.posture_setCell, hsame, htrap, ← hphase, h]
    rfl
  · next h =>
    rw [State.posture_setCell, hsame, htrap, ← hphase, h]
    rfl
  · next hrun hblock =>
    have hstop : (s.posture k).1.stop = (s.posture k).1 := by
      rw [← hphase]
      unfold Phase.stop
      split
      · next h => exact absurd h hrun
      · next h => exact absurd h (hblock _)
      · rfl
    rw [hsame, hstop]
    split
    · next h => rw [h]
    · rfl

@[simp] theorem State.posture_dropResv : (s.dropResv k).posture = s.posture := by
  funext j
  unfold State.dropResv
  dsimp only
  rw [State.posture_setCell]
  split
  · next h => rw [h]; rfl
  · refine congrFun (State.posture_of_cells ?_) j
    split <;> rfl

/-- Cells of a list that stop are no longer running or blocked, and keep their TRAPREC; the others are as they were. -/
theorem State.posture_stopCells (l : List Nat) (j : Nat) : (l.foldl (fun t k => (t.stopCell core k).dropResv k) s).posture j =
    if j ∈ l then ((s.posture j).1.stop, (s.posture j).2) else s.posture j := by
  induction l generalizing s with
  | nil => simp
  | cons k l ih =>
    rw [List.foldl_cons, ih, State.posture_dropResv, State.posture_stopCell]
    by_cases hk : j = k
    · simp [hk, Phase.stop_stop]
    · simp [hk]

/-! ## Stopping an engine (05 R172, R173) -/

/-- A fold leaves the postures where each of its steps does. -/
theorem State.posture_foldl {β : Type} {f : State → β → State} (hf : ∀ t b, (f t b).posture = t.posture) (l : List β) : (l.foldl f s).posture = s.posture :=
  foldl_keeps (P := fun t : State => t.posture = s.posture) (fun t b h => (hf t b).trans h) rfl l

@[simp] theorem State.posture_serveMvbc (inst : Nat) : (s.serveMvbc core eng k inst).posture = s.posture := by
  unfold State.serveMvbc
  dsimp only
  split
  · rfl
  · exact State.posture_of_cells (State.setEngine_cells ..)

@[simp] theorem State.posture_cutMvbc (o : AsyncOp) (t : Tile) (inst : Nat) : (s.cutMvbc core eng k o t inst).posture = s.posture := by
  unfold State.cutMvbc
  extract_lets f ws d x
  have hdrew : ∀ (u : State) (n : Nat), (u.drew n).posture = u.posture := fun _ _ => rfl
  have hflight : ∀ (u : State) (y : Flight), (u.setFlight k y).posture = u.posture := fun _ _ => rfl
  rw [hdrew, State.posture_serveMvbc, hflight]
  funext j
  rw [State.posture_setCell]
  split
  · next h => rw [h]; rfl
  · rfl

@[simp] theorem State.posture_cutCollectives : (s.cutCollectives core eng).posture = s.posture := by
  unfold State.cutCollectives
  dsimp only
  rw [State.posture_foldl _ fun t k => State.posture_of_cells (State.setGather_cells t k _)]
  refine State.posture_foldl _ (fun t k => State.posture_foldl _ (fun u o => ?_) _) _
  split
  · split
    · exact State.posture_cutMvbc ..
    · rfl
  · rfl

@[simp] theorem State.posture_withdrawBars : (s.withdrawBars core eng).posture = s.posture := by
  unfold State.withdrawBars
  dsimp only
  refine (State.posture_foldl _ (fun t k => ?_) _).trans (State.posture_of_cells (State.setEngine_cells ..))
  exact State.posture_of_cells rfl

/-- An engine that stops stops each of its cells. -/
theorem State.posture_stopEngine (why j : Nat) : (s.stopEngine core eng why).posture j =
    if j ∈ (s.engine core eng).keys core then ((s.posture j).1.stop, (s.posture j).2) else s.posture j := by
  rw [State.stopEngine, State.posture_of_cells (State.setEngine_cells ..), State.posture_withdrawBars, State.posture_cutCollectives, State.posture_stopCells]

/-! ## The trap -/

theorem State.engine_of_cores {s t : State} (h : t.cores = s.cores) : t.engine = s.engine := by
  funext c e
  rw [State.engine, State.core_of_cores h, State.engine]

theorem State.engine_of_control {s t : State} (h : t.control = s.control) : t.engine = s.engine := State.engine_of_cores (State.cores_of_control h)

@[simp] theorem State.engine_unblock : (s.unblock core k).engine = s.engine := by
  funext c e
  unfold State.unblock
  split
  · unfold State.leaveAddb State.engine
    dsimp only
    rw [State.core_setCore]
    split
    · next h => rw [h]
    · rfl
  · rfl
  · rfl

@[simp] theorem State.engine_stopCell : (s.stopCell core k).engine = s.engine := by
  unfold State.stopCell
  dsimp only
  split
  · rw [State.engine_of_control (State.setCell_control ..), State.engine_unblock]
  · rw [State.engine_of_control (State.setCell_control ..), State.engine_unblock]
  · exact State.engine_unblock ..

end

/-- The state in which a cell has trapped, before its engine stops. -/
def State.trapped (s : State) (c : CellRef) (code info pc : Nat) : State :=
  let t := (s.stopCell c.core (s.cellKey c)).dropResv (s.cellKey c)
  t.setCell (s.cellKey c) { t.cell (s.cellKey c) with traprec := trapWord code info pc, phase := .stopped }

section
variable (s : State) (c : CellRef) (code info pc : Nat)

theorem State.engine_trapped : (s.trapped c code info pc).engine = s.engine := by
  unfold State.trapped
  dsimp only
  rw [State.engine_of_control (State.setCell_control ..), State.engine_of_control (State.dropResv_control ..), State.engine_stopCell]

theorem State.posture_trapped : (s.trapped c code info pc).posture (s.cellKey c) = (.stopped, trapWord code info pc) := by
  unfold State.trapped
  dsimp only
  rw [State.posture_setCell, if_pos rfl]

/-- A trap in an engine that is stopping already stops the cell alone. -/
theorem State.trapCell_later (h : (s.engine c.core c.eng).stopping ≠ 0) : s.trapCell c code info pc = s.trapped c code info pc := by
  have hstopping : ((s.trapped c code info pc).engine c.core c.eng).stopping ≠ 0 := by rwa [State.engine_trapped]
  exact if_neg hstopping

/-- The first trap of an engine stops it, and gives it the trap's code, cell and program counter. -/
theorem State.trapCell_first (h : (s.engine c.core c.eng).stopping = 0) :
    let u := (s.trapped c code info pc).stopEngine c.core c.eng 1
    s.trapCell c code info pc = u.setEngine c.core c.eng { u.engine c.core c.eng with trapCode := code, trapCell := c.idx, trapPc := pc } := by
  have hstopping : ((s.trapped c code info pc).engine c.core c.eng).stopping = 0 := by rwa [State.engine_trapped]
  exact if_pos hstopping

/-- After the first trap of an engine each of its cells has stopped. -/
theorem State.posture_trapCell_first (h : (s.engine c.core c.eng).stopping = 0) (j : Nat) : (s.trapCell c code info pc).posture j =
    let p := (s.trapped c code info pc).posture j
    if j ∈ (s.engine c.core c.eng).keys c.core then (p.1.stop, p.2) else p := by
  rw [State.trapCell_first s c code info pc h, State.posture_of_cells (State.setEngine_cells ..), State.posture_stopEngine, State.engine_trapped]

theorem State.engine_stopEngine_stopping (s : State) (core eng why : Nat) : ((s.stopEngine core eng why).engine core eng).stopping = why := by
  rw [State.stopEngine, State.engine_setEngine, if_pos ⟨rfl, rfl⟩]

/-- The engine of its first trap is stopping and shows the trap. -/
theorem State.engine_trapCell_first (h : (s.engine c.core c.eng).stopping = 0) : ∃ e : Engine, e.stopping = 1
    ∧ (s.trapCell c code info pc).engine c.core c.eng = { e with trapCode := code, trapCell := c.idx, trapPc := pc } := by
  refine ⟨_, State.engine_stopEngine_stopping (s.trapped c code info pc) c.core c.eng 1, ?_⟩
  rw [State.trapCell_first s c code info pc h, State.engine_setEngine, if_pos ⟨rfl, rfl⟩]

/-- A trap writes TRAPREC and stops its cell, whether or not it is the engine's first. -/
theorem State.posture_trapCell : (s.trapCell c code info pc).posture (s.cellKey c) = (.stopped, trapWord code info pc) := by
  by_cases h : (s.engine c.core c.eng).stopping = 0
  · rw [State.posture_trapCell_first s c code info pc h, State.posture_trapped]
    exact ite_self _
  · rw [State.trapCell_later s c code info pc h, State.posture_trapped]

end

/-- A trap in a state with the same engines as `s` has trapped the cell that `s` names. -/
theorem State.cellTrapped_trapCell {s t : State} (h : t.engine = s.engine) (c : CellRef) (code info pc : Nat) :
    s.cellTrapped (t.trapCell c code info pc) c code info pc := by
  have hkey : t.cellKey c = s.cellKey c := by rw [State.cellKey, h, State.cellKey]
  have hposture := t.posture_trapCell c code info pc
  rw [hkey] at hposture
  exact ⟨congrArg Prod.snd hposture, congrArg Prod.fst hposture⟩

end Sys2Proof.Machine
end

section
/-! Traps: the traps that a cell takes by itself (04 R110, 05 R171), and the obligation, from the rules above. -/

namespace Sys2Proof.Machine

section
variable {s : State} {c : CellRef}

/-- A reserved word traps with ILLEGAL_INSTR. -/
theorem opCellTrap_illegalWord {w : Word} (hruns : s.cellRuns c = true) (hcode : (s.at c).inCode = true) (hw : reservedWord w = true) :
    opCellTrap c (.illegalWord w) s = s.trapCell c 5 0 (s.cellAt c).pc := by
  have hcond : (s.cellRuns c && (s.at c).inCode && reservedWord w) = true := by rw [hruns, hcode, hw]; rfl
  exact if_pos hcond

/-- A fetch outside the code section traps with PROTECTION. -/
theorem opCellTrap_fetchOutside (hruns : s.cellRuns c = true) (hcode : (s.at c).inCode = false) :
    opCellTrap c .fetchOutside s = s.trapCell c 6 0 (s.cellAt c).pc := by
  simp only [opCellTrap, hruns, hcode, Bool.not_false, Bool.true_or, Bool.and_self, if_true]
  rfl

/-- A cell whose queues have emptied after a failed operation traps with that operation's code, token and program counter (04 R110). -/
theorem opCellTrap_asyncFailed {code tok pc : Nat} (hf : (s.flightAt c).failed = some (code, tok, pc)) (hworks : s.cellWorks c = true)
    (hops : (s.flightAt c).ops = []) :
    opCellTrap c .asyncFailed s = (s.setFlight (s.cellKey c) { s.flightAt c with failed := none }).trapCell c code tok pc := by
  have hf' : (s.at c).fl.failed = some (code, tok, pc) := hf
  have hops' : (s.at c).fl.ops.isEmpty = true := List.isEmpty_iff.mpr hops
  simp only [opCellTrap, hf', hworks, hops', Bool.and_self, if_true]
  rfl

/-- A trap in the present state has trapped its cell. -/
theorem State.cellTrapped_self (s : State) (c : CellRef) (code info pc : Nat) : s.cellTrapped (s.trapCell c code info pc) c code info pc :=
  State.cellTrapped_trapCell rfl c code info pc

/-- BRK traps where its partition has debug, and goes on where it has not (16 R467). -/
theorem opBrk_ready {w : Word} (hop : opOf w = 0x3E) (hm : minorOf w = 4) (hz : zeroFld w 16 25 = true) (h : s.canIssue c []) :
    opBrk c w s = if s.coreDebug c.core then s.trapCell c 11 0xFFFF (s.cellAt c).pc else s.setCell (s.cellKey c) (s.cellAt c).next :=
  State.issue_ready (by simp [hop, hm]) h hz

end

/-- When a word of SOP's row is lawful (05 R134). -/
theorem opSop_legal_iff (w : Word) :
    (w != 0 && decide (w.fld 34 6 ≤ 13) && zeroFld w 0 34) = true ↔ w ≠ 0 ∧ w.fld 34 6 ≤ 13 ∧ zeroFld w 0 34 = true := by
  simp [and_assoc]

/-- Settles O8: each cause of a trap ends in one trap of its cell, and the first trap of an engine stops the engine's cells. -/
theorem traps : Obligations.Traps := by
  unfold Obligations.Traps
  refine ⟨fun c w s => ⟨fun hop hz h => ⟨fun hm => ?_, fun hm hdebug => ?_, fun hm hdebug => ?_⟩, fun hruns hcode hw => ?_, fun hruns hcode => ?_,
    fun code tok pc hf hworks hops => ?_⟩, fun c code info pc s _ h => ?_, fun c w s hop hruns hcode => ⟨fun hlegal => ?_, fun hlegal hawaits => ?_⟩⟩
  · exact ⟨_, congrArg Host.Outcome.next (State.issue_ready (by simp [hop, hm]) h hz), State.cellTrapped_self ..⟩
  · refine ⟨_, congrArg Host.Outcome.next (opBrk_ready hop hm hz h), ?_⟩
    rw [if_pos hdebug]
    exact State.cellTrapped_self ..
  · refine ⟨_, congrArg Host.Outcome.next (opBrk_ready hop hm hz h), ?_⟩
    rw [hdebug]
    exact State.cellDone_setCell s c (s.cellAt c) 0
  · exact ⟨_, congrArg Host.Outcome.next (opCellTrap_illegalWord hruns hcode hw), State.cellTrapped_self ..⟩
  · exact ⟨_, congrArg Host.Outcome.next (opCellTrap_fetchOutside hruns hcode), State.cellTrapped_self ..⟩
  · exact ⟨_, congrArg Host.Outcome.next (opCellTrap_asyncFailed hf hworks hops),
      State.cellTrapped_trapCell (State.engine_of_control (State.setFlight_control ..)) ..⟩
  · obtain ⟨e, hstopping, hengine⟩ := State.engine_trapCell_first s c code info pc h
    refine ⟨by rw [hengine]; exact hstopping, by rw [hengine], by rw [hengine], by rw [hengine], fun k hk hrun => ?_⟩
    have hposture := State.posture_trapCell_first s c code info pc h k
    dsimp only at hposture
    rw [if_pos hk] at hposture
    exact Phase.stop_ne_running _ ((congrArg Prod.fst hposture).symm.trans hrun)
  · have hillegal := Bool.eq_false_iff.mpr fun hl => hlegal ((opSop_legal_iff w).mp hl)
    exact ⟨_, congrArg Host.Outcome.next (State.issueCell_illegal (by simp [hop]) hruns hcode hillegal), State.cellTrapped_self ..⟩
  · exact congrArg Host.Outcome.next (State.issueCell_stalled (by simp [hop]) hruns hcode ((opSop_legal_iff w).mpr hlegal) hawaits)

end Sys2Proof.Machine
end

section
/-! SUPPORT. Descriptor words and token waits (04 R99, R122, R123). -/

namespace Sys2Proof.Machine

/-! ## Descriptor words (04 R123) -/

theorem toNat_append_eq {m n : Nat} (x : BitVec m) (y : BitVec n) : (x ++ y).toNat = x.toNat * 2 ^ n + y.toNat := by
  rw [BitVec.toNat_append, ← Nat.shiftLeft_add_eq_or_of_lt y.isLt, Nat.shiftLeft_eq]

theorem toNat_extract {n : Nat} (x : BitVec n) (lo len : Nat) : (x.extractLsb' lo len).toNat = x.toNat / 2 ^ lo % 2 ^ len := by
  rw [BitVec.extractLsb'_toNat, Nat.shiftRight_eq_div_pow]

/-- The low word replaced. -/
theorem descWord_low (d : BitVec 128) (v : Word) : descWord d false v = d.extractLsb' 64 64 ++ v := by
  apply BitVec.eq_of_toNat_eq
  rw [descWord, if_neg Bool.false_ne_true, BitVec.toNat_ofNat, toNat_append_eq, toNat_extract]
  omega

/-- The high word replaced. -/
theorem descWord_high (d : BitVec 128) (v : Word) : descWord d true v = v ++ d.extractLsb' 0 64 := by
  apply BitVec.eq_of_toNat_eq
  rw [descWord, if_pos rfl, BitVec.toNat_ofNat, toNat_append_eq, toNat_extract]
  omega

/-- An amount is added to the address bits [51:0] alone. -/
theorem descAdd_eq (d : BitVec 128) (v : Word) : descAdd d v = d.extractLsb' 52 76 ++ (d.extractLsb' 0 52 + v.extractLsb' 0 52) := by
  apply BitVec.eq_of_toNat_eq
  rw [descAdd, BitVec.toNat_ofNat, toNat_append_eq, BitVec.toNat_add, toNat_extract, toNat_extract, toNat_extract]
  omega

/-- The words of a descriptor. -/
theorem descLow_eq (d : BitVec 128) : Word.ofNat d.toNat = d.extractLsb' 0 64 := by
  apply BitVec.eq_of_toNat_eq
  rw [toNat_extract, BitVec.toNat_ofNat]
  omega

theorem descHigh_eq (d : BitVec 128) : Word.ofNat (d.toNat / 2 ^ 64) = d.extractLsb' 64 64 := by
  apply BitVec.eq_of_toNat_eq
  rw [toNat_extract, BitVec.toNat_ofNat]

/-- A descriptor is what its 16 bytes hold. -/
theorem ofNat_toNat_mod (d : BitVec 128) : BitVec.ofNat 128 (d.toNat % 256 ^ 16) = d := by
  have hpow : 256 ^ 16 = 2 ^ 128 := by decide
  rw [hpow, Nat.mod_eq_of_lt d.isLt, BitVec.ofNat_toNat, BitVec.setWidth_eq]

section
variable {s t : State} {c : CellRef} {w : Word}

/-- An instruction has written a descriptor register of its cell and nothing else. -/
def State.descDone (s t : State) (c : CellRef) (d : Nat) (v : BitVec 128) : Prop :=
  (t.cell (s.cellKey c)).desc d = v ∧ (∀ n, n ≠ d → (t.cell (s.cellKey c)).desc n = (s.cell (s.cellKey c)).desc n)
    ∧ t.cell (s.cellKey c) = { s.cell (s.cellKey c) with
        descs := (t.cell (s.cellKey c)).descs, pc := (s.cell (s.cellKey c)).pc + 8, cycles := (s.cell (s.cellKey c)).cycles + 1 }
    ∧ s.keptButCell t (s.cellKey c)

theorem State.cellDone.descDone {d : Nat} {v : BitVec 128} (h : s.cellDone t c ((s.cellAt c).setDesc d v)) : s.descDone t c d v := by
  obtain ⟨hcell, hkept⟩ := h
  have hdesc : ∀ n, (t.cell (s.cellKey c)).desc n = if n = d then v else (s.cell (s.cellKey c)).desc n := fun n => by
    rw [hcell]
    exact Cell.desc_setDesc ..
  exact ⟨(hdesc d).trans (if_pos rfl), fun n hn => (hdesc n).trans (if_neg hn), by rw [hcell]; rfl, hkept⟩

/-- An instruction that has written bytes of its cell's operand store: they are read back, and nothing else has changed. -/
theorem State.cellDone.opsWritten {a n v : Nat} (h : s.cellDone t c { s.cellAt c with ops := (s.cellAt c).ops.writeLE a n v }) :
    (t.cell (s.cellKey c)).ops.readLE a n = v % 256 ^ n ∧ (∀ b, (b < a ∨ a + n ≤ b) → (t.cell (s.cellKey c)).opRd b = (s.cellAt c).opRd b)
      ∧ t.cell (s.cellKey c) = { s.cellAt c with
          ops := (t.cell (s.cellKey c)).ops, pc := (s.cellAt c).pc + 8, cycles := (s.cellAt c).cycles + 1 }
      ∧ s.keptButCell t (s.cellKey c) := by
  obtain ⟨hcell, hkept⟩ := h
  rw [hcell]
  exact ⟨Mem.readLE_writeLE .., fun b hb => Mem.read_writeLE _ _ _ _ _ hb, rfl, hkept⟩

/-! ## TDSC (04 R123) -/

section
variable (hop : opOf w = 0x37) (hz : zeroFld w 32 12 = true) (h : s.canIssue c [tdS w])
include hop hz h

/-- A TDSC of one cell leaves its function of the cell, done. -/
theorem State.tdsc_done {minor : Nat} (f : Cell → Cell) (hm : minorOf w = minor) : s.cellDone (s.tdsc c w minor f) c (f (s.cellAt c)) :=
  State.issueCell_done 0 (fun _ => f) (by simp [hop, hm]) h hz

/-- LD and ST trap with ILLEGAL_INSTR at an unlawful address. -/
theorem opTdscLd_unlawful (hm : minorOf w = 0) (ha : tdAddr w (s.cellAt c) = none) : opTdscLd c w s = s.trapCell c 5 0 (s.cellAt c).pc := by
  have ha' : tdAddr w (s.at c).cell = none := ha
  rw [opTdscLd, State.issue_ready (by simp [hop, hm]) h hz, ha']
  rfl

theorem opTdscSt_unlawful (hm : minorOf w = 1) (ha : tdAddr w (s.cellAt c) = none) : opTdscSt c w s = s.trapCell c 5 0 (s.cellAt c).pc := by
  have ha' : tdAddr w (s.at c).cell = none := ha
  rw [opTdscSt, State.issue_ready (by simp [hop, hm]) h hz, ha']
  rfl

/-- LD takes the descriptor from the operand store as it is seen now. -/
theorem opTdscLd_done {p : Nat} (hm : minorOf w = 0) (ha : tdAddr w (s.cellAt c) = some p) :
    s.cellDone (opTdscLd c w s) c ((s.cellAt c).setDesc (tdD w) (BitVec.ofNat 128 ((s.opsSeen c).readLE p 16))) := by
  have ha' : tdAddr w (s.at c).cell = some p := ha
  rw [opTdscLd, State.issue_ready (by simp [hop, hm]) h hz, ha']
  exact State.cellDone_setCell ..

/-- ST puts the descriptor into the operand store. -/
theorem opTdscSt_done {p : Nat} (hm : minorOf w = 1) (ha : tdAddr w (s.cellAt c) = some p) :
    s.cellDone (opTdscSt c w s) c { s.cellAt c with ops := (s.cellAt c).ops.writeLE p 16 ((s.cellAt c).desc (tdD w)).toNat } := by
  have ha' : tdAddr w (s.at c).cell = some p := ha
  rw [opTdscSt, State.issue_ready (by simp [hop, hm]) h hz, ha']
  exact State.cellDone_setCell s c _ 0

end

/-- The address is lawful where it is a multiple of 16 inside the operand store. -/
theorem tdAddr_eq_some {x : Cell} (h : (x.s (tdS w) + sxFld w 0 32).toNat % 16 = 0 ∧ (x.s (tdS w) + sxFld w 0 32).toNat < opBytes) :
    tdAddr w x = some (x.s (tdS w) + sxFld w 0 32).toNat := if_pos h

theorem tdAddr_eq_none {x : Cell} (h : ¬ ((x.s (tdS w) + sxFld w 0 32).toNat % 16 = 0 ∧ (x.s (tdS w) + sxFld w 0 32).toNat < opBytes)) :
    tdAddr w x = none := if_neg h

/-! ## Token waits (04 R122) -/

theorem Cell.tokensAtMost_iff (x : Cell) (mask limit : Nat) :
    x.tokensAtMost mask limit = true ↔ ∀ i, i < 16 → mask.testBit i = true → x.pendingOf i ≤ limit := by
  simp [Cell.tokensAtMost, List.all_eq_true, imp_iff_not_or]

/-- The mask of one token asks of that token alone. -/
theorem Cell.tokensAtMost_one (x : Cell) {n : Nat} (hn : n < 16) (limit : Nat) : x.tokensAtMost (2 ^ n) limit = true ↔ x.pendingOf n ≤ limit := by
  rw [Cell.tokensAtMost_iff]
  refine ⟨fun h => h n hn (Nat.testBit_two_pow_self), fun h i _ hi => ?_⟩
  rw [Nat.testBit_two_pow, decide_eq_true_eq] at hi
  rwa [← hi]

theorem Word.fld_lt (w : Word) (lo n : Nat) : w.fld lo n < 2 ^ n := Nat.mod_lt _ (Nat.two_pow_pos n)

/-- A wait whose tokens are low enough is done at once. -/
theorem State.tokenWait_met {mask limit : Nat} (h : (s.cellAt c).tokensAtMost mask limit = true) :
    s.cellDone (s.tokenWait (s.at c) mask limit) c (s.cellAt c) := by
  have h' : (s.at c).cell.tokensAtMost mask limit = true := h
  rw [State.tokenWait, if_pos h']
  exact State.cellDone_setCell s c _ 0

/-- A wait whose tokens are not blocks its cell. -/
theorem State.tokenWait_unmet {mask limit : Nat} (h : ¬ (s.cellAt c).tokensAtMost mask limit = true) :
    (s.tokenWait (s.at c) mask limit).cell (s.cellKey c) = { s.cellAt c with phase := .blocked (.tkop mask limit), cycles := (s.cellAt c).cycles + 1 }
      ∧ s.keptButCell (s.tokenWait (s.at c) mask limit) (s.cellKey c) := by
  have h' : ¬ (s.at c).cell.tokensAtMost mask limit = true := h
  rw [State.tokenWait, if_neg h']
  exact ⟨State.cell_setCell_self .., State.keptButCell_setCell s _ _ 0⟩

/-- TEST leaves all ones or zeros in its predicate. -/
theorem opTkopTest_done (hop : opOf w = 0x36) (hm : minorOf w = 3) (hz : zeroFld w 0 47 = true) (h : s.canIssue c []) :
    s.cellDone (opTkopTest c w s) c
      ((s.cellAt c).setPred (w.fld 47 3) (if (s.cellAt c).pendingOf (w.fld 50 4) = 0 then BitVec.allOnes 256 else 0)) :=
  State.issueCell_done 0 _ (by simp [hop, hm]) h hz

/-- A blocked wait ends once its tokens are low enough. -/
theorem opTkopWaitEnd_met {mask limit : Nat} (hphase : (s.cellAt c).phase = .blocked (.tkop mask limit)) (hb : s.cellBlocked c = true)
    (h : (s.cellAt c).tokensAtMost mask limit = true) : opTkopWaitEnd c s = s.setCell (s.cellKey c) (s.cellAt c).resume := by
  have hphase' : (s.at c).cell.phase = .blocked (.tkop mask limit) := hphase
  have h' : (s.at c).cell.tokensAtMost mask limit = true := h
  simp only [opTkopWaitEnd, hphase', hb, h', Bool.and_self, if_true]
  rfl

end

end Sys2Proof.Machine
end

section
/-! Tokens and descriptors: the obligation, from the rules above. -/

namespace Sys2Proof.Machine

/-- Settles O17: a token wait is done or blocks by its tokens' PENDING, and each TDSC form writes one descriptor, one register or 16 bytes of its cell. -/
theorem tokensAndDescriptors : Obligations.TokensAndDescriptors := by
  unfold Obligations.TokensAndDescriptors
  refine ⟨fun c w s => ⟨fun hop hm hz h => ⟨fun hlow => ?_, fun hlow => ?_⟩, fun hop hm hz h => ⟨fun hlow => ?_, fun hlow => ?_⟩, fun hop hm hz h => ?_,
    fun hop hm hz h => ?_, fun mask limit hphase hb hlow => ?_⟩, fun c w s hop hz h => ⟨fun hm h16 hlt => ?_, fun hm ha => ?_, fun hm h16 hlt => ?_,
    fun hm ha => ?_, fun hm => ?_, fun hm => ?_, fun hm => ?_, fun hm => ?_, fun hm => ?_, fun hm => ?_⟩⟩
  · exact ⟨_, congrArg Host.Outcome.next (State.issue_ready (by simp [hop, hm]) h hz), State.tokenWait_met ((Cell.tokensAtMost_iff ..).mpr hlow)⟩
  · exact ⟨_, congrArg Host.Outcome.next (State.issue_ready (by simp [hop, hm]) h hz), State.tokenWait_unmet fun ht => hlow ((Cell.tokensAtMost_iff ..).mp ht)⟩
  · exact ⟨_, congrArg Host.Outcome.next (State.issue_ready (by simp [hop, hm]) h hz),
      State.tokenWait_met ((Cell.tokensAtMost_one _ (Word.fld_lt w 50 4) _).mpr hlow)⟩
  · exact ⟨_, congrArg Host.Outcome.next (State.issue_ready (by simp [hop, hm]) h hz),
      State.tokenWait_unmet fun ht => Nat.not_le.mpr hlow ((Cell.tokensAtMost_one _ (Word.fld_lt w 50 4) _).mp ht)⟩
  · exact ⟨_, rfl, (State.issueCell_done 0 _ (by simp [hop, hm]) h hz).scalarDone⟩
  · obtain ⟨hcell, hkept⟩ := opTkopTest_done hop hm hz h
    refine ⟨_, rfl, ?_, ?_, hkept⟩
    · rw [hcell]
      exact (Cell.pred_setPred_self ..).trans (ite_or ..).symm
    · rw [hcell, Cell.setPred]
      split <;> rfl
  · exact ⟨_, congrArg Host.Outcome.next (opTkopWaitEnd_met hphase hb ((Cell.tokensAtMost_iff ..).mpr hlow)), State.cell_setCell_self ..,
      State.keptButCell_setCell s _ _ 0⟩
  · exact ⟨_, rfl, (opTdscLd_done hop hz h hm (tdAddr_eq_some ⟨h16, hlt⟩)).descDone⟩
  · exact ⟨_, congrArg Host.Outcome.next (opTdscLd_unlawful hop hz h hm (tdAddr_eq_none ha)), State.cellTrapped_self ..⟩
  · obtain ⟨hread, hrest⟩ := (opTdscSt_done hop hz h hm (tdAddr_eq_some ⟨h16, hlt⟩)).opsWritten
    exact ⟨_, rfl, (congrArg (BitVec.ofNat 128) hread).trans (ofNat_toNat_mod _), hrest⟩
  · exact ⟨_, congrArg Host.Outcome.next (opTdscSt_unlawful hop hz h hm (tdAddr_eq_none ha)), State.cellTrapped_self ..⟩
  · exact ⟨_, rfl, descWord_low .. ▸ (State.tdsc_done hop hz h _ hm).descDone⟩
  · exact ⟨_, rfl, descWord_high .. ▸ (State.tdsc_done hop hz h _ hm).descDone⟩
  · exact ⟨_, rfl, descLow_eq _ ▸ (State.tdsc_done hop hz h _ hm).scalarDone⟩
  · exact ⟨_, rfl, descHigh_eq _ ▸ (State.tdsc_done hop hz h _ hm).scalarDone⟩
  · exact ⟨_, rfl, descAdd_eq .. ▸ (State.tdsc_done hop hz h _ hm).descDone⟩
  · exact ⟨_, rfl, descAdd_eq .. ▸ (State.tdsc_done hop hz h _ hm).descDone⟩

end Sys2Proof.Machine
end

section
/-! SUPPORT. Asynchronous issue (04 R102, R105, R107): the checks of tiles, and how an operation joins its queue. -/

namespace Sys2Proof.Machine

/-! ## Tiles (04 R102) -/

section
variable {relief n : Nat} {t : Tile} {u : TileUse} {us : List TileUse} {ok : Bool}

theorem tilesFail_nil : tilesFail relief [] = none := rfl

/-- A tile that keeps the rules is passed over. -/
theorem tilesFail_cons (h : u.fail relief = none) : tilesFail relief (u :: us) = tilesFail relief us := by
  rw [tilesFail, tilesFail, List.filterMap_cons_none h]

/-- A lawful operand-store tile that meets its role's condition keeps the rules. -/
theorem TileUse.fail_store (hl : t.lawful n = true) (hs : t.space = 0) (hb : t.below opBytes = true) (hok : ok = true) :
    TileUse.fail relief ⟨n, t, 0, ok⟩ = none := by
  simp [TileUse.fail, hl, hs, hb, hok]

end

/-! ## Joining a queue (04 R105, R107) -/

section
variable {s : State} {c : CellRef} {w : Word} {row legal : Bool} {regs : List Nat} {tiles : At → List TileUse} {kind : At → AsyncKind}
  (hh : asyncHeader w = true) (hrow : row = true) (hlegal : legal = true) (h : s.canIssue c regs)
include hh hrow hlegal h

/-- Tiles that break a rule trap with the rule's code. -/
theorem State.issueAsync_traps {code : Nat} (ht : tilesFail (s.at c).eng.relief (tiles (s.at c)) = some code) :
    s.issueAsync c w row legal regs tiles kind = s.trapCell c code 0 (s.at c).cell.pc := by
  rw [State.issueAsync, State.issue_ready hrow h (by rw [hh, hlegal]; rfl), ht]
  rfl

/-- With room, an operation whose tiles keep the rules joins its queue. -/
theorem State.issueAsync_joins (ht : tilesFail (s.at c).eng.relief (tiles (s.at c)) = none) (hroom : s.asyncRoom c w (kind (s.at c))) :
    s.asyncIssued (s.issueAsync c w row legal regs tiles kind) c w (kind (s.at c)) := by
  obtain ⟨hqueue, hpending⟩ := hroom
  have hfull : ¬ (((s.at c).fl.queueOf (kind (s.at c))).2 ≤ ((s.at c).fl.queueOf (kind (s.at c))).1.length ∨ 255 ≤ (s.at c).cell.pendingOf (ksOf w)) :=
    not_or.mpr ⟨Nat.not_le.mpr hqueue, Nat.not_le.mpr hpending⟩
  rw [State.issueAsync, State.issue_ready hrow h (by rw [hh, hlegal]; rfl), ht]
  dsimp only
  rw [if_neg hfull]
  refine ⟨State.cell_setCell_self .., (State.flight_setFlight_self ..).trans ?_, rfl, fun j hj => ?_, fun j hj => ?_⟩
  · cases kind (s.at c) <;> rfl
  · exact (State.cell_setCell s _ j _).trans (if_neg hj)
  · exact (State.flight_setFlight _ _ j _).trans (if_neg hj)

end

end Sys2Proof.Machine
end

section
/-! Tensor instructions: the obligation, from the rules above. -/

namespace Sys2Proof.Machine

/-- TACW has no tile where it zeroes an accumulator, and one that fits the accumulator where it writes or broadcasts (04 R119). -/
theorem tacwTiles_pass {relief n mode arow : Nat} {raw : Bool} {x : Tile}
    (h : mode = 2 ∨ (x.lawful n = true ∧ x.space = 0 ∧ x.below opBytes = true ∧ x.fmt ≤ 2 ∧ x.trans = false ∧ x.tern = false ∧ x.sparse = false
      ∧ (raw = true → x.fmt = 0) ∧ x.cols ≤ 64 ∧ (if mode = 0 then x.rows + arow ≤ 32 else x.rows = 1))) :
    tilesFail relief (if mode = 2 then []
      else [⟨n, x, 0, decide (x.fmt ≤ 2) && !x.trans && !x.tern && !x.sparse && (!raw || x.fmt == 0) && decide (x.cols ≤ 64)
        && (if mode = 0 then decide (x.rows + arow ≤ 32) else x.rows == 1)⟩]) = none := by
  split
  · exact tilesFail_nil
  · next h2 =>
    obtain ⟨hlaw, hspace, hbelow, hfmt, htrans, htern, hsparse, hraw, hcols, hrows⟩ := h.resolve_left h2
    refine tilesFail_cons (TileUse.fail_store hlaw hspace hbelow ?_)
    have hraw' : (!raw || x.fmt == 0) = true := by
      cases raw with
      | false => rfl
      | true => simp [hraw rfl]
    have hrows' : (if mode = 0 then decide (x.rows + arow ≤ 32) else x.rows == 1) = true := by
      split at hrows <;> simp [*]
    simp [hfmt, htrans, htern, hsparse, hraw', hcols, hrows']

/-- Settles O13: each of the six joins the tensor queue when its tiles keep the rules, and TMMA traps with its tiles' code where they do not. -/
theorem tensorIssue : Obligations.TensorIssue := by
  unfold Obligations.TensorIssue
  intro c w s hh a sa
  refine ⟨?_, ?_, ?_, ?_, ?_, ?_, ?_⟩
  · intro hop hz h ht hroom
    exact ⟨_, rfl, State.issueAsync_joins hh (by simp [hop]) hz h ht hroom⟩
  · intro hop hz h code ht
    exact ⟨_, congrArg Host.Outcome.next (State.issueAsync_traps hh (by simp [hop]) hz h ht), State.cellTrapped_self ..⟩
  · intro hop hz h ht hroom
    exact ⟨_, rfl, State.issueAsync_joins hh (by simp [hop]) hz h ht hroom⟩
  · intro hop hz hrnd h x kind hlaw hspace hbelow hsparse hrows hcols hroom
    have hok : (!x.sparse && decide (x.opRowsT + w.fld 32 5 ≤ 32) && decide (x.opColsT ≤ 64)) = true := by simp [hsparse, hrows, hcols]
    exact ⟨_, rfl, State.issueAsync_joins hh (by simp [hop]) (by rw [hz, hrnd]; rfl) h (tilesFail_cons (TileUse.fail_store hlaw hspace hbelow hok)) hroom⟩
  · intro hop hz h3 hzero h x kind htile hroom
    have hlegal : (zeroFld w 0 34 && w.fld 40 2 != 3 && (w.fld 40 2 != 2 || (zeroFld w 42 4 && !w.bit 39 && w.fld 34 5 == 0))) = true := by
      simpa [hz, h3, and_assoc] using hzero
    exact ⟨_, rfl, State.issueAsync_joins hh (by simp [hop]) hlegal h (tacwTiles_pass htile) hroom⟩
  · intro hop hz h3 h kind hroom
    exact ⟨_, rfl, State.issueAsync_joins hh (by simp [hop]) (by simp [hz, h3]) h tilesFail_nil hroom⟩
  · intro hop hz hrnd h x y kind hxlaw hxspace hxbelow hylaw hyspace hybelow hxtrans hxsparse hytrans hysparse hrows hcols hapart hroom
    have hx : (!x.trans && !x.sparse && x.rows == y.cols && x.cols == y.rows && x.apart y) = true := by
      simp [hxtrans, hxsparse, hrows, hcols, hapart]
    have hy : (!y.trans && !y.sparse) = true := by simp [hytrans, hysparse]
    exact ⟨_, rfl, State.issueAsync_joins hh (by simp [hop]) (by rw [hz, hrnd]; rfl) h
      ((tilesFail_cons (TileUse.fail_store hxlaw hxspace hxbelow hx)).trans (tilesFail_cons (TileUse.fail_store hylaw hyspace hybelow hy))) hroom⟩

end Sys2Proof.Machine
end

section
/-! SUPPORT. The issue of Relief commands and broadcasts (04 R127, 06 R184, R185). -/

namespace Sys2Proof.Machine

/-! ## Relief commands (06 R184, R185) -/

/-- The operation that a Relief command issues: `al` is what the address in s[SA] must be a multiple of, and 0 where s[SA] holds a value. -/
def reliefKind (minor al : Nat) (w : Word) (a : At) : AsyncKind :=
  .relief minor (a.cell.tile (descAt w 41)) (a.cell.tile (descAt w 37)) (a.cell.tile (descAt w 33)) (a.cell.tile (descAt w 29)) (a.cell.rnd (w.fld 26 3))
    (w.fld 25 1) (if al ≠ 0 then (a.cell.s (rSa w)).toNat else (a.cell.s (rSa w)).fld 0 32) (rFn w)

section
variable {s : State} {c : CellRef} {w : Word} (hh : asyncHeader w = true)
include hh

/-- A Relief command whose address, where it has one, is lawful joins the Relief unit's queue. -/
theorem State.issueRelief_joins {minor al : Nat} {legal scalar : Bool}
    (hword : opOf w = 0x3C ∧ rMinor w = minor ∧ zeroFld w 0 13 = true ∧ rndCode (w.fld 26 3) = true) (hlegal : legal = true)
    (h : s.canIssue c (if scalar then [rSa w] else []))
    (ha : al ≠ 0 → ((s.at c).cell.s (rSa w)).toNat % al = 0 ∧ ((s.at c).cell.s (rSa w)).toNat < opBytes)
    (ht : tilesFail (s.at c).eng.relief (reliefTiles minor (rFn w) w (s.at c)) = none) (hroom : s.asyncRoom c w (reliefKind minor al w (s.at c))) :
    s.asyncIssued (s.issueRelief c w minor legal scalar al) c w (reliefKind minor al w (s.at c)) := by
  obtain ⟨hop, hm, hz, hrnd⟩ := hword
  have haddr : ¬ (al ≠ 0 ∧ ¬ (((s.at c).cell.s (rSa w)).toNat % al = 0 ∧ ((s.at c).cell.s (rSa w)).toNat < opBytes)) := fun hbad => hbad.2 (ha hbad.1)
  refine State.issueAsync_joins (kind := reliefKind minor al w) hh (by simp [hop, hm]) (by rw [hz, hrnd, hlegal]; rfl) h ?_ hroom
  dsimp only
  rw [if_neg haddr]
  exact ht

/-! ## Broadcasts (04 R127) -/

/-- The operation that MVBC issues: the next collective of its cell. -/
def mvbcKind (s : State) (c : CellRef) (w : Word) (a : At) : AsyncKind := .mvbc (a.cell.tile (descAt w 45)) (w.fld 39 6) (s.gather (s.cellKey c)).mvbc

/-- What is left of an MVBC once its operation has joined the queue: the collective is counted, and cell 0's names the source. -/
def State.mvbcCounted (s t : State) (c : CellRef) (w : Word) : State :=
  let u := t.setGather (s.cellKey c) { s.gather (s.cellKey c) with mvbc := (s.gather (s.cellKey c)).mvbc + 1 }
  let e := u.engine c.core c.eng
  if c.idx = 0 then
    u.setEngine c.core c.eng
      { e with mvbc := e.mvbc.put (0, 0) (s.gather (s.cellKey c)).mvbc (min ((s.cellAt c).s (w.fld 39 6)).toNat e.size + 1, 0) }
  else u

/-- An MVBC with room joins the move queue, and its collective is counted. -/
theorem opMvbc_joins (hop : opOf w = 0x3A) (hz : zeroFld w 0 39 = true) (h : s.canIssue c (if c.idx = 0 then [w.fld 39 6] else []))
    (ht : tilesFail (s.at c).eng.relief [⟨descAt w 45, (s.at c).cell.tile (descAt w 45), 0, true⟩] = none) (hroom : s.asyncRoom c w (mvbcKind s c w (s.at c))) :
    ∃ t, s.asyncIssued t c w (mvbcKind s c w (s.at c)) ∧ opMvbc c w s = s.mvbcCounted t c w := by
  have hjoin := State.issueAsync_joins (row := opOf w == 0x3A) (tiles := fun a => [⟨descAt w 45, a.cell.tile (descAt w 45), 0, true⟩])
    (kind := mvbcKind s c w) hh (by simp [hop]) hz h ht hroom
  have ⟨_, hflight, _⟩ := hjoin
  have hseq := congrArg Flight.seq hflight
  exact ⟨_, hjoin, if_neg fun heq => Nat.succ_ne_self _ (hseq.symm.trans heq)⟩

end

/-- What counting a collective leaves, in a state that differs from another in one cell and what it has in flight. -/
theorem State.mvbcCounted_result {s t : State} {c : CellRef} {w : Word} (hkept : s.keptButFlight t (s.cellKey c)) :
    let g := (s.gather (s.cellKey c)).mvbc
    let u := s.mvbcCounted t c w
    u.cells = t.cells ∧ u.flights = t.flights ∧ (u.gather (s.cellKey c)).mvbc = g + 1
      ∧ (c.idx = 0 → ((u.engine c.core c.eng).mvbc.at (0, 0) g).1 = min ((s.cellAt c).s (w.fld 39 6)).toNat (s.engine c.core c.eng).size + 1)
      ∧ (c.idx ≠ 0 → u.cores = s.cores) ∧ u.mem = s.mem ∧ u.regs = s.regs := by
  obtain ⟨ht, -, -⟩ := hkept
  have hcores : t.cores = s.cores := by rw [ht]
  have hmem : t.mem = s.mem := by rw [ht]
  have hregs : t.regs = s.regs := by rw [ht]
  have hsize : (t.engine c.core c.eng).size = (s.engine c.core c.eng).size := by rw [State.engine_of_cores hcores]
  intro g u
  have hu : u = s.mvbcCounted t c w := rfl
  unfold State.mvbcCounted at hu
  dsimp only at hu
  split at hu
  · next h0 =>
    rw [hu]
    refine ⟨by simp, by simp, ?_, fun _ => ?_, fun h => absurd h0 h, ?_, ?_⟩
    · exact congrArg Gather.mvbc (State.gather_setGather_self ..)
    · rw [State.engine_setEngine, if_pos ⟨rfl, rfl⟩, SMap.at_put, if_pos rfl]
      exact congrArg (fun n => min ((s.cellAt c).s (w.fld 39 6)).toNat n + 1) hsize
    · simpa using hmem
    · simpa using hregs
  · next h0 =>
    rw [hu]
    refine ⟨by simp, by simp, ?_, fun h => absurd h h0, fun _ => ?_, ?_, ?_⟩
    · exact congrArg Gather.mvbc (State.gather_setGather_self ..)
    · simpa using hcores
    · simpa using hmem
    · simpa using hregs

end Sys2Proof.Machine
end

section
/-! Moves, Relief commands and RACC: the obligation, from the rules above. -/

namespace Sys2Proof.Machine

/-- Settles O14: each joins its queue when its tiles keep the rules and there is room; MVBC counts its collective besides. -/
theorem moveAndReliefIssue : Obligations.MoveAndReliefIssue := by
  unfold Obligations.MoveAndReliefIssue
  intro c w s hh a o m ok sa relief word addr
  refine ⟨?_, ?_, ?_, ?_, ?_, ?_, ?_, ?_, ?_, ?_⟩
  · intro hop hz h ht hroom
    exact ⟨_, rfl, State.issueAsync_joins hh (by simp [hop]) hz h ht hroom⟩
  · intro hop hz hmarks h ht kind hroom
    have hlegal : (zeroFld w 0 33 && (if w.bit 48 then !w.bit 35 else !w.bit 34)) = true := by
      rw [hz]
      split at hmarks <;> simp [*]
    exact ⟨_, rfl, State.issueAsync_joins hh (by simp [hop]) hlegal h ht hroom⟩
  · intro hop hz h kind ht hroom
    obtain ⟨t, ⟨hcell, hflight, hkept⟩, hop'⟩ := opMvbc_joins hh hop hz h ht hroom
    obtain ⟨hcells, hflights, hrest⟩ := State.mvbcCounted_result (w := w) hkept
    refine ⟨_, congrArg Host.Outcome.next hop', ?_, ?_, hrest⟩
    · rw [State.cell, hcells]
      exact hcell
    · rw [State.flight, hflights]
      exact hflight
  · intro hword hfn h ht hroom
    exact ⟨_, rfl, State.issueRelief_joins hh hword (by simp [hfn]) h (fun hne => absurd rfl hne) ht hroom⟩
  · intro hword hfn h ht hroom
    exact ⟨_, rfl, State.issueRelief_joins hh hword (by simp [hfn]) h (fun hne => absurd rfl hne) ht hroom⟩
  · intro hword hfn h ht hroom
    exact ⟨_, rfl, State.issueRelief_joins hh hword (by simp [hfn]) h (fun hne => absurd rfl hne) ht hroom⟩
  · intro hword hfn h ha ht hroom
    exact ⟨_, rfl, State.issueRelief_joins hh hword (by simp [hfn]) h (fun _ => ha) ht hroom⟩
  · intro hword hfn h ha hroom
    exact ⟨_, rfl, State.issueRelief_joins hh hword (by simp [hfn]) h (fun _ => ha) tilesFail_nil hroom⟩
  · intro hword hfn h ht hroom
    exact ⟨_, rfl, State.issueRelief_joins hh hword (by simp [hfn]) h (fun hne => absurd rfl hne) ht hroom⟩
  · intro hop hz h3 h x y kind ht hroom
    exact ⟨_, rfl, State.issueAsync_joins hh (by simp [hop]) (by simp [hz, h3]) h ht hroom⟩

end Sys2Proof.Machine
end

section
/-! SUPPORT. Bytes written to a Relief bank (06 R177, R200). -/

namespace Sys2Proof.Machine

/-! ## One granule -/

/-- The part of bytes that lies in a line, written there, is read back at its place. -/
theorem Mem.read_writeMasked_linePart (m : Mem) (off : Nat) (bytes : List Byte) (g a : Nat) :
    (m.writeMasked (64 * g) (linePart off bytes g).1 (linePart off bytes g).2.toNat).read a =
      if a / 64 = g ∧ off ≤ a ∧ a < off + bytes.length then (bytes[a - off]?).getD 0 else m.read a := by
  rw [Mem.read_writeMasked]
  by_cases hg : a / 64 = g
  · have hi : a - 64 * g < 64 := by omega
    have hat : 64 * g + (a - 64 * g) = a := by omega
    have hin : 64 * g ≤ a ∧ a < 64 * g + 64 := by omega
    rw [linePart_mask _ _ _ _ hi, hat]
    by_cases hb : off ≤ a ∧ a < off + bytes.length
    · rw [if_pos ⟨hin.1, hin.2, decide_eq_true hb⟩, if_pos ⟨hg, hb⟩, linePart_data bytes hi (by omega), hat]
    · rw [if_neg fun h => hb (of_decide_eq_true h.2.2), if_neg fun h => hb h.2]
  · rw [if_neg fun h => hg (by omega), if_neg fun h => hg h.1]

/-- A granule that is not poisoned takes its masked bytes, and the bank changes in nothing else. -/
theorem Bank.writeGranule_clean {b : Bank} {g : Nat} (h : b.poisoned g = false) (mask : Nat) (data : Line) :
    (b.writeGranule g mask data).1 = { b with data := b.data.writeMasked (64 * g) mask data.toNat } := by
  obtain ⟨hlost, hpoison⟩ := Bool.or_eq_false_iff.mp h
  rw [Bank.writeGranule, hlost, hpoison, if_neg Bool.false_ne_true, if_neg Bool.false_ne_true]

/-! ## Granule by granule -/

/-- The bank that the granules of a list leave when each takes its part of bytes. -/
def Bank.writeGranules (b : Bank) (off : Nat) (bytes : List Byte) (l : List Nat) (done : Bool) : Bank × Bool :=
  l.foldl (fun (r : Bank × Bool) g =>
    let p := linePart off bytes g
    let w := r.1.writeGranule g p.1 p.2
    (w.1, r.2 && w.2)) (b, done)

/-- Where none of them is poisoned, they take the bytes that lie in them. -/
theorem Bank.read_writeGranules (off : Nat) (bytes : List Byte) (a : Nat) (l : List Nat) : ∀ (b : Bank) (done : Bool), (∀ g ∈ l, b.poisoned g = false) →
    (b.writeGranules off bytes l done).1.data.read a =
      if a / 64 ∈ l ∧ off ≤ a ∧ a < off + bytes.length then (bytes[a - off]?).getD 0 else b.data.read a := by
  induction l with
  | nil => intro b done _; simp [Bank.writeGranules]
  | cons g l ih =>
    intro b done h
    have hclean := Bank.writeGranule_clean (h g List.mem_cons_self) (linePart off bytes g).1 (linePart off bytes g).2
    have hrest : ∀ x ∈ l, (b.writeGranule g (linePart off bytes g).1 (linePart off bytes g).2).1.poisoned x = false := fun x hx => by
      rw [hclean]
      exact h x (List.mem_cons_of_mem _ hx)
    refine (ih _ _ hrest).trans ?_
    rw [hclean, Mem.read_writeMasked_linePart]
    by_cases hb : off ≤ a ∧ a < off + bytes.length
    · by_cases hl : a / 64 ∈ l
      · simp [hl, hb]
      · simp [hl, hb]
    · simp [hb]

theorem mem_linesOf {off n a : Nat} (hlo : off ≤ a) (hhi : a < off + n) : a / 64 ∈ linesOf off n := by
  rw [linesOf, if_neg (by omega), List.mem_map]
  exact ⟨a / 64 - off / 64, List.mem_range.mpr (by omega), by omega⟩

/-- Bytes written to granules that are not poisoned are read back, and every other byte of the bank is as it was. -/
theorem Bank.read_writeBytes {b : Bank} {off : Nat} {bytes : List Byte} (h : b.anyPoison off bytes.length = false) (a : Nat) :
    (b.writeBytes off bytes).1.data.read a = if off ≤ a ∧ a < off + bytes.length then (bytes[a - off]?).getD 0 else b.data.read a := by
  have hclean : ∀ g ∈ granulesOf off bytes.length, b.poisoned g = false := fun g hg => Bool.eq_false_iff.mpr (List.any_eq_false.mp h g hg)
  refine (Bank.read_writeGranules off bytes a _ b true hclean).trans ?_
  by_cases hb : off ≤ a ∧ a < off + bytes.length
  · rw [if_pos ⟨mem_linesOf hb.1 hb.2, hb⟩, if_pos hb]
  · rw [if_neg fun hc => hb hc.2, if_neg hb]

/-! ## A bank of the complex -/

section
variable {s : State} {k off n : Nat} (v : Nat) (own : Option Nat) (h : (s.bank k).anyPoison off n = false)
include h

theorem State.bankByte_bankWrite (j a : Nat) : (s.bankWrite k off (bytesOf n v) own).1.bankByte j a =
    if j = k ∧ off ≤ a ∧ a < off + n then BitVec.ofNat 8 (v / 256 ^ (a - off)) else s.bankByte j a := by
  have hclean : ((s.bank k).clearResv off (bytesOf n v).length own).anyPoison off (bytesOf n v).length = false := by
    rw [bytesOf_length]
    exact h
  rw [State.bankByte, State.bankWrite, State.bank_setBank]
  by_cases hj : j = k
  · rw [if_pos hj, Bank.read_writeBytes hclean, bytesOf_length]
    by_cases ha : off ≤ a ∧ a < off + n
    · rw [if_pos ha, if_pos ⟨hj, ha⟩, bytesOf_getElem? _ (by omega), Option.getD_some]
    · rw [if_neg ha, if_neg fun hc => ha hc.2, hj]
      rfl
  · rw [if_neg hj, if_neg fun hc => hj hc.1, State.bankByte]

/-- A number written to a bank is read back. -/
theorem State.readLE_bankWrite : ((s.bankWrite k off (bytesOf n v) own).1.bank k).data.readLE off n = v % 256 ^ n :=
  Mem.readLE_of_bytes _ _ _ _ fun i hi => by
    have hbyte := State.bankByte_bankWrite v own h k (off + i)
    rw [if_pos ⟨rfl, by omega, by omega⟩, Nat.add_sub_cancel_left] at hbyte
    exact hbyte

end

end Sys2Proof.Machine
end

section
/-! SUPPORT. What a cell's translation leaves (10 R307, R308, R319, R337): it fills caches and counts, and leaves memory, the cells, what they have in flight, and the engines. -/

namespace Sys2Proof.Machine

/-- The cells, what they have in flight, memory, and the engines. -/
def State.cellSide (s : State) : SMap Cell × SMap Flight × MemSys × (Nat → Nat → Engine) := (s.cells, s.flights, s.mem, s.engine)

section
variable {s t : State}

theorem State.cells_of_cellSide (h : t.cellSide = s.cellSide) : t.cells = s.cells := congrArg (·.1) h
theorem State.flights_of_cellSide (h : t.cellSide = s.cellSide) : t.flights = s.flights := congrArg (·.2.1) h
theorem State.mem_of_cellSide (h : t.cellSide = s.cellSide) : t.mem = s.mem := congrArg (·.2.2.1) h
theorem State.engine_of_cellSide (h : t.cellSide = s.cellSide) : t.engine = s.engine := congrArg (·.2.2.2) h

theorem State.cellSide_of_cores (hcells : t.cells = s.cells) (hflights : t.flights = s.flights) (hmem : t.mem = s.mem) (hcores : t.cores = s.cores) :
    t.cellSide = s.cellSide := by
  rw [State.cellSide, hcells, hflights, hmem, State.engine_of_cores hcores, State.cellSide]

end

section
variable (s : State)

/-- A core that keeps its engines keeps them where it is. -/
theorem State.setCore_cellSide {c : Nat} {x : Core} (h : x.engines = (s.core c).engines) : (s.setCore c x).cellSide = s.cellSide := by
  have hengine : (s.setCore c x).engine = s.engine := by
    funext c' e
    rw [State.engine, State.core_setCore, State.engine]
    split
    · next hc => rw [h, hc]
    · rfl
  rw [State.cellSide, hengine]
  rfl

@[simp] theorem State.bumpCore_cellSide (c pk : Nat) (r : Reg) (f : Fld) (n : Nat) : (s.bumpCore c pk r f n).cellSide = s.cellSide :=
  State.cellSide_of_cores (by simp) (by simp) (by simp) (by simp)

@[simp] theorem State.wr_cellSide (a : Nat) (w : Word) : (s.wr a w).cellSide = s.cellSide := rfl

@[simp] theorem State.snoopRead_cellSide (line : Nat) : (s.snoopRead line).cellSide = s.cellSide := by
  unfold State.snoopRead
  dsimp only
  split <;> exact State.cellSide_of_cores (by simp) (by simp) (by simp) (by simp)

@[simp] theorem State.snoopReads_cellSide (l : List Nat) : (s.snoopReads l).cellSide = s.cellSide :=
  foldl_keeps (P := fun t : State => t.cellSide = s.cellSide) (fun t x ht => (State.snoopRead_cellSide t x).trans ht) rfl l

@[simp] theorem State.atuFault_cellSide (a c g o : Nat) : (s.atuFault a c g o).cellSide = s.cellSide := by
  unfold State.atuFault
  dsimp only
  rw [State.wr_cellSide, State.wr_cellSide]
  split <;> rfl

@[simp] theorem State.consumePoison_cellSide (line ctx : Nat) : (s.consumePoison line ctx).cellSide = s.cellSide := by
  unfold State.consumePoison
  dsimp only
  split
  · exact State.cellSide_of_cores (by simp) (by simp) (by simp) (by simp)
  · rfl

/-- Filling a TLB and its walk cache. -/
theorem State.xlFill_cellSide (unit ctx va : Nat) (r : Right) (agent : Nat) : (s.xlFill unit ctx va r agent).cellSide = s.cellSide := by
  unfold State.xlFill
  extract_lets hit core pk root lines s0 missed s1 refused ts old fresh s2 new dtlb s3
  have h1 : s1.cellSide = s.cellSide := by
    dsimp only [s1, missed]
    split
    · split
      · rw [State.bumpCore_cellSide, State.snoopReads_cellSide]
      · rw [State.bumpCore_cellSide, State.bumpCore_cellSide, State.snoopReads_cellSide]
    · exact State.snoopReads_cellSide ..
  clear_value s1
  have h2 : s2.cellSide = s.cellSide := by
    dsimp only [s2]
    split
    · refine (State.setCore_cellSide s1 ?_).trans h1
      rfl
    · exact h1
  clear_value s2
  have hrefused : ∀ t : State, (refused t).cellSide = t.cellSide := fun t => by
    dsimp only [refused]
    split
    · rfl
    · split
      · exact State.bumpCore_cellSide ..
      · exact State.atuFault_cellSide ..
  clear_value refused
  split
  · rfl
  · split
    · split
      · dsimp only
        split
        · refine (State.setCore_cellSide s2 ?_).trans h2
          rfl
        · refine (State.cellSide_of_cores (s := s2) ?_ ?_ ?_ ?_).trans h2 <;> rfl
      · exact (hrefused s2).trans h2
    · have h3 : s3.cellSide = s.cellSide := (hrefused s2).trans h2
      split
      · exact (State.bumpCore_cellSide ..).trans h3
      · exact h3
    · split
      · rw [State.bumpCore_cellSide, State.consumePoison_cellSide, h2]
      · rw [State.atuFault_cellSide, State.consumePoison_cellSide, h2]

/-- A cell's translation fills the caches of its half of the address space. -/
theorem State.xlCellFill_cellSide (core ctx va : Nat) (r : Right) : (s.xlCellFill core ctx va r).cellSide = s.cellSide := by
  unfold State.xlCellFill
  dsimp only
  split
  · rfl
  · split
    · exact State.xlFill_cellSide ..
    · split
      · exact State.bumpCore_cellSide ..
      · split <;> rfl
      · rfl

/-- So do the translations of all the bytes of an access. -/
theorem State.xlAccessFill_cellSide (core ctx va n : Nat) (r : Right) : (s.xlAccessFill core ctx va n r).cellSide = s.cellSide := by
  unfold State.xlAccessFill
  dsimp only
  split
  · split
    · exact State.xlCellFill_cellSide ..
    · rw [State.xlCellFill_cellSide, State.xlCellFill_cellSide]
  · exact State.xlCellFill_cellSide ..

end

end Sys2Proof.Machine
end

section
/-! SUPPORT. LD and ST (05 R139 to R141, R145): what each does in the operand store, in the Relief bank and in device space. -/

namespace Sys2Proof.Machine

/-! ## Device space (05 R132, R141) -/

section
variable {s : State} {c : CellRef} {va n : Nat} {r : Right} {body : State → Place → State}

/-- The state after the translation of an access of a cell. -/
def State.sought (s : State) (c : CellRef) (va n : Nat) (r : Right) : State := s.xlAccessFill c.core (s.engine c.core c.eng).ctx va n r

theorem State.sought_cellSide (s : State) (c : CellRef) (va n : Nat) (r : Right) : (s.sought c va n r).cellSide = s.cellSide :=
  State.xlAccessFill_cellSide ..

theorem State.withPlace_ok {p : Place} (hx : s.xlAccess c.core (s.engine c.core c.eng).ctx va n r = .ok p) :
    s.withPlace (s.at c) va n r body = body (s.sought c va n r) p := by
  have hx' : s.xlAccess (s.at c).ref.core (s.at c).eng.ctx va n r = .ok p := hx
  simp only [State.withPlace, hx']
  rfl

/-- A missing translation or right traps with PROTECTION. -/
theorem State.withPlace_missing (hx : s.xlAccess c.core (s.engine c.core c.eng).ctx va n r = .missing) :
    s.cellTrapped (s.withPlace (s.at c) va n r body) c 6 0 (s.cellAt c).pc := by
  have hx' : s.xlAccess (s.at c).ref.core (s.at c).eng.ctx va n r = .missing := hx
  simp only [State.withPlace, hx']
  exact State.cellTrapped_trapCell (State.engine_of_cellSide (State.sought_cellSide s c va n r)) ..

/-- With fewer than 8 accesses outstanding, one more goes out, and memory is as it was. -/
theorem State.issueAccess_out {t : State} (hmem : t.mem = s.mem) (hroom : (s.flightAt c).loads.length < 8) (sd : Nat) (kind : LoadKind) (p : Place)
    (tag : Nat) (acq rel : Bool) : accessOut s (t.issueAccess (s.at c) sd kind va p n tag acq rel) c sd kind va p n tag acq rel := by
  have hfull : ¬ 8 ≤ (s.at c).fl.loads.length := Nat.not_le.mpr hroom
  rw [State.issueAccess, if_neg hfull]
  exact ⟨State.cell_setCell_self .., hmem, State.flight_setFlight_self ..⟩

end

/-! ## The access (05 R139) -/

/-- The address of a memory instruction of a cell. -/
abbrev State.accessVa (s : State) (c : CellRef) (w : Word) : Nat := mAddr w (s.cellAt c)

/-- The value that a store of a cell writes. -/
abbrev State.storeVal (s : State) (c : CellRef) (w : Word) : Nat := ((s.cellAt c).s (sbOf w)).toNat % 256 ^ mSize w

/-! ## LD (05 R139 to R141) -/

section
variable {s : State} {c : CellRef} {w : Word} (hop : opOf w = 0x10) (hl : ldLegal w = true) (h : s.canIssue c [sdOf w, saOf w])
include hop hl h

theorem opLd_store (hsp : mSp w = 0) : opLd c w s =
    if opBytes < s.accessVa c w + mSize w then s.trapCell c 5 0 (s.cellAt c).pc
    else (s.setCell (s.cellKey c) ((s.cellAt c).setS (sdOf w)
      (extend (w.bit 37) (mSize w) ((s.opsSeen c).readLE (s.accessVa c w) (mSize w)))).next).drew (s.opsDraws c) := by
  rw [opLd, State.issue_ready (by simp [hop]) h hl]
  simp only [hsp]
  rfl

theorem opLd_bank (hsp : mSp w = 1) : opLd c w s =
    if (s.engine c.core c.eng).relief < s.accessVa c w + mSize w then s.trapCell c 6 0 (s.cellAt c).pc
    else if (s.bank (s.cellKey c)).anyPoison (s.accessVa c w) (mSize w) then s.trapCell c 7 0 (s.cellAt c).pc
    else s.setCell (s.cellKey c) ((s.cellAt c).setS (sdOf w)
      (extend (w.bit 37) (mSize w) ((s.bank (s.cellKey c)).data.readLE (s.accessVa c w) (mSize w)))).next := by
  rw [opLd, State.issue_ready (by simp [hop]) h hl]
  simp only [hsp]
  rfl

theorem opLd_device (hsp : mSp w = 2) : opLd c w s =
    s.withPlace (s.at c) (s.accessVa c w) (mSize w) .read fun t p =>
      if p.isArena && !(mSize w == 8 && s.arenaAt (s.accessVa c w) p) then t.trapAt (s.at c) 6
      else t.issueAccess (s.at c) (sdOf w) (.ld (w.bit 37)) (s.accessVa c w) p (mSize w) (mTag w) (mAcq w) false := by
  rw [opLd, State.issue_ready (by simp [hop]) h hl]
  simp only [hsp]
  rfl

/-- A load of device space goes out where its place is one that it may read. -/
theorem opLd_out {p : Place} (hsp : mSp w = 2)
    (hx : s.xlAccess c.core (s.engine c.core c.eng).ctx (s.accessVa c w) (mSize w) .read = .ok p)
    (harena : p.isArena = true → mSize w = 8 ∧ s.arenaAt (s.accessVa c w) p = true) (hroom : (s.flightAt c).loads.length < 8) :
    accessOut s (opLd c w s) c (sdOf w) (.ld (w.bit 37)) (s.accessVa c w) p (mSize w) (mTag w) (mAcq w) false := by
  have hok : ¬ (p.isArena && !(mSize w == 8 && s.arenaAt (s.accessVa c w) p)) = true := by
    simpa using harena
  rw [opLd_device hop hl h hsp, State.withPlace_ok hx, if_neg hok]
  exact State.issueAccess_out (State.mem_of_cellSide (State.sought_cellSide ..)) hroom ..

end

/-! ## ST (05 R140, R141, R145) -/

/-- The buffer entries of a device-space store: one for each of its pieces, in program order's next place. -/
def State.storeEntries (s : State) (c : CellRef) (w : Word) (p : Place) : List StoreEntry :=
  let va := s.accessVa c w
  (pieces va (mSize w)).map fun q =>
    ⟨(s.flightAt c).seq, (s.cellAt c).pc, s.bytePlace c.core (s.engine c.core c.eng).ctx va p .write q.1, q.2,
      s.storeVal c w / 256 ^ q.1 % 256 ^ q.2, mTag w, mRel w⟩

/-- They share the place of their store in program order, its tag and its mark. -/
theorem State.storeEntries_shared {s : State} {c : CellRef} {w : Word} {p : Place} {e : StoreEntry} (he : e ∈ s.storeEntries c w p) :
    e.id = (s.flightAt c).seq ∧ e.tag = mTag w ∧ e.rel = mRel w := by
  obtain ⟨q, -, rfl⟩ := List.mem_map.mp he
  exact ⟨rfl, rfl, rfl⟩

section
variable {s : State} {c : CellRef} {w : Word} (hop : opOf w = 0x11) (hl : stLegal w = true) (h : s.canIssue c [saOf w, sbOf w])
include hop hl h

theorem opSt_store (hsp : mSp w = 0) : opSt c w s =
    if opBytes < s.accessVa c w + mSize w then s.trapCell c 5 0 (s.cellAt c).pc
    else s.setCell (s.cellKey c) { s.cellAt c with
      ops := (s.cellAt c).ops.writeLE (s.accessVa c w) (mSize w) (s.storeVal c w) }.next := by
  rw [opSt, State.issue_ready (by simp [hop]) h hl]
  simp only [hsp]
  rfl

/-- A store of a lawful operand-store address leaves its bytes there. -/
theorem opSt_stored (hsp : mSp w = 0) (hin : s.accessVa c w + mSize w ≤ opBytes) : s.cellDone (opSt c w s) c { s.cellAt c with
    ops := (s.cellAt c).ops.writeLE (s.accessVa c w) (mSize w) (s.storeVal c w) } := by
  rw [opSt_store hop hl h hsp, if_neg (Nat.not_lt.mpr hin)]
  exact State.cellDone_setCell s c _ 0

theorem opSt_bank (hsp : mSp w = 1) : opSt c w s =
    if (s.engine c.core c.eng).relief < s.accessVa c w + mSize w then s.trapCell c 6 0 (s.cellAt c).pc
    else
      let r := s.bankWrite (s.cellKey c) (s.accessVa c w) (bytesOf (mSize w) (s.storeVal c w)) (some (s.cellKey c))
      let t := r.1.setCell (s.cellKey c) (s.cellAt c).next
      if r.2 then t
      else t.setFlight (s.cellKey c) { s.flightAt c with storeFail := (s.flightAt c).storeFail <|> some ((s.cellAt c).pc, 0) } := by
  rw [opSt, State.issue_ready (by simp [hop]) h hl]
  simp only [hsp]
  rfl

theorem opSt_device (hsp : mSp w = 2) : opSt c w s =
    s.withPlace (s.at c) (s.accessVa c w) (mSize w) .write fun t p =>
      if p.isArena || s.codeHit (s.engine c.core c.eng).ctx (s.accessVa c w) (mSize w) then t.trapAt (s.at c) 6
      else if 16 < (s.flightAt c).stbuf.length + (pieces (s.accessVa c w) (mSize w)).length then s
      else (t.setCell (s.cellKey c) (s.cellAt c).next).setFlight (s.cellKey c)
        { s.flightAt c with stbuf := (s.flightAt c).stbuf ++ s.storeEntries c w p, seq := (s.flightAt c).seq + 1 } := by
  rw [opSt, State.issue_ready (by simp [hop]) h hl]
  simp only [hsp]
  rfl

/-- A store of a lawful bank address leaves its bytes there, and no other byte of a bank or of stack memory changes. -/
theorem opSt_bank_stored (hsp : mSp w = 1) (hin : s.accessVa c w + mSize w ≤ (s.engine c.core c.eng).relief)
    (hclean : (s.bank (s.cellKey c)).anyPoison (s.accessVa c w) (mSize w) = false) :
    let k := s.cellKey c
    let va := s.accessVa c w
    let v := s.storeVal c w
    let t := opSt c w s
    (t.bank k).data.readLE va (mSize w) = v ∧ t.cell k = (s.cellAt c).next
      ∧ (∀ j a, (j ≠ k ∨ a < va ∨ va + mSize w ≤ a) → t.bankByte j a = s.bankByte j a) ∧ t.mem.dev = s.mem.dev := by
  intro k va v t
  have ht : t = opSt c w s := rfl
  rw [opSt_bank hop hl h hsp, if_neg (Nat.not_lt.mpr hin)] at ht
  dsimp only at ht
  have hmem : t.mem = (s.bankWrite k va (bytesOf (mSize w) v) (some k)).1.mem := by
    rw [ht]
    split <;> rfl
  have hcell : t.cell k = (s.cellAt c).next := by
    rw [ht]
    split <;> exact State.cell_setCell_self ..
  have hbank : ∀ j, t.bank j = (s.bankWrite k va (bytesOf (mSize w) v) (some k)).1.bank j := fun j => by rw [State.bank, hmem, State.bank]
  refine ⟨?_, hcell, fun j a hja => ?_, by rw [hmem, State.bankWrite_dev]⟩
  · rw [hbank, State.readLE_bankWrite v _ hclean, Nat.mod_mod]
  · rw [State.bankByte, hbank, ← State.bankByte, State.bankByte_bankWrite v _ hclean, if_neg (by omega)]

/-- A store of device space enters the store buffer in its pieces, and memory is as it was. -/
theorem opSt_buffered {p : Place} (hsp : mSp w = 2)
    (hx : s.xlAccess c.core (s.engine c.core c.eng).ctx (s.accessVa c w) (mSize w) .write = .ok p) (harena : p.isArena = false)
    (hcode : s.codeHit (s.engine c.core c.eng).ctx (s.accessVa c w) (mSize w) = false)
    (hroom : (s.flightAt c).stbuf.length + (pieces (s.accessVa c w) (mSize w)).length ≤ 16) :
    let t := opSt c w s
    t.cell (s.cellKey c) = (s.cellAt c).next ∧ t.mem = s.mem
      ∧ t.flight (s.cellKey c) = { s.flightAt c with stbuf := (s.flightAt c).stbuf ++ s.storeEntries c w p, seq := (s.flightAt c).seq + 1 } := by
  have hok : ¬ (p.isArena || s.codeHit (s.engine c.core c.eng).ctx (s.accessVa c w) (mSize w)) = true := by simp [harena, hcode]
  rw [opSt_device hop hl h hsp, State.withPlace_ok hx, if_neg hok, if_neg (Nat.not_lt.mpr hroom)]
  have hmem := State.mem_of_cellSide (s.sought_cellSide c (s.accessVa c w) (mSize w) .write)
  exact ⟨State.cell_setCell_self .., hmem, State.flight_setFlight_self ..⟩

/-- A store into the code region of an engine of its context traps with PROTECTION. -/
theorem opSt_code {p : Place} (hsp : mSp w = 2)
    (hx : s.xlAccess c.core (s.engine c.core c.eng).ctx (s.accessVa c w) (mSize w) .write = .ok p)
    (hcode : s.codeHit (s.engine c.core c.eng).ctx (s.accessVa c w) (mSize w) = true) :
    s.cellTrapped (opSt c w s) c 6 0 (s.cellAt c).pc := by
  have hhit : (p.isArena || s.codeHit (s.engine c.core c.eng).ctx (s.accessVa c w) (mSize w)) = true := by rw [hcode, Bool.or_true]
  rw [opSt_device hop hl h hsp, State.withPlace_ok hx, if_pos hhit]
  exact State.cellTrapped_trapCell (State.engine_of_cellSide (State.sought_cellSide ..)) ..

end

end Sys2Proof.Machine
end

section
/-! Loads and stores: the obligation, from the rules above. -/

namespace Sys2Proof.Machine

/-- Settles O18: LD and ST go by their space, and a trap leaves TRAPREC of the cell that issued them. -/
theorem loadsAndStores : Obligations.LoadsAndStores := by
  unfold Obligations.LoadsAndStores
  refine ⟨fun c w s => ⟨fun hop hl h => ⟨fun hsp hin => ?_, fun hsp hout => ?_, fun hsp hin hclean => ?_, fun hsp hout => ?_, fun hsp hin hpoison => ?_⟩,
    fun hop hl h => ⟨fun hsp hin => ?_, fun hsp hout => ?_, fun hsp hin hclean => ?_, fun hsp hout => ?_⟩⟩,
    fun c w s hsp => ⟨fun hop hl h => ⟨fun p hx harena hroom => ?_, fun hx => ?_⟩,
      fun hop hl h => ⟨fun p hx harena hcode hroom => ?_, fun p hx hcode => ?_, fun hx => ?_⟩⟩⟩
  · refine ⟨_, congrArg Host.Outcome.next ((opLd_store hop hl h hsp).trans (if_neg (Nat.not_lt.mpr hin))), ?_⟩
    exact (State.cellDone_setCell ..).scalarDone
  · exact ⟨_, congrArg Host.Outcome.next ((opLd_store hop hl h hsp).trans (if_pos hout)), State.cellTrapped_self ..⟩
  · refine ⟨_, congrArg Host.Outcome.next ((opLd_bank hop hl h hsp).trans ((if_neg (Nat.not_lt.mpr hin)).trans (if_neg (Bool.eq_false_iff.mp hclean)))), ?_⟩
    exact (State.cellDone_setCell s c _ 0).scalarDone
  · exact ⟨_, congrArg Host.Outcome.next ((opLd_bank hop hl h hsp).trans (if_pos hout)), State.cellTrapped_self ..⟩
  · exact ⟨_, congrArg Host.Outcome.next ((opLd_bank hop hl h hsp).trans ((if_neg (Nat.not_lt.mpr hin)).trans (if_pos hpoison))), State.cellTrapped_self ..⟩
  · obtain ⟨hread, hrest⟩ := State.cellDone.opsWritten (opSt_stored hop hl h hsp hin)
    exact ⟨_, rfl, hread.trans (Nat.mod_mod ..), hrest⟩
  · exact ⟨_, congrArg Host.Outcome.next ((opSt_store hop hl h hsp).trans (if_pos hout)), State.cellTrapped_self ..⟩
  · exact ⟨_, rfl, opSt_bank_stored hop hl h hsp hin hclean⟩
  · exact ⟨_, congrArg Host.Outcome.next ((opSt_bank hop hl h hsp).trans (if_pos hout)), State.cellTrapped_self ..⟩
  · exact ⟨_, rfl, opLd_out hop hl h hsp hx harena hroom⟩
  · exact ⟨_, congrArg Host.Outcome.next (opLd_device hop hl h hsp), State.withPlace_missing hx⟩
  · obtain ⟨hcell, hmem, hflight⟩ := opSt_buffered hop hl h hsp hx harena hcode hroom
    have hbuf := congrArg Flight.stbuf hflight
    have hlen : (s.storeEntries c w p).length = (pieces (s.accessVa c w) (mSize w)).length := List.length_map _
    refine ⟨_, rfl, hcell, hmem, ?_, congrArg Flight.seq hflight, fun e he => State.storeEntries_shared (p := p) ?_⟩
    · exact (congrArg List.length hbuf).trans (List.length_append.trans (congrArg _ hlen))
    · have hnew := (congrArg (List.drop (s.flightAt c).stbuf.length) hbuf).trans (List.drop_left ..)
      exact hnew ▸ he
  · exact ⟨_, rfl, opSt_code hop hl h hsp hx hcode⟩
  · exact ⟨_, congrArg Host.Outcome.next (opSt_device hop hl h hsp), State.withPlace_missing hx⟩

end Sys2Proof.Machine
end

section
/-! SUPPORT. What SMD computes (05 R135): products and divisions as operations on words, and the zeros at either end of a word. -/

namespace Sys2Proof.Machine

/-! ## Products and quotients -/

/-- An integer's low 64 bits as a word. -/
theorem ofNat_wrapNat (z : Int) : Word.ofNat (wrapNat 64 z) = BitVec.ofInt 64 z := by
  apply BitVec.eq_of_toNat_eq
  rw [BitVec.toNat_ofNat, BitVec.toNat_ofInt, wrapNat]
  omega

theorem mul_eq_ofInt (a b : Word) : a * b = BitVec.ofInt 64 (a.toInt * b.toInt) := by
  rw [BitVec.ofInt_mul, BitVec.ofInt_toInt, BitVec.ofInt_toInt]

/-- The high half of the signed product is that of the sign-extended factors. -/
theorem mulHigh_eq (a b : Word) :
    Word.ofNat (wrapNat 64 (a.toInt * b.toInt / (2 ^ 64 : Int))) = ((a.signExtend 128 * b.signExtend 128) >>> 64).setWidth 64 := by
  have hprod : a.signExtend 128 * b.signExtend 128 = BitVec.ofInt 128 (a.toInt * b.toInt) := (BitVec.ofInt_mul ..).symm
  apply BitVec.eq_of_toNat_eq
  rw [hprod, BitVec.toNat_setWidth, BitVec.toNat_ushiftRight, BitVec.toNat_ofInt, BitVec.toNat_ofNat, wrapNat, Nat.shiftRight_eq_div_pow]
  generalize a.toInt * b.toInt = p
  omega

/-- The high half of the unsigned product is that of the zero-extended factors. -/
theorem mulHighU_eq (a b : Word) : Word.ofNat (a.toNat * b.toNat / 2 ^ 64) = ((a.setWidth 128 * b.setWidth 128) >>> 64).setWidth 64 := by
  have hlt : a.toNat * b.toNat < 2 ^ 64 * 2 ^ 64 := Nat.mul_lt_mul'' a.isLt b.isLt
  apply BitVec.eq_of_toNat_eq
  rw [BitVec.toNat_setWidth, BitVec.toNat_ushiftRight, BitVec.toNat_mul, BitVec.toNat_setWidth, BitVec.toNat_setWidth, BitVec.toNat_ofNat,
    Nat.shiftRight_eq_div_pow, Nat.mod_eq_of_lt (a := a.toNat) (by omega), Nat.mod_eq_of_lt (a := b.toNat) (by omega), Nat.mod_eq_of_lt (b := 2 ^ 128) hlt]

/-! ## Counts of zeros -/

/-- The leading zeros of a word are zero, and the bit after them is set. -/
theorem clz_spec (a : Word) : clz a ≤ 64 ∧ (∀ i, i < clz a → a.getMsbD i = false) ∧ (clz a < 64 → a.getMsbD (clz a) = true) := by
  unfold clz
  split
  · next h => exact ⟨Nat.le_refl _, fun i _ => by rw [h]; exact BitVec.getMsbD_zero, fun hlt => absurd hlt (Nat.lt_irrefl _)⟩
  · next h =>
    have hne : a.toNat ≠ 0 := fun h0 => h (BitVec.eq_of_toNat_eq h0)
    have hlog : a.toNat.log2 < 64 := (Nat.log2_lt hne).mpr a.isLt
    refine ⟨by omega, fun i hi => ?_, fun _ => ?_⟩
    · have hlow : a.toNat < 2 ^ (63 - i) := (Nat.log2_lt hne).mp (by omega)
      rw [BitVec.getMsbD, BitVec.getLsbD, Nat.testBit_lt_two_pow hlow, Bool.and_false]
    · have hat : 64 - 1 - (63 - a.toNat.log2) = a.toNat.log2 := by omega
      rw [BitVec.getMsbD, BitVec.getLsbD, hat, Nat.testBit_log2 hne, Bool.and_true]
      exact decide_eq_true (by omega)

/-- The trailing zeros of a word are zero, and the bit after them is set. -/
theorem ctz_spec (a : Word) : ctz a ≤ 64 ∧ (∀ i, i < ctz a → a.getLsbD i = false) ∧ (ctz a < 64 → a.getLsbD (ctz a) = true) := by
  unfold ctz
  cases h : (List.range 64).find? fun i => a.bit i with
  | none =>
    have hzero := List.find?_range_eq_none.mp h
    exact ⟨Nat.le_refl _, fun i hi => Bool.not_eq_true' _ ▸ hzero i hi, fun hlt => absurd hlt (Nat.lt_irrefl _)⟩
  | some n =>
    obtain ⟨hbit, hn, hlow⟩ := List.find?_range_eq_some.mp h
    exact ⟨Nat.le_of_lt (List.mem_range.mp hn), fun i hi => Bool.not_eq_true' _ ▸ hlow i hi, fun _ => hbit⟩

end Sys2Proof.Machine
end

section
/-! SUPPORT. SMD, branches and system instructions (05 R135, R137, R138, R167, R168): what each leaves of its cell. -/

namespace Sys2Proof.Machine

section
variable {s : State} {c : CellRef} {w : Word}

/-! ## SMD (05 R135) -/

/-- SMD leaves its operation's value in s[SD]. -/
theorem opSmd_done (hop : opOf w = 0x02) (hz : zeroFld w 0 34 = true) (h : s.canIssue c [sdOf w, saOf w, sbOf w])
    (hfn : w.fld 34 6 < 7 ∨ (w.fld 34 6 ≤ 9 ∧ sbOf w = 0)) :
    s.scalarDone (opSmd c w s) c (sdOf w) (mulDivOp (w.fld 34 6) ((s.cellAt c).s (saOf w)) ((s.cellAt c).s (sbOf w))) := by
  have hlegal : (decide (w.fld 34 6 ≤ 9) && zeroFld w 0 34 && (decide (w.fld 34 6 < 7) || sbOf w == 0)) = true := by
    rcases hfn with h7 | ⟨h9, hsb⟩
    · simp [hz, h7, Nat.le_trans (Nat.le_of_lt h7) (by decide : 7 ≤ 9)]
    · simp [hz, h9, hsb]
  exact (State.issueCell_done 0 _ (by simp [hop]) h hlegal).scalarDone

/-- A reserved FN, or a count with an SB, traps with ILLEGAL_INSTR. -/
theorem opSmd_illegal (hop : opOf w = 0x02) (h : s.canIssue c [sdOf w, saOf w, sbOf w]) (hfn : 10 ≤ w.fld 34 6 ∨ (7 ≤ w.fld 34 6 ∧ sbOf w ≠ 0)) :
    opSmd c w s = s.trapCell c 5 0 (s.cellAt c).pc := by
  obtain ⟨hruns, hcode, -⟩ := h
  have hlegal : (decide (w.fld 34 6 ≤ 9) && zeroFld w 0 34 && (decide (w.fld 34 6 < 7) || sbOf w == 0)) = false := by
    rcases hfn with h10 | ⟨h7, hsb⟩
    · rw [decide_eq_false (Nat.not_le.mpr h10), Bool.false_and, Bool.false_and]
    · rw [decide_eq_false (Nat.not_lt.mpr h7), beq_eq_false_iff_ne.mpr hsb, Bool.or_false, Bool.and_false]
  unfold opSmd
  exact State.issueCell_illegal (by simp [hop]) hruns hcode hlegal

/-! ## Branches (05 R137, R138) -/

/-- An instruction that replaces its cell leaves everything else. -/
theorem State.issue_setCell {row legal : Bool} {regs : List Nat} (f : At → Cell) (hrow : row = true) (h : s.canIssue c regs) (hlegal : legal = true) :
    (s.issue c row legal regs fun a => s.setCell a.key (f a)).cell (s.cellKey c) = f (s.at c)
      ∧ s.keptButCell (s.issue c row legal regs fun a => s.setCell a.key (f a)) (s.cellKey c) := by
  rw [State.issue_ready hrow h hlegal]
  exact ⟨State.cell_setCell_self .., State.keptButCell_setCell s _ _ 0⟩

@[simp] theorem Cell.setS_pc (x : Cell) (r : Nat) (v : Word) : (x.setS r v).pc = x.pc := by
  unfold Cell.setS
  split <;> rfl

@[simp] theorem Cell.setS_cycles (x : Cell) (r : Nat) (v : Word) : (x.setS r v).cycles = x.cycles := by
  unfold Cell.setS
  split <;> rfl

/-- JALR jumps where its target is a multiple of 8, and traps with ILLEGAL_INSTR where not. -/
theorem opJalr_ready (hop : opOf w = 0x0B) (hz : zeroFld w 32 14 = true) (h : s.canIssue c [sdOf w, saOf w]) :
    let target := ((s.cellAt c).s (saOf w) + sxFld w 0 32).toNat
    opJalr c w s = if target % 8 ≠ 0 then s.trapCell c 5 0 (s.cellAt c).pc
      else s.setCell (s.cellKey c)
        { (s.cellAt c).setS (sdOf w) (Word.ofNat ((s.cellAt c).pc + 8)) with pc := target, cycles := (s.cellAt c).cycles + 1 } :=
  State.issue_ready (by simp [hop]) h hz

/-! ## System registers (05 R167, R168) -/

/-- SYSR takes a register that is no counter. -/
theorem opSysr_done (hop : opOf w = 0x3E) (hz : zeroFld w 16 25 = true) (hm : minorOf w = 0) (hl : sysListed (sysIdx w) = true) (h4 : sysIdx w ≠ 4)
    (h : s.canIssue c [sysS w]) : s.cellDone (opSysr c w s) c ((s.cellAt c).setS (sysS w) (s.sysValue (s.at c) (sysIdx w))) := by
  rw [opSysr, State.issue_ready (by simp [hop, hm]) h (by simp [hz, hl])]
  dsimp only
  rw [if_neg h4]
  exact State.cellDone_setCell ..

/-- SYSR takes CYCLES with the island cycles since it was last read on top. -/
theorem opSysr_cycles (hop : opOf w = 0x3E) (hz : zeroFld w 16 25 = true) (hm : minorOf w = 0) (h4 : sysIdx w = 4) (h : s.canIssue c [sysS w]) :
    let n := Word.ofNat s.draw
    s.cellDone (opSysr c w s) c ({ s.cellAt c with cycles := (s.cellAt c).cycles + n }.setS (sysS w) ((s.cellAt c).cycles + n)) := by
  rw [opSysr, State.issue_ready (by simp [hop, hm]) h (by simp [hz, h4, sysListed])]
  dsimp only
  rw [if_pos h4, h4]
  exact State.cellDone_setCell ..

/-- SYSW takes the register that IDX names. -/
theorem opSysw_ready (hop : opOf w = 0x3E) (hz : zeroFld w 16 25 = true) (hm : minorOf w = 1) (hlo : 0x10 ≤ sysIdx w) (hhi : sysIdx w ≤ 0x12)
    (h : s.canIssue c [sysS w]) :
    let x := s.cellAt c
    let v := x.s (sysS w)
    opSysw c w s =
      if sysIdx w = 0x10 then s.setCell (s.cellKey c) { x with aflags := Word.ofNat (v.fld 0 9) }.next
      else if sysIdx w = 0x11 then
        if 5 ≤ v.fld 0 3 then s.trapCell c 5 0 x.pc else s.setCell (s.cellKey c) { x with rmode := Word.ofNat (v.fld 0 3) }.next
      else s.setCell (s.cellKey c) (if v.bit 15 then { x with traprec := x.traprec.setFld 15 1 0 } else x).next :=
  State.issue_ready (by simp [hop, hm]) h (by simp [hz, hlo, hhi])

end

end Sys2Proof.Machine
end

section
/-! Scalar instructions, SMD, branches and system registers: the obligations, from the rules above. -/

namespace Sys2Proof.Machine

/-- Settles O5: each writes its result to s[SD]. -/
theorem scalarResult : Obligations.ScalarResult := by
  unfold Obligations.ScalarResult
  intro c w s x
  refine ⟨fun hop hw hfn hz h => ?_, fun hop hfn hz h => ?_, fun hop hz h => ?_, fun hop hz h => ?_⟩
  · exact ⟨_, rfl, (State.issueCell_done 0 _ (by simp [hop]) h ((opSop_legal_iff w).mpr ⟨hw, hfn, hz⟩)).scalarDone⟩
  · exact ⟨_, rfl, (State.issueCell_done 0 _ (by simp [hop]) h (by simp [hfn, hz])).scalarDone⟩
  · exact ⟨_, rfl, (State.issueCell_done 0 _ (by simp [hop]) h hz).scalarDone⟩
  · exact ⟨_, rfl, (State.issueCell_done 0 _ (by simp [hop]) h hz).scalarDone⟩

/-- Settles O46: each FN leaves its product, quotient, remainder or count, and an unlawful one traps. -/
theorem smdResults : Obligations.SmdResults := by
  unfold Obligations.SmdResults
  intro c w s hop hz h fn a b gives
  have hgive : ∀ n v, n < 7 ∨ (n ≤ 9 ∧ sbOf w = 0) → mulDivOp n a b = v → fn = n → gives v := by
    rintro n v hn rfl rfl
    exact ⟨_, rfl, opSmd_done hop hz h hn⟩
  refine ⟨hgive 0 _ (.inl (by decide)) (mul_eq_ofInt a b), hgive 1 _ (.inl (by decide)) (mulHigh_eq a b), hgive 2 _ (.inl (by decide)) (mulHighU_eq a b),
    hgive 3 _ (.inl (by decide)) ?_, hgive 4 _ (.inl (by decide)) rfl, hgive 5 _ (.inl (by decide)) ?_, hgive 6 _ (.inl (by decide)) rfl, fun ha hb => ⟨hgive 3 _ (.inl (by decide)) ?_,
    hgive 5 _ (.inl (by decide)) ?_⟩, fun hfn hsb => ?_, fun hfn hsb => ?_, fun hfn hsb => hgive 9 _ (.inr ⟨by decide, hsb⟩) rfl hfn, fun hbad => ?_⟩
  · rw [mulDivOp, ofNat_wrapNat]
  · rw [mulDivOp, ofNat_wrapNat]
  · rw [ha, hb]
    decide
  · rw [ha, hb]
    decide
  · obtain ⟨hle, hzeros, hone⟩ := clz_spec a
    exact ⟨clz a, hle, hgive 7 _ (.inr ⟨by decide, hsb⟩) rfl hfn, hzeros, hone⟩
  · obtain ⟨hle, hzeros, hone⟩ := ctz_spec a
    exact ⟨ctz a, hle, hgive 8 _ (.inr ⟨by decide, hsb⟩) rfl hfn, hzeros, hone⟩
  · exact ⟨_, congrArg Host.Outcome.next (opSmd_illegal hop h hbad), State.cellTrapped_self ..⟩

/-- Settles O6: each branch leaves its cell at its target or at the next word, and JALR traps at a target that is no word's. -/
theorem branchResult : Obligations.BranchResult := by
  unfold Obligations.BranchResult
  intro c w s x k goes
  refine ⟨fun hop hz52 hc hz32 hz0 h => ?_, fun hop hc hz48 hz0 h => ?_, fun hop hz32 hz0 h => ?_, fun hop hz h => ?_, fun hop hz h => ?_⟩
  · exact ⟨_, rfl, State.issue_setCell _ (by simp [hop]) h (by simp [hz52, hc, hz32, hz0])⟩
  · exact ⟨_, rfl, State.issue_setCell _ (by simp [hop]) h (by simp [hc, hz48, hz0])⟩
  · obtain ⟨hcell, hkept⟩ := State.issue_setCell (row := opOf w == 0x0A) (legal := zeroFld w 32 20 && zeroFld w 0 3)
      (fun a => (a.cell.setS (sdOf w) (Word.ofNat (a.cell.pc + 8))).branch true (sxFld w 0 32)) (by simp [hop]) h (by simp [hz32, hz0])
    refine ⟨_, rfl, hcell.trans ?_, hkept⟩
    rw [Cell.branch, Cell.setS_pc, Cell.setS_cycles]
    rfl
  · refine ⟨_, congrArg Host.Outcome.next (opJalr_ready hop hz h), ?_⟩
    by_cases ht : (x.s (saOf w) + sxFld w 0 32).toNat % 8 = 0
    · rw [if_pos ht, if_neg (not_not_intro ht)]
      exact ⟨State.cell_setCell_self .., State.keptButCell_setCell s _ _ 0⟩
    · rw [if_neg ht, if_pos ht]
      exact State.cellTrapped_self ..
  · exact ⟨_, rfl, State.issueCell_done 0 (fun _ x => x) (by simp [hop]) h hz⟩

/-- Settles O7: SYSR reads, SYSW writes, and END ends, each in its own cell. -/
theorem systemRegisters : Obligations.SystemRegisters := by
  unfold Obligations.SystemRegisters
  intro c w s hop hz x v
  have hsysw : ∀ t, minorOf w = 1 → 0x10 ≤ sysIdx w ∧ sysIdx w ≤ 0x12 → s.canIssue c [sysS w] →
      (if sysIdx w = 0x10 then s.setCell (s.cellKey c) { x with aflags := Word.ofNat (v.fld 0 9) }.next
        else if sysIdx w = 0x11 then
          if 5 ≤ v.fld 0 3 then s.trapCell c 5 0 x.pc else s.setCell (s.cellKey c) { x with rmode := Word.ofNat (v.fld 0 3) }.next
        else s.setCell (s.cellKey c) (if v.bit 15 then { x with traprec := x.traprec.setFld 15 1 0 } else x).next) = t → exec (.sysw c w) s = .next t :=
    fun t hm hi h ht => congrArg Host.Outcome.next ((opSysw_ready hop hz hm hi.1 hi.2 h).trans ht)
  refine ⟨fun hm hl h4 h => ⟨_, rfl, (opSysr_done hop hz hm hl h4 h).scalarDone⟩, fun hm h4 h => ⟨_, _, rfl, opSysr_cycles hop hz hm h4 h⟩,
    fun hm h => ⟨fun hi => ?_, fun hi hlow => ?_, fun hi hhigh => ?_, fun hi => ?_⟩, fun hm h => ?_⟩
  · exact ⟨_, hsysw _ hm (by omega) h (if_pos hi), State.cellDone_setCell s c _ 0⟩
  · refine ⟨_, hsysw _ hm (by omega) h ?_, State.cellDone_setCell s c _ 0⟩
    rw [if_neg (by omega), if_pos hi, if_neg (by omega)]
    rfl
  · refine ⟨_, hsysw _ hm (by omega) h ?_, State.cellTrapped_self ..⟩
    rw [if_neg (by omega), if_pos hi, if_pos hhigh]
  · refine ⟨_, hsysw _ hm (by omega) h ?_, State.cellDone_setCell s c _ 0⟩
    rw [if_neg (by omega), if_neg (by omega)]
    rfl
  · exact ⟨_, rfl, State.issue_setCell _ (by simp [hop, hm]) h hz⟩

end Sys2Proof.Machine
end

section
/-! SUPPORT. Vector, predicate and accumulator registers (05 R130, R131, R153, R154, 04 R104): what each reads as after lanes, bits or rows were written. -/

namespace Sys2Proof.Machine

/-- A fold over the places of a range that changes at each step that step's place alone has changed the places it has passed. -/
theorem foldl_range_read {σ β : Type} {read : σ → Nat → β} {step : σ → Nat → σ} {g : Nat → β → β} {m : Nat}
    (hstep : ∀ x i j, i < m → j < m → read (step x i) j = if j = i then g i (read x i) else read x j) (x : σ) {j : Nat} (hj : j < m) (n : Nat) (hn : n ≤ m) :
    read ((List.range n).foldl step x) j = if j < n then g j (read x j) else read x j := by
  induction n with
  | zero => rw [if_neg (Nat.not_lt_zero j)]; rfl
  | succ n ih =>
    rw [List.range_succ, List.foldl_append, List.foldl_cons, List.foldl_nil, hstep _ n j (by omega) hj]
    by_cases h : j = n
    · subst h
      rw [if_pos rfl, if_pos (Nat.lt_succ_self j), ih (by omega), if_neg (Nat.lt_irrefl j)]
    · rw [if_neg h, ih (by omega)]
      by_cases hlt : j < n
      · rw [if_pos hlt, if_pos (by omega)]
      · rw [if_neg hlt, if_neg (by omega)]

/-! ## Lanes (05 R130) -/

theorem Cell.lane_lt (x : Cell) (v i : Nat) : x.lane v i < 2 ^ 32 := BitVec.isLt _

theorem Cell.half_lt (x : Cell) (v i : Nat) : x.half v i < 2 ^ 16 := Nat.mod_lt _ (by decide)

theorem Cell.lane_setLane (x : Cell) (v n : Nat) (u : Nat) {i j : Nat} (hi : i < 128) (hj : j < 128) :
    (x.setLane v i n).lane u j = if u = v ∧ j = i then n % 2 ^ 32 else x.lane u j := by
  have hkey : 128 * u + j = 128 * v + i ↔ u = v ∧ j = i := by omega
  rw [Cell.lane, Cell.setLane, SMap.at_put]
  simp only [hkey]
  split
  · exact BitVec.toNat_ofNat ..
  · rfl

theorem Cell.half_setHalf (x : Cell) (v n : Nat) {i j : Nat} (hi : i < 256) (hj : j < 256) :
    (x.setHalf v i n).half v j = if j = i then n % 2 ^ 16 else x.half v j := by
  have hlane := x.lane_lt v (i / 2)
  rw [Cell.half, Cell.setHalf, Cell.lane_setLane _ _ _ _ (by omega) (by omega), Cell.half, nbits, nbits]
  by_cases hword : j / 2 = i / 2
  · rw [if_pos ⟨rfl, hword⟩, hword]
    rcases Nat.mod_two_eq_zero_or_one i with hi2 | hi2 <;> rcases Nat.mod_two_eq_zero_or_one j with hj2 | hj2 <;>
      simp only [hi2, hj2, if_true, if_false, Nat.one_ne_zero, Nat.mul_zero, Nat.mul_one, Nat.pow_zero, Nat.div_one]
    · rw [if_pos (by omega)]
      omega
    · rw [if_neg (by omega)]
      omega
    · rw [if_neg (by omega)]
      omega
    · rw [if_pos (by omega)]
      omega
  · rw [if_neg fun h => hword h.2, if_neg fun h => hword (by rw [h])]

section
variable (x : Cell) (v : Nat) (f : Nat → Option Nat)

theorem Cell.setLanes_rest : x.setLanes v f = { x with vregs := (x.setLanes v f).vregs } :=
  foldl_keeps (P := fun y : Cell => y = { x with vregs := y.vregs }) (fun y i hy => by
    split
    · rw [hy]; rfl
    · exact hy) rfl _

theorem Cell.setHalves_rest : x.setHalves v f = { x with vregs := (x.setHalves v f).vregs } :=
  foldl_keeps (P := fun y : Cell => y = { x with vregs := y.vregs }) (fun y i hy => by
    split
    · rw [hy]; rfl
    · exact hy) rfl _

theorem Cell.lane_setLanes {j : Nat} (hj : j < 128) : (x.setLanes v f).lane v j = ((f j).map (· % 2 ^ 32)).getD (x.lane v j) := by
  have hread := foldl_range_read (read := fun (y : Cell) j => y.lane v j) (g := fun i old => ((f i).map (· % 2 ^ 32)).getD old)
    (step := fun k i => match f i with
      | some n => k.setLane v i n
      | none => k) (m := 128) (fun y i j hi hj => by
      cases hf : f i with
      | none => simp only [Option.map_none, Option.getD_none]; split <;> simp_all
      | some n =>
        rw [Cell.lane_setLane _ _ _ _ hi hj]
        simp) x hj 128 (Nat.le_refl _)
  exact hread.trans (if_pos hj)

theorem Cell.half_setHalves {j : Nat} (hj : j < 256) : (x.setHalves v f).half v j = ((f j).map (· % 2 ^ 16)).getD (x.half v j) := by
  have hread := foldl_range_read (read := fun (y : Cell) j => y.half v j) (g := fun i old => ((f i).map (· % 2 ^ 16)).getD old)
    (step := fun k i => match f i with
      | some n => k.setHalf v i n
      | none => k) (m := 256) (fun y i j hi hj => by
      cases hf : f i with
      | none => simp only [Option.map_none, Option.getD_none]; split <;> simp_all
      | some n =>
        rw [Cell.half_setHalf _ _ _ hi hj]
        simp) x hj 256 (Nat.le_refl _)
  exact hread.trans (if_pos hj)

variable {u j : Nat} (hu : u ≠ v) (hj : j < 128)
include hu hj

theorem Cell.lane_setLanes_of_ne : (x.setLanes v f).lane u j = x.lane u j := by
  refine List.foldlRecOn (motive := fun y : Cell => y.lane u j = x.lane u j) _ _ rfl fun y hy i hi => ?_
  split
  · rw [Cell.lane_setLane _ _ _ _ (List.mem_range.mp hi) hj, if_neg fun h => hu h.1, hy]
  · exact hy

theorem Cell.lane_setHalves_of_ne : (x.setHalves v f).lane u j = x.lane u j := by
  refine List.foldlRecOn (motive := fun y : Cell => y.lane u j = x.lane u j) _ _ rfl fun y hy i hi => ?_
  split
  · have hlt := List.mem_range.mp hi
    rw [Cell.setHalf, Cell.lane_setLane _ _ _ _ (by omega) hj, if_neg fun h => hu h.1, hy]
  · exact hy

end

@[simp] theorem Cell.lane_next (x : Cell) : x.next.lane = x.lane := rfl
@[simp] theorem Cell.half_next (x : Cell) : x.next.half = x.half := rfl
@[simp] theorem Cell.lane_flag (x : Cell) (fl : Nat) : (x.flag fl).lane = x.lane := rfl
@[simp] theorem Cell.half_flag (x : Cell) (fl : Nat) : (x.flag fl).half = x.half := rfl

/-! ## Results under a predicate (05 R154) -/

/-- What a masked result writes to a lane: its value where the lane is active, 0 elsewhere under ZM, and nothing elsewhere without it. -/
def Cell.maskedLane (x : Cell) (pm : Nat) (zm : Bool) (f : Nat → Nat × Nat) (i : Nat) : Option Nat :=
  if x.active pm i then some (f i).1 else if zm then some 0 else none

/-- A masked result writes its lanes so, and sets the flags of the active ones. -/
theorem Cell.vecWrite_eq (x : Cell) (bf : Bool) (vd pm : Nat) (zm : Bool) (f : Nat → Nat × Nat) : ∃ put : Nat → Option Nat, ∃ fl,
    (∀ i, i < (if bf then 256 else 128) → put i = x.maskedLane pm zm f i) ∧ ((∀ i, (f i).2 = 0) → fl = 0)
      ∧ x.vecWrite bf vd pm zm f = (if bf then x.setHalves vd put else x.setLanes vd put).flag fl := by
  refine ⟨_, _, fun i hi => ?_, fun hf => ?_, rfl⟩
  · rw [List.getElem?_map, List.getElem?_range hi, Cell.maskedLane]
    by_cases ha : x.active pm i
    · simp [ha]
    · simp [ha]
  · refine List.foldlRecOn (motive := fun fl : Nat => fl = 0) _ _ rfl fun fl hfl r hr => ?_
    obtain ⟨i, -, rfl⟩ := List.mem_map.mp hr
    rw [hfl]
    by_cases ha : x.active pm i
    · simp [ha, hf]
    · simp [ha]

section
variable {s t : State} {c : CellRef}

/-- An instruction that has written a masked result has done so as R154 says. -/
theorem State.cellDone.vectorLanes {bf : Bool} {vd pm : Nat} {zm : Bool} {f : Nat → Nat × Nat} (h : s.cellDone t c ((s.cellAt c).vecWrite bf vd pm zm f)) :
    Machine.vectorLanes s t c bf vd pm zm fun i => (f i).1 := by
  obtain ⟨hcell, hkept⟩ := h
  obtain ⟨put, fl, hput, -, hwrite⟩ := Cell.vecWrite_eq (s.cellAt c) bf vd pm zm f
  rw [hwrite] at hcell
  refine ⟨fun i hi => ?_, fun v i hv hi => ?_, ?_, hkept⟩
  · have hlane := hput i hi
    rw [hcell]
    cases bf with
    | false =>
      simp only [Bool.false_eq_true, if_false, Cell.lane_next, Cell.lane_flag] at hi ⊢
      rw [Cell.lane_setLanes _ _ _ hi, hlane, Cell.maskedLane]
      split <;> [skip; split] <;> simp_all [State.cellAt]
    | true =>
      simp only [if_true, Cell.half_next, Cell.half_flag] at hi ⊢
      rw [Cell.half_setHalves _ _ _ hi, hlane, Cell.maskedLane]
      split <;> [skip; split] <;> simp_all [State.cellAt]
  · rw [hcell, Cell.lane_next, Cell.lane_flag]
    cases bf with
    | false => exact Cell.lane_setLanes_of_ne (s.cellAt c) vd put hv hi
    | true => exact Cell.lane_setHalves_of_ne (s.cellAt c) vd put hv hi
  · rw [hcell]
    cases bf with
    | false =>
      rw [if_neg Bool.false_ne_true, Cell.setLanes_rest]
      rfl
    | true =>
      rw [if_pos rfl, Cell.setHalves_rest]
      rfl

/-- A masked result without flags leaves AFLAGS. -/
theorem State.cellDone.aflags_vecWrite {bf : Bool} {vd pm : Nat} {zm : Bool} {f : Nat → Nat × Nat} (h : s.cellDone t c ((s.cellAt c).vecWrite bf vd pm zm f))
    (hf : ∀ i, (f i).2 = 0) : (t.cell (s.cellKey c)).aflags = (s.cellAt c).aflags := by
  obtain ⟨hcell, -⟩ := h
  obtain ⟨put, fl, -, hfl, hwrite⟩ := Cell.vecWrite_eq (s.cellAt c) bf vd pm zm f
  rw [hcell, hwrite, hfl hf]
  cases bf with
  | false =>
    rw [if_neg Bool.false_ne_true, Cell.setLanes_rest]
    exact BitVec.or_zero
  | true =>
    rw [if_pos rfl, Cell.setHalves_rest]
    exact BitVec.or_zero

/-! ## Lanes copied (05 R163, R164, R166) -/

/-- An instruction has written the lanes of a vector register of its cell and nothing else. -/
def State.lanesDone (s t : State) (c : CellRef) (vd : Nat) (f : Nat → Nat) : Prop :=
  (∀ i, i < 128 → (t.cell (s.cellKey c)).lane vd i = f i)
    ∧ (∀ v i, v ≠ vd → i < 128 → (t.cell (s.cellKey c)).lane v i = (s.cell (s.cellKey c)).lane v i)
    ∧ t.cell (s.cellKey c) = { s.cell (s.cellKey c) with
        vregs := (t.cell (s.cellKey c)).vregs, pc := (s.cell (s.cellKey c)).pc + 8, cycles := (s.cell (s.cellKey c)).cycles + 1 }
    ∧ s.keptButCell t (s.cellKey c)

theorem State.cellDone.lanesDone {vd : Nat} {f : Nat → Nat} (h : s.cellDone t c ((s.cellAt c).setLanes vd fun i => some (f i)))
    (hf : ∀ i, i < 128 → f i < 2 ^ 32) : s.lanesDone t c vd f := by
  obtain ⟨hcell, hkept⟩ := h
  refine ⟨fun i hi => ?_, fun v i hv hi => ?_, ?_, hkept⟩
  · rw [hcell, Cell.lane_next, Cell.lane_setLanes _ _ _ hi]
    exact Nat.mod_eq_of_lt (hf i hi)
  · rw [hcell, Cell.lane_next]
    exact Cell.lane_setLanes_of_ne (s.cellAt c) vd _ hv hi
  · rw [hcell, Cell.setLanes_rest]
    rfl

/-- One lane written. -/
theorem State.cellDone.laneDone {vd l n : Nat} (h : s.cellDone t c ((s.cellAt c).setLane vd l n)) (hl : l < 128) (hn : n < 2 ^ 32) :
    s.lanesDone t c vd fun i => if i = l then n else (s.cellAt c).lane vd i := by
  obtain ⟨hcell, hkept⟩ := h
  have hlane : ∀ v i, i < 128 → (t.cell (s.cellKey c)).lane v i = if v = vd ∧ i = l then n % 2 ^ 32 else (s.cellAt c).lane v i := fun v i hi => by
    rw [hcell]
    exact Cell.lane_setLane _ _ _ _ hl hi
  refine ⟨fun i hi => ?_, fun v i hv hi => ?_, by rw [hcell]; rfl, hkept⟩
  · rw [hlane vd i hi, Nat.mod_eq_of_lt hn]
    simp only [true_and]
  · rw [hlane v i hi, if_neg fun h => hv h.1]
    rfl

/-! ## Predicates (05 R131) -/

/-- The bits of a predicate made from bits. -/
theorem testBit_predOf (f : Nat → Bool) {i : Nat} (hi : i < 256) : (predOf f).toNat.testBit i = f i := by
  have hsum : ∀ n, let m := ((List.range n).map fun i => if f i then 2 ^ i else 0).sum
      m < 2 ^ n ∧ ∀ i, m.testBit i = (decide (i < n) && f i) := by
    intro n
    induction n with
    | zero => simp
    | succ n ih =>
      obtain ⟨hlt, hbits⟩ := ih
      simp only [List.range_succ, List.map_append, List.sum_append, List.map_cons, List.map_nil, List.sum_cons, List.sum_nil, Nat.add_zero]
      generalize ((List.range n).map fun i => if f i then 2 ^ i else 0).sum = m at hlt hbits
      refine ⟨?_, fun i => ?_⟩
      · split <;> omega
      · rcases Nat.lt_trichotomy i n with h | h | h
        · have hne : decide (i < n + 1) = decide (i < n) := by simp [h, Nat.lt_succ_of_lt h]
          rw [hne, ← hbits]
          split
          · rw [Nat.add_comm, Nat.testBit_two_pow_add_gt h]
          · rw [Nat.add_zero]
        · subst h
          have hm : m.testBit i = false := Nat.testBit_lt_two_pow hlt
          split
          · next hf => rw [Nat.add_comm, Nat.testBit_two_pow_add_eq, hm, hf]; simp
          · next hf => rw [Nat.add_zero, hm]; simp [hf]
        · have hbig : 2 ^ (n + 1) ≤ 2 ^ i := Nat.pow_le_pow_right (by decide) h
          rw [Nat.testBit_lt_two_pow (by split <;> omega)]
          simp; omega
  obtain ⟨hlt, hbits⟩ := hsum 256
  rw [predOf, BitVec.toNat_ofNat, Nat.mod_eq_of_lt hlt, hbits, decide_eq_true hi, Bool.true_and]

/-- An instruction has written a predicate of its cell bit by bit and nothing else; p0 stays all ones. -/
def State.predDone (s t : State) (c : CellRef) (pd : Nat) (f : Nat → Bool) : Prop :=
  (∀ i, i < 256 → ((t.cell (s.cellKey c)).pred pd).toNat.testBit i = (pd == 0 || f i))
    ∧ (∀ q, q ≠ pd → (t.cell (s.cellKey c)).pred q = (s.cell (s.cellKey c)).pred q)
    ∧ t.cell (s.cellKey c) = { s.cell (s.cellKey c) with
        preds := (t.cell (s.cellKey c)).preds, pc := (s.cell (s.cellKey c)).pc + 8, cycles := (s.cell (s.cellKey c)).cycles + 1 }
    ∧ s.keptButCell t (s.cellKey c)

theorem Cell.pred_setPred_of_ne (x : Cell) {p q : Nat} (v : BitVec 256) (h : q ≠ p) : (x.setPred p v).pred q = x.pred q := by
  unfold Cell.setPred Cell.pred
  split
  · rfl
  · split
    · rfl
    · rw [SMap.at_put, if_neg h]

theorem State.cellDone.predDone {pd : Nat} {v : BitVec 256} {f : Nat → Bool} (h : s.cellDone t c ((s.cellAt c).setPred pd v))
    (hf : ∀ i, i < 256 → v.toNat.testBit i = f i) : s.predDone t c pd f := by
  obtain ⟨hcell, hkept⟩ := h
  refine ⟨fun i hi => ?_, fun q hq => ?_, ?_, hkept⟩
  · have hpred : (t.cell (s.cellKey c)).pred pd = if pd = 0 then BitVec.allOnes 256 else v := by
      rw [hcell]
      exact Cell.pred_setPred_self ..
    rw [hpred]
    split
    · next h0 =>
      have hone : (BitVec.allOnes 256).getLsbD i = true := by rw [BitVec.getLsbD_allOnes, decide_eq_true hi]
      exact hone.trans (by rw [h0]; rfl)
    · next h0 => rw [hf i hi, beq_eq_false_iff_ne.mpr h0, Bool.false_or]
  · rw [hcell]
    exact Cell.pred_setPred_of_ne _ _ hq
  · rw [hcell, Cell.setPred]
    split <;> rfl

/-! ## Accumulator rows (04 R104) -/

@[simp] theorem Cell.acc_next (x : Cell) : x.next.acc = x.acc := rfl

theorem Cell.acc_lt (x : Cell) (a r j : Nat) : x.acc a r j < 2 ^ 32 := BitVec.isLt _

theorem Cell.acc_setAcc (x : Cell) (b q m n : Nat) {a r j : Nat} (hq : q < 32) (hr : r < 32) (hm : m < 64) (hj : j < 64) :
    (x.setAcc b q m n).acc a r j = if a = b ∧ r = q ∧ j = m then n % 2 ^ 32 else x.acc a r j := by
  have hkey : 2048 * a + 64 * r + j = 2048 * b + 64 * q + m ↔ a = b ∧ r = q ∧ j = m := by omega
  rw [Cell.acc, Cell.setAcc, SMap.at_put]
  simp only [hkey]
  split
  · exact BitVec.toNat_ofNat ..
  · rfl

/-- Two rows of an accumulator, written from 128 values. -/
def Cell.setRows (x : Cell) (a row : Nat) (f : Nat → Nat) : Cell := (List.range 128).foldl (fun y i => y.setAcc a (row + i / 64) (i % 64) (f i)) x

section
variable (x : Cell) (a : Nat) {row : Nat} (f : Nat → Nat) (hrow : row + 1 < 32)

theorem Cell.setRows_rest (row : Nat) : x.setRows a row f = { x with accs := (x.setRows a row f).accs } :=
  foldl_keeps (P := fun y : Cell => y = { x with accs := y.accs }) (fun y i hy => by rw [hy]; rfl) rfl _

include hrow

theorem Cell.acc_setRows {i : Nat} (hi : i < 128) : (x.setRows a row f).acc a (row + i / 64) (i % 64) = f i % 2 ^ 32 := by
  have hread := foldl_range_read (read := fun (y : Cell) i => y.acc a (row + i / 64) (i % 64)) (g := fun i _ => f i % 2 ^ 32)
    (step := fun y i => y.setAcc a (row + i / 64) (i % 64) (f i)) (m := 128) (fun y i j hi hj => by
      rw [Cell.acc_setAcc _ _ _ _ _ (by omega) (by omega) (by omega) (by omega)]
      have heq : (row + j / 64 = row + i / 64 ∧ j % 64 = i % 64) ↔ j = i := by omega
      simp only [true_and, heq]) x hi 128 (Nat.le_refl _)
  exact hread.trans (if_pos hi)

theorem Cell.acc_setRows_of_ne {b r j : Nat} (hne : b ≠ a ∨ (r ≠ row ∧ r ≠ row + 1)) (hr : r < 32) (hj : j < 64) : (x.setRows a row f).acc b r j = x.acc b r j := by
  refine List.foldlRecOn (motive := fun y : Cell => y.acc b r j = x.acc b r j) _ _ rfl fun y hy i hi => ?_
  have hlt := List.mem_range.mp hi
  rw [Cell.acc_setAcc _ _ _ _ _ (by omega) hr (by omega) hj, if_neg (by omega), hy]

end

/-- An instruction that has written two rows of an accumulator: they read as the values written, and nothing else has changed. -/
theorem State.cellDone.rowsDone {a row : Nat} {f : Nat → Nat} (h : s.cellDone t c ((s.cellAt c).setRows a row f)) (hrow : row + 1 < 32)
    (hf : ∀ i, i < 128 → f i < 2 ^ 32) :
    (∀ i, i < 128 → (t.cell (s.cellKey c)).acc a (row + i / 64) (i % 64) = f i)
      ∧ (∀ b r j, (b ≠ a ∨ (r ≠ row ∧ r ≠ row + 1)) → r < 32 → j < 64 → (t.cell (s.cellKey c)).acc b r j = (s.cellAt c).acc b r j)
      ∧ t.cell (s.cellKey c) = { s.cellAt c with
          accs := (t.cell (s.cellKey c)).accs, pc := (s.cellAt c).pc + 8, cycles := (s.cellAt c).cycles + 1 }
      ∧ s.keptButCell t (s.cellKey c) := by
  obtain ⟨hcell, hkept⟩ := h
  rw [hcell]
  refine ⟨fun i hi => ?_, fun b r j hne hr hj => ?_, ?_, hkept⟩
  · rw [Cell.acc_next, Cell.acc_setRows _ _ _ hrow hi, Nat.mod_eq_of_lt (hf i hi)]
  · rw [Cell.acc_next, Cell.acc_setRows_of_ne _ _ _ hrow hne hr hj]
  · rw [Cell.setRows_rest]
    rfl

end

end Sys2Proof.Machine
end

section
/-! SUPPORT. Vector instructions (05 R155 to R159, R163 to R166): what each leaves of its cell. -/

namespace Sys2Proof.Machine

section
variable {s : State} {c : CellRef} {w : Word}

/-- VAR leaves its operation of the lanes of VA, VB and VC, rounded. -/
theorem opVarOp_done (hop : opOf w = 0x20) (hz : zeroFld w 0 23 = true) (hty : tyOf w ≤ 1) (hfn : vfnOf w ≤ 16) (hrnd : rndCode (vrndOf w) = true)
    (hexact : varExact (vfnOf w) = false ∨ vrndOf w = 0) (h : s.canIssue c []) :
    let x := s.cellAt c
    let bf := tyOf w == 1
    let value := fun i => varValue (vfnOf w) (x.flane bf (vaOf w) i) (x.flane bf (vbOf w) i) (x.flane bf (vcOf w) i)
    let result := fun i => (if bf then bf16 else fp32).encode (x.rnd (vrndOf w)) (roundDraw (fun n => Config.freeNat (s.draws + n)) i) (value i).1
    s.cellDone (opVarOp c w s) c (x.vecWrite bf (vdOf w) (pmOf w) (zmOf w) fun i => ((result i).1, (value i).2 ||| (result i).2)) := by
  have hlegal : (zeroFld w 0 23 && decide (tyOf w ≤ 1) && decide (vfnOf w ≤ 16) && rndCode (vrndOf w) && (!varExact (vfnOf w) || vrndOf w == 0)) = true := by
    simpa [hz, hty, hfn, hrnd] using hexact
  exact State.issueCell_done drawSpan _ (by simp [hop]) h hlegal

/-- VINT leaves its operation of the lanes of VA and VB, with no flag. -/
theorem opVint_done (hop : opOf w = 0x21) (hz : zeroFld w 0 23 = true) (hty : tyOf w = 2) (hfn : vfnOf w ≤ 13) (hrnd : vrndOf w = 0) (h : s.canIssue c []) :
    s.cellDone (opVint c w s) c ((s.cellAt c).vecWrite false (vdOf w) (pmOf w) (zmOf w) fun i =>
      (vintValue (vfnOf w) ((s.cellAt c).lane (vaOf w) i) ((s.cellAt c).lane (vbOf w) i), 0)) :=
  State.issueCell_done 0 _ (by simp [hop]) h (by simp [hz, hty, hfn, hrnd])

/-- A complement's bits. -/
theorem testBit_not (x : BitVec 256) {i : Nat} (hi : i < 256) : (~~~ x).toNat.testBit i = !x.toNat.testBit i := by
  have hbit := BitVec.getLsbD_not (x := x) (i := i)
  rwa [decide_eq_true hi, Bool.true_and] at hbit

/-- VCVT leaves its conversion of the lanes of VA, and in FN 0 of VB. -/
theorem opVcvt_done (hop : opOf w = 0x23) (hz : zeroFld w 0 23 = true) (hty : tyOf w = 0) (hfn : vfnOf w ≤ 4) (hrnd : rndCode (vrndOf w) = true)
    (hexact : (vfnOf w ≠ 1 ∧ vfnOf w ≠ 2) ∨ vrndOf w = 0) (h : s.canIssue c []) :
    let x := s.cellAt c
    let r := x.rnd (vrndOf w)
    let u := roundDraw fun i => Config.freeNat (s.draws + i)
    s.cellDone (opVcvt c w s) c (match vfnOf w with
      | 0 => x.vecWrite true (vdOf w) (pmOf w) (zmOf w) fun i =>
          bf16.encode r (u i) (fp32.decode (if i < 128 then x.lane (vaOf w) i else x.lane (vbOf w) (i - 128)))
      | 1 => x.vecWrite false (vdOf w) (pmOf w) (zmOf w) fun i => fp32.encode .rne 0 (bf16.decode (x.half (vaOf w) i))
      | 2 => x.vecWrite false (vdOf w) (pmOf w) (zmOf w) fun i => fp32.encode .rne 0 (bf16.decode (x.half (vaOf w) (128 + i)))
      | 3 => x.vecWrite false (vdOf w) (pmOf w) (zmOf w) fun i => encodeInt32 r (u i) (fp32.decode (x.lane (vaOf w) i))
      | _ => x.vecWrite false (vdOf w) (pmOf w) (zmOf w) fun i => fp32.encode r (u i) (int32Num (x.lane (vaOf w) i))) := by
  have hlegal : (zeroFld w 0 23 && tyOf w == 0 && decide (vfnOf w ≤ 4) && rndCode (vrndOf w) && (decide (vfnOf w ≠ 1 ∧ vfnOf w ≠ 2) || vrndOf w == 0)) = true := by
    simpa [hz, hty, hfn, hrnd] using hexact
  exact State.issueCell_done drawSpan _ (by simp [hop]) h hlegal

/-- A word of VCMP's row is lawful where its FN is one of its type's (05 R158). -/
theorem opVcmp_legal (hz : zeroFld w 0 23 = true) (hz56 : zeroFld w 56 2 = true) (hty : tyOf w ≤ 2) (hrnd : vrndOf w = 0)
    (hfn : vfnOf w ≤ 5 ∨ (vfnOf w = 6 ∧ tyOf w ≤ 1) ∨ ((vfnOf w = 7 ∨ vfnOf w = 8) ∧ tyOf w = 2)) :
    (zeroFld w 0 23 && zeroFld w 56 2 && decide (tyOf w ≤ 2) && vrndOf w == 0
      && (decide (vfnOf w ≤ 5) || (vfnOf w == 6 && decide (tyOf w ≤ 1)) || ((vfnOf w == 7 || vfnOf w == 8) && tyOf w == 2))) = true := by
  simpa [hz, hz56, hty, hrnd, or_assoc] using hfn

/-- VCMP leaves its predicate. -/
theorem opVcmp_done (hop : opOf w = 0x22) (hlegal : (zeroFld w 0 23 && zeroFld w 56 2 && decide (tyOf w ≤ 2) && vrndOf w == 0
      && (decide (vfnOf w ≤ 5) || (vfnOf w == 6 && decide (tyOf w ≤ 1)) || ((vfnOf w == 7 || vfnOf w == 8) && tyOf w == 2))) = true) (h : s.canIssue c []) :
    let x := s.cellAt c
    s.cellDone (opVcmp c w s) c (x.setPred (w.fld 53 3) (predOf fun i =>
      decide (i < (if tyOf w == 1 then 256 else 128)) &&
        (if x.active (pmOf w) i then
          (if tyOf w = 2 then intCompare (vfnOf w) (x.lane (vaOf w) i) (x.lane (vbOf w) i)
           else floatCompare (vfnOf w) (x.flane (tyOf w == 1) (vaOf w) i) (x.flane (tyOf w == 1) (vbOf w) i))
         else !zmOf w && (x.pred (w.fld 53 3)).toNat.testBit i))) := by
  unfold opVcmp
  dsimp only
  exact State.issueCell_done 0 _ (by simp [hop]) h hlegal

/-- VPRED leaves its logic of predicates, or its count. -/
theorem opVpred_done (hop : opOf w = 0x29) (hz : zeroFld w 0 40 = true) (hfn : w.fld 46 3 ≤ 6) (h : s.canIssue c [w.fld 40 6]) :
    let x := s.cellAt c
    let p := x.pred (w.fld 52 3)
    let q := x.pred (w.fld 49 3)
    s.cellDone (opVpred c w s) c (match w.fld 46 3 with
      | 0 => x.setPred (w.fld 55 3) (p &&& q)
      | 1 => x.setPred (w.fld 55 3) (p ||| q)
      | 2 => x.setPred (w.fld 55 3) (p ^^^ q)
      | 3 => x.setPred (w.fld 55 3) (p &&& ~~~ q)
      | 4 => x.setPred (w.fld 55 3) (~~~ p)
      | 5 => x.setPred (w.fld 55 3) (predOf fun i => decide (i < (x.s (w.fld 40 6)).toNat))
      | _ => x.setS (w.fld 40 6) (Word.ofNat ((List.range 256).filter fun i => p.toNat.testBit i).length)) :=
  State.issueCell_done 0 _ (by simp [hop]) h (by simp [hz, hfn])

/-- VPERM leaves the lanes or the scalar register that its FN moves. -/
theorem opVperm_done (hop : opOf w = 0x27) (hz : zeroFld w 16 18 = true) (hfn : w.fld 34 3 ≤ 4) (h : s.canIssue c [w.fld 37 6]) :
    let x := s.cellAt c
    let imm := w.fld 0 16
    s.cellDone (opVperm c w s) c (match w.fld 34 3 with
      | 0 => x.setLanes (vdOf w) fun _ => some ((x.s (w.fld 37 6)).fld 0 32)
      | 1 => x.setS (w.fld 37 6) (Word.ofNat (x.lane (vaOf w) (imm % 128)))
      | 2 => x.setLane (vdOf w) (imm % 128) ((x.s (w.fld 37 6)).fld 0 32)
      | 3 => x.setLanes (vdOf w) fun i => some (x.lane (vaOf w) (x.lane (vbOf w) i % 128))
      | _ => x.setLanes (vdOf w) fun i => some (x.lane (vaOf w) ((i + imm) % 128))) :=
  State.issueCell_done 0 _ (by simp [hop]) h (by simp [hz, hfn])

/-- VSEL leaves in each lane that of VA or of VB. -/
theorem opVsel_done (hop : opOf w = 0x2A) (hz : zeroFld w 0 23 = true) (hfn : vfnOf w = 0) (hzm : zmOf w = false) (hty : tyOf w ≤ 2) (hrnd : vrndOf w = 0)
    (h : s.canIssue c []) :
    let x := s.cellAt c
    let pick := fun i => if x.active (pmOf w) i then vaOf w else vbOf w
    s.cellDone (opVsel c w s) c (if tyOf w = 1 then x.setHalves (vdOf w) fun i => some (x.half (pick i) i)
      else x.setLanes (vdOf w) fun i => some (x.lane (pick i) i)) :=
  State.issueCell_done 0 _ (by simp [hop]) h (by simp [hz, hfn, hzm, hty, hrnd])

/-- VACC, with no tensor operation at work on its accumulator, moves two of its rows. -/
theorem opVacc_done (hop : opOf w = 0x28) (hz : zeroFld w 0 44 = true) (hrow : w.fld 45 5 % 2 = 0) (h : s.canIssue c [])
    (hfree : ((s.flight (s.cellKey c)).tq.any fun o => o.kind.names (w.fld 50 3)) = false) :
    s.cellDone (opVacc c w s) c (if w.bit 44 then (s.cellAt c).setRows (w.fld 50 3) (w.fld 45 5) ((s.cellAt c).lane (vdOf w))
      else (s.cellAt c).setLanes (vdOf w) fun i => some ((s.cellAt c).acc (w.fld 50 3) (w.fld 45 5 + i / 64) (i % 64))) := by
  have hfree' : ((s.at c).fl.tq.any fun o => o.kind.names (w.fld 50 3)) = false := hfree
  unfold opVacc
  dsimp only
  rw [State.issue_ready (by simp [hop]) h (by simp [hz, hrow]), hfree', if_neg Bool.false_ne_true]
  exact State.cellDone_setCell s c _ 0

end

end Sys2Proof.Machine
end

section
/-! Vector instructions: the obligations, from the rules above. -/

namespace Sys2Proof.Machine

/-- Settles O9: each writes its value in the active lanes. -/
theorem vectorArithmetic : Obligations.VectorArithmetic := by
  unfold Obligations.VectorArithmetic
  intro c w s hz h x r free bf
  refine ⟨fun hop hty hfn hrnd hexact => ⟨_, rfl, (opVarOp_done hop hz hty hfn hrnd hexact h).vectorLanes⟩, fun hop hty hfn hrnd => ?_,
    fun hop hty hfn hrnd hexact => ⟨_, rfl, ?_⟩⟩
  · have hdone := opVint_done hop hz hty hfn hrnd h
    exact ⟨_, rfl, hdone.aflags_vecWrite fun _ => rfl, hdone.vectorLanes⟩
  · have hdone := opVcvt_done hop hz hty hfn hrnd hexact h
    have hcases : vfnOf w = 0 ∨ vfnOf w = 1 ∨ vfnOf w = 2 ∨ vfnOf w = 3 ∨ vfnOf w = 4 := by omega
    rcases hcases with hf | hf | hf | hf | hf <;>
      · simp only [hf] at hdone ⊢
        exact hdone.vectorLanes

/-- Settles O10: VCMP and the logic forms of VPRED write one predicate, and VPRED's count a scalar register. -/
theorem predicateResult : Obligations.PredicateResult := by
  unfold Obligations.PredicateResult
  intro c w s k x bits bf bit
  refine ⟨fun hop hz hz56 hty hrnd hfn h => ?_, fun hop hz h => ⟨fun hfn => ?_, fun hfn => ?_⟩⟩
  · exact ⟨_, rfl, (opVcmp_done hop (opVcmp_legal hz hz56 hty hrnd hfn) h).predDone fun i hi => testBit_predOf _ hi⟩
  · have hdone := opVpred_done hop hz (by omega) h
    have hcases : w.fld 46 3 = 0 ∨ w.fld 46 3 = 1 ∨ w.fld 46 3 = 2 ∨ w.fld 46 3 = 3 ∨ w.fld 46 3 = 4 ∨ w.fld 46 3 = 5 := by omega
    refine ⟨_, rfl, ?_⟩
    rcases hcases with hf | hf | hf | hf | hf | hf <;> simp only [hf] at hdone ⊢ <;> refine hdone.predDone fun i hi => ?_
    · rw [BitVec.toNat_and, Nat.testBit_and]
      rfl
    · rw [BitVec.toNat_or, Nat.testBit_or]
      rfl
    · rw [BitVec.toNat_xor, Nat.testBit_xor]
      rfl
    · rw [BitVec.toNat_and, Nat.testBit_and, testBit_not _ hi]
      rfl
    · exact testBit_not _ hi
    · exact testBit_predOf _ hi
  · have hdone := opVpred_done hop hz (by omega) h
    simp only [hfn] at hdone
    exact ⟨_, rfl, hdone.scalarDone⟩

/-- Settles O11: each moves its lanes, or the rows of its accumulator, and nothing else. -/
theorem vectorMoves : Obligations.VectorMoves := by
  unfold Obligations.VectorMoves
  intro c w s k x lanes sx imm row acc
  refine ⟨fun hop hz hfn hzm hty hrnd h => ?_, fun hop hz h => ⟨fun hfn => ?_, fun hfn => ?_, fun hfn => ?_, fun hfn => ?_, fun hfn => ?_⟩,
    fun hop hz hrow h hfree => ⟨fun hw => ?_, fun hw => ?_⟩⟩
  · have hdone := opVsel_done hop hz hfn hzm hty hrnd h
    dsimp only at hdone
    refine ⟨_, rfl, fun hne => ?_, fun heq => ?_⟩
    · rw [if_neg hne] at hdone
      exact hdone.lanesDone fun i _ => Cell.lane_lt ..
    · rw [if_pos heq] at hdone
      obtain ⟨hcell, -⟩ := hdone
      refine ⟨fun i hi => ?_, fun v i hv hi => ?_⟩
      · rw [hcell, Cell.half_next, Cell.half_setHalves _ _ _ hi]
        exact Nat.mod_eq_of_lt (Cell.half_lt ..)
      · rw [hcell, Cell.lane_next]
        exact Cell.lane_setHalves_of_ne (s.cellAt c) _ _ hv hi
  · have hdone := opVperm_done hop hz (by omega) h
    simp only [hfn] at hdone
    exact ⟨_, rfl, hdone.lanesDone fun i _ => Word.fld_lt ..⟩
  · have hdone := opVperm_done hop hz (by omega) h
    simp only [hfn] at hdone
    exact ⟨_, rfl, hdone.scalarDone⟩
  · have hdone := opVperm_done hop hz (by omega) h
    simp only [hfn] at hdone
    exact ⟨_, rfl, hdone.laneDone (Nat.mod_lt _ (by decide)) (Word.fld_lt ..)⟩
  · have hdone := opVperm_done hop hz (by omega) h
    simp only [hfn] at hdone
    exact ⟨_, rfl, hdone.lanesDone fun i _ => Cell.lane_lt ..⟩
  · have hdone := opVperm_done hop hz (by omega) h
    simp only [hfn] at hdone
    exact ⟨_, rfl, hdone.lanesDone fun i _ => Cell.lane_lt ..⟩
  · have hdone := opVacc_done hop hz hrow h hfree
    rw [hw, if_neg Bool.false_ne_true] at hdone
    exact ⟨_, rfl, hdone.lanesDone fun i _ => Cell.acc_lt ..⟩
  · have hdone := opVacc_done hop hz hrow h hfree
    have hfld := Word.fld_lt w 45 5
    rw [hw, if_pos rfl] at hdone
    exact ⟨_, rfl, hdone.rowsDone (by omega) fun i _ => Cell.lane_lt ..⟩

end Sys2Proof.Machine
end

section
/-! Fences and address conversion: the obligation, from the rules of an instruction that replaces its cell (05 R146 to R148). -/

namespace Sys2Proof.Machine

/-- ACVT takes the converted address, answers 0, or traps with PROTECTION (05 R146). -/
theorem opAcvt_ready {s : State} {c : CellRef} {w : Word} (hop : opOf w = 0x16) (hz : zeroFld w 0 44 = true) (h : s.canIssue c [sdOf w, saOf w]) :
    opAcvt c w s = match s.convert (s.engine c.core c.eng).ctx (w.bit 45) ((s.cellAt c).s (saOf w)).toNat with
      | some z => s.setCell (s.cellKey c) ((s.cellAt c).setS (sdOf w) (Word.ofNat z)).next
      | none => if w.bit 44 then s.trapCell c 6 0 (s.cellAt c).pc else s.setCell (s.cellKey c) ((s.cellAt c).setS (sdOf w) 0).next :=
  State.issue_ready (by simp [hop]) h hz

/-- Settles O21: FENCE blocks, its completion resumes the cell, and ACVT leaves its address, zero or a trap. -/
theorem fenceAndConvert : Obligations.FenceAndConvert := by
  unfold Obligations.FenceAndConvert
  intro c w s k x ctx y
  refine ⟨fun hop hkind hz h => ?_, fun scope kind mask id hphase hblocked => ⟨fun hholds => ?_, fun hopen => ?_⟩, fun hop hz h => ⟨fun z hy => ?_, fun hy hbit => ?_, fun hy hbit => ?_⟩⟩
  · obtain ⟨hcell, hkept⟩ := State.issue_setCell (row := opOf w == 0x18) (legal := w.fld 54 2 != 3 && zeroFld w 16 38)
      (fun a => { a.cell with phase := .blocked (.fence (w.fld 56 2) (w.fld 54 2) (w.fld 0 16) a.fl.seq), cycles := a.cell.cycles + 1 })
      (by simp [hop]) h (by simp [hkind, hz])
    exact ⟨_, rfl, hkept, hcell⟩
  · have hphase' : (s.at c).cell.phase = .blocked (.fence scope kind mask id) := hphase
    have hgoes : (s.cellBlocked c && s.fenceHolds c.core (s.at c).key scope kind mask) = true := Bool.and_eq_true_iff.mpr ⟨hblocked, hholds⟩
    refine ⟨_, rfl, ?_⟩
    rw [opFenceComplete]
    simp only [hphase', hgoes, if_true]
    exact State.cell_setCell_self ..
  · have hphase' : (s.at c).cell.phase = .blocked (.fence scope kind mask id) := hphase
    have hstays : (s.cellBlocked c && s.fenceHolds c.core (s.at c).key scope kind mask) = false := Bool.and_eq_false_imp.mpr fun _ => hopen
    refine congrArg Host.Outcome.next ?_
    rw [opFenceComplete]
    simp only [hphase', hstays]
    rfl
  · refine ⟨_, congrArg Host.Outcome.next (opAcvt_ready hop hz h), ?_⟩
    rw [show s.convert (s.engine c.core c.eng).ctx (w.bit 45) ((s.cellAt c).s (saOf w)).toNat = some z from hy]
    exact (State.cellDone_setCell s c _ 0).scalarDone
  · refine ⟨_, congrArg Host.Outcome.next (opAcvt_ready hop hz h), ?_⟩
    rw [show s.convert (s.engine c.core c.eng).ctx (w.bit 45) ((s.cellAt c).s (saOf w)).toNat = none from hy, hbit]
    exact (State.cellDone_setCell s c _ 0).scalarDone
  · refine ⟨_, congrArg Host.Outcome.next (opAcvt_ready hop hz h), ?_⟩
    rw [show s.convert (s.engine c.core c.eng).ctx (w.bit 45) ((s.cellAt c).s (saOf w)).toNat = none from hy, hbit]
    exact State.cellTrapped_self ..

end Sys2Proof.Machine
end

section
/-! SUPPORT. What a trap leaves (05 R172, R173): the counters and barrier units, every cell's scalar registers, and the failures of stores that are still to return. -/

namespace Sys2Proof.Machine

/-- What no trap changes: each core's counters and barrier units, each cell's scalar registers, and each cell's failed store. -/
def State.standing (s : State) : (Nat → SMap Word × SMap BarUnit) × (Nat → SMap Word) × (Nat → Option (Nat × Nat)) :=
  (fun c => ((s.core c).counters, (s.core c).bars), fun k => (s.cell k).sregs, fun k => (s.flight k).storeFail)

section
variable {s t : State}

theorem State.counter_of_standing (h : t.standing = s.standing) (c p : Nat) : t.counter c p = s.counter c p :=
  congrArg (fun v => (v.1 c).1.at 0 p) h

theorem State.bar_of_standing (h : t.standing = s.standing) (c u : Nat) : t.bar c u = s.bar c u := congrArg (fun v => (v.1 c).2.at {} u) h

theorem State.sregs_of_standing (h : t.standing = s.standing) (k r : Nat) : (t.cell k).s r = (s.cell k).s r :=
  congrArg (fun v : (Nat → SMap Word × SMap BarUnit) × (Nat → SMap Word) × (Nat → Option (Nat × Nat)) => if r = 0 then 0 else (v.2.1 k).at 0 r) h

theorem State.storeFail_of_standing (h : t.standing = s.standing) (k : Nat) : (t.flight k).storeFail = (s.flight k).storeFail := congrArg (fun v => v.2.2 k) h

/-- A fold leaves it where each of its steps does. -/
theorem State.standing_foldl {β : Type} {f : State → β → State} (hf : ∀ t b, (f t b).standing = t.standing) (l : List β) (s : State) :
    (l.foldl f s).standing = s.standing :=
  foldl_keeps (P := fun t : State => t.standing = s.standing) (fun t b h => (hf t b).trans h) rfl l

end

section
variable (s : State) (core eng k : Nat)

/-! ## Writes of one part of the state -/

theorem State.standing_setCell {x : Cell} (h : x.sregs = (s.cell k).sregs) : (s.setCell k x).standing = s.standing := by
  refine Prod.ext rfl (Prod.ext (funext fun j => ?_) rfl)
  show ((s.setCell k x).cell j).sregs = (s.cell j).sregs
  rw [State.cell_setCell]
  split
  · next hj => rw [h, hj]
  · rfl

theorem State.standing_setFlight {x : Flight} (h : x.storeFail = (s.flight k).storeFail) : (s.setFlight k x).standing = s.standing := by
  refine Prod.ext rfl (Prod.ext rfl (funext fun j => ?_))
  show ((s.setFlight k x).flight j).storeFail = (s.flight j).storeFail
  rw [State.flight_setFlight]
  split
  · next hj => rw [h, hj]
  · rfl

theorem State.standing_setCore {x : Core} (hcounters : x.counters = (s.core core).counters) (hbars : x.bars = (s.core core).bars) :
    (s.setCore core x).standing = s.standing := by
  refine Prod.ext (funext fun j => ?_) rfl
  show (((s.setCore core x).core j).counters, ((s.setCore core x).core j).bars) = ((s.core j).counters, (s.core j).bars)
  rw [State.core_setCore]
  split
  · next hj => rw [hcounters, hbars, hj]
  · rfl

@[simp] theorem State.standing_setEngine (e : Engine) : (s.setEngine core eng e).standing = s.standing := State.standing_setCore s core rfl rfl

/-! ## Stopping -/

@[simp] theorem State.standing_unblock : (s.unblock core k).standing = s.standing := by
  unfold State.unblock
  split
  · exact State.standing_setCore s core rfl rfl
  · rfl
  · rfl

@[simp] theorem State.standing_stopCell : (s.stopCell core k).standing = s.standing := by
  unfold State.stopCell
  dsimp only
  split
  · exact (State.standing_setCell _ k (by rfl)).trans (State.standing_unblock ..)
  · exact (State.standing_setCell _ k (by rfl)).trans (State.standing_unblock ..)
  · exact State.standing_unblock ..

@[simp] theorem State.standing_dropResv : (s.dropResv k).standing = s.standing := by
  unfold State.dropResv
  dsimp only
  split
  · exact State.standing_setCell _ k rfl
  · exact State.standing_setCell s k rfl

@[simp] theorem State.standing_serveMvbc (inst : Nat) : (s.serveMvbc core eng k inst).standing = s.standing := by
  unfold State.serveMvbc
  dsimp only
  split
  · rfl
  · exact State.standing_setEngine ..

@[simp] theorem State.standing_cutMvbc (o : AsyncOp) (t : Tile) (inst : Nat) : (s.cutMvbc core eng k o t inst).standing = s.standing := by
  unfold State.cutMvbc
  extract_lets f ws d x
  have hdrew : ∀ (u : State) (n : Nat), (u.drew n).standing = u.standing := fun _ _ => rfl
  rw [hdrew, State.standing_serveMvbc]
  exact (State.standing_setFlight _ k (by rfl)).trans (State.standing_setCell s k (by rfl))

@[simp] theorem State.standing_cutCollectives : (s.cutCollectives core eng).standing = s.standing := by
  unfold State.cutCollectives
  dsimp only
  refine (State.standing_foldl (fun t k => by rfl) _ _).trans ?_
  refine State.standing_foldl (fun t k => State.standing_foldl (fun u o => ?_) _ _) _ _
  split
  · split
    · exact State.standing_cutMvbc ..
    · rfl
  · rfl

@[simp] theorem State.standing_withdrawBars : (s.withdrawBars core eng).standing = s.standing := by
  unfold State.withdrawBars
  dsimp only
  refine (State.standing_foldl (fun t k => ?_) _ _).trans (State.standing_setEngine ..)
  exact State.standing_setFlight _ k rfl

@[simp] theorem State.standing_stopEngine (why : Nat) : (s.stopEngine core eng why).standing = s.standing := by
  rw [State.stopEngine, State.standing_setEngine, State.standing_withdrawBars, State.standing_cutCollectives,
    State.standing_foldl fun t k => (State.standing_dropResv _ k).trans (State.standing_stopCell t core k)]

end

/-! ## The trap -/

section
variable (s : State) (c : CellRef) (code info pc : Nat)

theorem State.standing_trapped : (s.trapped c code info pc).standing = s.standing := by
  unfold State.trapped
  dsimp only
  exact (State.standing_setCell _ _ (by rfl)).trans ((State.standing_dropResv ..).trans (State.standing_stopCell ..))

@[simp] theorem State.standing_trapCell : (s.trapCell c code info pc).standing = s.standing := by
  by_cases h : (s.engine c.core c.eng).stopping = 0
  · rw [State.trapCell_first s c code info pc h, State.standing_setEngine, State.standing_stopEngine, State.standing_trapped]
  · rw [State.trapCell_later s c code info pc h, State.standing_trapped]

end

end Sys2Proof.Machine
end

section
/-! SUPPORT. Reading a map's words (08 R239, R241): it fills the core's map cache, and leaves the cells, memory, and everything else of the cores. -/

namespace Sys2Proof.Machine

/-- A state after map words have been read: only map caches and counters of the registers differ. -/
structure State.MapRead (s t : State) : Prop where
  cellSide : t.cellSide = s.cellSide
  gathers : t.gathers = s.gathers
  core : ∀ n, ∃ m, t.core n = { s.core n with mapCache := m }

namespace State.MapRead
variable {s t u : State}

theorem refl (s : State) : s.MapRead s := ⟨rfl, rfl, fun _ => ⟨_, rfl⟩⟩

theorem trans (h : s.MapRead t) (g : t.MapRead u) : s.MapRead u :=
  ⟨g.cellSide.trans h.cellSide, g.gathers.trans h.gathers, fun n => by
    obtain ⟨m, hm⟩ := h.core n
    obtain ⟨m', hm'⟩ := g.core n
    exact ⟨m', by rw [hm', hm]⟩⟩

theorem mem (h : s.MapRead t) : t.mem = s.mem := State.mem_of_cellSide h.cellSide
theorem engine (h : s.MapRead t) : t.engine = s.engine := State.engine_of_cellSide h.cellSide
theorem flight (h : s.MapRead t) (k : Nat) : t.flight k = s.flight k := congrArg (fun m : SMap Flight => m.at {} k) (State.flights_of_cellSide h.cellSide)
theorem gather (h : s.MapRead t) (k : Nat) : t.gather k = s.gather k := congrArg (fun m : SMap Gather => m.at {} k) h.gathers

theorem counter (h : s.MapRead t) (c p : Nat) : t.counter c p = s.counter c p := by
  obtain ⟨m, hm⟩ := h.core c
  rw [State.counter, hm, State.counter]

theorem bar (h : s.MapRead t) (c u : Nat) : t.bar c u = s.bar c u := by
  obtain ⟨m, hm⟩ := h.core c
  rw [State.bar, hm, State.bar]

theorem addbQ (h : s.MapRead t) (c : Nat) : (t.core c).addbQ = (s.core c).addbQ := by
  obtain ⟨m, hm⟩ := h.core c
  rw [hm]

end State.MapRead

section
variable (s : State)

theorem State.snoopRead_mapRead (line : Nat) : s.MapRead (s.snoopRead line) := by
  have hcores : (s.snoopRead line).cores = s.cores := by
    unfold State.snoopRead
    dsimp only
    split <;> simp
  have hgathers : (s.snoopRead line).gathers = s.gathers := by
    unfold State.snoopRead
    dsimp only
    split <;> simp
  exact ⟨State.snoopRead_cellSide .., hgathers, fun n => ⟨_, State.core_of_cores hcores n⟩⟩

/-- A core that takes another map cache is otherwise as it was. -/
theorem State.setMapCache_mapRead (c : Nat) (m : SMap Word) : s.MapRead (s.setCore c { s.core c with mapCache := m }) where
  cellSide := State.setCore_cellSide s rfl
  gathers := rfl
  core n := by
    rw [State.core_setCore]
    split
    · next h => exact ⟨m, by rw [h]⟩
    · exact ⟨_, rfl⟩

theorem State.mapFill_mapRead (ctx core i : Nat) : s.MapRead (s.mapFill ctx core i) := by
  unfold State.mapFill
  split
  · refine State.MapRead.trans ?_ (State.setMapCache_mapRead _ core _)
    split
    · exact .refl s
    · exact State.snoopRead_mapRead ..
  · exact .refl s

theorem State.mapFills_mapRead (ctx core : Nat) (l : List Nat) : s.MapRead (l.foldl (fun u i => u.mapFill ctx core i) s) :=
  foldl_keeps (P := fun t : State => s.MapRead t) (fun t i h => h.trans (State.mapFill_mapRead t ctx core i)) (.refl s) l

/-- An identifier whose words can be read and translate is read, and the body follows. -/
theorem State.withMap_ok {α : Type} {s : State} {c : CellRef} {words : List Nat} {entry : State → Except Nat α} {x : α}
    (h : mapped s c words (entry s) x) (body : State → α → State) :
    ∃ t, s.MapRead t ∧ s.withMap (s.at c) words entry body = body t x := by
  obtain ⟨hready, hentry⟩ := h
  refine ⟨_, State.mapFills_mapRead s (s.engine c.core c.eng).ctx c.core words, ?_⟩
  have hready' : words.all (s.mapReady (s.at c).eng.ctx (s.at c).ref.core) = true := hready
  rw [State.withMap, if_pos hready', hentry]
  rfl

end

end Sys2Proof.Machine
end

section
/-! SUPPORT. Signal counters (08 R242 to R245): what an addition leaves, and a SIG whose counter is translated. -/

namespace Sys2Proof.Machine

section
variable (s : State) (core phys n : Nat)

/-! ## Additions (08 R243) -/

theorem State.counter_setCounter (w : Word) (p : Nat) : (s.setCounter core phys w).counter core p = if p = phys then w else s.counter core p := by
  unfold State.counter State.setCounter
  dsimp only
  rw [State.core_setCore_self, SMap.at_put]

theorem State.counter_bumpCore (pk : Nat) (r : Reg) (f : Fld) (m p : Nat) : (s.bumpCore core pk r f m).counter core p = s.counter core p :=
  congrArg (fun c : Core => c.counters.at 0 p) (State.core_of_cores (State.bumpCore_cores ..) core)

/-- An addition leaves the exact sum, or a saturated counter. -/
theorem State.sigAddOp_added : counterAdded (s.counter core phys) ((s.sigAddOp core phys n).counter core phys) n := by
  unfold counterAdded State.sigAddOp
  dsimp only
  split_ifs
  · rfl
  · rw [State.counter_bumpCore, State.counter_setCounter, if_pos rfl]
  · rw [State.counter_setCounter, if_pos rfl]

theorem State.sigAddOp_others {p : Nat} (hp : p ≠ phys) : (s.sigAddOp core phys n).counter core p = s.counter core p := by
  unfold State.sigAddOp
  dsimp only
  split_ifs
  · rfl
  · rw [State.counter_bumpCore, State.counter_setCounter, if_neg hp]
  · rw [State.counter_setCounter, if_neg hp]

@[simp] theorem State.sigAddOp_mem : (s.sigAddOp core phys n).mem = s.mem := by
  unfold State.sigAddOp
  dsimp only
  split_ifs
  · rfl
  · exact State.bumpCore_mem ..
  · rfl

theorem State.sigAddOp_addbQ : ((s.sigAddOp core phys n).core core).addbQ = (s.core core).addbQ := by
  have hset : ∀ w, ((s.setCounter core phys w).core core).addbQ = (s.core core).addbQ := fun w => by
    unfold State.setCounter
    dsimp only
    rw [State.core_setCore_self]
  unfold State.sigAddOp
  dsimp only
  split_ifs
  · rfl
  · rw [State.core_of_cores (State.bumpCore_cores ..), hset]
  · exact hset _

/-- A cell that leaves a counter's queue is not in it. -/
theorem State.leaveAddb_not_mem (k : Nat) : k ∉ ((s.leaveAddb core phys k).core core).addbQ.at [] phys := by
  unfold State.leaveAddb
  dsimp only
  rw [State.core_setCore_self, SMap.at_put, if_pos rfl]
  simp

theorem State.counter_leaveAddb (k p : Nat) : (s.leaveAddb core phys k).counter core p = s.counter core p :=
  State.counter_of_standing (State.standing_setCore s core (by rfl) (by rfl)) core p

/-- An addition by a cell that leaves the counter's queue is one to the counter. -/
theorem State.leaveAddb_added (k : Nat) : counterAdded (s.counter core phys) (((s.leaveAddb core phys k).sigAddOp core phys n).counter core phys) n := by
  rw [← State.counter_leaveAddb s core phys k phys]
  exact State.sigAddOp_added ..

end

/-! ## Translated counters (08 R239, R246) -/

section
variable {s t : State} {c : CellRef} {w : Word}

theorem State.MapRead.counterMet (h : s.MapRead t) (core phys n : Nat) : t.counterMet core phys n = s.counterMet core phys n := by
  rw [State.counterMet, h.counter, State.counterMet]

theorem State.MapRead.addbFits (h : s.MapRead t) (core phys n partner depth : Nat) :
    t.addbFits core phys n partner depth = s.addbFits core phys n partner depth := by
  unfold State.addbFits
  rw [h.counter, h.counter]

theorem State.MapRead.sigAddOp_added (h : s.MapRead t) (core phys n : Nat) :
    counterAdded (s.counter core phys) ((t.sigAddOp core phys n).counter core phys) n := by
  rw [← h.counter]
  exact State.sigAddOp_added ..

/-- A SIG of a minor whose counter translates. -/
def State.sigWord (s : State) (c : CellRef) (w : Word) (minor : Nat) (x : Nat × Nat × Nat) : Prop :=
  opOf w = 0x19 ∧ minorOf w = minor ∧ zeroFld w 16 16 = true ∧ s.syncReady c.core c.eng = true
    ∧ mapped s c (s.sigWords (s.engine c.core c.eng).ctx c.core (sigCtr w)) (s.sigEntry (s.engine c.core c.eng).ctx c.core (sigCtr w)) x

/-- A SIG whose counter translates has its effect, from a state in which the map's words have been read. -/
theorem State.issueSig_ready {minor : Nat} {regs : List Nat} {x : Nat × Nat × Nat} {body : At → State → Nat × Nat × Nat → State} {P : State → Prop}
    (hw : s.sigWord c w minor x) (h : s.canIssue c regs) (hbody : ∀ t, s.MapRead t → P (body (s.at c) t x)) :
    ∃ t, (Host.Outcome.next (s.issueSig c w minor regs body) : Host.Outcome State Fault Refusal) = .next t ∧ P t := by
  obtain ⟨hop, hm, hz, hsync, hmap⟩ := hw
  obtain ⟨t, hread, hmapped⟩ := State.withMap_ok (entry := fun u => u.sigEntry (s.engine c.core c.eng).ctx c.core (sigCtr w)) hmap (body (s.at c))
  refine ⟨_, congrArg Host.Outcome.next ?_, hbody t hread⟩
  rw [State.issueSig, State.issue_ready (by simp [hop, hm]) h hz, if_neg (not_not_intro hsync)]
  exact hmapped

/-- A SIG whose engine's barrier arrivals are not made waits. -/
theorem State.issueSig_waits {minor : Nat} {regs : List Nat} (hop : opOf w = 0x19) (hm : minorOf w = minor) (hz : zeroFld w 16 16 = true)
    (hsync : s.syncReady c.core c.eng = false) (h : s.canIssue c regs) (body : At → State → Nat × Nat × Nat → State) :
    s.issueSig c w minor regs body = s := by
  rw [State.issueSig, State.issue_ready (by simp [hop, hm]) h hz, if_pos (by simp [hsync])]

end

end Sys2Proof.Machine
end

section
/-! Signal counters: the obligation, from the rules above. -/

namespace Sys2Proof.Machine

/-- ADDB's trap, its addition, or its wait in the counter's queue, from a state that reads as `s` does (08 R245). -/
theorem addb_cases {s t : State} {c : CellRef} {phys amount partner depth : Nat} (hread : s.MapRead t) :
    let q := (s.core c.core).addbQ.at [] phys
    let k := t.core c.core
    let q' := k.addbQ.at [] phys
    let u := if depth = 0 then (t.sigAddOp c.core phys amount).setCell (s.cellKey c) (s.cellAt c).next
      else if depth < amount then t.trapCell c 5 0 (s.cellAt c).pc
      else if q'.isEmpty && t.addbFits c.core phys amount partner depth then (t.sigAddOp c.core phys amount).setCell (s.cellKey c) (s.cellAt c).next
      else (t.setCore c.core { k with addbQ := k.addbQ.put [] phys (q' ++ [s.cellKey c]) }).setCell (s.cellKey c)
        { s.cellAt c with phase := .blocked (.addb phys amount partner depth), cycles := (s.cellAt c).cycles + 1 }
    (∀ p, p ≠ phys → u.counter c.core p = s.counter c.core p)
      ∧ (if depth ≠ 0 ∧ depth < amount then s.cellTrapped u c 5 0 (s.cellAt c).pc ∧ u.counter c.core phys = s.counter c.core phys
        else if depth = 0 ∨ (q = [] ∧ s.addbFits c.core phys amount partner depth = true) then
          counterAdded (s.counter c.core phys) (u.counter c.core phys) amount ∧ u.cell (s.cellKey c) = (s.cellAt c).next
        else u.counter c.core phys = s.counter c.core phys ∧ (u.core c.core).addbQ.at [] phys = q ++ [s.cellKey c]
          ∧ u.cell (s.cellKey c) = { s.cellAt c with phase := .blocked (.addb phys amount partner depth), cycles := (s.cellAt c).cycles + 1 }) := by
  intro q k q' u
  have hq : q' = q := congrArg (fun m : SMap (List Nat) => m.at [] phys) (hread.addbQ c.core)
  have hadded : ∀ y : Cell, (∀ p, p ≠ phys → ((t.sigAddOp c.core phys amount).setCell (s.cellKey c) y).counter c.core p = s.counter c.core p)
      ∧ counterAdded (s.counter c.core phys) (((t.sigAddOp c.core phys amount).setCell (s.cellKey c) y).counter c.core phys) amount
      ∧ ((t.sigAddOp c.core phys amount).setCell (s.cellKey c) y).cell (s.cellKey c) = y := fun y =>
    ⟨fun p hp => (State.sigAddOp_others t c.core phys amount hp).trans (hread.counter ..),
      hread.sigAddOp_added .., State.cell_setCell_self ..⟩
  by_cases hdepth : depth = 0
  · simp only [u, if_pos hdepth, ne_eq, hdepth, not_true, false_and, if_false, true_or, if_true]
    exact hadded _
  · by_cases hlt : depth < amount
    · have hstand := (t.standing_trapCell c 5 0 (s.cellAt c).pc)
      have hcounter : ∀ p, (t.trapCell c 5 0 (s.cellAt c).pc).counter c.core p = s.counter c.core p :=
        fun p => (State.counter_of_standing hstand c.core p).trans (hread.counter ..)
      simp only [u, if_neg hdepth, ne_eq, hdepth, hlt, not_false_eq_true, and_self, if_true]
      exact ⟨fun p _ => hcounter p, State.cellTrapped_trapCell hread.engine .., hcounter phys⟩
    · have hcond : (q'.isEmpty && t.addbFits c.core phys amount partner depth) = true ↔ (q = [] ∧ s.addbFits c.core phys amount partner depth = true) := by
        rw [hq, hread.addbFits, Bool.and_eq_true, List.isEmpty_iff]
      by_cases hfits : q = [] ∧ s.addbFits c.core phys amount partner depth = true
      · simp only [u, if_neg hdepth, if_pos (hcond.mpr hfits), hlt, and_false, if_false, if_pos (Or.inr hfits)]
        exact hadded _
      · simp only [u, if_neg hdepth, if_neg (mt hcond.mp hfits), hlt, and_false, if_false, if_neg (not_or.mpr ⟨hdepth, hfits⟩)]
        have hcounter : ∀ p, ((t.setCore c.core { k with addbQ := k.addbQ.put [] phys (q' ++ [s.cellKey c]) }).setCell (s.cellKey c)
            { s.cellAt c with phase := .blocked (.addb phys amount partner depth), cycles := (s.cellAt c).cycles + 1 }).counter c.core p = s.counter c.core p :=
          fun p => (State.counter_of_standing (State.standing_setCore t c.core (by rfl) (by rfl)) c.core p).trans (hread.counter ..)
        refine ⟨fun p _ => hcounter p, hcounter phys, ?_, State.cell_setCell_self ..⟩
        rw [← hq]
        show ((t.setCore c.core _).core c.core).addbQ.at [] phys = _
        rw [State.core_setCore_self, SMap.at_put, if_pos rfl]

/-- Settles O22: each SIG has its effect on its counter and its cell, and a blocked one goes on where it may. -/
theorem signalCounters : Obligations.SignalCounters := by
  unfold Obligations.SignalCounters
  intro c w s phys depth partner k x ctx word amount old kept
  refine ⟨fun hop hm hz hsync h => ?_, fun hw h => ?_, fun hw h => ?_, fun hw h => ?_, fun hw h => ?_, fun target hphase hblocked hmet => ?_,
    fun n hphase hblocked hhead hfits => ?_⟩
  · exact congrArg Host.Outcome.next (State.issueSig_waits hop hm hz hsync h _)
  · refine State.issueSig_ready hw h fun t hread => ?_
    refine ⟨?_, fun p hp => ?_, State.cell_setCell_self .., ?_⟩
    · exact hread.sigAddOp_added ..
    · exact (State.sigAddOp_others t c.core phys amount hp).trans (hread.counter ..)
    · exact (State.sigAddOp_mem ..).trans hread.mem
  · refine State.issueSig_ready hw h fun t hread => ?_
    dsimp only
    rw [hread.counterMet]
    change _ ∧ _ ∧ _ = (if s.counterMet c.core phys ((s.at c).cell.s (sigSa w)).toNat then _ else _)
    split
    · exact ⟨hread.counter .., fun p _ => hread.counter .., State.cell_setCell_self ..⟩
    · exact ⟨hread.counter .., fun p _ => hread.counter .., State.cell_setCell_self ..⟩
  · refine State.issueSig_ready hw h fun t hread => ?_
    refine ⟨?_, hread.counter .., fun p _ => hread.counter ..⟩
    rw [hread.counter]
    exact State.cell_setCell_self ..
  · refine State.issueSig_ready hw h fun t hread => ?_
    exact addb_cases hread
  · have hphase' : (s.at c).cell.phase = .blocked (.sigWait phys target) := hphase
    have hgoes : (s.cellBlocked c && s.counterMet c.core phys target) = true := Bool.and_eq_true_iff.mpr ⟨hblocked, hmet⟩
    refine ⟨_, rfl, ?_⟩
    simp only [opSigWaitSatisfied, hphase', hgoes, if_true]
    exact ⟨State.cell_setCell_self .., State.keptButCell_setCell s _ _ 0⟩
  · have hphase' : (s.at c).cell.phase = .blocked (.addb phys n partner depth) := hphase
    have hgoes : (s.cellBlocked c && ((s.core c.core).addbQ.at [] phys).head? == some (s.at c).key && s.addbFits c.core phys n partner depth) = true := by
      rw [hblocked, hhead, hfits]
      simp only [Bool.true_and, Bool.and_true]
      exact beq_self_eq_true _
    refine ⟨_, rfl, ?_⟩
    simp only [opAddbAdmitted, hphase', hgoes, if_true]
    refine ⟨State.cell_setCell_self .., ?_, fun p hp => ?_, ?_⟩
    · exact State.leaveAddb_added ..
    · exact (State.sigAddOp_others _ c.core phys n hp).trans (State.counter_leaveAddb ..)
    · have hqueue : (((s.leaveAddb c.core phys k).sigAddOp c.core phys n).core c.core).addbQ = ((s.leaveAddb c.core phys k).core c.core).addbQ :=
        State.sigAddOp_addbQ ..
      show k ∉ (((s.leaveAddb c.core phys k).sigAddOp c.core phys n).core c.core).addbQ.at [] phys
      rw [hqueue]
      exact State.leaveAddb_not_mem s c.core phys k

end Sys2Proof.Machine
end

section
/-! SUPPORT. Barriers (08 R259 to R262): a BAR whose unit is translated, the use of a barrier that a cell issues, and the round that an arrival completes. -/

namespace Sys2Proof.Machine

/-! ## Units -/

section
variable (s : State) (core u : Nat)

theorem State.bar_setBar (x : BarUnit) : (s.setBar core u x).bar core u = x := by
  unfold State.bar State.setBar
  dsimp only
  rw [State.core_setCore_self, SMap.at_put, if_pos rfl]

theorem State.setBar_cellSide (x : BarUnit) : (s.setBar core u x).cellSide = s.cellSide := State.setCore_cellSide s rfl

theorem testBit_setBit (m i : Nat) : (setBit m i).testBit i = true := by
  unfold setBit
  split
  · assumption
  · next h => rw [Nat.add_comm, Nat.testBit_two_pow_add_eq, Bool.eq_false_of_not_eq_true h, Bool.not_false]

end

/-! ## A translated unit (08 R239, R241) -/

/-- A state after a barrier's entry has been read: its unit shows the entry's MASK and the context, and beside it only map caches and counters of the registers differ. -/
structure State.BarRead (s t : State) (c : CellRef) (u m : Nat) : Prop where
  cellSide : t.cellSide = s.cellSide
  gathers : t.gathers = s.gathers
  bar : t.bar c.core u = { s.bar c.core u with mask := m, ctx := some (s.engine c.core c.eng).ctx }

/-- A BAR of a minor whose unit translates. -/
def State.barWordOf (s : State) (c : CellRef) (w : Word) (minor u m : Nat) : Prop :=
  opOf w = 0x1A ∧ minorOf w = minor ∧ zeroFld w 0 37 = true ∧ s.syncReady c.core c.eng = true
    ∧ mapped s c [barWord (barBid w), barWord (barBid w) + 1] (s.barEntry (s.engine c.core c.eng).ctx c.core c.eng (barBid w)) (u, m)

namespace State.BarRead
variable {s t : State} {c : CellRef} {u m : Nat}

theorem engine (h : s.BarRead t c u m) : t.engine = s.engine := State.engine_of_cellSide h.cellSide
theorem gather (h : s.BarRead t c u m) (k : Nat) : t.gather k = s.gather k := congrArg (fun v : SMap Gather => v.at {} k) h.gathers
theorem lost (h : s.BarRead t c u m) : (t.bar c.core u).lost = (s.bar c.core u).lost := by rw [h.bar]
theorem mask (h : s.BarRead t c u m) : (t.bar c.core u).mask = m := by rw [h.bar]

theorem complete (h : s.BarRead t c u m) (n : Nat) : (t.bar c.core u).complete n = (s.bar c.core u).complete n := by
  rw [h.bar]
  rfl

end State.BarRead

/-- A BAR whose unit translates has its effect, from a state in which the entry has been read. -/
theorem State.issueBar_ready {s : State} {c : CellRef} {w : Word} {minor u m : Nat} {regs : List Nat} {body : At → State → Nat → State} {P : State → Prop}
    (hw : s.barWordOf c w minor u m) (h : s.canIssue c regs) (hbody : ∀ t, s.BarRead t c u m → P (body (s.at c) t u)) :
    ∃ t, (Host.Outcome.next (s.issueBar c w minor regs body) : Host.Outcome State Fault Refusal) = .next t ∧ P t := by
  obtain ⟨hop, hm, hz, hsync, hmap⟩ := hw
  obtain ⟨t, hread, hmapped⟩ := State.withMap_ok (entry := fun v => v.barEntry (s.engine c.core c.eng).ctx c.core c.eng (barBid w)) hmap
    fun t e => body (s.at c) (t.setBar c.core e.1 { t.bar c.core e.1 with mask := e.2, ctx := some (s.at c).eng.ctx }) e.1
  refine ⟨_, congrArg Host.Outcome.next ?_, hbody (t.setBar c.core u { t.bar c.core u with mask := m, ctx := some (s.at c).eng.ctx })
    ⟨(State.setBar_cellSide ..).trans hread.cellSide, hread.gathers, ?_⟩⟩
  · rw [State.issueBar, State.issue_ready (by simp [hop, hm]) h hz, if_neg (not_not_intro hsync)]
    exact hmapped
  · rw [State.bar_setBar, hread.bar]
    rfl

/-! ## A cell's use of a barrier (08 R241, R260) -/

section
variable (t : State) (a : At) (bid u : Nat)

/-- The use that a cell issues is its next, on the unit that the first cell of its engine fixed. -/
theorem State.barIssue_number :
    let n := (t.gather a.key).bars.at 0 bid
    (t.barIssue a bid u).2 = (n, (((t.engine a.ref.core a.ref.eng).barAt.find? (instKey bid n)).map fun y => y.1).getD u) := by
  intro n
  unfold State.barIssue
  dsimp only
  rw [State.engine_of_cores (State.setGather_cores ..)]
  change (match (t.engine a.ref.core a.ref.eng).barAt.find? (instKey bid n) with
    | some x => (_, n, x.1)
    | none => (_, n, u)).2 = _
  cases (t.engine a.ref.core a.ref.eng).barAt.find? (instKey bid n) <;> rfl

theorem State.barIssue_gather : ((t.barIssue a bid u).1.gather a.key).bars.at 0 bid = (t.gather a.key).bars.at 0 bid + 1 := by
  have hset : ∀ g : Gather, ((t.setGather a.key g).gather a.key) = g := State.gather_setGather_self t a.key
  have hbars : (t.barIssue a bid u).1.gather a.key = { t.gather a.key with bars := (t.gather a.key).bars.put 0 bid ((t.gather a.key).bars.at 0 bid + 1) } := by
    unfold State.barIssue
    dsimp only
    split <;> exact hset _
  rw [hbars, SMap.at_put, if_pos rfl]

theorem State.barIssue_bar (core v : Nat) : (t.barIssue a bid u).1.bar core v = t.bar core v := by
  unfold State.barIssue
  dsimp only
  split
  · rfl
  · exact State.bar_of_standing (State.standing_setEngine ..) core v

/-- The first cell's unit and MASK stand for its engine. -/
theorem State.barIssue_barAt :
    ((t.barIssue a bid u).1.engine a.ref.core a.ref.eng).barAt.find? (instKey bid ((t.gather a.key).bars.at 0 bid))
      = some (((t.engine a.ref.core a.ref.eng).barAt.find? (instKey bid ((t.gather a.key).bars.at 0 bid))).getD (u, (t.bar a.ref.core u).mask)) := by
  have hengine : ∀ g, (t.setGather a.key g).engine = t.engine := fun g => State.engine_of_cores (State.setGather_cores t a.key g)
  unfold State.barIssue
  dsimp only
  rw [hengine]
  split
  · next x h =>
    have hfind : (t.engine a.ref.core a.ref.eng).barAt.find? (instKey bid ((t.gather a.key).bars.at 0 bid)) = some x := h
    rw [hengine, hfind]
    rfl
  · next h =>
    have hfind : (t.engine a.ref.core a.ref.eng).barAt.find? (instKey bid ((t.gather a.key).bars.at 0 bid)) = none := h
    rw [hfind, State.engine_setEngine, if_pos ⟨rfl, rfl⟩]
    exact (SMap.find?_insert ..).trans (if_pos rfl)

end

/-! ## Rounds (08 R259, R261) -/

/-- A unit's numbering: its rounds and completed count lie in its units, and each engine's arrivals in its count. -/
def State.barSide (s : State) : (Nat → SMap BarUnit) × (Nat → Nat → SMap Nat) := (fun c => (s.core c).bars, fun c e => (s.engine c e).barServed)

section
variable (s : State) (core u : Nat)

theorem State.barSide_of_cores {s t : State} (h : t.cores = s.cores) : t.barSide = s.barSide := by
  unfold State.barSide
  rw [State.engine_of_cores h]
  exact Prod.ext (funext fun c => congrArg Core.bars (State.core_of_cores h c)) rfl

theorem State.bar_of_barSide {s t : State} (h : t.barSide = s.barSide) (core u : Nat) : t.bar core u = s.bar core u := congrArg (fun v => (v.1 core).at {} u) h

theorem State.barServed_of_barSide {s t : State} (h : t.barSide = s.barSide) (core eng : Nat) :
    (t.engine core eng).barServed = (s.engine core eng).barServed := congrArg (fun v => v.2 core eng) h

theorem State.barSide_foldl {β : Type} {f : State → β → State} (hf : ∀ t b, (f t b).barSide = t.barSide) (l : List β) : (l.foldl f s).barSide = s.barSide :=
  foldl_keeps (P := fun t : State => t.barSide = s.barSide) (fun t b h => (hf t b).trans h) rfl l

theorem State.barSide_setEngine {eng : Nat} {x : Engine} (h : x.barServed = (s.engine core eng).barServed) : (s.setEngine core eng x).barSide = s.barSide := by
  refine Prod.ext ?_ (funext fun c => funext fun e => ?_)
  · exact congrArg (fun v : (Nat → SMap Word × SMap BarUnit) × _ => fun c => (v.1 c).2) (State.standing_setEngine s core eng x)
  · show ((s.setEngine core eng x).engine c e).barServed = (s.engine c e).barServed
    rw [State.engine_setEngine]
    split
    · next hc => rw [h, hc.1, hc.2]
    · rfl

@[simp] theorem State.giveTicket_barSide (x : Nat × Nat × Nat × Nat) : (s.giveTicket core x).barSide = s.barSide := by
  have hticket : ∀ e : Engine, e.barServed = (s.engine core x.1).barServed → (s.setEngine core x.1 e).barSide = s.barSide := fun e he => State.barSide_setEngine s core he
  unfold State.giveTicket
  dsimp only
  split
  · exact hticket _ rfl
  · refine (State.barSide_foldl _ (fun t k => ?_) _).trans (hticket _ rfl)
    split
    · exact State.barSide_of_cores rfl
    · rfl

@[simp] theorem State.barResume_barSide : (s.barResume core u).barSide = s.barSide := by
  unfold State.barResume
  refine State.barSide_foldl s (fun t k => ?_) _
  split
  · split
    · split
      · split
        · split <;> rfl
        · rfl
      · rfl
    · rfl
  · split <;> rfl
  · rfl

theorem State.barDrain_barSide :
    (s.barDrain core u).barSide = (s.setBar core u (BarUnit.drain ((s.bar core u).stalled.length + 1) (s.bar core u).settle []).1).barSide := by
  unfold State.barDrain
  dsimp only
  rw [State.barResume_barSide, State.barSide_foldl _ fun t e => State.giveTicket_barSide t core e]

/-- A unit that drains has the rounds that its stalled entries leave. -/
theorem State.barDrain_bar : (s.barDrain core u).bar core u = (BarUnit.drain ((s.bar core u).stalled.length + 1) (s.bar core u).settle []).1 :=
  (State.bar_of_barSide (State.barDrain_barSide ..) core u).trans (State.bar_setBar ..)

theorem State.barDrain_barServed (eng : Nat) : ((s.barDrain core u).engine core eng).barServed = (s.engine core eng).barServed :=
  (State.barServed_of_barSide (State.barDrain_barSide ..) core eng).trans
    (congrArg (fun e : Nat → Nat → Engine => (e core eng).barServed) (State.engine_of_cellSide (State.setBar_cellSide ..)))

end

/-- The only engine of a MASK, arriving at a unit without rounds or stalled entries, completes its round at once. -/
theorem BarUnit.drain_alone {x : BarUnit} {eng : Nat} {inst : Nat × Nat} (hmask : x.mask = 2 ^ eng) (hrounds : x.rounds = []) (hstalled : x.stalled = [(eng, inst)]) :
    ((BarUnit.drain 2 x.settle []).1).rounds = [] ∧ ((BarUnit.drain 2 x.settle []).1).done = (x.next + 1) % 2 ^ 32 := by
  have hfull : ((List.range 64).all fun e => !x.mask.testBit e || (2 ^ eng).testBit e) = true :=
    List.all_eq_true.mpr fun e _ => by rw [hmask]; exact Bool.not_or_self _
  have hsettle : x.settle = x := by rw [BarUnit.settle, hrounds]
  have harrive : x.arrive eng = some ({ x with rounds := [(x.next, 2 ^ eng)], next := (x.next + 1) % 2 ^ 32 }, x.next) := by simp [BarUnit.arrive, hrounds]
  have hlast : ∀ out, BarUnit.drain 1 { x with rounds := [], next := (x.next + 1) % 2 ^ 32, done := (x.next + 1) % 2 ^ 32, stalled := [] } out
      = ({ x with rounds := [], next := (x.next + 1) % 2 ^ 32, done := (x.next + 1) % 2 ^ 32, stalled := [] }, out) := fun _ => rfl
  have hdrain : (BarUnit.drain 2 x.settle []).1 = { x with rounds := [], next := (x.next + 1) % 2 ^ 32, done := (x.next + 1) % 2 ^ 32, stalled := [] } := by
    rw [hsettle, BarUnit.drain]
    simp only [hstalled, List.find?_cons, harrive, Option.isSome_some, List.erase_cons_head, BarUnit.settle, hfull, if_true, hlast]
  rw [hdrain]
  exact ⟨rfl, rfl⟩

/-- A use that every cell of an engine has issued is full. -/
theorem State.lt_barFull {s : State} {core n bid : Nat} {e : Engine} (hkeys : e.keys core ≠ []) (h : ∀ k ∈ e.keys core, n < (s.gather k).bars.at 0 bid) :
    n < s.barFull core e bid := by
  have hall : ∀ v ∈ (e.keys core).map fun k => (s.gather k).bars.at 0 bid, n < v := by
    intro v hv
    obtain ⟨k, hk, rfl⟩ := List.mem_map.mp hv
    exact h k hk
  have hne : (e.keys core).map (fun k => (s.gather k).bars.at 0 bid) ≠ [] := mt List.map_eq_nil_iff.mp hkeys
  unfold State.barFull
  generalize (e.keys core).map (fun k => (s.gather k).bars.at 0 bid) = l at hall hne
  cases l with
  | nil => exact absurd rfl hne
  | cons x l =>
    show n < l.foldl min x
    have hx : n < x := hall x List.mem_cons_self
    have hl : ∀ v ∈ l, n < v := fun v hv => hall v (List.mem_cons_of_mem x hv)
    clear hall hne
    induction l generalizing x with
    | nil => exact hx
    | cons y l ih => exact ih (min x y) (Nat.lt_min.mpr ⟨hx, hl y List.mem_cons_self⟩) fun v hv => hl v (List.mem_cons_of_mem y hv)

end Sys2Proof.Machine
end

section
/-! Barriers: the obligation, from the rules above. -/

namespace Sys2Proof.Machine

section
variable {s t : State} {c : CellRef} {bid u m : Nat}

/-- The use that a cell issues, from a state that reads as `s` does. -/
theorem State.BarRead.barIssue (h : s.BarRead t c u m) :
    let inst := (s.gather (s.cellKey c)).bars.at 0 bid
    let first := (s.engine c.core c.eng).barAt.find? (instKey bid inst)
    let v := (t.barIssue (s.at c) bid u).1
    (t.barIssue (s.at c) bid u).2 = (inst, (first.map fun y => y.1).getD u) ∧ (v.gather (s.cellKey c)).bars.at 0 bid = inst + 1
      ∧ (v.bar c.core u).mask = m ∧ (v.engine c.core c.eng).barAt.find? (instKey bid inst) = some (first.getD (u, m)) := by
  intro inst first v
  have hgather : t.gather (s.at c).key = s.gather (s.cellKey c) := h.gather _
  have hengine : t.engine (s.at c).ref.core (s.at c).ref.eng = s.engine c.core c.eng := congrFun (congrFun h.engine _) _
  have hinst := t.barIssue_number (s.at c) bid u
  have hat := t.barIssue_barAt (s.at c) bid u
  have hnext := t.barIssue_gather (s.at c) bid u
  have hmask : (t.bar (s.at c).ref.core u).mask = m := h.mask
  rw [hgather] at hinst hat hnext
  rw [hengine] at hinst hat
  rw [hmask] at hat
  exact ⟨hinst, hnext, (congrArg BarUnit.mask (t.barIssue_bar (s.at c) bid u c.core u)).trans h.mask, hat⟩

end

/-- An engine whose oldest open use of a barrier has arrived. -/
def Engine.servedBar (e : Engine) (bid : Nat) : Engine :=
  { e with barServed := e.barServed.put 0 bid (e.barServed.at 0 bid + 1), barAt := e.barAt.erase (instKey bid (e.barServed.at 0 bid)) }

/-- A unit at which an engine arrives with a MASK, before its entries are counted. -/
def BarUnit.stall (x : BarUnit) (m ctx : Nat) (a : Nat × Nat × Nat) : BarUnit := { x with mask := m, ctx := some ctx, stalled := x.stalled ++ [a] }

/-- A use that every cell of an engine has issued arrives, and its unit drains (08 R260). -/
theorem opBarrierArrival_ready {s : State} {core eng bid u m : Nat}
    (hat : (s.engine core eng).barAt.find? (instKey bid ((s.engine core eng).barServed.at 0 bid)) = some (u, m)) (hserve : s.serving = true)
    (hres : s.resident core eng = true) (hfull : (s.engine core eng).barServed.at 0 bid < s.barFull core (s.engine core eng) bid) :
    opBarrierArrival core eng bid s = ((s.setEngine core eng ((s.engine core eng).servedBar bid)).setBar core u
      ((s.bar core u).stall m (s.engine core eng).ctx (eng, bid, (s.engine core eng).barServed.at 0 bid))).barDrain core u := by
  have hgoes : (s.serving && s.resident core eng && decide ((s.engine core eng).barServed.at 0 bid < s.barFull core (s.engine core eng) bid)) = true := by
    rw [hserve, hres, decide_eq_true hfull]
    rfl
  have hbar : (s.setEngine core eng ((s.engine core eng).servedBar bid)).bar core u = s.bar core u :=
    State.bar_of_standing (State.standing_setEngine ..) core u
  rw [← hbar]
  unfold opBarrierArrival
  dsimp only
  rw [hat]
  dsimp only
  rw [if_pos hgoes]
  rfl

/-- Settles O23: a BAR issues its use or reads its ticket, and the last arrival of a MASK completes its round. -/
theorem barrierInstructions : Obligations.BarrierInstructions := by
  unfold Obligations.BarrierInstructions
  constructor
  · intro c w s u m k x ctx bid inst first unit ticket word
    refine ⟨fun hw h => ?_, fun hw h => ?_, fun hw h => ?_⟩
    · refine State.issueBar_ready hw h fun t hread => ?_
      obtain ⟨hinst, hnext, hmask, hbarAt⟩ := hread.barIssue (bid := bid)
      refine ⟨hnext, hmask, hbarAt, ?_⟩
      dsimp only
      rw [show (t.barIssue (s.at c) (barBid w) u).2 = (inst, unit) from hinst]
      exact State.cell_setCell_self ..
    · refine State.issueBar_ready hw h fun t hread => ?_
      obtain ⟨hinst, hnext, hmask, hbarAt⟩ := hread.barIssue (bid := bid)
      refine ⟨hnext, State.cell_setCell_self .., ?_, fun hsd => ?_⟩
      · dsimp only
        rw [show (t.barIssue (s.at c) (barBid w) u).2 = (inst, unit) from hinst]
        rw [show k = (s.at c).key from rfl, State.flight_setFlight_self]
        exact List.mem_append_right _ List.mem_cons_self
      · dsimp only
        rw [show k = (s.at c).key from rfl, State.flight_setFlight_self]
        dsimp only
        rw [if_neg hsd]
        exact testBit_setBit ..
    · refine State.issueBar_ready hw h fun t hread => ?_
      dsimp only
      rw [hread.lost, hread.complete, show ((s.at c).cell.s (barSa w)).fld 0 32 = ticket from rfl]
      by_cases hlost : ticket ∈ (s.bar c.core u).lost
      · have hlost' : (s.bar c.core u).lost.contains ticket = true := List.contains_iff_mem.mpr hlost
        rw [if_pos hlost, if_pos hlost']
        exact ⟨(congrArg BarUnit.mask (State.bar_of_standing (t.standing_trapCell c 4 0 x.pc) c.core u)).trans hread.mask,
          State.cellTrapped_trapCell hread.engine ..⟩
      · have hlost' : ¬ (s.bar c.core u).lost.contains ticket = true := mt List.contains_iff_mem.mp hlost
        rw [if_neg hlost, if_neg hlost']
        by_cases hdone : (s.bar c.core u).complete ticket = true
        · rw [if_pos hdone, if_pos hdone]
          exact ⟨hread.mask, State.cell_setCell_self ..⟩
        · rw [if_neg hdone, if_neg hdone]
          exact ⟨hread.mask, State.cell_setCell_self ..⟩
  · intro core eng bid u m s e inst hat hserve hres hkeys hissued
    have hfull : inst < s.barFull core e bid := State.lt_barFull hkeys hissued
    refine ⟨_, congrArg Host.Outcome.next (opBarrierArrival_ready hat hserve hres hfull), ?_, fun hm heng hrounds hstalled => ?_⟩
    · rw [State.barDrain_barServed, State.engine_of_cellSide (State.setBar_cellSide ..), State.engine_setEngine, if_pos ⟨rfl, rfl⟩]
      exact (SMap.at_put e.barServed 0 bid bid (inst + 1)).trans (if_pos rfl)
    · have hone : ((s.bar core u).stall m e.ctx (eng, bid, inst)).stalled = [(eng, bid, inst)] := by rw [BarUnit.stall, hstalled]; rfl
      rw [State.barDrain_bar, State.bar_setBar, Nat.mod_add_mod, hone]
      exact BarUnit.drain_alone hm hrounds hone

end Sys2Proof.Machine
end

section
/-! SUPPORT. Atomics (05 R142 to R144, R151; 07 R221, R224): what goes out, what is performed at an aligned word of stack memory, and what waits on a line. -/

namespace Sys2Proof.Machine

/-! ## The access that goes out (05 R142 to R144) -/

section
variable {s : State} {c : CellRef} {va n : Nat} {p : Place}

/-- An atomic at an address that translates goes out, or traps with PROTECTION where its place forbids it. -/
theorem State.atomicIssue_ok (hal : va % n = 0) (hx : s.xlAccess c.core (s.engine c.core c.eng).ctx va n .atomic = .ok p) (sd : Nat) (kind : LoadKind)
    (tag : Nat) (acq rel stores allowHost allowArena : Bool) :
    s.atomicIssue (s.at c) sd kind va n tag acq rel stores allowHost allowArena
      = if ((p.isArena && !(allowArena && s.arenaAt va p)) || (stores && s.codeHit (s.engine c.core c.eng).ctx va n) || (p.isHost && !allowHost)) = true
        then (s.sought c va n .atomic).trapCell c 6 0 (s.cellAt c).pc
        else (s.sought c va n .atomic).issueAccess (s.at c) sd kind va p n tag acq rel := by
  rw [State.atomicIssue, if_neg (not_not_intro hal), State.withPlace_ok hx]
  rfl

/-- It goes out where nothing forbids it and fewer than 8 are outstanding. -/
theorem State.atomicIssue_out (hal : va % n = 0) (hx : s.xlAccess c.core (s.engine c.core c.eng).ctx va n .atomic = .ok p) (hroom : (s.flightAt c).loads.length < 8)
    {stores allowHost allowArena : Bool} (harena : p.isArena = true → allowArena = true ∧ s.arenaAt va p = true)
    (hcode : stores = true → s.codeHit (s.engine c.core c.eng).ctx va n = false) (hhost : p.isHost = true → allowHost = true)
    (sd : Nat) (kind : LoadKind) (tag : Nat) (acq rel : Bool) :
    accessOut s (s.atomicIssue (s.at c) sd kind va n tag acq rel stores allowHost allowArena) c sd kind va p n tag acq rel := by
  have hgoes : ((p.isArena && !(allowArena && s.arenaAt va p)) || (stores && s.codeHit (s.engine c.core c.eng).ctx va n) || (p.isHost && !allowHost)) = false := by
    simp only [Bool.or_eq_false_iff, Bool.and_eq_false_imp, Bool.not_eq_false', Bool.and_eq_true]
    exact ⟨⟨harena, hcode⟩, hhost⟩
  rw [State.atomicIssue_ok hal hx, hgoes, if_neg Bool.false_ne_true]
  exact State.issueAccess_out (State.mem_of_cellSide (State.sought_cellSide ..)) hroom ..

/-- One that may not go to host memory traps there with PROTECTION. -/
theorem State.atomicIssue_host (hal : va % n = 0) (hx : s.xlAccess c.core (s.engine c.core c.eng).ctx va n .atomic = .ok p) (hhost : p.isHost = true)
    (sd : Nat) (kind : LoadKind) (tag : Nat) (acq rel stores allowArena : Bool) :
    s.cellTrapped (s.atomicIssue (s.at c) sd kind va n tag acq rel stores false allowArena) c 6 0 (s.cellAt c).pc := by
  rw [State.atomicIssue_ok hal hx, if_pos (by rw [hhost]; simp)]
  exact State.cellTrapped_trapCell (State.engine_of_cellSide (State.sought_cellSide ..)) ..

/-- An unaligned one traps with ILLEGAL_INSTR. -/
theorem State.atomicIssue_unaligned (hal : va % n ≠ 0) (sd : Nat) (kind : LoadKind) (tag : Nat) (acq rel stores allowHost allowArena : Bool) :
    s.cellTrapped (s.atomicIssue (s.at c) sd kind va n tag acq rel stores allowHost allowArena) c 5 0 (s.cellAt c).pc := by
  rw [State.atomicIssue, if_pos hal]
  exact State.cellTrapped_self ..

end

/-- FSIG's signal goes out to its word, or traps (05 R151). -/
theorem opFsig_ready {s : State} {c : CellRef} {w : Word} (hop : opOf w = 0x1B) (hz52 : zeroFld w 52 6 = true) (hz0 : zeroFld w 0 36 = true)
    (h : s.canIssue c [saOf w, sbOf w]) :
    let va := ((s.cellAt c).s (saOf w)).toNat
    let v := (s.cellAt c).s (sbOf w)
    let ctx := (s.engine c.core c.eng).ctx
    opFsig c w s = if va % 8 ≠ 0 ∨ v.bit 63 = true then s.trapCell c 5 0 (s.cellAt c).pc
      else s.withPlace (s.at c) va 8 .atomic fun t p =>
        if p.isArena || s.inRelief c.core ctx va .atomic || s.codeHit ctx va 8 then t.trapCell c 6 0 (s.cellAt c).pc
        else t.issueAccess (s.at c) 0 (.fsig v.toNat) va p 8 (w.fld 36 4) false false :=
  State.issue_ready (by simp [hop]) h (by simp [hz52, hz0])

/-! ## Outstanding accesses -/

theorem Flight.id_of_access {f : Flight} {i : Nat} {e : LoadEntry} (h : f.access i = some e) : e.id = i := by
  unfold Flight.access at h
  simpa using List.find?_some h

@[simp] theorem Flight.access_setAccess_none (f : Flight) (i : Nat) : (f.setAccess i none).access i = none := by
  refine List.find?_eq_none.mpr fun y hy => ?_
  have hid : (y.id != i) = true := (List.mem_filter.mp hy).2
  simpa using hid

theorem Flight.access_setAccess_some {f : Flight} {i : Nat} {e x : LoadEntry} (h : f.access i = some e) (hx : x.id = i) : (f.setAccess i (some x)).access i = some x := by
  unfold Flight.access Flight.setAccess
  dsimp only
  unfold Flight.access at h
  generalize f.loads = l at h ⊢
  induction l with
  | nil => exact absurd h (by simp)
  | cons y l ih =>
    by_cases hy : y.id = i
    · simp [hy, hx]
    · simp only [List.map_cons, hy, if_false, List.find?_cons, beq_eq_false_iff_ne.mpr hy] at h ⊢
      exact ih h

/-! ## The step at the word (07 R221, R224) -/

/-- An atomic is an AMO, CAS or FSIG. -/
theorem LoadEntry.atomicDue_of {e : LoadEntry} (hkind : e.kind ≠ .lr ∧ (∀ b, e.kind ≠ .ld b) ∧ ∀ b, e.kind ≠ .sc b) (hdone : e.done = none) (hfailed : e.failed = 0)
    (harena : e.place.isArena = false) : e.atomicDue = true := by
  obtain ⟨hlr, hld, hsc⟩ := hkind
  unfold LoadEntry.atomicDue
  rw [hdone, hfailed, harena]
  cases hk : e.kind with
  | ld b => exact absurd hk (hld b)
  | lr => exact absurd hk hlr
  | sc b => exact absurd hk (hsc b)
  | amo fn b => rfl
  | cas a b => rfl
  | fsig v => rfl

section
variable {s : State} {c : CellRef} {i a : Nat} {e : LoadEntry} {h : HostAnswer}

/-- What an atomic makes of the word at its home, before it is reported. -/
def State.atomicStored (s : State) (a : Nat) (e : LoadEntry) : State :=
  let t := s.recall (a / 64) none
  let r := e.kind.apply e.size (t.mem.dev.readLE a e.size) false
  match r.1 with
  | some v => t.atomicWrite (.stack a) e.size v r.2
  | none => t

/-- The word then holds the new value, or the old one where the atomic writes none. -/
theorem State.readLE_atomicStored (hal : a % e.size = 0) (hsize : e.size = 2 ∨ e.size = 4 ∨ e.size = 8)
    (hp : (s.recall (a / 64) none).mem.homePoison (a / 64) = false) :
    (s.atomicStored a e).mem.dev.readLE a e.size = match (e.kind.apply e.size ((s.recall (a / 64) none).mem.dev.readLE a e.size) false).1 with
      | some v => v % 256 ^ e.size
      | none => (s.recall (a / 64) none).mem.dev.readLE a e.size := by
  have hpos : 0 < e.size := by omega
  have hfits : a % 64 + e.size ≤ 64 := by
    rcases hsize with hn | hn | hn <;> (rw [hn] at hal ⊢; omega)
  unfold State.atomicStored
  dsimp only
  split
  · rw [State.atomicWrite, State.reliefFlag_stack_mem]
    exact State.readLE_homeStore _ hpos hfits (State.recall_dirty? s _) hp
  · rfl

theorem State.atomicReady_stack {p : Place} {n : Nat} (h : HostAnswer) (hplace : p = .stack a) (hp : (s.recall (a / 64) none).mem.homePoison (a / 64) = false) :
    s.atomicReady h p n = some (s.recall (a / 64) none, .ok ((s.recall (a / 64) none).mem.dev.readLE a n)) := by
  simp only [hplace, State.atomicReady, hp, Bool.false_eq_true, if_false]

theorem State.reliefArith_stack {p : Place} (hplace : p = .stack a) (hbank : s.savedBank a = none) : s.reliefArith p = false := by
  rw [hplace, State.reliefArith, hbank]
  rfl

section
variable (he : (s.flightAt c).access i = some e) (hdue : e.atomicDue = true) (hplace : e.place = .stack a) (hbank : s.savedBank a = none)
  (hp : (s.recall (a / 64) none).mem.homePoison (a / 64) = false)
include he hdue hplace hbank hp

/-- An FSIG at a word of stack memory is over with its step (07 R224). -/
theorem State.atomicPerform_fsig {v : Nat} (hk : e.kind = .fsig v) :
    s.atomicPerform c i h = ((s.atomicStored a e).noteSignal ((s.recall (a / 64) none).mem.dev.readLE a e.size) v (s.engine c.core c.eng).ctx 1 e.va).setFlight
      (s.cellKey c) ((s.flightAt c).setAccess i none) := by
  have he' : (s.at c).fl.access i = some e := he
  unfold State.atomicPerform
  dsimp only
  rw [he']
  dsimp only
  rw [if_neg (not_not_intro hdue), State.atomicReady_stack h hplace hp]
  dsimp only
  rw [State.reliefArith_stack hplace hbank, hplace, hk]
  unfold State.atomicStored
  rw [hk]
  rfl

/-- Another atomic there holds the old value (07 R224). -/
theorem State.atomicPerform_old (hk : ∀ v, e.kind ≠ .fsig v) :
    s.atomicPerform c i h = (s.atomicStored a e).setFlight (s.cellKey c)
      ((s.flightAt c).setAccess i (some { e with done := some ((s.recall (a / 64) none).mem.dev.readLE a e.size) })) := by
  have he' : (s.at c).fl.access i = some e := he
  unfold State.atomicPerform
  dsimp only
  rw [he']
  dsimp only
  rw [if_neg (not_not_intro hdue), State.atomicReady_stack h hplace hp]
  dsimp only
  rw [State.reliefArith_stack hplace hbank, hplace]
  unfold State.atomicStored
  split
  · next v hv => exact absurd hv (hk v)
  · rfl

end

@[simp] theorem State.countDelay_cellSide (s : State) (line : Nat) : (s.countDelay line).cellSide = s.cellSide := by
  refine foldl_keeps (P := fun t : State => t.cellSide = s.cellSide) (fun t x ht => ?_) rfl _
  split
  · split
    · exact (State.bumpCore_cellSide ..).trans ht
    · exact ht
  · exact ht

/-- A transaction that waits on a line without others is the line's only one (07 R221). -/
theorem State.defer_unblocked {line : Nat} {r : LineReq} (h : s.mem.blocked line = false) :
    (s.defer line r).mem.queue line = [r] ∧ (s.defer line r).mem.dev = s.mem.dev ∧ (s.defer line r).flights = s.flights := by
  have hq : s.mem.queue line = [] := by
    have hempty : (s.mem.queue line).isEmpty = true := Bool.not_eq_false' .. ▸ h
    exact List.isEmpty_iff.mp hempty
  have hside := s.countDelay_cellSide line
  have hdefer : s.defer line r = { s.countDelay line with mem := (s.countDelay line).mem.setQueue line [r] } := by
    unfold State.defer
    dsimp only
    rw [hq, h, if_neg (by simp)]
    rfl
  rw [hdefer]
  generalize s.countDelay line = u at hside
  have hdev : u.mem.dev = s.mem.dev := congrArg MemSys.dev (State.mem_of_cellSide hside)
  have hflights : u.flights = s.flights := State.flights_of_cellSide hside
  exact ⟨(SMap.at_put u.mem.lineQ [] line line [r]).trans (if_pos rfl), hdev, hflights⟩

end

end Sys2Proof.Machine
end

section
/-! Atomics: the obligation, from the rules above. -/

namespace Sys2Proof.Machine

/-- ATOMIC_AT_HOME of an access whose cell and order let it go. -/
theorem opAtomicAtHome_stack {s : State} {c : CellRef} {i a : Nat} {e : LoadEntry} {h : HostAnswer} (hworks : s.cellWorks c = true)
    (he : (s.flightAt c).access i = some e) (hdue : e.atomicDue = true) (hplace : e.place = .stack a) (hmay : s.mayPerform c.core (s.cellKey c) e.acc = true) :
    opAtomicAtHome c i h s = if s.mem.free (a / 64) then s.atomicPerform c i h else s.defer (a / 64) (.atomic c i) := by
  have he' : (s.at c).fl.access i = some e := he
  have hmay' : s.mayPerform c.core (s.at c).key e.acc = true := hmay
  simp only [opAtomicAtHome, he', hworks, hdue, hmay', hplace, Bool.and_self, not_true, if_false]

/-- Settles O19: each goes out or traps as its address says, and one at home leaves its value in one step. -/
theorem atomics : Obligations.Atomics := by
  unfold Obligations.Atomics
  constructor
  · intro c w s k x n va ctx b room plain fence
    refine ⟨fun hop hl h => ⟨fun p ⟨hx, hal, hroom⟩ harena hcode => ?_, fun hal => ?_⟩, fun hop hl h p ⟨hx, hal, hroom⟩ harena hcode => ?_,
      fun hop hl h p ⟨hx, hal, hroom⟩ harena => ?_, fun hop hl h p ⟨hx, hal, hroom⟩ harena hcode => ?_, fun hop hz52 hz0 h => ⟨fun p hal hsat hx harena hrel hcode hroom => ?_, fun hbad => ?_⟩⟩
    · refine ⟨_, congrArg Host.Outcome.next (State.issue_ready (by simp [hop]) h hl), State.atomicIssue_out hal hx hroom (fun ha => ?_) (fun _ => hcode) (fun _ => rfl) ..⟩
      obtain ⟨hfn, hn, hat⟩ := harena ha
      exact ⟨by rw [hfn, show mSize w = 8 from hn]; rfl, hat⟩
    · exact ⟨_, congrArg Host.Outcome.next (State.issue_ready (by simp [hop]) h hl), State.atomicIssue_unaligned hal ..⟩
    · exact ⟨_, congrArg Host.Outcome.next (State.issue_ready (by simp [hop]) h hl),
        State.atomicIssue_out hal hx hroom (fun ha => absurd (harena.symm.trans ha) Bool.false_ne_true) (fun _ => hcode) (fun _ => rfl) ..⟩
    · refine ⟨_, congrArg Host.Outcome.next (State.issue_ready (by simp [hop]) h hl), ?_⟩
      split
      · next hhost => exact State.atomicIssue_host hal hx hhost ..
      · next hhost =>
        exact State.atomicIssue_out hal hx hroom (fun ha => absurd (harena.symm.trans ha) Bool.false_ne_true) (fun hf => absurd hf Bool.false_ne_true)
          (fun hh => absurd hh hhost) ..
    · refine ⟨_, congrArg Host.Outcome.next (State.issue_ready (by simp [hop]) h hl), ?_⟩
      split
      · next hhost => exact State.atomicIssue_host hal hx hhost ..
      · next hhost =>
        exact State.atomicIssue_out hal hx hroom (fun ha => absurd (harena.symm.trans ha) Bool.false_ne_true) (fun _ => hcode) (fun hh => absurd hh hhost) ..
    · have hgood : ¬ (fence % 8 ≠ 0 ∨ (x.s (sbOf w)).bit 63 = true) := by simp [hal, hsat]
      refine ⟨_, congrArg Host.Outcome.next ((opFsig_ready hop hz52 hz0 h).trans ((if_neg hgood).trans (State.withPlace_ok hx))), ?_⟩
      rw [harena, show s.inRelief c.core (s.engine c.core c.eng).ctx ((s.cellAt c).s (saOf w)).toNat .atomic = false from hrel,
        show s.codeHit (s.engine c.core c.eng).ctx ((s.cellAt c).s (saOf w)).toNat 8 = false from hcode]
      exact State.issueAccess_out (State.mem_of_cellSide (State.sought_cellSide ..)) hroom ..
    · exact ⟨_, congrArg Host.Outcome.next ((opFsig_ready hop hz52 hz0 h).trans (if_pos hbad)), State.cellTrapped_self ..⟩
  · intro c i h s e a k hworks he hkind hdone hfailed hplace hal hsize hmay
    have hdue : e.atomicDue = true := LoadEntry.atomicDue_of hkind hdone hfailed (by rw [hplace]; rfl)
    refine ⟨fun hfree hp hbank => ?_, fun hfree hblocked => ?_⟩
    · obtain ⟨hlr, hld, hsc⟩ := hkind
      have hread := State.readLE_atomicStored (s := s) hal hsize hp
      have hgoes : opAtomicAtHome c i h s = s.atomicPerform c i h := (opAtomicAtHome_stack hworks he hdue hplace hmay).trans (if_pos hfree)
      have hid : e.id = i := Flight.id_of_access he
      have hold : (∀ v, e.kind ≠ .fsig v) → ∃ t : State, opAtomicAtHome c i h s = t ∧ t.mem = (s.atomicStored a e).mem
          ∧ (t.flight k).access i = some { e with done := some ((s.recall (a / 64) none).mem.dev.readLE a e.size) } := fun hk => by
        refine ⟨_, hgoes.trans (State.atomicPerform_old he hdue hplace hbank hp hk), rfl, ?_⟩
        show (State.flight (State.setFlight _ _ _) _).access i = _
        rw [State.flight_setFlight_self]
        exact Flight.access_setAccess_some he hid
      cases hk : e.kind with
      | fsig v =>
        refine ⟨_, _, congrArg (fun t => Host.Outcome.next (State.settleAccess t)) (hgoes.trans (State.atomicPerform_fsig he hdue hplace hbank hp hk)), rfl, ?_, ?_⟩
        · rw [hk] at hread
          rw [State.setFlight_mem, State.noteSignal_mem]
          exact hread
        · show (State.flight (State.setFlight _ _ _) _).access i = none
          rw [State.flight_setFlight_self]
          exact Flight.access_setAccess_none ..
      | amo fn b =>
        obtain ⟨t, hop, hmem, haccess⟩ := hold (by rw [hk]; exact fun v => LoadKind.noConfusion)
        rw [hk] at hread haccess
        exact ⟨t, _, congrArg (fun t => Host.Outcome.next (State.settleAccess t)) hop, rfl, (congrArg (fun m : MemSys => m.dev.readLE a e.size) hmem).trans hread, haccess⟩
      | cas old new =>
        obtain ⟨t, hop, hmem, haccess⟩ := hold (by rw [hk]; exact fun v => LoadKind.noConfusion)
        rw [hk] at hread haccess
        exact ⟨t, _, congrArg (fun t => Host.Outcome.next (State.settleAccess t)) hop, rfl, (congrArg (fun m : MemSys => m.dev.readLE a e.size) hmem).trans hread, haccess⟩
      | lr => exact absurd hk hlr
      | ld b => exact absurd hk (hld b)
      | sc b => exact absurd hk (hsc b)
    · have hdefer := (opAtomicAtHome_stack (h := h) hworks he hdue hplace hmay).trans (if_neg (Bool.not_eq_true _ ▸ hfree))
      exact ⟨_, congrArg (fun t => Host.Outcome.next (State.settleAccess t)) hdefer, State.defer_unblocked hblocked⟩

end Sys2Proof.Machine
end

section
/-! SUPPORT. Bytes of a line (07 R204, R208): masks and data of a place in a granule, merged lines, and a line as a core's cells read it. -/

namespace Sys2Proof.Machine

/-! ## Bytes of numbers -/

/-- The number of its own bytes. -/
theorem ofBytes_digits (n x : Nat) : ofBytes ((List.range n).map fun i => BitVec.ofNat 8 (x / 256 ^ i)) = x % 256 ^ n := by
  induction n generalizing x with
  | zero => simp [ofBytes, Nat.mod_one]
  | succ n ih =>
    have hrest : ((List.range n).map Nat.succ).map (fun i => BitVec.ofNat 8 (x / 256 ^ i)) = (List.range n).map fun i => BitVec.ofNat 8 (x / 256 / 256 ^ i) := by
      rw [List.map_map]
      refine List.map_congr_left fun i _ => ?_
      rw [Function.comp_apply, Nat.div_div_eq_div_mul, Nat.pow_succ']
    rw [List.range_succ_eq_map, List.map_cons, hrest, ofBytes, ih, Nat.pow_zero, Nat.div_one, BitVec.toNat_ofNat, Nat.pow_succ' (m := 256), Nat.mod_mul (a := 256)]

/-- Numbers whose bytes agree agree. -/
theorem mod_eq_of_bytes {n x y : Nat} (h : ∀ i, i < n → x / 256 ^ i % 256 = y / 256 ^ i % 256) : x % 256 ^ n = y % 256 ^ n := by
  rw [← ofBytes_digits, ← ofBytes_digits]
  refine congrArg ofBytes (List.map_congr_left fun i hi => BitVec.eq_of_toNat_eq ?_)
  rw [BitVec.toNat_ofNat, BitVec.toNat_ofNat]
  exact h i (List.mem_range.mp hi)

/-! ## A place in a granule -/

/-- The mask of `n` bytes at an offset. -/
theorem testBit_byteMask (n o i : Nat) : ((2 ^ n - 1) * 2 ^ o).testBit i = decide (o ≤ i ∧ i < o + n) := by
  rw [Nat.testBit_mul_two_pow, Nat.testBit_two_pow_sub_one, ← Bool.decide_and]
  exact decide_eq_decide.mpr (by omega)

/-- The bytes of a value at an offset of a granule. -/
theorem granule_byte (v : Nat) {o i : Nat} (h : o + i < 64) : (BitVec.ofNat 512 (v * 256 ^ o)).toNat / 256 ^ (o + i) % 256 = v / 256 ^ i % 256 := by
  have hbyte : (BitVec.ofNat 512 (v * 256 ^ o)).toNat / 256 ^ (o + i) % 256 = v * 256 ^ o / 256 ^ (o + i) % 256 := ofNat_byte _ (by omega)
  rw [hbyte, Nat.pow_add, ← Nat.div_div_eq_div_mul, Nat.mul_div_cancel _ (Nat.pow_pos (by decide))]

/-- A merged line has the new bytes where the mask is set, and the old ones elsewhere. -/
theorem mergeLine_byte (old new : Line) (mask : Nat) {i : Nat} (hi : i < 64) :
    (mergeLine old new mask).toNat / 256 ^ i % 256 = (if mask.testBit i then new.toNat else old.toNat) / 256 ^ i % 256 := by
  have hdigit := sum_digits_digit (B := 256) (fun i => (if mask.testBit i then new.toNat else old.toNat) / 256 ^ i % 256) (fun i => Nat.mod_lt _ (by decide)) 64 i hi
  have hbyte : ∀ x, (BitVec.ofNat 512 x).toNat / 256 ^ i % 256 = x / 256 ^ i % 256 := fun x => ofNat_byte x (by omega)
  rw [mergeLine, hbyte]
  exact hdigit

/-- A value merged into a line is read back at its place. -/
theorem mergeLine_value (old : Line) (v : Nat) {n o : Nat} (h : o + n ≤ 64) :
    (mergeLine old (BitVec.ofNat 512 (v * 256 ^ o)) ((2 ^ n - 1) * 2 ^ o)).toNat / 256 ^ o % 256 ^ n = v % 256 ^ n := by
  refine mod_eq_of_bytes fun i hi => ?_
  rw [Nat.div_div_eq_div_mul, ← Nat.pow_add, mergeLine_byte _ _ _ (by omega), testBit_byteMask, decide_eq_true (by omega), if_pos rfl]
  exact granule_byte v (by omega)

/-! ## A line in the core cache (07 R208) -/

section
variable {s : State} {core a n : Nat} {l : CacheLine}

theorem State.byteAt_line (hl : s.mem.cline? core (a / 64) = some l) {j : Nat} (hj : a % 64 + j < 64) :
    s.byteAt core ((Place.stack a).add j) = BitVec.ofNat 8 (l.data.toNat / 256 ^ (a % 64) / 256 ^ j) := by
  have hline : (a + j) / 64 = a / 64 := by omega
  have hoff : (a + j) % 64 = a % 64 + j := by omega
  rw [Place.add, State.byteAt, MemSys.coreLine, hline, hl, hoff, Nat.div_div_eq_div_mul, Nat.pow_add]

theorem State.poisonAt_line (hl : s.mem.cline? core (a / 64) = some l) (hp : l.poison = false) {j : Nat} (hj : a % 64 + j < 64) :
    s.poisonAt core ((Place.stack a).add j) = none := by
  have hline : (a + j) / 64 = a / 64 := by omega
  rw [Place.add, State.poisonAt, MemSys.coreLine, hline, hl]
  exact if_neg (by simp [hp])

theorem State.ensure_line (hl : s.mem.cline? core (a / 64) = some l) (hst : l.st ≠ .pending) (na : Bool) (h : HostAnswer) {j : Nat} (hj : a % 64 + j < 64) :
    s.ensure core na h ((Place.stack a).add j).granule.1 = some s := by
  have hline : (a + j) / 64 * 64 / 64 = a / 64 := by omega
  rw [Place.add, Place.granule, State.ensure]
  rw [hline, hl, if_pos (by simpa using hst)]

/-- The bytes of a line make the value at their place. -/
theorem State.ofBytes_line (hl : s.mem.cline? core (a / 64) = some l) (h : a % 64 + n ≤ 64) :
    ofBytes ((List.range n).map fun j => s.byteAt core ((Place.stack a).add j)) = l.data.toNat / 256 ^ (a % 64) % 256 ^ n := by
  rw [← ofBytes_digits]
  refine congrArg ofBytes (List.map_congr_left fun j hj => State.byteAt_line hl ?_)
  have := List.mem_range.mp hj
  omega

/-- Granules at hand stay at hand together. -/
theorem State.ensureAll_same {na : Bool} {h : HostAnswer} {gs : List Place} (hgs : ∀ g ∈ gs, s.ensure core na h g = some s) :
    s.ensureAll core na h gs = some s := by
  induction gs with
  | nil => rfl
  | cons g gs ih =>
    rw [State.ensureAll, hgs g List.mem_cons_self]
    exact ih fun g' hg' => hgs g' (List.mem_cons_of_mem g hg')

end

end Sys2Proof.Machine
end

section
/-! SUPPORT. Accesses that return (05 R132, R144, R145; 07 R208): what each form of return leaves. -/

namespace Sys2Proof.Machine

section
variable {s : State} {c : CellRef} {i : Nat} {e : LoadEntry} {h : HostAnswer}

/-! ## The register and the outstanding access -/

/-- An access that returns has its value in its register and is no longer outstanding. -/
theorem State.accessDone_cell (s : State) (k i sd : Nat) (v : Word) : (s.accessDone k i sd v).cell k = (s.cell k).setS sd v := State.cell_setCell_self ..

theorem State.accessDone_flight (s : State) (k i sd : Nat) (v : Word) :
    (s.accessDone k i sd v).flight k = { (s.flight k).setAccess i none with busy := clearBit (s.flight k).busy sd } := State.flight_setFlight_self ..

theorem State.accessDone_access (s : State) (k i sd : Nat) (v : Word) : ((s.accessDone k i sd v).flight k).access i = none := by
  rw [State.accessDone_flight]
  exact Flight.access_setAccess_none ..

theorem State.accessDone_s (s : State) (k i sd : Nat) (v : Word) (r : Nat) :
    ((s.accessDone k i sd v).cell k).s r = if r = sd then (if sd = 0 then 0 else v) else (s.cell k).s r := by
  rw [State.accessDone_cell]
  exact Cell.s_setS ..

@[simp] theorem Cell.setS_resv (x : Cell) (r : Nat) (v : Word) : (x.setS r v).resv = x.resv := by
  unfold Cell.setS
  split <;> rfl

theorem State.accessDone_resv (s : State) (k i sd : Nat) (v : Word) : ((s.accessDone k i sd v).cell k).resv = (s.cell k).resv := by
  rw [State.accessDone_cell, Cell.setS_resv]

theorem State.accessDone_kept (s : State) (k i sd : Nat) (v : Word) : s.keptButFlight (s.accessDone k i sd v) k := by
  refine ⟨rfl, fun j hj => ?_, fun j hj => ?_⟩
  · exact (State.cell_setCell ..).trans (if_neg hj)
  · exact (State.flight_setFlight ..).trans (if_neg hj)

/-- A failed access traps its cell and leaves the registers. -/
theorem State.accessFail_trapped (s : State) (c : CellRef) (i sd pc code : Nat) :
    s.cellTrapped (s.accessFail c i sd pc code) c code 0 pc ∧ ∀ r, ((s.accessFail c i sd pc code).cell (s.cellKey c)).s r = (s.cell (s.cellKey c)).s r := by
  have hengine : ∀ f, (s.setFlight (s.cellKey c) f).engine = s.engine := fun f => State.engine_of_control (State.setFlight_control ..)
  refine ⟨State.cellTrapped_trapCell (hengine _) .., fun r => State.sregs_of_standing ?_ ..⟩
  exact (State.standing_trapCell ..).trans (State.standing_setFlight s _ (by rfl))

/-- A reservation that is dropped leaves stack memory and the caches, and what its cell has in flight. -/
theorem State.dropResv_kept (s : State) (k : Nat) :
    (s.dropResv k).mem.dev = s.mem.dev ∧ (s.dropResv k).mem.caches = s.mem.caches ∧ (s.dropResv k).flights = s.flights ∧ ((s.dropResv k).cell k).resv = none := by
  unfold State.dropResv
  dsimp only
  refine ⟨?_, ?_, ?_, ?_⟩
  · split <;> rfl
  · split <;> rfl
  · split <;> rfl
  · rw [State.cell_setCell_self]

/-! ## The forms of return -/

/-- An access performed at its home returns its value. -/
theorem opMemoryAccessReturn_done {v : Nat} (hworks : s.cellWorks c = true) (he : (s.flightAt c).access i = some e) (hfailed : e.failed = 0) (hdone : e.done = some v) :
    opMemoryAccessReturn c i h s = s.accessDone (s.cellKey c) i e.sd (Word.ofNat v) := by
  have he' : (s.at c).fl.access i = some e := he
  unfold opMemoryAccessReturn
  dsimp only
  rw [he']
  dsimp only
  rw [if_neg (not_not_intro hworks), if_neg (not_not_intro hfailed), hdone]
  rfl

theorem opMemoryAccessReturn_failed (hworks : s.cellWorks c = true) (he : (s.flightAt c).access i = some e) (hfailed : e.failed ≠ 0) :
    opMemoryAccessReturn c i h s = s.accessFail c i e.sd e.pc e.failed := by
  have he' : (s.at c).fl.access i = some e := he
  unfold opMemoryAccessReturn
  dsimp only
  rw [he']
  dsimp only
  rw [if_neg (not_not_intro hworks), if_pos hfailed]

/-- One that is performed by the cell itself is so by its kind. -/
theorem opMemoryAccessReturn_own (hworks : s.cellWorks c = true) (he : (s.flightAt c).access i = some e) (hfailed : e.failed = 0) (hdone : e.done = none)
    (harena : e.place.isArena = false) (hmay : s.mayPerform c.core (s.cellKey c) e.acc = true) :
    opMemoryAccessReturn c i h s = match e.kind with
      | .ld sx => s.loadReturn c (s.at c) e sx h
      | .lr => match s.reserveReady c.core e.place with
        | none => s
        | some t => match t.poisonAt c.core e.place with
          | some code => (t.consumeAt c.core (s.engine c.core c.eng).ctx e.place).accessFail c i e.sd e.pc code
          | none => (t.reserve (s.cellKey c) e.place).accessDone (s.cellKey c) i e.sd
              (Word.ofNat (ofBytes ((List.range e.size).map fun j => t.byteAt c.core (e.place.add j))))
      | .sc new => s.scReturn c (s.at c) e new
      | _ => s := by
  have he' : (s.at c).fl.access i = some e := he
  have hgoes : ¬ (e.place.isArena = true ∨ ¬ s.mayPerform c.core (s.cellKey c) e.acc = true) := by rw [harena, hmay]; simp
  unfold opMemoryAccessReturn
  dsimp only
  rw [he']
  dsimp only
  rw [if_neg (not_not_intro hworks), if_neg (not_not_intro hfailed), hdone]
  exact if_neg hgoes

/-! ## A line in the core cache -/

section
variable {a : Nat} {l : CacheLine} (hplace : e.place = .stack a) (hfits : a % 64 + e.size ≤ 64) (hl : s.mem.cline? c.core (a / 64) = some l)
include hplace hfits hl

omit hl in
/-- Every byte of an access inside 8 aligned bytes lies beside its first. -/
theorem State.bytePlace_near (hva : e.va % 8 + e.size ≤ 8) (ctx : Nat) :
    ((List.range e.size).map fun j => s.bytePlace c.core ctx e.va e.place .read (0 + j)) = (List.range e.size).map fun j => (Place.stack a).add j := by
  refine List.map_congr_left fun j hj => ?_
  have hlt := List.mem_range.mp hj
  rw [State.bytePlace, if_pos (by omega), hplace, Nat.zero_add]

/-- A load of one piece, from a line that is held and has no poison, returns the line's bytes. -/
theorem State.loadReturn_line (hst : l.st ≠ .pending) (hp : l.poison = false) (hgot : e.got = []) (hva : e.va % 8 + e.size ≤ 8)
    (hbuf : (s.flightAt c).stbuf = []) (sx : Bool) :
    s.loadReturn c (s.at c) e sx h = s.accessDone (s.cellKey c) e.id e.sd (extend sx e.size (l.data.toNat / 256 ^ (a % 64) % 256 ^ e.size)) := by
  have hpieces : pieces e.va e.size = [(0, e.size)] := by
    have hmin : min e.size (8 - e.va % 8) = e.size := by omega
    rw [pieces, hmin]
    exact if_pos (Nat.le_refl _)
  have hplaces := State.bytePlace_near (s := s) (c := c) hplace hfits hva (s.at c).eng.ctx
  have hnear : ∀ p ∈ (List.range e.size).map (fun j => (Place.stack a).add j), ∃ j, a % 64 + j < 64 ∧ p = (Place.stack a).add j := by
    intro p hp
    obtain ⟨j, hj, rfl⟩ := List.mem_map.mp hp
    have := List.mem_range.mp hj
    exact ⟨j, by omega, rfl⟩
  have hhand : s.ensureAll c.core false h ((((List.range e.size).map fun j => (Place.stack a).add j).map fun p => p.granule.1).eraseDups) = some s := by
    refine State.ensureAll_same fun g hg => ?_
    obtain ⟨p, hpm, rfl⟩ := List.mem_map.mp (List.mem_eraseDups.mp hg)
    obtain ⟨j, hj, rfl⟩ := hnear p hpm
    exact State.ensure_line hl hst false h hj
  have hpoison : (((List.range e.size).map fun j => (Place.stack a).add j).findSome? fun p => s.poisonAt c.core p) = none := by
    refine List.findSome?_eq_none_iff.mpr fun p hpm => ?_
    obtain ⟨j, hj, rfl⟩ := hnear p hpm
    exact State.poisonAt_line hl hp hj
  have hready : s.piecesReady c (s.at c) e h = [(0, e.size)] := by
    have hgranules : ((List.range e.size).map fun j => (s.bytePlace c.core (s.at c).eng.ctx e.va e.place .read (0 + j)).granule.1)
        = ((List.range e.size).map fun j => (Place.stack a).add j).map fun p => p.granule.1 := by
      rw [← hplaces, List.map_map]
      rfl
    unfold State.piecesReady
    rw [hpieces, hgot, List.filter_cons_of_pos, List.filter_nil]
    dsimp only
    rw [hgranules, hhand]
    rfl
  have hbytes : (((List.range e.size).map fun j => (Place.stack a).add j).map fun p => (((s.at c).fl.buffered e.id p).getD (s.byteAt c.core p)))
      = (List.range e.size).map fun j => s.byteAt c.core ((Place.stack a).add j) := by
    have hnone : ∀ p, (s.at c).fl.buffered e.id p = none := fun p => by
      rw [Flight.buffered, show (s.at c).fl.stbuf = [] from hbuf]
      rfl
    rw [List.map_map]
    refine List.map_congr_left fun j _ => ?_
    rw [Function.comp_apply, hnone]
    rfl
  unfold State.loadReturn
  rw [hready]
  dsimp only
  unfold State.takePiece
  dsimp only
  rw [hplaces, hhand]
  dsimp only
  rw [hpoison]
  dsimp only
  rw [hgot, hpieces, hbytes]
  have hvalue : ofBytes ([(0, e.size)].flatMap fun p =>
      ((([] ++ [((0 : Nat), (List.range e.size).map fun j => s.byteAt c.core ((Place.stack a).add j))]).find? fun (g : Nat × List Byte) => g.1 == p.1).map fun (g : Nat × List Byte) => g.2).getD [])
      = l.data.toNat / 256 ^ (a % 64) % 256 ^ e.size := by
    rw [← State.ofBytes_line hl hfits]
    simp
  rw [hvalue]
  exact if_pos (by simp)

/-- An LR of a line that is held exclusive reserves it and returns its bytes. -/
theorem opMemoryAccessReturn_lr (hworks : s.cellWorks c = true) (he : (s.flightAt c).access i = some e) (hfailed : e.failed = 0) (hdone : e.done = none)
    (hmay : s.mayPerform c.core (s.cellKey c) e.acc = true) (hkind : e.kind = .lr) (hst : l.st = .exclusive ∨ l.st = .modified) (hp : l.poison = false) :
    opMemoryAccessReturn c i h s = (s.reserve (s.cellKey c) (.stack a)).accessDone (s.cellKey c) i e.sd (Word.ofNat (l.data.toNat / 256 ^ (a % 64) % 256 ^ e.size)) := by
  have hready : s.reserveReady c.core (.stack a) = some s := by
    rw [State.reserveReady, hl]
    exact if_pos (by simpa using hst)
  have hpoison : s.poisonAt c.core (.stack a) = none := by
    rw [State.poisonAt, MemSys.coreLine, hl]
    exact if_neg (by simp [hp])
  rw [opMemoryAccessReturn_own hworks he hfailed hdone (by rw [hplace]; rfl) hmay, hkind, hplace]
  dsimp only
  rw [hready]
  dsimp only
  rw [hpoison, State.ofBytes_line hl hfits]

omit hfits in
/-- An SC that holds its reservation on a line that is held exclusive writes its bytes there, and answers 0. -/
theorem State.scReturn_held (new : Nat) (hres : s.reserved (s.cellKey c) e.place = true) (hst : l.st = .exclusive ∨ l.st = .modified) (hp : l.poison = false) :
    ∃ u : State, u.mem.cline? c.core (a / 64) = some { l with
          st := .modified, data := mergeLine l.data (BitVec.ofNat 512 (new * 256 ^ (a % 64))) ((2 ^ e.size - 1) * 2 ^ (a % 64)), early := 0, poison := false }
      ∧ s.scReturn c (s.at c) e new = ((u.dropResv (s.cellKey c)).accessDone (s.cellKey c) e.id e.sd 0).bumpCore c.core (corePage c.core 2) .ccCntRsv Fld.ccCntRsv_scOk 1 := by
  let mask := (2 ^ e.size - 1) * 2 ^ (a % 64)
  let data : Line := BitVec.ofNat 512 (new * 256 ^ (a % 64))
  let l' : CacheLine := { l with st := .modified, data := mergeLine l.data data mask, early := 0, poison := false }
  have hready : s.reserveReady c.core (.stack a) = some s := by
    rw [State.reserveReady, hl]
    exact if_pos (by simpa using hst)
  have hpending : ¬ (l.st = .pending ∧ l.early = 0) := by rcases hst with h1 | h1 <;> simp [h1]
  have hstore : s.coreStore c.core (a / 64) mask data = ({ s with mem := s.mem.setCline c.core (a / 64) l' }, true) := by
    unfold State.coreStore
    rw [hl]
    dsimp only
    rw [if_neg (by simp [hp])]
    rcases hst with h1 | h1 <;> rw [h1]
  have hline : (s.mem.setCline c.core (a / 64) l').cline? c.core (a / 64) = some l' := (MemSys.cline?_setCline ..).trans (if_pos rfl)
  have hput : s.storeAt c.core (s.at c).eng.ctx false none (.stack (a / 64 * 64)) mask data
      = .done (({ s with mem := s.mem.setCline c.core (a / 64) l' } : State).clearResvBut c.core (a / 64) 0x10000) none none := by
    have hsame : a / 64 * 64 / 64 = a / 64 := by omega
    unfold State.storeAt
    dsimp only
    rw [hsame, hl]
    dsimp only
    rw [if_neg hpending, hstore]
    dsimp only
    rw [hline]
    rfl
  refine ⟨({ s with mem := s.mem.setCline c.core (a / 64) l' } : State).clearResvBut c.core (a / 64) 0x10000, hline, ?_⟩
  unfold State.scReturn
  dsimp only
  rw [if_pos (show s.reserved (s.at c).key e.place = true from hres), hplace, hready]
  dsimp only
  rw [show (Place.stack a).granule = (.stack (a / 64 * 64), a % 64) from rfl]
  dsimp only
  rw [hput]
  rfl

end

end

end Sys2Proof.Machine
end

section
/-! SUPPORT. The store buffer (07 R206, R208; 06 R200): what a store that leaves for its Relief bank leaves there. -/

namespace Sys2Proof.Machine

section
variable {s : State} {c : CellRef} {e : StoreEntry} {b off : Nat}

/-- The state in which a buffered store has reached its bank. -/
def State.drainedTo (s : State) (c : CellRef) (e : StoreEntry) (b off : Nat) : State :=
  let x := (s.bank b).clearResv (off / 64 * 64) 64 (some (s.cellKey c))
  (s.setBank b { x with data := x.data.writeMasked (64 * (off / 64)) ((2 ^ e.size - 1) * 2 ^ (off % 64)) (BitVec.ofNat 512 (e.value * 256 ^ (off % 64))).toNat }).setFlight
    (s.cellKey c) { s.flightAt c with stbuf := (s.flightAt c).stbuf.erase e }

/-- A store to a granule that is not poisoned reaches its bank. -/
theorem State.drainStore_bank (hplace : e.place = .bank b off) (hp : (s.bank b).poisoned (off / 64) = false) :
    s.drainStore c (s.at c) e = some (s.drainedTo c e b off) := by
  have hgranule : off / 64 * 64 / 64 = off / 64 := by omega
  have hclean : ((s.bank b).clearResv (off / 64 * 64) 64 (some (s.cellKey c))).poisoned (off / 64) = false := hp
  have htook : (((s.bank b).clearResv (off / 64 * 64) 64 (some (s.cellKey c))).writeGranule (off / 64) ((2 ^ e.size - 1) * 2 ^ (off % 64))
      (BitVec.ofNat 512 (e.value * 256 ^ (off % 64)))).2 = true := by
    obtain ⟨hlost, hpoison⟩ := Bool.or_eq_false_iff.mp hclean
    rw [Bank.writeGranule, hlost, hpoison, if_neg Bool.false_ne_true, if_neg Bool.false_ne_true]
  have hdata := Bank.writeGranule_clean hclean ((2 ^ e.size - 1) * 2 ^ (off % 64)) (BitVec.ofNat 512 (e.value * 256 ^ (off % 64)))
  have hstore : s.storeAt c.core (s.at c).eng.ctx false (some (s.cellKey c)) (.bank b (off / 64 * 64)) ((2 ^ e.size - 1) * 2 ^ (off % 64))
      (BitVec.ofNat 512 (e.value * 256 ^ (off % 64))) = .done (s.setBank b
        { (s.bank b).clearResv (off / 64 * 64) 64 (some (s.cellKey c)) with
          data := ((s.bank b).clearResv (off / 64 * 64) 64 (some (s.cellKey c))).data.writeMasked (64 * (off / 64)) ((2 ^ e.size - 1) * 2 ^ (off % 64))
            (BitVec.ofNat 512 (e.value * 256 ^ (off % 64))).toNat }) none none := by
    unfold State.storeAt
    dsimp only
    rw [hgranule, htook, hdata, if_pos rfl]
  unfold State.drainStore
  dsimp only
  rw [hplace, show (Place.bank b off).granule = (.bank b (off / 64 * 64), off % 64) from rfl]
  dsimp only
  rw [show (s.at c).key = s.cellKey c from rfl, hstore]
  refine congrArg some (congrArg (State.setFlight _ _) ?_)
  show Flight.noteEarly _ e.tag (some (.bank b off, e.size)) [] = _
  rw [Flight.noteEarly, List.map_nil, List.append_nil]
  rfl

/-- Its bytes are in the bank, and every other byte is as it was. -/
theorem State.bankByte_drainedTo (hfits : off % 64 + e.size ≤ 64) (j a : Nat) :
    (s.drainedTo c e b off).bankByte j a = if j = b ∧ off ≤ a ∧ a < off + e.size then BitVec.ofNat 8 (e.value / 256 ^ (a - off)) else s.bankByte j a := by
  have hbank : (s.drainedTo c e b off).bankByte j a = if j = b
      then ((s.bank b).data.writeMasked (64 * (off / 64)) ((2 ^ e.size - 1) * 2 ^ (off % 64)) (BitVec.ofNat 512 (e.value * 256 ^ (off % 64))).toNat).read a
      else s.bankByte j a := by
    show ((State.setBank s b _).bank j).data.read a = _
    rw [State.bank_setBank]
    split <;> rfl
  rw [hbank]
  by_cases hj : j = b
  · rw [if_pos hj, Mem.read_writeMasked, testBit_byteMask, hj]
    by_cases ha : off ≤ a ∧ a < off + e.size
    · have hat : a - 64 * (off / 64) = off % 64 + (a - off) := by omega
      rw [if_pos ⟨by omega, by omega, decide_eq_true (by omega)⟩, if_pos ⟨rfl, ha⟩, hat]
      refine BitVec.eq_of_toNat_eq ?_
      rw [BitVec.toNat_ofNat, BitVec.toNat_ofNat]
      exact granule_byte e.value (by omega)
    · have hout : ¬ (64 * (off / 64) ≤ a ∧ a < 64 * (off / 64) + 64 ∧ decide (off % 64 ≤ a - 64 * (off / 64) ∧ a - 64 * (off / 64) < off % 64 + e.size) = true) := by
        rw [decide_eq_true_eq]
        omega
      rw [if_neg hout, if_neg fun h => ha h.2]
      rfl
  · rw [if_neg hj, if_neg fun h => hj h.1]

/-- The store is read back. -/
theorem State.readLE_drainedTo (hfits : off % 64 + e.size ≤ 64) : ((s.drainedTo c e b off).bank b).data.readLE off e.size = e.value % 256 ^ e.size :=
  Mem.readLE_of_bytes _ _ _ _ fun i hi => by
    have hbyte := State.bankByte_drainedTo (s := s) (c := c) (b := b) hfits b (off + i)
    rw [if_pos ⟨rfl, by omega, by omega⟩, Nat.add_sub_cancel_left] at hbyte
    exact hbyte

end

/-- The states in which one of the stores with an identifier that may leave the buffer has left it. -/
def State.drains (s : State) (c : CellRef) (i : Nat) : List State :=
  ((s.at c).fl.stbuf.filter fun e => e.id == i && s.cellWorks c && s.mayPerform c.core (s.at c).key e.acc).filterMap fun e => s.drainStore c (s.at c) e

/-- A drain lets one of them leave. -/
theorem opStoreBufferDrain_mem {s : State} {c : CellRef} {i : Nat} (h : s.drains c i ≠ []) : ∃ t ∈ s.drains c i, ∃ n, opStoreBufferDrain c i s = t.drew n := by
  unfold opStoreBufferDrain
  unfold State.drains at h ⊢
  dsimp only
  generalize ((s.at c).fl.stbuf.filter fun e => e.id == i && s.cellWorks c && s.mayPerform c.core (s.at c).key e.acc).filterMap
    (fun e => s.drainStore c (s.at c) e) = l at h ⊢
  rcases l with _ | ⟨t, _ | ⟨t', l⟩⟩
  · exact absurd rfl h
  · exact ⟨t, List.mem_cons_self, 0, rfl⟩
  · have hlt : s.draw % (t :: t' :: l).length < (t :: t' :: l).length := Nat.mod_lt _ (List.length_pos_iff.mpr h)
    exact ⟨_, List.getElem_mem hlt, 1, congrArg (fun o : Option State => (o.getD s).drew 1) (List.getElem?_eq_getElem hlt)⟩

/-- Where each store with the identifier can leave, and there is one, one of them does. -/
theorem opStoreBufferDrain_some {s : State} {c : CellRef} {i : Nat} (hworks : s.cellWorks c = true) (hne : ((s.flightAt c).stbuf.filter fun e => e.id == i) ≠ [])
    (hgo : ∀ e ∈ (s.flightAt c).stbuf, e.id = i → s.mayPerform c.core (s.cellKey c) e.acc = true ∧ ∃ t, s.drainStore c (s.at c) e = some t) :
    ∃ e ∈ (s.flightAt c).stbuf, e.id = i ∧ ∃ t n, s.drainStore c (s.at c) e = some t ∧ opStoreBufferDrain c i s = t.drew n := by
  have hdrains : s.drains c i ≠ [] := by
    obtain ⟨e, he⟩ := List.exists_mem_of_ne_nil _ hne
    obtain ⟨hmem, hid⟩ := List.mem_filter.mp he
    obtain ⟨hmay, t, hd⟩ := hgo e hmem (beq_iff_eq.mp hid)
    refine List.ne_nil_of_mem (List.mem_filterMap.mpr ⟨e, List.mem_filter.mpr ⟨hmem, ?_⟩, hd⟩)
    rw [hid, hworks]
    exact hmay
  obtain ⟨t, ht, n, hn⟩ := opStoreBufferDrain_mem hdrains
  obtain ⟨e, he, hd⟩ := List.mem_filterMap.mp ht
  obtain ⟨hmem, hcond⟩ := List.mem_filter.mp he
  simp only [Bool.and_eq_true, beq_iff_eq] at hcond
  obtain ⟨⟨hid, -⟩, -⟩ := hcond
  exact ⟨e, hmem, hid, t, n, hd, hn⟩

/-- Where no unload and no invalidation waits for accesses, an access that is performed changes nothing else. -/
theorem State.settleAccess_idle {s : State} (hinvs : s.pl.atsInvs = []) (hreqs : ∀ e ∈ s.pl.reqs, ∀ r, e.2.apt = some r → r.going = false ∨ r.op ≠ 1) :
    s.settleAccess = s := by
  have hnone : (s.pl.reqs.any fun e => e.2.apt.any fun r => r.going && r.op == 1) = false := by
    refine List.any_eq_false.mpr fun e he => ?_
    cases hr : e.2.apt with
    | none => simp
    | some r =>
      rcases hreqs e he r hr with hg | ho
      · simp [hg]
      · simp [ho]
  rw [State.settleAccess, hinvs, hnone]
  rfl

end Sys2Proof.Machine
end

section
/-! Accesses that return, and stores that drain: the obligation, from the rules above. -/

namespace Sys2Proof.Machine

/-- The failure of a store traps its cell with ECC_UNCORR, and is no longer to return (05 R145). -/
theorem opStorePoisonReturn_some {s : State} {c : CellRef} {pc sd : Nat} (hworks : s.cellWorks c = true) (hf : (s.flightAt c).storeFail = some (pc, sd)) :
    s.cellTrapped (opStorePoisonReturn c s) c 7 0 pc ∧ ((opStorePoisonReturn c s).flight (s.cellKey c)).storeFail = none := by
  have hf' : (s.at c).fl.storeFail = some (pc, sd) := hf
  have hop : opStorePoisonReturn c s = (s.setFlight (s.cellKey c) { s.flightAt c with
      storeFail := none, busy := if sd = 0 then (s.flightAt c).busy else clearBit (s.flightAt c).busy sd }).trapCell c 7 0 pc := by
    unfold opStorePoisonReturn
    dsimp only
    rw [hf']
    dsimp only
    rw [if_pos hworks]
    rfl
  rw [hop]
  refine ⟨State.cellTrapped_trapCell (State.engine_of_control (State.setFlight_control ..)) .., ?_⟩
  rw [State.storeFail_of_standing (State.standing_trapCell ..), State.flight_setFlight_self]

/-- A reservation that is set lies on its granule; stack memory and what its cell has in flight are as before. -/
theorem State.reserve_stack (s : State) (k a : Nat) :
    ((s.reserve k (.stack a)).cell k).resv = some (.stack (a / 64 * 64)) ∧ (s.reserve k (.stack a)).mem.dev = s.mem.dev := by
  obtain ⟨hdev, -, -, -⟩ := s.dropResv_kept k
  have hreserve : s.reserve k (.stack a) = (s.dropResv k).setCell k { (s.dropResv k).cell k with resv := some (.stack (a / 64 * 64)) } := rfl
  rw [hreserve]
  exact ⟨congrArg Cell.resv (State.cell_setCell_self ..), hdev⟩

/-- An SC whose reservation is lost writes nothing, answers 1, and clears the reservation. -/
theorem State.scReturn_lost {s : State} {c : CellRef} {e : LoadEntry} (new : Nat) (h : s.reserved (s.cellKey c) e.place = false) :
    s.scReturn c (s.at c) e new
      = ((s.dropResv (s.cellKey c)).accessDone (s.cellKey c) e.id e.sd 1).bumpCore c.core (corePage c.core 2) .ccCntRsv Fld.ccCntRsv_scFail 1 :=
  if_neg (by rw [show s.reserved (s.at c).key e.place = false from h]; exact Bool.false_ne_true)

/-- Counting in a core's registers leaves its cells and what they have in flight. -/
theorem State.bumpCore_returned {s t : State} {k i sd : Nat} {v : Word} (ht : t.cells = (s.accessDone k i sd v).cells) (hf : t.flights = (s.accessDone k i sd v).flights) :
    (t.cell k).s sd = (if sd = 0 then 0 else v) ∧ (t.flight k).access i = none ∧ (t.cell k).resv = (s.cell k).resv := by
  have hcell : t.cell k = (s.accessDone k i sd v).cell k := congrArg (fun m : SMap Cell => m.at {} k) ht
  have hflight : t.flight k = (s.accessDone k i sd v).flight k := congrArg (fun m : SMap Flight => m.at {} k) hf
  rw [hcell, hflight]
  exact ⟨(State.accessDone_s ..).trans (if_pos rfl), State.accessDone_access .., State.accessDone_resv ..⟩

section
variable {s : State} {c : CellRef} {e : LoadEntry} {a new : Nat} {l : CacheLine}

/-- What an SC whose reservation is lost leaves. -/
theorem State.scReturn_lost_leaves (h : s.reserved (s.cellKey c) e.place = false) :
    let t := s.scReturn c (s.at c) e new
    ((t.cell (s.cellKey c)).s e.sd = (if e.sd = 0 then 0 else 1) ∧ (t.flight (s.cellKey c)).access e.id = none) ∧ (t.cell (s.cellKey c)).resv = none
      ∧ t.mem.dev = s.mem.dev ∧ t.mem.caches = s.mem.caches := by
  obtain ⟨hdev, hcaches, -, hresv⟩ := s.dropResv_kept (s.cellKey c)
  obtain ⟨hreg, haccess, hresv'⟩ := State.bumpCore_returned (s := s.dropResv (s.cellKey c)) (k := s.cellKey c) (i := e.id) (sd := e.sd) (v := 1)
    (State.bumpCore_cells _ c.core (corePage c.core 2) .ccCntRsv Fld.ccCntRsv_scFail 1) (State.bumpCore_flights ..)
  dsimp only
  rw [State.scReturn_lost new h, State.bumpCore_mem]
  exact ⟨⟨hreg, haccess⟩, hresv'.trans hresv, hdev, hcaches⟩

/-- What an SC that holds its reservation leaves. -/
theorem State.scReturn_held_leaves (hplace : e.place = .stack a) (hfits : a % 64 + e.size ≤ 64) (hl : s.mem.cline? c.core (a / 64) = some l)
    (h : s.reserved (s.cellKey c) e.place = true) (hst : l.st = .exclusive ∨ l.st = .modified) (hp : l.poison = false) :
    let t := s.scReturn c (s.at c) e new
    ((t.cell (s.cellKey c)).s e.sd = (if e.sd = 0 then 0 else 0) ∧ (t.flight (s.cellKey c)).access e.id = none) ∧ (t.cell (s.cellKey c)).resv = none
      ∧ ∃ l', t.mem.cline? c.core (a / 64) = some l' ∧ l'.st = .modified ∧ l'.data.toNat / 256 ^ (a % 64) % 256 ^ e.size = new % 256 ^ e.size := by
  obtain ⟨u, hline, hop⟩ := State.scReturn_held hplace hl new h hst hp
  obtain ⟨-, hcaches, -, hresv⟩ := u.dropResv_kept (s.cellKey c)
  obtain ⟨hreg, haccess, hresv'⟩ := State.bumpCore_returned (s := u.dropResv (s.cellKey c)) (k := s.cellKey c) (i := e.id) (sd := e.sd) (v := 0)
    (State.bumpCore_cells _ c.core (corePage c.core 2) .ccCntRsv Fld.ccCntRsv_scOk 1) (State.bumpCore_flights ..)
  have hkept : (u.dropResv (s.cellKey c)).mem.cline? c.core (a / 64) = u.mem.cline? c.core (a / 64) :=
    congrArg (fun m : SMap CacheLine => m.find? (cacheKey c.core (a / 64))) hcaches
  dsimp only
  rw [hop, State.bumpCore_mem]
  exact ⟨⟨hreg, haccess⟩, hresv'.trans hresv, _, hkept.trans hline, rfl, mergeLine_value l.data new hfits⟩

end

/-- A drained store has left the buffer, its bytes are in its bank, and stack memory is as before. -/
theorem State.drainedTo_leaves {s : State} {c : CellRef} {e : StoreEntry} {b off : Nat} (hfits : off % 64 + e.size ≤ 64) (n : Nat) :
    let t := (s.drainedTo c e b off).drew n
    (t.flight (s.cellKey c)).stbuf = (s.flightAt c).stbuf.erase e ∧ (t.bank b).data.readLE off e.size = e.value % 256 ^ e.size
      ∧ (∀ j a, (j ≠ b ∨ a < off ∨ off + e.size ≤ a) → t.bankByte j a = s.bankByte j a) ∧ t.mem.dev = s.mem.dev := by
  have hflight : ((s.drainedTo c e b off).flight (s.cellKey c)).stbuf = (s.flightAt c).stbuf.erase e := congrArg Flight.stbuf (State.flight_setFlight_self ..)
  have hread := State.readLE_drainedTo (s := s) (c := c) (b := b) hfits
  have hbytes := State.bankByte_drainedTo (s := s) (c := c) (b := b) hfits
  have hdev : (s.drainedTo c e b off).mem.dev = s.mem.dev := rfl
  generalize s.drainedTo c e b off = t at hflight hread hbytes hdev
  exact ⟨hflight, hread, fun j a hja => (hbytes j a).trans (if_neg (by omega)), hdev⟩

/-- Settles O20: each return leaves its value, its answer or its trap, and a store that drains its bytes. -/
theorem accessReturns : Obligations.AccessReturns := by
  unfold Obligations.AccessReturns
  refine ⟨?_, ?_, fun s => State.settleAccess_idle⟩
  · intro c i h s e k hworks he
    obtain rfl : e.id = i := Flight.id_of_access he
    refine ⟨fun v hfailed hdone => ?_, fun hfailed => ?_, fun a l hfailed hdone hmay hplace hfits hl hp => ?_⟩
    · refine ⟨_, congrArg (fun t => Host.Outcome.next (State.settleAccess t)) (opMemoryAccessReturn_done hworks he hfailed hdone), ?_, fun r hr => ?_, ?_, ?_, rfl, ?_⟩
      · exact (State.accessDone_s ..).trans (if_pos rfl)
      · exact (State.accessDone_s ..).trans (if_neg hr)
      · exact State.accessDone_access ..
      · exact congrArg Flight.busy (State.accessDone_flight ..)
      · exact State.accessDone_kept ..
    · exact ⟨_, congrArg (fun t => Host.Outcome.next (State.settleAccess t)) (opMemoryAccessReturn_failed hworks he hfailed), State.accessFail_trapped ..⟩
    · have hown := opMemoryAccessReturn_own (h := h) hworks he hfailed hdone (by rw [hplace]; rfl) hmay
      intro v got
      refine ⟨fun sx hkind hst hgot hva hbuf => ?_, fun hkind hst => ?_, fun new hkind hres => ?_, fun new hkind hres hst hearly => ?_⟩
      · rw [hkind] at hown
        refine ⟨_, congrArg (fun t => Host.Outcome.next (State.settleAccess t)) (hown.trans (State.loadReturn_line hplace hfits hl hst hp hgot hva hbuf sx)), ?_, rfl⟩
        exact ⟨(State.accessDone_s ..).trans (if_pos rfl), State.accessDone_access ..⟩
      · obtain ⟨hresv, hdev⟩ := s.reserve_stack k a
        refine ⟨_, congrArg (fun t => Host.Outcome.next (State.settleAccess t)) (opMemoryAccessReturn_lr hplace hfits hl hworks he hfailed hdone hmay hkind hst hp),
          ⟨(State.accessDone_s ..).trans (if_pos rfl), State.accessDone_access ..⟩, (State.accessDone_resv ..).trans hresv, hdev⟩
      · rw [hkind] at hown
        exact ⟨_, congrArg (fun t => Host.Outcome.next (State.settleAccess t)) hown, State.scReturn_lost_leaves hres⟩
      · rw [hkind] at hown
        obtain ⟨hgot, hresv, l', hline⟩ := State.scReturn_held_leaves (new := new) hplace hfits hl hres hst hp
        exact ⟨_, l', congrArg (fun t => Host.Outcome.next (State.settleAccess t)) hown, hgot, hresv, hline⟩
  · intro c i s k f out hworks
    refine ⟨fun hne hgo => ?_, fun pc sd hf => ?_⟩
    · have hcan : ∀ e ∈ f.stbuf, e.id = i → s.mayPerform c.core k e.acc = true ∧ ∃ t, s.drainStore c (s.at c) e = some t := fun e he hei => by
        obtain ⟨hmay, -, b, off, hplace, -, hp⟩ := hgo e he hei
        exact ⟨hmay, _, State.drainStore_bank hplace hp⟩
      obtain ⟨e, he, hei, t, n, hd, hop⟩ := opStoreBufferDrain_some hworks hne hcan
      obtain ⟨-, -, b, off, hplace, hfits, hp⟩ := hgo e he hei
      have ht : s.drainedTo c e b off = t := Option.some.inj ((State.drainStore_bank hplace hp).symm.trans hd)
      rw [← ht] at hop
      exact ⟨_, congrArg (fun t => Host.Outcome.next (State.settleAccess t)) hop, e, he, hei, b, off, hplace, State.drainedTo_leaves hfits n⟩
    · obtain ⟨htrap, hnone⟩ := opStorePoisonReturn_some hworks hf
      exact ⟨_, rfl, htrap, hnone⟩

end Sys2Proof.Machine
end

section
/-! Queues: the obligation fails. A fetch brings the ring's host line in (10 R321, 11 R341), and taking the command alone does not. -/

namespace Sys2Proof.Machine

section
variable (s : State) (q seq : Nat)

/-! ## Taking a command leaves the memory system -/

theorem State.qfCount_mem (part : Nat) : (s.qfCount part).mem = s.mem :=
  foldl_keeps (P := fun t : State => t.mem = s.mem) (fun _ _ ht => (State.bump_mem ..).trans ht) rfl _

theorem State.qfEvent_mem (part cause : Nat) : (s.qfEvent part q cause seq).mem = s.mem :=
  foldl_keeps (P := fun t : State => t.mem = s.mem) (fun _ _ ht => (State.bump_mem ..).trans ((State.wr_mem ..).trans ((State.wr_mem ..).trans ht))) rfl _

theorem State.setCmd_mem (c : Cmd) : (s.setCmd q seq c).mem = s.mem := rfl

theorem State.relock_mem : s.relock.mem = s.mem := rfl

theorem State.abandonGroups_mem : (s.abandonGroups q seq).mem = s.mem := rfl

theorem State.endCmd_mem (how : Nat) : (s.endCmd q seq how).mem = s.mem := rfl

theorem State.pushFence_mem (op : FenceOp) : (s.pushFence op).mem = s.mem := rfl

theorem State.releaseCmd_mem (c : Cmd) : (s.releaseCmd q seq c).mem = s.mem := by
  unfold State.releaseCmd
  extract_lets s1 s2
  have h1 : s1.mem = s.mem := by
    dsimp only [s1]
    split
    · rfl
    · exact State.relock_mem ..
  clear_value s1
  have h2 : s2.mem = s.mem := by
    refine foldl_keeps (P := fun t : State => t.mem = s.mem) (fun t k ht => ?_) h1 _
    dsimp only
    split
    · exact ht
    · exact ht
  clear_value s2
  exact (State.abandonGroups_mem ..).trans h2

theorem State.retireOne_mem (code how : Nat) : (s.retireOne q seq code how).mem = s.mem := by
  unfold State.retireOne
  split
  · rfl
  · dsimp only
    rw [State.pushFence_mem, State.endCmd_mem, State.releaseCmd_mem]
    split
    · exact State.bump_mem ..
    · rfl

theorem State.retire_mem (code : Nat) : (s.retire q seq code).mem = s.mem := by
  unfold State.retire
  dsimp only
  split
  · exact State.retireOne_mem ..
  · exact foldl_keeps (P := fun t : State => t.mem = s.mem) (fun t n ht => (State.retireOne_mem ..).trans ht) (State.retireOne_mem ..) _

theorem State.takeCmd_mem (i e : Nat) (payload : List Line) : (s.takeCmd q i e payload).mem = s.mem := by
  unfold State.takeCmd
  extract_lets x n c0 c s1 good s2
  have h1 : s1.mem = s.mem := State.qfCount_mem ..
  clear_value s1
  have h2 : s2.mem = s.mem := by
    dsimp only [s2]
    split
    · rw [State.retire_mem, State.qfEvent_mem, h1]
    · split
      · rw [State.setCmd_mem, h1]
      · exact h1
  clear_value s2
  rw [State.setQueue_mem, h2]

end

/-! ## The counterexample -/

/-- A complex that serves: context 1 is LIVE, its queue 0 lies at host virtual address 0 with one entry below its tail, and the ATC holds the page. -/
def ringState : State :=
  State.setFld { State.reset with
    board := { portsDown := 0 }
    pl := { Plinth.reset with
      ctxs := [(1, { state := 1 })]
      queues := [(0, { state := 1, ctx := 1, log2 := 6, tail := 1 })]
      atc := [⟨0, 0, 0, 12, 0, true, false, 0, 0⟩] } } rstPage .startStat Fld.startStat_ready 1

/-- The host answers with the ring's first line: a NOP. -/
def ringAnswer : HostAnswer := ⟨[(0, 1)], [], []⟩

/-- A fetch has taken a command, and the host-line cache holds the ring's line. -/
def Fetched.tookLine (r : Fetched) (line : Nat) : Bool :=
  match r with
  | .took t => (t.hline? line).isSome
  | _ => false

theorem ringState_fetches : ringState.serving = true ∧ ringState.abortFetches 0 = false ∧ (ringState.queue 0).state = 1
    ∧ (ringState.ctx (ringState.queue 0).ctx).state = 1 ∧ ringState.cmdRoom 0 = true ∧ (ringState.queue 0).fetched = 0
    ∧ ringState.hline? 0 = none ∧ (ringState.fetchOne ringAnswer 0).tookLine 0 = true := by decide +kernel

/-- Refutes O29: a fetch whose ring line is not held brings it into the host-line cache, so the state that it leaves is not that of taking the command in the state before. -/
theorem not_queueCommands : ¬ Obligations.QueueCommands := by
  unfold Obligations.QueueCommands
  intro h
  obtain ⟨hserve, habort, hlive, hctx, hroom, hfetched, habsent, htook⟩ := ringState_fetches
  cases hfetch : ringState.fetchOne ringAnswer 0 with
  | took t =>
    obtain ⟨hfetches, -⟩ := h.1 0 0 ringAnswer ringState (cmdOf 1 1 [])
    obtain ⟨-, htaken⟩ := hfetches t hserve habort hlive hctx hroom hfetch
    obtain ⟨e, payload, ht, -⟩ := htaken hfetched
    have hmem : t.hline? 0 = ringState.hline? 0 := congrArg (fun m : MemSys => m.hlc.find? 0) (ht ▸ State.takeCmd_mem ringState 0 0 e payload)
    rw [hfetch, Fetched.tookLine, hmem, habsent] at htook
    exact Bool.false_ne_true htook
  | short => rw [hfetch] at htook; exact Bool.false_ne_true htook
  | wait t => rw [hfetch] at htook; exact Bool.false_ne_true htook
  | stop t => rw [hfetch] at htook; exact Bool.false_ne_true htook

end Sys2Proof.Machine
end

section
/-! Fence waits: the obligation fails. A wake reads the armed slot's word after its waiters have gone on, and the read may evict a host line on which a waiter holds a reservation (08 R258, 11 R341, 05 R144). -/

namespace Sys2Proof.Machine

/-! ## A host line that leaves its cache takes the reservations on it -/

theorem SMap.mem_of_find? {α : Type} {m : SMap α} {k : Nat} {x : α} (h : m.find? k = some x) : (k, x) ∈ m := by
  induction m with
  | nil => exact nomatch h
  | cons e m ih =>
    obtain ⟨k', v⟩ := e
    by_cases hk : k = k'
    · rw [SMap.find?, if_pos hk] at h
      rw [hk, Option.some.inj h]
      exact List.mem_cons_self
    · rw [SMap.find?, if_neg hk] at h
      exact List.mem_cons_of_mem _ (ih h)

/-- No cell but one keeps a reservation on a host line that is cleared. -/
theorem State.resv_clearHostResv (s : State) {line own k a : Nat} (hk : k ≠ own) (ha : a / 64 = line) : ((s.clearHostResv line own).cell k).resv ≠ some (.host a) := by
  intro h
  cases hfind : (s.clearHostResv line own).cells.find? k with
  | none =>
    have hcell : (s.clearHostResv line own).cell k = {} := by rw [State.cell, SMap.at, SMap.get, hfind]; rfl
    rw [hcell] at h
    exact nomatch h
  | some y =>
    have hcell : (s.clearHostResv line own).cell k = y := by rw [State.cell, SMap.at, SMap.get, hfind]; rfl
    rw [hcell] at h
    obtain ⟨e, -, he⟩ := List.mem_map.mp (List.mem_filter.mp (SMap.mem_of_find? hfind)).1
    split at he
    · next b hb =>
      split at he
      · have hnone : y.resv = none := congrArg (fun p : Nat × Cell => p.2.resv) he.symm
        exact nomatch hnone.symm.trans h
      · next hkept =>
        rw [he] at hb hkept
        have hab : b = a := Place.host.inj (Option.some.inj (hb.symm.trans h))
        exact hkept ⟨hab ▸ ha, hk⟩
    · next hother =>
      rw [he] at hother
      exact hother a h

/-! ## The read of an armed slot's word -/

/-- A set of the host-line cache that one line fills 16 times over. -/
def fullSet (held : Nat) : SMap HostLine := List.replicate 16 (held, ⟨0#512, true, false, false, 0, false⟩)

theorem fullSet_absent {held line : Nat} (h : line ≠ held) : (fullSet held).find? line = none := by
  simp [fullSet, List.replicate, SMap.find?, h]

/-- A line of the same set takes the place of the line that fills it, and the reservations on that are lost. -/
theorem State.hostRoom_fullSet {s : State} {held line : Nat} (hhlc : s.mem.hlc = fullSet held) (hset : Config.hlcSet held % 8192 = Config.hlcSet line % 8192) :
    ∃ l, s.hostRoom line = some ((s.hostEvict held l).drew 1) := by
  have hways : s.mem.hlcWays line = fullSet held := by
    rw [MemSys.hlcWays, hhlc, fullSet]
    exact List.filter_eq_self.mpr fun e he => by rw [List.eq_of_mem_replicate he]; exact beq_iff_eq.mpr hset
  have hfree : (s.mem.hlcWays line).filter (fun e => e.2.early == 0) = fullSet held := by
    rw [hways]
    exact List.filter_eq_self.mpr fun e he => by rw [List.eq_of_mem_replicate he]; rfl
  have hfull : ¬ (s.mem.hlc.length < 16 ∨ (s.mem.hlcWays line).length < 16) := by
    rw [hways, hhlc, fullSet, List.length_replicate]
    omega
  have hlt : s.draw % 16 < 16 := Nat.mod_lt _ (by decide)
  refine ⟨⟨0#512, true, false, false, 0, false⟩, ?_⟩
  unfold State.hostRoom
  dsimp only
  rw [if_neg hfull, hfree, fullSet, List.length_replicate, List.getElem?_replicate, if_pos hlt]
  rfl

theorem State.hostEvict_cells (s : State) (line : Nat) (l : HostLine) :
    ∃ u : State, (s.hostEvict line l).cells = (u.clearHostResv line 0x10000).cells := by
  refine ⟨{ s with mem := { s.mem with hlc := s.mem.hlc.erase line } }, ?_⟩
  unfold State.hostEvict
  dsimp only
  split <;> rfl

/-- An armed slot on a line that must take a full set's place leaves no cell a reservation on the line that filled it, where its word has not reached the target. -/
theorem State.armedCheck_evicts {s : State} {n held line k : Nat} (hbound : (s.mon n).bound = some (.host (64 * line))) (harmed : (s.mon n).armed = true)
    (htarget : (s.mon n).target = 1) (hhlc : s.mem.hlc = fullSet held) (hset : Config.hlcSet held % 8192 = Config.hlcSet line % 8192) (hne : line ≠ held)
    (hlink : s.linkUp = true) (hk : k ≠ 0x10000) : ((s.armedCheck n ⟨[(line, 0#512)], [], []⟩).cell k).resv ≠ some (.host (64 * held)) := by
  have hline : 64 * line / 64 = line := by omega
  have habsent : s.hline? line = none := by rw [State.hline?, hhlc, fullSet_absent hne]
  have hanswer : hostLineOf ⟨[(line, 0#512)], [], []⟩ line = some (0#512, false) := by simp [hostLineOf]
  obtain ⟨l, hroom⟩ := State.hostRoom_fullSet hhlc hset
  obtain ⟨u, hcells⟩ := s.hostEvict_cells held l
  let t := ((((s.hostEvict held l).drew 1).setHline line ⟨0#512, true, false, false, 0, false⟩).hostCount false)
  have hfetch : s.hostFetch ⟨[(line, 0#512)], [], []⟩ line = some t := by
    unfold State.hostFetch
    rw [habsent]
    dsimp only
    rw [if_pos hlink, hanswer, hroom]
  have hgot : t.hline? line = some ⟨0#512, true, false, false, 0, false⟩ := by
    have ht : t.mem = (((s.hostEvict held l).drew 1).setHline line ⟨0#512, true, false, false, 0, false⟩).mem := State.bump_mem ..
    rw [State.hline?, ht]
    exact (SMap.find?_insert ..).trans (if_pos rfl)
  have hcell : t.cell k = (u.clearHostResv held 0x10000).cell k := by
    have ht : t.cells = (u.clearHostResv held 0x10000).cells := (State.bump_cells ..).trans hcells
    exact congrArg (fun m : SMap Cell => m.at {} k) ht
  clear_value t
  have hcheck : s.armedCheck n ⟨[(line, 0#512)], [], []⟩ = t := by
    have hword : s.plinthWord (.host (64 * line)) ⟨[(line, 0#512)], [], []⟩ = some (t, 0) := by
      unfold State.plinthWord
      dsimp only
      rw [hline, hfetch]
      dsimp only
      rw [hgot]
      dsimp only
      rw [if_neg Bool.false_ne_true, BitVec.toNat_zero, Nat.zero_div, Nat.zero_mod]
    unfold State.armedCheck
    dsimp only
    rw [hbound]
    dsimp only
    rw [if_pos harmed, hword]
    dsimp only
    rw [htarget]
    exact if_neg (by decide)
  rw [hcheck, hcell]
  exact State.resv_clearHostResv u hk (by omega)

/-- A blocked wait that reads a value at which it stops ends with it, and leaves its slot (08 R255). -/
theorem State.fwaitAgain_stops {s u : State} {c : CellRef} {h : HostAnswer} {stop : Nat → Nat → Bool} {sd va target v : Nat} {till slot : Option Nat} {acq : Bool} {p : Place}
    (hphase : (s.cellAt c).phase = .blocked (.fwait sd va target till slot acq)) (hblocked : s.cellBlocked c = true)
    (hx : s.xlAccess c.core (s.engine c.core c.eng).ctx va 8 .read = .ok p)
    (hread : (s.xlAccessFill c.core (s.engine c.core c.eng).ctx va 8 .read).fenceRead (s.at c) p acq h = some (u, .ok v)) (hstop : stop v target = true) :
    s.fwaitAgain c h stop = (u.leaveWait (s.cellKey c) slot).setCell (s.cellKey c) ((u.cell (s.cellKey c)).setS sd (Word.ofNat v)).resume := by
  have hphase' : (s.at c).cell.phase = .blocked (.fwait sd va target till slot acq) := hphase
  have hread' : (s.sought c va 8 .read).fenceRead (s.at c) p acq h = some (u, .ok v) := hread
  unfold State.fwaitAgain
  dsimp only
  rw [hphase']
  dsimp only
  rw [if_neg (not_not_intro hblocked), State.withPlace_ok hx, hread']
  exact if_pos hstop

/-! ## The counterexample -/

/-- Two different lines of the host-line cache lie in the same set. -/
theorem exists_same_set : ∃ held line : Nat, line ≠ held ∧ Config.hlcSet held % 8192 = Config.hlcSet line % 8192 := by
  obtain ⟨a, b, hne, heq⟩ := Finite.exists_ne_map_eq_of_infinite fun n : Nat => (⟨Config.hlcSet n % 8192, Nat.mod_lt _ (by decide)⟩ : Fin 8192)
  exact ⟨b, a, hne, (Fin.mk.inj heq).symm⟩

/-- A complex that serves, and runs engine 0 of core 0, of one cell, for context 1, which has its arena window at 64. -/
def wakeBase : State :=
  State.setFld { State.reset with
    board := { portsDown := 0 }
    pl := { Plinth.reset with ctxs := [(1, { state := 1, arenaWin := 64 })] }
    cores := [(0, { engines := [(0, { formed := true, state := 1, ctx := 1 })], residents := [1] })] } rstPage .startStat Fld.startStat_ready 1

/-- Its cell waits in an FWAIT on the arena, and holds a reservation on a host line that fills its set of the host-line cache; its slot is armed for another line of that set. -/
def wakeState (held line : Nat) : State :=
  { wakeBase with
    mem := { wakeBase.mem with hlc := fullSet held }
    pl := { wakeBase.pl with mons := [(0, { bound := some (.host (64 * line)), waiters := [0], armed := true, target := 1 })] }
    cells := [(0, { phase := .blocked (.fwait 0 64 0 none (some 0) false), resv := some (.host (64 * held)) })] }

theorem wakeBase_runs : wakeBase.serving = true ∧ wakeBase.cellBlocked ⟨0, 0, 0⟩ = true ∧ wakeBase.refOf 0 = some ⟨0, 0, 0⟩ ∧ wakeBase.cellKey ⟨0, 0, 0⟩ = 0
    ∧ (wakeBase.engine 0 0).ctx = 1 ∧ (wakeBase.ctx 1).arenaWin = 64 ∧ wakeBase.linkUp = true := by decide +kernel

section
variable {s t : State}

theorem State.resident_of_cores (h : t.cores = s.cores) : t.resident = s.resident := by
  funext c e
  rw [State.resident, State.engine_of_cores h, State.core_of_cores h, State.resident]

theorem State.refOf_of_cores (h : t.cores = s.cores) : t.refOf = s.refOf := by
  funext k
  unfold State.refOf State.engineAt
  rw [State.resident_of_cores h, State.engine_of_cores h]

theorem State.cellBlocked_of_cores (h : t.cores = s.cores) (hserve : t.serving = s.serving) : t.cellBlocked = s.cellBlocked := by
  funext c
  unfold State.cellBlocked
  rw [State.resident_of_cores h, State.engine_of_cores h, hserve]

theorem State.cellKey_of_cores (h : t.cores = s.cores) : t.cellKey = s.cellKey := by
  funext c
  rw [State.cellKey, State.engine_of_cores h, State.cellKey]

end

/-- An aligned word of an arena window translates to its arena, and fills no cache. -/
theorem State.xlAccess_arena {s : State} {core ctx : Nat} (h : (s.ctx ctx).arenaWin = 64) :
    s.xlAccess core ctx 64 8 .read = .ok (.arena ctx 0) ∧ s.xlAccessFill core ctx 64 8 .read = s := by
  have hcell : ∀ i, i < 8 → s.xlCell core ctx (64 + i) .read = .ok (.arena ctx 0) := fun i hi => by
    have hslot : (64 + i - 64) / 8 = 0 := by omega
    unfold State.xlCell
    dsimp only
    rw [h, if_neg (by omega), if_pos (by omega), hslot]
  have hfill : s.xlCellFill core ctx 64 .read = s := by
    unfold State.xlCellFill
    dsimp only
    rw [h]
    exact if_pos (by omega)
  have hxs : ((List.range 8).map fun i => s.xlCell core ctx (64 + i) .read) = List.replicate 8 (.ok (.arena ctx 0)) :=
    List.eq_replicate_iff.mpr ⟨by simp, fun x hx => by
      obtain ⟨i, hi, rfl⟩ := List.mem_map.mp hx
      exact hcell i (List.mem_range.mp hi)⟩
  refine ⟨?_, ?_⟩
  · unfold State.xlAccess
    dsimp only
    rw [hxs]
    rfl
  · unfold State.xlAccessFill
    dsimp only
    rw [hfill, show s.xlCell core ctx 64 .read = .ok (.arena ctx 0) from hcell 0 (by decide)]
    exact if_pos rfl

section
variable (held line : Nat) (h : HostAnswer)

/-- Its cell reads a zero in the arena. -/
theorem wakeState_reads : (wakeState held line).fenceRead ((wakeState held line).at ⟨0, 0, 0⟩) (.arena 1 0) false h = some (wakeState held line, .ok 0) := by
  obtain ⟨-, -, -, hbase, -⟩ := wakeBase_runs
  have hkey : ((wakeState held line).at ⟨0, 0, 0⟩).key = 0 := (congrFun (State.cellKey_of_cores (t := wakeState held line) (s := wakeBase) rfl) _).trans hbase
  have hmay : ∀ a : Acc, a.rel = false → (wakeState held line).mayPerform 0 0 a = true := fun a ha => by
    have hflight : (wakeState held line).flight 0 = {} := rfl
    unfold State.mayPerform
    rw [hflight, ha]
    simp
  have hcore : ((wakeState held line).at ⟨0, 0, 0⟩).ref.core = 0 := rfl
  unfold State.fenceRead
  rw [hkey, hcore, if_neg (not_not_intro (hmay _ rfl))]
  rfl

/-- Its cell is the slot's waiter, blocked in a running engine, and its word translates to the arena. -/
theorem wakeState_waits : (wakeState held line).cellKey ⟨0, 0, 0⟩ = 0 ∧ (wakeState held line).refOf 0 = some ⟨0, 0, 0⟩ ∧ (wakeState held line).cellBlocked ⟨0, 0, 0⟩ = true
    ∧ (wakeState held line).xlAccess 0 ((wakeState held line).engine 0 0).ctx 64 8 .read = .ok (.arena 1 0)
    ∧ (wakeState held line).xlAccessFill 0 ((wakeState held line).engine 0 0).ctx 64 8 .read = wakeState held line := by
  obtain ⟨-, hblocked, href, hkey, hctx, hwin, -⟩ := wakeBase_runs
  have hwin' : ((wakeState held line).ctx 1).arenaWin = 64 := hwin
  have hctx' : ((wakeState held line).engine 0 0).ctx = 1 := hctx
  rw [hctx']
  exact ⟨(congrFun (State.cellKey_of_cores (t := wakeState held line) (s := wakeBase) rfl) _).trans hkey,
    (congrFun (State.refOf_of_cores (t := wakeState held line) (s := wakeBase) rfl) _).trans href,
    (congrFun (State.cellBlocked_of_cores (t := wakeState held line) (s := wakeBase) rfl rfl) _).trans hblocked, State.xlAccess_arena hwin'⟩

/-- The cell goes on, and then the armed slot's word is read. -/
theorem wakeState_wakes : opMonitorWake 0 h (wakeState held line) = ((((wakeState held line).leaveSlot 0 0).setCell 0
    (((wakeState held line).cell 0).setS 0 (Word.ofNat 0)).resume).armedCheck 0 h) := by
  obtain ⟨hkey, href, hblocked, hplace, hfill⟩ := wakeState_waits held line
  have hphase : ((wakeState held line).cellAt ⟨0, 0, 0⟩).phase = .blocked (.fwait 0 64 0 none (some 0) false) := by
    rw [State.cellAt, hkey]
    rfl
  have hagain := State.fwaitAgain_stops (stop := fenceMet) hphase hblocked hplace ((congrArg (fun t => State.fenceRead t _ _ _ h) hfill).trans (wakeState_reads held line h)) rfl
  rw [hkey] at hagain
  have hwaiters : ((wakeState held line).mon 0).waiters = [0] := rfl
  unfold opMonitorWake
  rw [hwaiters, List.foldl_cons, List.foldl_nil, href]
  exact congrArg (fun t => State.armedCheck t 0 h) hagain

end

/-- Refutes O24: a wake whose armed slot brings in a host line evicts the line on which the waiter holds a reservation, and the reservation is lost besides. -/
theorem not_fenceWaits : ¬ Obligations.FenceWaits := by
  unfold Obligations.FenceWaits
  intro hall
  obtain ⟨held, line, hne, hset⟩ := exists_same_set
  let s := wakeState held line
  let h : HostAnswer := ⟨[(line, 0#512)], [], []⟩
  obtain ⟨hkey, href, hblocked, hplace, hfill⟩ := wakeState_waits held line
  obtain ⟨-, -, hwake⟩ := hall.1 ⟨0, 0, 0⟩ 0 h s (.arena 1 0) s 0
  have hkey' : s.cellKey ⟨0, 0, 0⟩ = 0 := hkey
  rw [hkey'] at hwake
  obtain ⟨t, ht, hcell⟩ := hwake 0 0 0 64 0 none false rfl href rfl hblocked hplace
    ((congrArg (fun t => State.fenceRead t _ _ _ h) hfill).trans (wakeState_reads held line h)) rfl
  have hop : opMonitorWake 0 h s = t := Host.Outcome.next.inj ht
  have hresv : (t.cell 0).resv = some (.host (64 * held)) := congrArg Cell.resv hcell
  rw [← hop, wakeState_wakes] at hresv
  obtain ⟨-, -, -, -, -, -, hup⟩ := wakeBase_runs
  have hlink : (((wakeState held line).leaveSlot 0 0).setCell 0 (((wakeState held line).cell 0).setS 0 (Word.ofNat 0)).resume).linkUp = true := hup
  exact State.armedCheck_evicts (n := 0) (k := 0) rfl rfl rfl rfl hset hne hlink (by decide) hresv

end Sys2Proof.Machine
end

section
/-! The window: the obligation fails. It asks for a completion on the port that the request names, whatever its number, and the host has four ports (11 R338, R339). -/

namespace Sys2Proof.Machine

/-- A read through the physical function's window that reaches no context fails with cause 1 and returns ones (11 R349). -/
theorem opWindowRead_unreached {s : State} {off len : Nat} (hup : s.up = true) (hlen : 0 < len) (hoff : off + len ≤ 2 ^ 32) (hctx : s.winCtx 0 = none) :
    opWindowRead 0 off len s = { (s.bump (funcPage 0) .winCnt Fld.winCnt_reads 1).winFail 0 off 1 with reply := List.replicate len 0xFF ++ [0] } := by
  have htaken : ¬ (¬ s.up = true ∨ 2 ^ 32 < off + len ∨ len = 0 ∨ (0 ≠ 0 ∧ ¬ s.pl.sriov = true)) := by
    rintro (h | h | h | ⟨h, -⟩)
    · exact h hup
    · omega
    · omega
    · exact h rfl
  unfold opWindowRead
  rw [if_neg htaken, if_neg fun h => h.1 rfl]
  simp only [hctx]

/-- Refutes O42: the completion of a read by port 4, which the model takes modulo 4, is due on port 0. -/
theorem not_window : ¬ Obligations.Window := by
  unfold Obligations.Window
  intro hall
  let s : State := { State.reset with replyPort := 4 % 4 }
  have hup : State.reset.up = true := by decide
  have hctx : State.reset.winCtx 0 = none := by decide
  have hup' : s.up = true := by decide
  have hctx' : s.winCtx 0 = none := by decide
  obtain ⟨-, hreach⟩ := hall 4 0 0 1 [0] State.reset hup (by decide) rfl (by decide) (.inl rfl)
  obtain ⟨⟨t, ht, -, -, hport⟩, -⟩ := (hreach (.inl rfl)).1 hctx
  have hread : exec (.windowRead ⟨.rootPort 4, 0⟩ 0 1) State.reset = .next (opWindowRead 0 0 1 s) :=
    congrArg Host.Outcome.next (State.accept_rootPort ..)
  have hmodel : opWindowRead 0 0 1 s = t := Host.Outcome.next.inj (hread.symm.trans ht)
  rw [← hmodel, opWindowRead_unreached hup' (by decide) (by decide) hctx'] at hport
  have hkept : s.replyPort = 4 := hport
  exact absurd hkept (by decide)

end Sys2Proof.Machine
end

section
/-! SUPPORT. Lines of the caching agents (07 R219 to R223): what a recall, a write-back, an eviction and a transaction that waits leave of a line and of its queue. -/

namespace Sys2Proof.Machine

/-! ## One line of memory -/

@[simp] theorem MemSys.dirAt_setDir (m : MemSys) (line : Nat) (d : DirEntry) : (m.setDir line d).dirAt line = d :=
  (SMap.at_put m.dir {} line line d).trans (if_pos rfl)

theorem MemSys.dirAt_setDir_of_ne {m : MemSys} {l line : Nat} (d : DirEntry) (h : line ≠ l) : (m.setDir l d).dirAt line = m.dirAt line :=
  (SMap.at_put m.dir {} l line d).trans (if_neg h)

@[simp] theorem MemSys.queue_setQueue (m : MemSys) (line : Nat) (q : List LineReq) : (m.setQueue line q).queue line = q :=
  (SMap.at_put m.lineQ [] line line q).trans (if_pos rfl)

@[simp] theorem MemSys.cline?_dropCline_self (m : MemSys) (a line : Nat) : (m.dropCline a line).cline? a line = none :=
  (m.cline?_dropCline a a line).trans (if_pos rfl)

@[simp] theorem MemSys.cline?_setCline_self (m : MemSys) (a line : Nat) (c : CacheLine) : (m.setCline a line c).cline? a line = some c :=
  (m.cline?_setCline a a line c).trans (if_pos rfl)

/-- Dropping a line of an agent leaves the agent's other lines. -/
theorem MemSys.cline?_dropCline_of_ne (m : MemSys) (a : Nat) {l line : Nat} (h : line ≠ l) : (m.dropCline a l).cline? a line = m.cline? a line := by
  have hkey : cacheKey a line ≠ cacheKey a l := by
    unfold cacheKey
    omega
  rw [MemSys.cline?, MemSys.dropCline, SMap.find?_erase, if_neg hkey, MemSys.cline?]

/-- A masked write of a line leaves every byte outside it. -/
theorem Mem.read_writeMasked_out (m : Mem) {line a : Nat} (mask data : Nat) (h : a < 64 * line ∨ 64 * line + 64 ≤ a) :
    (m.writeMasked (64 * line) mask data).read a = m.read a := by
  rw [Mem.read_writeMasked, if_neg (by omega)]

/-- A masked write of a line puts each masked byte in its place. -/
theorem Mem.read_writeMasked_in (m : Mem) (line : Nat) {mask i : Nat} (data : Nat) (hi : i < 64) (hm : mask.testBit i = true) :
    (m.writeMasked (64 * line) mask data).read (64 * line + i) = BitVec.ofNat 8 (data / 256 ^ i) := by
  have hmask : mask.testBit (64 * line + i - 64 * line) = true := by rwa [Nat.add_sub_cancel_left]
  rw [Mem.read_writeMasked, if_pos ⟨by omega, by omega, hmask⟩, Nat.add_sub_cancel_left]

/-! ## What an agent holds after it gave a line up (07 R220) -/

theorem MemSys.giveUp_other (m : MemSys) {a b line : Nat} (hb : b ≠ a) : (m.giveUp a line).cline? b line = m.cline? b line := by
  cases hc : m.cline? a line with
  | none => rw [MemSys.giveUp_none hc]
  | some c =>
    have hm : (if c.st = .modified then m.stackWrite line c.data c.poison else m).cline? b line = m.cline? b line := by split <;> rfl
    simp only [MemSys.giveUp, hc]
    split
    · rwa [MemSys.cline?_dropCline, if_neg hb]
    · rwa [MemSys.cline?_setCline, if_neg hb]

/-- What is left of the line is early-visible bytes that wait for ownership (07 R209). -/
theorem MemSys.giveUp_self {m : MemSys} {a line : Nat} {d : CacheLine} (h : (m.giveUp a line).cline? a line = some d) : d.st = .pending := by
  cases hc : m.cline? a line with
  | none =>
    rw [MemSys.giveUp_none hc, hc] at h
    exact nomatch h
  | some c =>
    simp only [MemSys.giveUp, hc] at h
    split at h
    · rw [MemSys.cline?_dropCline_self] at h
      exact nomatch h
    · rw [MemSys.cline?_setCline_self] at h
      rw [← Option.some.inj h]

/-- Only bytes of the line reach the stack, and no queue changes. -/
theorem MemSys.giveUp_beside (m : MemSys) (a line : Nat) :
    (∀ b, (b < 64 * line ∨ 64 * line + 64 ≤ b) → (m.giveUp a line).dev.read b = m.dev.read b) ∧ (m.giveUp a line).lineQ = m.lineQ := by
  cases hc : m.cline? a line with
  | none =>
    rw [MemSys.giveUp_none hc]
    exact ⟨fun _ _ => rfl, rfl⟩
  | some c =>
    have hm : (∀ b, (b < 64 * line ∨ 64 * line + 64 ≤ b) → (if c.st = .modified then m.stackWrite line c.data c.poison else m).dev.read b = m.dev.read b)
        ∧ (if c.st = .modified then m.stackWrite line c.data c.poison else m).lineQ = m.lineQ := by
      split
      · exact ⟨fun b hb => by rw [MemSys.stackWrite_dev, Mem.read_writeMasked_out m.dev _ _ hb], rfl⟩
      · exact ⟨fun _ _ => rfl, rfl⟩
    simp only [MemSys.giveUp, hc]
    split <;> exact hm

theorem MemSys.giveUpAll_other {b line : Nat} (l : List Nat) (m : MemSys) (hb : b ∉ l) : (m.giveUpAll line l).cline? b line = m.cline? b line :=
  List.foldlRecOn (motive := fun k : MemSys => k.cline? b line = m.cline? b line) l _ rfl fun k hk a ha =>
    (MemSys.giveUp_other k fun hab : b = a => hb (hab ▸ ha)).trans hk

theorem MemSys.giveUpAll_self {b line : Nat} {d : CacheLine} (l : List Nat) (m : MemSys) (hb : b ∈ l) (h : (m.giveUpAll line l).cline? b line = some d) :
    d.st = .pending := by
  induction l generalizing m with
  | nil => exact nomatch hb
  | cons a l ih =>
    by_cases hl : b ∈ l
    · exact ih _ hl h
    · obtain rfl : b = a := (List.mem_cons.mp hb).resolve_right hl
      have hlast : (m.giveUp b line).cline? b line = some d := (MemSys.giveUpAll_other l _ hl).symm.trans h
      exact MemSys.giveUp_self hlast

theorem MemSys.giveUpAll_beside (line : Nat) (l : List Nat) (m : MemSys) :
    (∀ b, (b < 64 * line ∨ 64 * line + 64 ≤ b) → (m.giveUpAll line l).dev.read b = m.dev.read b) ∧ (m.giveUpAll line l).lineQ = m.lineQ :=
  foldl_keeps (P := fun k : MemSys => (∀ b, (b < 64 * line ∨ 64 * line + 64 ≤ b) → k.dev.read b = m.dev.read b) ∧ k.lineQ = m.lineQ)
    (fun k a ⟨hdev, hqueue⟩ =>
      have ⟨hdev', hqueue'⟩ := MemSys.giveUp_beside k a line
      ⟨fun b hb => (hdev' b hb).trans (hdev b hb), hqueue'.trans hqueue⟩)
    ⟨fun _ _ => rfl, rfl⟩ l

/-! ## A recall (07 R220) -/

section
variable (s : State) (line : Nat) (keep : Option Nat)

theorem State.recall_dirAt : (s.recall line keep).mem.dirAt line = {} := by
  rw [State.recall_mem, MemSys.dirAt_setDir]

/-- An agent that the line is recalled from keeps early-visible bytes at most. -/
theorem State.recall_pending {a : Nat} {d : CacheLine} (ha : a < 17) (hk : some a ≠ keep) (h : (s.recall line keep).mem.cline? a line = some d) : d.st = .pending := by
  have hfrom : a ∈ agents.filter fun a => some a != keep := List.mem_filter.mpr ⟨List.mem_range.mpr ha, bne_iff_ne.mpr hk⟩
  rw [State.recall_mem] at h
  exact MemSys.giveUpAll_self _ s.mem hfrom h

/-- The agent that keeps the line holds what it held. -/
theorem State.recall_kept (a : Nat) : (s.recall line (some a)).mem.cline? a line = s.mem.cline? a line := by
  rw [State.recall_mem]
  exact MemSys.giveUpAll_other _ _ fun hmem => (bne_iff_ne.mp (List.mem_filter.mp hmem).2) rfl

/-- A recall leaves every byte outside its line. -/
theorem State.recall_out {b : Nat} (h : b < 64 * line ∨ 64 * line + 64 ≤ b) : (s.recall line keep).devByte b = s.devByte b := by
  rw [State.devByte, State.recall_mem]
  exact (MemSys.giveUpAll_beside line _ s.mem).1 b h

@[simp] theorem State.recall_lineQ : (s.recall line keep).mem.lineQ = s.mem.lineQ := by
  rw [State.recall_mem]
  exact (MemSys.giveUpAll_beside line _ s.mem).2

end

/-! ## A line poisoned (14 R437) -/

/-- Poisoning a line leaves, beside its poison, what register writes, entries of the log and Recast jobs leave. -/
theorem State.poisonLine_keeps {α : Type} (view : State → α) (hfld : ∀ (t : State) a r f v, view (t.setFld a r f v) = view t)
    (hlog : ∀ (t : State) k p a b c d, view (t.logEvent k p a b c d) = view t) (hrecast : ∀ (t : State) a b, view (t.queueRecast a b) = view t)
    (s : State) (line cause : Nat) : view (s.poisonLine line cause) = view { s with mem := s.mem.setPoison line true } := by
  have hcount : ∀ t : State, view (if cause = 1 ∨ cause = 3 then t.bump (homePage (stackOf s.wide (64 * line)).1) .hmErrcnt Fld.hmErrcnt_uncorr 1
      else if cause = 2 then t.bump (homePage (stackOf s.wide (64 * line)).1) .hmErrcnt Fld.hmErrcnt_tagfail 1 else t) = view t := by
    intro t
    split
    · exact hfld ..
    · split
      · exact hfld ..
      · rfl
  unfold State.poisonLine
  dsimp only
  split
  · split
    · rw [hrecast, hlog, hfld, hfld, hfld, hcount]
    · rw [hlog, hfld, hfld, hfld, hcount]
  · rw [hlog, hfld, hfld, hfld, hcount]

theorem State.poisonLine_mem (s : State) (line cause : Nat) : (s.poisonLine line cause).mem = s.mem.setPoison line true :=
  State.poisonLine_keeps State.mem State.setFld_mem State.logEvent_mem State.queueRecast_mem s line cause

theorem State.poisonLine_objects (s : State) (line cause : Nat) : (s.poisonLine line cause).objects = s.objects :=
  State.poisonLine_keeps State.objects (fun t a r f v => State.objects_of_pl (State.setFld_pl t a r f v)) State.logEvent_objects
    (fun t a b => State.objects_of_pl (State.queueRecast_pl t a b)) s line cause

/-! ## A line written back or evicted (07 R219, R220) -/

/-- A line written back is in its stack, with its poison, and neither its agent nor the directory has it. -/
theorem State.writeBackOp_mem {s : State} {agent line : Nat} {c : CacheLine} (h : s.mem.cline? agent line = some c) :
    ∃ p, (s.writeBackOp agent line).mem = { ((s.mem.stackWrite line c.data c.poison).dropCline agent line).setDir line {} with poison := p }
      ∧ p.get (fun _ => false) line = c.poison := by
  let m := ((s.mem.stackWrite line c.data c.poison).dropCline agent line).setDir line {}
  have hm : m.poison.get (fun _ => false) line = c.poison := SMap.get_set_self (fun _ => false) s.mem.poison line c.poison
  unfold State.writeBackOp
  rw [h]
  dsimp only
  split
  · next hpoison =>
    refine ⟨(m.setPoison line true).poison, ?_, ?_⟩
    · rw [State.poisonLine_mem, State.clearResv_mem, State.carveAccess_mem]
      rfl
    · have hc : c.poison = true := (Bool.and_eq_true_iff.mp hpoison).1
      rw [hc]
      exact SMap.get_set_self (fun _ => false) m.poison line true
  · refine ⟨m.poison, ?_, hm⟩
    rw [State.clearResv_mem, State.carveAccess_mem]

/-- An eviction takes a line from its agent, and leaves the agent's other lines and their directory entries. -/
theorem State.evict_other (s : State) (agent : Nat) {v line : Nat} (h : line ≠ v) :
    (s.evict agent v).mem.cline? agent line = s.mem.cline? agent line ∧ (s.evict agent v).mem.dirAt line = s.mem.dirAt line := by
  cases hc : s.mem.cline? agent v with
  | none =>
    have hsame : s.evict agent v = s := by rw [State.evict, hc]
    rw [hsame]
    exact ⟨rfl, rfl⟩
  | some c =>
    simp only [State.evict, hc]
    split
    · obtain ⟨p, hmem, -⟩ := State.writeBackOp_mem hc
      rw [hmem]
      exact ⟨MemSys.cline?_dropCline_of_ne _ agent h, MemSys.dirAt_setDir_of_ne (m := (s.mem.stackWrite v c.data c.poison).dropCline agent v) {} h⟩
    · rw [State.clearResv_mem]
      exact ⟨MemSys.cline?_dropCline_of_ne _ agent h, rfl⟩

theorem SMap.find?_of_mem {α : Type} {m : SMap α} {k : Nat} {x : α} (h : (k, x) ∈ m) : m.find? k ≠ none := by
  induction m with
  | nil => exact nomatch h
  | cons e m ih =>
    obtain ⟨k', v⟩ := e
    rw [SMap.find?]
    split
    · exact Option.some_ne_none v
    · next hne => exact ih ((List.mem_cons.mp h).resolve_left fun heq => hne (Prod.mk.inj heq).1)

/-- A victim is a line that the agent holds. -/
theorem MemSys.cline?_victim {m : MemSys} {agent v : Nat} (h : v ∈ m.victims agent) : m.cline? agent v ≠ none := by
  obtain ⟨⟨k, x⟩, he, rfl⟩ := List.mem_map.mp h
  obtain ⟨hin, hagent⟩ := List.mem_filter.mp (List.mem_filter.mp he).1
  have hkey : cacheKey agent (k % 2 ^ 34) = k := by
    rw [← beq_iff_eq.mp hagent, cacheKey]
    omega
  rw [MemSys.cline?, hkey]
  exact SMap.find?_of_mem hin

/-- Room is made by giving up another line than one the agent lacks. -/
theorem State.makeRoom_miss {s : State} {agent line : Nat} (h : s.mem.cline? agent line = none) :
    (s.makeRoom agent line).mem.cline? agent line = none ∧ (s.makeRoom agent line).mem.dirAt line = s.mem.dirAt line := by
  unfold State.makeRoom
  dsimp only
  split
  · exact ⟨h, rfl⟩
  · split
    · next v hv =>
      have hne : line ≠ v := fun heq => MemSys.cline?_victim (List.mem_of_getElem? hv) (heq ▸ h)
      obtain ⟨hline, hdir⟩ := s.evict_other agent hne
      exact ⟨hline.trans h, hdir⟩
    · exact ⟨h, rfl⟩

/-- A cell with a reservation is listed. -/
theorem State.mem_cells_of_resv {s : State} {k : Nat} {p : Place} (h : (s.cell k).resv = some p) : (k, s.cell k) ∈ s.cells := by
  rw [State.cell, SMap.at, SMap.get] at h ⊢
  cases hfind : s.cells.find? k with
  | none =>
    rw [hfind] at h
    exact nomatch h
  | some x => exact SMap.mem_of_find? hfind

/-- No cell of the core keeps a reservation on the line. -/
theorem State.resv_clearResv (s : State) {core line k a : Nat} (hk : k / 256 = core) (ha : a / 64 = line) :
    ((s.clearResv core line).cell k).resv ≠ some (.stack a) := by
  intro h
  obtain ⟨e, -, he⟩ := List.mem_map.mp (List.mem_filter.mp (State.mem_cells_of_resv h)).1
  split at he
  · next b hb =>
    split at he
    · have hnone : ((s.clearResv core line).cell k).resv = none := congrArg (fun p : Nat × Cell => p.2.resv) he.symm
      exact nomatch hnone.symm.trans h
    · next hkept =>
      rw [he] at hb hkept
      have hab : b = a := Place.stack.inj (Option.some.inj (hb.symm.trans h))
      exact hkept ⟨hk, hab ▸ ha⟩
  · next hother =>
    rw [he] at hother
    exact hother a h

/-! ## A transaction that waits (07 R221) -/

theorem State.countDelay_mem_reply (s : State) (line : Nat) : (s.countDelay line).mem = s.mem ∧ (s.countDelay line).reply = s.reply := by
  refine foldl_keeps (P := fun t : State => t.mem = s.mem ∧ t.reply = s.reply) (fun t x ht => ?_) ⟨rfl, rfl⟩ _
  split
  · split
    · rwa [State.bumpCore_mem, State.bumpCore_reply]
    · exact ht
  · exact ht

/-- A transaction that is not yet in the queue joins it at its end, and nothing is answered. -/
theorem State.defer_joins {s : State} {line : Nat} {r : LineReq} (h : (r.once && (s.mem.queue line).contains r) = false) :
    (s.defer line r).mem = s.mem.setQueue line (s.mem.queue line ++ [r]) ∧ (s.defer line r).reply = s.reply := by
  unfold State.defer
  dsimp only
  rw [h, if_neg Bool.false_ne_true]
  generalize hu : (if s.mem.blocked line then s.bump (homePage (s.homeOf line)) .hmDirCnt Fld.hmDirCnt_blocked 1 else s) = u
  have hkept : u.mem = s.mem ∧ u.reply = s.reply := by
    rw [← hu]
    split
    · exact ⟨State.bump_mem .., State.bump_reply ..⟩
    · exact ⟨rfl, rfl⟩
  have hdelay := u.countDelay_mem_reply line
  generalize u.countDelay line = t at hdelay
  exact ⟨congrArg (MemSys.setQueue · line _) (hdelay.1.trans hkept.1), hdelay.2.trans hkept.2⟩

/-- A free line has no transaction that waits, and nobody holds it. -/
theorem MemSys.free_iff {m : MemSys} {line : Nat} : m.free line = true ↔ m.queue line = [] ∧ m.held line = false := by
  simp [MemSys.free, MemSys.blocked]

end Sys2Proof.Machine
end

section
/-! SUPPORT. Lines taken by a caching agent (07 R219 to R222), and the transactions that wait on a line. -/

namespace Sys2Proof.Machine

/-- A stack read that finds no error changes nothing. -/
theorem State.stackRead_ok (s : State) (line : Nat) : s.stackRead line .ok = s := by
  unfold State.stackRead
  split <;> rfl

/-! ## A read shared (07 R220) -/

/-- A holder gives a reader its data, and keeps the line shared. -/
def MemSys.downgrade (line : Nat) (m : MemSys) (a : Nat) : MemSys :=
  match m.cline? a line with
  | none => m
  | some c =>
    let m1 := if c.st = .modified then m.stackWrite line c.data c.poison else m
    if c.st = .pending then m1 else m1.setCline a line { c with st := .shared }

theorem MemSys.downgrade_other (m : MemSys) {a b line : Nat} (h : b ≠ a) : (m.downgrade line a).cline? b line = m.cline? b line := by
  cases hc : m.cline? a line with
  | none => simp only [MemSys.downgrade, hc]
  | some c =>
    have hm : (if c.st = .modified then m.stackWrite line c.data c.poison else m).cline? b line = m.cline? b line := by split <;> rfl
    simp only [MemSys.downgrade, hc]
    split
    · exact hm
    · rwa [MemSys.cline?_setCline, if_neg h]

/-- The agents, but one, that the directory names for a line. -/
def MemSys.others (m : MemSys) (agent line : Nat) : List Nat := agents.filter fun a => a != agent && (m.dirAt line).names a

/-- A reader without the line takes it: its own where no other agent is recorded, else shared with them. -/
theorem State.readSharedOp_miss {s : State} {agent line : Nat} (h : s.mem.cline? agent line = none) :
    ∃ c, (s.readSharedOp agent line).mem.cline? agent line = some c ∧ c.early = 0 ∧ c.held = false
      ∧ c.data = (s.readSharedOp agent line).mem.dev.readLine (64 * line)
      ∧ (s.mem.others agent line = [] → c.st = .exclusive ∧ (s.readSharedOp agent line).mem.dirAt line = ⟨agent + 1, 0⟩)
      ∧ (s.mem.others agent line ≠ [] → c.st = .shared ∧ ((s.readSharedOp agent line).mem.dirAt line).owner = 0) := by
  obtain ⟨hline, hdir⟩ := State.makeRoom_miss h
  let read := (s.makeRoom agent line).carveAccess line ((s.makeRoom agent line).mem.dirty? line).isSome
  have hread : read.mem = (s.makeRoom agent line).mem := State.carveAccess_mem ..
  let others := read.mem.others agent line
  have hothers : others = s.mem.others agent line :=
    congrArg (fun d : DirEntry => agents.filter fun a => a != agent && d.names a) ((congrArg (MemSys.dirAt · line) hread).trans hdir)
  let counted := others.foldl (fun t a => if (read.mem.dirAt line).owner = a + 1 then t.countSnoop a line else t) read
  let m1 := others.foldl (MemSys.downgrade line) counted.mem
  have hcounted : counted.mem = (s.makeRoom agent line).mem := by
    refine foldl_keeps (P := fun t : State => t.mem = (s.makeRoom agent line).mem) (fun t a ht => ?_) hread others
    split
    · exact (State.countSnoop_mem ..).trans ht
    · exact ht
  have hm1 : m1.cline? agent line = none := by
    refine List.foldlRecOn (motive := fun m : MemSys => m.cline? agent line = none) others _ (hcounted ▸ hline) fun m hm a ha => ?_
    have hne : agent ≠ a := (bne_iff_ne.mp (Bool.and_eq_true_iff.mp (List.mem_filter.mp ha).2).1).symm
    exact (m.downgrade_other hne).trans hm
  let c : CacheLine :=
    { st := if others.isEmpty then .exclusive else .shared, data := m1.dev.readLine (64 * line), poison := m1.poison.get (fun _ => false) line }
  let d : DirEntry := if others.isEmpty then ⟨agent + 1, 0⟩ else ⟨0, (others.map fun a => 2 ^ a).sum + 2 ^ agent⟩
  have hop : (s.readSharedOp agent line).mem = (m1.setCline agent line c).setDir line d := by
    unfold State.readSharedOp
    extract_lets _ _ _ _ _ _ _ _ _ early _ c'
    have hearly : early = none := congrArg (Option.map fun c : CacheLine => (c.early, c.data)) hm1
    have hc : c' = c := by
      simp only [c', hearly]
      rfl
    exact congrArg (fun c => (m1.setCline agent line c).setDir line d) hc
  have hheld : (s.readSharedOp agent line).mem.cline? agent line = some c := hop ▸ MemSys.cline?_setCline_self m1 agent line c
  have hentry : (s.readSharedOp agent line).mem.dirAt line = d := hop ▸ MemSys.dirAt_setDir _ line d
  have hdev : (s.readSharedOp agent line).mem.dev = m1.dev := by rw [hop]; rfl
  rw [hentry, hdev, ← hothers]
  refine ⟨c, hheld, rfl, rfl, rfl, fun hnone => ?_, fun hsome => ?_⟩
  · have hempty : others.isEmpty = true := List.isEmpty_iff.mpr hnone
    exact ⟨if_pos hempty, if_pos hempty⟩
  · have hfull : ¬ others.isEmpty = true := fun hempty => hsome (List.isEmpty_iff.mp hempty)
    exact ⟨if_neg hfull, congrArg DirEntry.owner (if_neg hfull)⟩

/-! ## Ownership granted (07 R209, R222) -/

/-- The new owner holds the line inside its minimum hold, its early stores visible, and the directory names it alone; the others keep early-visible bytes at most. -/
theorem State.ownOp_line (s : State) (agent line : Nat) :
    (∃ c, (s.ownOp agent line).mem.cline? agent line = some c ∧ c.held = true ∧ c.early = 0 ∧ (c.st = .exclusive ∨ c.st = .modified))
      ∧ (s.ownOp agent line).mem.dirAt line = ⟨agent + 1, 0⟩
      ∧ ∀ a d, a < 17 → a ≠ agent → (s.ownOp agent line).mem.cline? a line = some d → d.st = .pending := by
  unfold State.ownOp
  extract_lets s0 own s1 m base c
  have hm : m = s0.mem := by
    show (if own.all fun c => c.st == .pending then s0.carveAccess line false else s0).mem = s0.mem
    split
    · exact State.carveAccess_mem ..
    · rfl
  have hc : c.held = true ∧ c.early = 0 ∧ (c.st = .exclusive ∨ c.st = .modified) := by
    show CacheLine.held c = true ∧ _
    simp only [c]
    cases own with
    | none => exact ⟨rfl, rfl, .inl rfl⟩
    | some x =>
      dsimp only
      split
      · refine ⟨rfl, rfl, ?_⟩
        dsimp only
        split
        · exact .inr rfl
        · exact .inl rfl
      · exact ⟨rfl, rfl, .inr rfl⟩
  refine ⟨⟨c, MemSys.cline?_setCline_self m agent line c, hc⟩, MemSys.dirAt_setDir _ line _, fun a d ha hne hd => ?_⟩
  have hother : s0.mem.cline? a line = some d := by
    rw [← hm]
    exact ((m.cline?_setCline agent a line c).trans (if_neg hne)).symm.trans hd
  exact State.recall_pending _ line (some agent) ha (fun heq => hne (Option.some.inj heq)) hother

/-! ## A write at the home (07 R220) -/

theorem State.lineWrite_lineQ (s : State) (line mask : Nat) (data : Line) : (s.lineWrite line mask data).1.mem.lineQ = s.mem.lineQ := by
  unfold State.lineWrite
  split
  · split <;> rfl
  · rfl

@[simp] theorem State.homeWrite_lineQ (s : State) (line mask : Nat) (data : Line) : (s.homeWrite line mask data).1.mem.lineQ = s.mem.lineQ := by
  rw [State.homeWrite, State.lineWrite_lineQ, State.carveAccess_mem, State.recall_lineQ]

/-! ## A line's queue goes on (07 R221, R222) -/

/-- A drain meets as many transactions as before where the line's queue and the window requests that wait are as before. -/
theorem State.drainFuel_congr {s t : State} (line : Nat) (hqueue : t.mem.lineQ = s.mem.lineQ) (hhost : t.pl.hostQ = s.pl.hostQ) :
    t.drainFuel line = s.drainFuel line := by
  rw [State.drainFuel, State.drainFuel, MemSys.queue, MemSys.queue, hqueue, hhost]

section
variable {s : State} {line : Nat} {r : LineReq} {l : List LineReq}

/-- Nothing goes on where no transaction waits, a holder is inside its minimum hold, or the oldest asks for ownership. -/
theorem State.drain_stops (h : s.mem.queue line = [] ∨ s.mem.held line = true ∨ ∃ a, (s.mem.queue line).head? = some (.own a)) : s.drain line = s := by
  have hstop : ∀ n, State.drainLine n line s = s := by
    intro n
    cases n with
    | zero => rfl
    | succ n =>
      rw [State.drainLine]
      split
      · rfl
      · next r l hq =>
        have hwaits : (s.mem.held line || !s.serves line r) = true := by
          rcases h with h | h | ⟨a, h⟩
          · exact nomatch hq.symm.trans h
          · rw [h, Bool.true_or]
          · have hr : r = .own a := Option.some.inj ((congrArg List.head? hq).symm.trans h)
            rw [hr, Bool.or_eq_true_iff]
            exact .inr rfl
        exact if_pos hwaits
  exact hstop _

/-- The oldest transaction is served where nobody holds the line, and the others after it. -/
theorem State.drain_serves (hq : s.mem.queue line = r :: l) (hheld : s.mem.held line = false) (hserves : s.serves line r = true)
    (hqueue : (({ s with mem := s.mem.setQueue line l } : State).serveReq line r).mem.lineQ = (s.mem.setQueue line l).lineQ)
    (hhost : (({ s with mem := s.mem.setQueue line l } : State).serveReq line r).pl.hostQ = s.pl.hostQ) :
    s.drain line = (({ s with mem := s.mem.setQueue line l } : State).serveReq line r).drain line := by
  let t : State := { s with mem := s.mem.setQueue line l }
  have htq : t.mem.queue line = l := MemSys.queue_setQueue ..
  have hfuel : s.drainFuel line = (t.serveReq line r).drainFuel line + 1 := by
    have hpl : t.pl = s.pl := rfl
    rw [State.drainFuel_congr (s := t) line hqueue hhost, State.drainFuel, State.drainFuel, hq, htq, hpl, List.length_cons]
    omega
  have hgo : ¬ (s.mem.held line || !s.serves line r) = true := by
    rw [hheld, hserves]
    exact Bool.false_ne_true
  rw [State.drain, hfuel, State.drainLine, hq]
  exact if_neg hgo

/-- A read that waits is answered in its turn. -/
theorem State.drain_read {err : MemErr} (hq : s.mem.queue line = .read err :: l) (hheld : s.mem.held line = false) :
    s.drain line = (({ s with mem := s.mem.setQueue line l } : State).homeRead line err).drain line := by
  have hread : ∀ t : State, (t.stackRead line err).mem.lineQ = t.mem.lineQ ∧ (t.stackRead line err).pl.hostQ = t.pl.hostQ := by
    intro t
    have hpoison : ∀ cause, (t.poisonLine line cause).mem.lineQ = t.mem.lineQ ∧ (t.poisonLine line cause).pl.hostQ = t.pl.hostQ := fun cause => by
      have hobjects : (t.poisonLine line cause).objects.hostQ = t.objects.hostQ := congrArg Plinth.hostQ (t.poisonLine_objects line cause)
      rw [t.poisonLine_mem line cause]
      exact ⟨rfl, hobjects⟩
    unfold State.stackRead
    split
    · exact ⟨rfl, rfl⟩
    · cases err with
      | ok => exact ⟨rfl, rfl⟩
      | corrected => exact ⟨by rw [State.laneErr_mem, State.bump_mem], by rw [State.laneErr_pl, State.bump_pl]⟩
      | data => exact hpoison 1
      | tag => exact hpoison 2
      | carve => exact hpoison 3
  obtain ⟨hqueue, hhost⟩ := hread { s with mem := s.mem.setQueue line l }
  exact State.drain_serves (r := .read err) hq hheld rfl ((congrArg MemSys.lineQ (State.snoopRead_mem ..)).trans hqueue)
    ((congrArg Plinth.hostQ (State.snoopRead_pl ..)).trans hhost)

/-- A write that waits is performed in its turn. -/
theorem State.drain_write {mask : Word} {data : Line} (hq : s.mem.queue line = .write mask data :: l) (hheld : s.mem.held line = false) :
    s.drain line = (({ s with mem := s.mem.setQueue line l } : State).homeWrite line mask.toNat data).1.drain line := by
  have hserve : ∀ t : State, t.serveReq line (.write mask data) = (t.homeWrite line mask.toNat data).1 := fun _ => rfl
  rw [← hserve]
  refine State.drain_serves hq hheld rfl ?_ ?_
  · rw [hserve, State.homeWrite_lineQ]
  · rw [hserve, State.homeWrite_pl]

end

end Sys2Proof.Machine
end

section
/-! Lines of the caching agents: the obligation, from the rules above. -/

namespace Sys2Proof.Machine

section
variable {s : State} {agent line : Nat}

/-! ## Requests for a line (07 R220 to R222) -/

section
variable (hup : s.up = true) (hmay : s.mayCache agent line = true) (hmiss : s.mem.cline? agent line = none)
include hup hmay hmiss

/-- READ_SHARED of a line that can be served. -/
theorem opReadShared_served (hfree : s.mem.free line = true) (hroom : s.mem.roomFor agent line = true) :
    opReadShared agent line .ok s = s.readSharedOp agent line := by
  have hlacks : s.lineMiss agent line = true := by rw [State.lineMiss, hmiss]
  simp [opReadShared, hup, hmay, hlacks, hfree, hroom, State.stackRead_ok]

/-- READ_SHARED of a line that cannot be served now waits. -/
theorem opReadShared_waits (hfree : s.mem.free line = false) : opReadShared agent line .ok s = s.defer line (.shared agent .ok) := by
  have hlacks : s.lineMiss agent line = true := by rw [State.lineMiss, hmiss]
  simp [opReadShared, hup, hmay, hlacks, hfree]

/-- READ_OWN joins the line's queue, whether or not the line is free. -/
theorem opReadOwn_mem (hnew : LineReq.own agent ∉ s.mem.queue line) :
    (opReadOwn agent line s).mem = s.mem.setQueue line (s.mem.queue line ++ [.own agent]) := by
  have hjoins : ((LineReq.own agent).once && (s.mem.queue line).contains (.own agent)) = false := by simpa [LineReq.once] using hnew
  unfold opReadOwn
  simp only [hmiss, hup, hmay, Bool.and_self, not_true, if_false]
  split
  · next hfree =>
    rw [(MemSys.free_iff.mp hfree).1]
    rfl
  · exact (State.defer_joins hjoins).1

end

/-- A transaction is in the queue after it was deferred. -/
theorem State.mem_queue_defer (r : LineReq) : r ∈ (s.defer line r).mem.queue line ∧ (s.defer line r).mem.caches = s.mem.caches ∧ (s.defer line r).mem.dev = s.mem.dev := by
  by_cases hthere : (r.once && (s.mem.queue line).contains r) = true
  · have hsame : s.defer line r = s := if_pos hthere
    rw [hsame]
    exact ⟨List.contains_iff_mem.mp (Bool.and_eq_true_iff.mp hthere).2, rfl, rfl⟩
  · rw [(State.defer_joins (Bool.not_eq_true _ ▸ hthere)).1]
    exact ⟨by simp, rfl, rfl⟩

/-- OWNERSHIP_GRANT of the oldest request, where no other agent holds the line. -/
theorem opOwnershipGrant_granted (hhead : (s.mem.queue line).head? = some (.own agent)) (hroom : s.mem.roomFor agent line = true)
    (hheld : ∀ a c, a < 17 → a ≠ agent → s.mem.cline? a line = some c → c.held = false) :
    opOwnershipGrant agent line s
      = ({ s.ownOp agent line with mem := (s.ownOp agent line).mem.setQueue line (s.mem.queue line).tail } : State).drain line := by
  have hothers : ¬ (agents.any fun a => a != agent && (match s.mem.cline? a line with
      | some c => c.held
      | none => false)) = true := by
    rw [List.any_eq_true]
    rintro ⟨a, ha, hholds⟩
    obtain ⟨hne, hholds⟩ := Bool.and_eq_true_iff.mp hholds
    split at hholds
    · next c hc => exact Bool.false_ne_true ((hheld a c (List.mem_range.mp ha) (bne_iff_ne.mp hne) hc).symm.trans hholds)
    · exact Bool.false_ne_true hholds
  exact if_pos ⟨hhead, hothers, hroom⟩

/-! ## Lines given up (07 R219, R220, R225) -/

/-- WRITE_BACK of a valid line without early stores and outside its minimum hold evicts it. -/
theorem opWriteBack_evicts {c : CacheLine} (hc : s.mem.cline? agent line = some c) (hearly : c.early = 0) (hheld : c.held = false) (hup : s.up = true)
    (hvalid : c.st ≠ .pending) : opWriteBack agent line s = s.evict agent line := by
  simp [opWriteBack, hc, hearly, hheld, hup, hvalid]

/-- An evicted line that was modified is in its stack, and no other byte changed. -/
theorem State.evict_modified {c : CacheLine} (hc : s.mem.cline? agent line = some c) (hst : c.st = .modified) :
    (s.evict agent line).mem.cline? agent line = none
      ∧ (∀ i, i < 64 → (s.evict agent line).devByte (64 * line + i) = BitVec.ofNat 8 (c.data.toNat / 256 ^ i))
      ∧ ∀ a, (a < 64 * line ∨ 64 * line + 64 ≤ a) → (s.evict agent line).devByte a = s.devByte a := by
  have hevict : s.evict agent line = s.writeBackOp agent line := by
    rw [State.evict, hc]
    exact if_pos hst
  obtain ⟨p, hmem, -⟩ := State.writeBackOp_mem hc
  have hdev : (s.evict agent line).mem.dev = s.mem.dev.writeMasked (64 * line) (2 ^ 64 - 1) c.data.toNat := by
    rw [hevict, hmem]
    exact s.mem.stackWrite_dev line c.data c.poison
  refine ⟨?_, fun i hi => ?_, fun a ha => ?_⟩
  · rw [hevict, hmem]
    exact MemSys.cline?_dropCline_self (s.mem.stackWrite line c.data c.poison) agent line
  · have hwhole : (2 ^ 64 - 1).testBit i = true := by
      rw [Nat.testBit_two_pow_sub_one]
      exact decide_eq_true hi
    rw [State.devByte, hdev, Mem.read_writeMasked_in s.mem.dev line c.data.toNat hi hwhole]
  · rw [State.devByte, hdev, Mem.read_writeMasked_out s.mem.dev _ _ ha, State.devByte]

/-- An evicted line that was not modified leaves its agent, with the reservations of its core on it, and nothing else. -/
theorem State.evict_clean {c : CacheLine} (hc : s.mem.cline? agent line = some c) (hst : c.st ≠ .modified) :
    s.evict agent line = ({ s with mem := s.mem.dropCline agent line } : State).clearResv agent line := by
  rw [State.evict, hc]
  exact if_neg hst

/-- DIRECTORY_RECLAIM recalls the line from every agent. -/
theorem opDirectoryReclaim_mem (hup : s.up = true) (hdir : s.mem.dirAt line ≠ {}) (hfree : s.mem.free line = true) :
    (opDirectoryReclaim line s).mem = (s.recall line none).mem := by
  have hcount : (agents.foldl (fun t a =>
      match s.mem.cline? a line with
      | some _ => if a < 16 then t.bumpCore a (corePage a 2) .ccCntStale Fld.ccCntStale_reclaims 1 else t
      | none => t) s).mem = s.mem := by
    refine foldl_keeps (P := fun t : State => t.mem = s.mem) (fun t a ht => ?_) rfl agents
    split
    · split
      · exact (State.bumpCore_mem ..).trans ht
      · exact ht
    · exact ht
  have hgoes : (s.up && decide (s.mem.dirAt line ≠ {}) && s.mem.free line) = true := by simp [hup, hdir, hfree]
  unfold opDirectoryReclaim
  rw [if_pos hgoes, State.bump_mem]
  exact State.recall_mem_congr hcount line none

end

/-- Settles O26: a reader and an owner take the line by their transactions, a write-back and a reclaim give it up, and the queue goes on in order of arrival. -/
theorem cacheLines : Obligations.CacheLines := by
  unfold Obligations.CacheLines
  refine ⟨fun agent line s => ⟨fun hup hmay hmiss => ⟨fun hfree hroom => ?_, fun hbusy => ?_, fun hnew => ?_⟩, fun hhead hroom hheld => ?_⟩,
    fun agent line s c => ⟨fun hc hearly hheld hup => ⟨fun hst => ?_, fun hst => ?_⟩, fun hc => ?_, fun hup hdir hfree => ?_⟩,
    fun line s => ⟨State.drain_stops, fun r l hq hheld => ⟨?_, ?_⟩⟩⟩
  · obtain ⟨c, hline, hearly, hheld, hdata, halone, hshared⟩ := State.readSharedOp_miss hmiss
    refine ⟨s.readSharedOp agent line, c, congrArg Host.Outcome.next (opReadShared_served hup hmay hmiss hfree hroom), hline, hearly, hheld, ?_, hdata⟩
    split
    · next hnone => exact halone hnone
    · next hsome => exact hshared hsome
  · exact ⟨_, congrArg Host.Outcome.next (opReadShared_waits hup hmay hmiss hbusy), State.mem_queue_defer _⟩
  · have hmem := opReadOwn_mem hup hmay hmiss hnew
    refine ⟨opReadOwn agent line s, rfl, ?_⟩
    rw [hmem]
    refine ⟨MemSys.queue_setQueue .., ?_, rfl, rfl⟩
    rw [MemSys.blocked, MemSys.queue_setQueue]
    simp
  · obtain ⟨⟨c, hline, hc⟩, hentry, hothers⟩ := s.ownOp_line agent line
    obtain ⟨hhold, hearly, hst⟩ := hc
    exact ⟨{ s.ownOp agent line with mem := (s.ownOp agent line).mem.setQueue line (s.mem.queue line).tail }, c,
      congrArg Host.Outcome.next (opOwnershipGrant_granted hhead hroom hheld), hline, hhold, hearly, hst, hentry, MemSys.queue_setQueue .., hothers⟩
  · have hvalid : c.st ≠ .pending := by simp [hst]
    exact ⟨_, congrArg Host.Outcome.next (opWriteBack_evicts hc hearly hheld hup hvalid), State.evict_modified hc hst⟩
  · have hvalid : c.st ≠ .pending ∧ c.st ≠ .modified := by rcases hst with hst | hst <;> simp [hst]
    refine ⟨_, congrArg Host.Outcome.next (opWriteBack_evicts hc hearly hheld hup hvalid.1), ?_⟩
    rw [State.evict_clean hc hvalid.2, State.clearResv_mem]
    exact ⟨MemSys.cline?_dropCline_self .., rfl, rfl, fun k a hk ha => State.resv_clearResv _ hk ha⟩
  · have hexpires : opHoldExpiry agent line s = ({ s with mem := s.mem.setCline agent line { c with held := false } } : State).drain line := by
      rw [opHoldExpiry, hc]
    exact congrArg Host.Outcome.next hexpires
  · have hmem := opDirectoryReclaim_mem hup hdir hfree
    refine ⟨opDirectoryReclaim line s, rfl, ?_⟩
    rw [hmem]
    refine ⟨State.recall_dirAt s line none, fun a d ha hd => State.recall_pending s line none ha (Option.some_ne_none a) hd, fun a ha => ?_⟩
    rw [State.devByte, hmem]
    exact s.recall_out line none ha
  · rintro err rfl
    exact State.drain_read hq hheld
  · rintro mask data rfl
    exact State.drain_write hq hheld

end Sys2Proof.Machine
end

section
/-! SUPPORT. Accesses at the homes, errors of the caches, and the host's transactions on the lines that the host-line cache holds (07 R217, R220, R225 to R227, 11 R340). -/

namespace Sys2Proof.Machine

section
variable {s : State} {line : Nat}

/-! ## Non-allocating accesses of stack memory (07 R220) -/

/-- A read at the home answers the line as its home holds it, and leaves memory. -/
theorem State.homeRead_ok (s : State) (line : Nat) :
    (s.homeRead line .ok).reply = lineReply (s.mem.homeLine line) (s.mem.homePoison line) ∧ (s.homeRead line .ok).mem = s.mem := by
  have hmem : ((s.stackRead line .ok).snoopRead line).mem = s.mem := by rw [State.snoopRead_mem, State.stackRead_ok]
  exact ⟨congrArg (fun m : MemSys => lineReply (m.homeLine line) (m.homePoison line)) hmem, hmem⟩

/-- A write at the home of a line that is not poisoned merges its bytes after the recall. -/
theorem State.homeWrite_mem {mask : Nat} {data : Line} (hp : (s.recall line none).mem.homePoison line = false) :
    (s.homeWrite line mask data).1.mem
      = { (s.recall line none).mem with dev := (s.recall line none).mem.dev.writeMasked (64 * line) mask data.toNat } := by
  have hclean : ¬ ((s.recall line none).carveAccess line true).mem.homePoison line = true := by
    rw [State.carveAccess_mem, hp]
    exact Bool.false_ne_true
  unfold State.homeWrite State.lineWrite
  rw [if_neg hclean]
  exact congrArg (fun m : MemSys => { m with dev := m.dev.writeMasked (64 * line) mask data.toNat }) (State.carveAccess_mem ..)

/-- It leaves the masked bytes, and every byte outside the line, as they should be, and no agent with the line. -/
theorem State.homeWrite_line {mask : Word} {data : Line} (hp : (s.recall line none).mem.homePoison line = false) :
    let t := (s.homeWrite line mask.toNat data).1
    (∀ i, i < 64 → mask.bit i = true → t.devByte (64 * line + i) = BitVec.ofNat 8 (data.toNat / 256 ^ i))
      ∧ (∀ a, (a < 64 * line ∨ 64 * line + 64 ≤ a) → t.devByte a = s.devByte a)
      ∧ ∀ a d, a < 17 → t.mem.cline? a line = some d → d.st = .pending := by
  intro t
  have hdev : t.mem.dev = (s.recall line none).mem.dev.writeMasked (64 * line) mask.toNat data.toNat := by simp only [t, State.homeWrite_mem hp]
  have hcaches : t.mem.caches = (s.recall line none).mem.caches := by simp only [t, State.homeWrite_mem hp]
  refine ⟨fun i hi hm => ?_, fun a ha => ?_, fun a d ha hd => ?_⟩
  · rw [State.devByte, hdev]
    exact Mem.read_writeMasked_in _ line data.toNat hi hm
  · rw [State.devByte, hdev, Mem.read_writeMasked_out _ _ _ ha]
    exact s.recall_out line none ha
  · rw [MemSys.cline?, hcaches] at hd
    exact s.recall_pending line none ha (Option.some_ne_none a) hd

section
variable (hup : s.up = true) (hbank : bankLine line = none) (hline : isLine line = true)
include hup hbank hline

theorem opNonallocRead_stack (err : MemErr) :
    opNonallocRead line err s = if s.mem.free line then s.homeRead line err else s.defer line (.read err) := by
  simp [opNonallocRead, hup, hbank, hline]

theorem opNonallocWrite_stack (mask : Word) (data : Line) :
    opNonallocWrite line mask data s = if s.mem.free line then (s.homeWrite line mask.toNat data).1 else s.defer line (.write mask data) := by
  simp [opNonallocWrite, hup, hbank, hline]

end

/-! ## Non-allocating accesses of a Relief bank (07 R218, 06 R200) -/

section
variable {k g : Nat} (hup : s.up = true) (hbank : bankLine line = some (k, g))
include hup hbank

theorem opNonallocRead_bank :
    opNonallocRead line .ok s = { s with reply := lineReply ((s.bank k).data.readLine (64 * g)) ((s.bank k).poisoned g) } := by
  simp [opNonallocRead, hup, hbank, State.bankError]

/-- A write of a granule that is not poisoned merges its bytes in the bank. -/
theorem opNonallocWrite_bank (mask : Word) (data : Line) (hp : (s.bank k).poisoned g = false) :
    opNonallocWrite line mask data s = s.setBank k { (s.bank k).clearResv (64 * g) 64 none with
      data := (s.bank k).data.writeMasked (64 * g) mask.toNat data.toNat } := by
  obtain ⟨hlost, hclean⟩ := Bool.or_eq_false_iff.mp hp
  simp [opNonallocWrite, hup, hbank, Bank.writeGranule, Bank.clearResv, hlost, hclean]

end

/-- The bytes of the banks after masked bytes of one granule were written. -/
theorem State.bankByte_writeMasked {k g : Nat} {mask : Word} {data : Line} {x : Bank} (hx : x.data = (s.bank k).data.writeMasked (64 * g) mask.toNat data.toNat) :
    (∀ i, i < 64 → (s.setBank k x).bankByte k (64 * g + i) = if mask.bit i then BitVec.ofNat 8 (data.toNat / 256 ^ i) else s.bankByte k (64 * g + i))
      ∧ ∀ j a, (j ≠ k ∨ a < 64 * g ∨ 64 * g + 64 ≤ a) → (s.setBank k x).bankByte j a = s.bankByte j a := by
  refine ⟨fun i hi => ?_, fun j a hout => ?_⟩
  · rw [State.bankByte, State.bank_setBank_self, hx]
    by_cases hm : mask.bit i = true
    · rw [if_pos hm]
      exact Mem.read_writeMasked_in _ g data.toNat hi hm
    · have hmask : ¬ mask.toNat.testBit i = true := hm
      rw [if_neg hm, Mem.read_writeMasked, Nat.add_sub_cancel_left, if_neg fun h => hmask h.2.2, State.bankByte]
  · by_cases hj : j = k
    · have hbytes : a < 64 * g ∨ 64 * g + 64 ≤ a := hout.resolve_left (not_not_intro hj)
      rw [hj, State.bankByte, State.bank_setBank_self, hx, Mem.read_writeMasked_out _ _ _ hbytes, State.bankByte]
    · rw [State.bankByte, State.bank_setBank, if_neg hj, State.bankByte]

/-! ## Uncorrectable errors of a cached line (07 R226) -/

theorem MemSys.held_iff {m : MemSys} {line : Nat} : m.held line = false ↔ ∀ a c, a < 17 → m.cline? a line = some c → c.held = false := by
  have hany : m.held line = true ↔ ∃ a c, a < 17 ∧ m.cline? a line = some c ∧ c.held = true := by
    rw [MemSys.held, List.any_eq_true]
    refine ⟨fun ⟨a, ha, h⟩ => ?_, fun ⟨a, c, ha, hc, h⟩ => ⟨a, List.mem_range.mpr ha, ?_⟩⟩
    · split at h
      · next c hc => exact ⟨a, c, List.mem_range.mp ha, hc, h⟩
      · exact absurd h Bool.false_ne_true
    · rw [hc]
      exact h
  rw [← Bool.not_eq_true, hany]
  simp only [not_exists, not_and, Bool.not_eq_true]

/-- An error of a line counts in the page of the core whose cache holds it. -/
def State.countCacheError (s : State) (agent : Nat) (f : Fld) : State := if agent < 16 then s.bumpCore agent (corePage agent 2) .ccErr f 1 else s

@[simp] theorem State.countCacheError_mem (s : State) (agent : Nat) (f : Fld) : (s.countCacheError agent f).mem = s.mem := by
  unfold State.countCacheError
  split
  · exact State.bumpCore_mem ..
  · rfl

section
variable {agent : Nat} {c : CacheLine} (hc : s.mem.cline? agent line = some c)
include hc

/-- A modified line is written back with poison. -/
theorem opCacheUncorrectableError_modified (hst : c.st = .modified) :
    ∃ t : State, opCacheUncorrectableError agent line s = t.drain line ∧ t.mem.cline? agent line = none ∧ t.mem.poison.get (fun _ => false) line = true := by
  let t : State := ({ s with mem := s.mem.setCline agent line { c with poison := true } } : State).countCacheError agent Fld.ccErr_uncorrDirty
  have htmem : t.mem = s.mem.setCline agent line { c with poison := true } := State.countCacheError_mem ..
  have ht : t.mem.cline? agent line = some { c with poison := true } := by rw [htmem, MemSys.cline?_setCline_self]
  obtain ⟨p, hmem, hpoison⟩ := State.writeBackOp_mem ht
  refine ⟨t.writeBackOp agent line, ?_, ?_, ?_⟩
  · unfold opCacheUncorrectableError
    simp only [hc]
    split
    · next hpending => exact nomatch hpending.symm.trans hst
    · rfl
    · next hother => exact absurd hst hother
  · rw [hmem]
    exact MemSys.cline?_dropCline_self (t.mem.stackWrite line c.data true) agent line
  · rw [hmem]
    exact hpoison

/-- A clean line is dropped and read again. -/
theorem opCacheUncorrectableError_clean (hst : c.st = .shared ∨ c.st = .exclusive) (hearly : c.early = 0) (hqueue : s.mem.queue line = [])
    (hheld : ∀ a d, a < 17 → a ≠ agent → s.mem.cline? a line = some d → d.held = false) :
    ∃ t : State, opCacheUncorrectableError agent line s = t.readSharedOp agent line ∧ t.mem.cline? agent line = none := by
  let t : State := (({ s with mem := s.mem.giveUp agent line } : State).clearResv agent line).countCacheError agent Fld.ccErr_uncorrClean
  have hclean : c.st ≠ .modified := by rcases hst with hst | hst <;> simp [hst]
  have hdropped : s.mem.giveUp agent line = s.mem.dropCline agent line := by simp [MemSys.giveUp, hc, hearly, hclean]
  have htmem : t.mem = s.mem.dropCline agent line := by rw [← hdropped]; exact State.countCacheError_mem ..
  have hnone : t.mem.cline? agent line = none := by rw [htmem, MemSys.cline?_dropCline_self]
  have hfree : t.mem.free line = true := by
    rw [MemSys.free_iff, MemSys.held_iff, htmem]
    refine ⟨hqueue, fun a d ha hd => ?_⟩
    rw [MemSys.cline?_dropCline] at hd
    split at hd
    · exact nomatch hd
    · next hne => exact hheld a d ha hne hd
  refine ⟨t, ?_, hnone⟩
  unfold opCacheUncorrectableError
  rcases hst with hst | hst <;> (simp only [hc, hst]; exact if_pos hfree)

end

/-! ## The host-line cache (07 R217, 11 R340) -/

@[simp] theorem State.hline?_setHline_self (s : State) (line : Nat) (l : HostLine) : (s.setHline line l).hline? line = some l :=
  (SMap.find?_insert ..).trans (if_pos rfl)

section
variable {l : HostLine} (hlink : s.linkUp = true) (hl : s.hline? line = some l)
include hlink hl

/-- A snoop is answered with modified data. -/
theorem opHostSnoop_reply (kind : SnoopKind) : (opHostSnoop line kind s).reply = if l.valid ∧ l.dirty then lineReply l.data l.poison else [] := by
  have hreply : (if (l.valid && l.dirty) = true then lineReply l.data l.poison else []) = if l.valid ∧ l.dirty then lineReply l.data l.poison else [] := by
    simp only [Bool.and_eq_true]
  unfold opHostSnoop
  simp only [hl, hlink, not_true, if_false]
  cases kind with
  | snpCur => exact hreply
  | snpData => exact hreply
  | snpInv =>
    dsimp only
    split <;> exact hreply

/-- SnpCur only reads the line, SnpData shares it, and SnpInv takes it but for its early-visible bytes. -/
theorem opHostSnoop_line :
    (opHostSnoop line .snpCur s).mem = s.mem
      ∧ (opHostSnoop line .snpData s).hline? line = some { l with owned := false, dirty := false }
      ∧ (l.early = 0 → (opHostSnoop line .snpInv s).hline? line = none)
      ∧ (l.early ≠ 0 → (opHostSnoop line .snpInv s).hline? line = some { l with valid := false, owned := false, dirty := false, poison := false }) := by
  unfold opHostSnoop
  simp only [hl, hlink, not_true, if_false, true_and]
  refine ⟨State.hline?_setHline_self .., fun hearly => ?_, fun hearly => ?_⟩
  · rw [if_pos hearly]
    exact (SMap.find?_erase ..).trans (if_pos rfl)
  · rw [if_neg hearly]
    exact State.hline?_setHline_self ..

/-- The host's grant makes the early stores visible, and nobody waits to write the line. -/
theorem opHostLineOwnershipGrant_granted (data : Line) (hnot : l.owned = false) :
    (opHostLineOwnershipGrant line data s).pl.hostWriters.at [] line = []
      ∧ (opHostLineOwnershipGrant line data s).hline? line = some { l with
          data := (if l.valid then l.data else mergeLine data l.data l.early), valid := true, owned := true, dirty := l.dirty || l.early != 0, early := 0 } := by
  unfold opHostLineOwnershipGrant
  simp only [hl, hlink, hnot, not_true, or_self, Bool.false_eq_true, if_false]
  exact ⟨(SMap.at_put ..).trans (if_pos rfl), State.hline?_setHline_self ..⟩

end

/-! ## Outbound streams (07 R227) -/

/-- The acknowledgement takes a stream past its oldest write. -/
theorem ackWrite_append {l l' : List OutReq} {x : OutReq} (hl : ∀ y ∈ l, y.port = none) (hx : x.port ≠ none) : ackWrite (l ++ x :: l') = l' := by
  induction l with
  | nil => exact if_pos (Option.isSome_iff_ne_none.mpr hx)
  | cons y l ih =>
    have hy : ¬ y.port.isSome = true := by rw [hl y List.mem_cons_self]; exact Bool.false_ne_true
    exact (if_neg hy).trans (ih fun z hz => hl z (List.mem_cons_of_mem y hz))

/-- HOST_ORDERED_ACK advances the stream of its function, and no other. -/
theorem opHostOrderedAck_outbound (f g : Nat) (hlink : s.linkUp = true) :
    (opHostOrderedAck f s).pl.outbound.at [] g = if g = f then ackWrite (s.pl.outbound.at [] f) else s.pl.outbound.at [] g := by
  unfold opHostOrderedAck
  rw [if_pos hlink]
  exact SMap.at_put ..

end

end Sys2Proof.Machine
end

section
/-! Homes and host lines: the obligation, from the rules above. -/

namespace Sys2Proof.Machine

/-- Settles O27: accesses at the homes and banks, errors of cached lines, and the host's transactions each leave what their rule names. -/
theorem homesAndHostLines : Obligations.HomesAndHostLines := by
  unfold Obligations.HomesAndHostLines
  refine ⟨fun line mask data s hup => ⟨fun hbank hline => ⟨fun hfree => ?_, fun hbusy => ?_⟩, fun k g hbank => ⟨?_, fun hp => ?_⟩⟩,
    fun agent line f data s => ⟨fun c hc => ⟨fun hst => ?_, fun hst hearly hqueue hheld => ?_⟩,
      fun hlink l hl => ⟨fun kind => ?_, fun hnot => ?_⟩, fun hlink => ⟨_, rfl, fun l x l' hout hports hport => ?_, fun g hg => ?_⟩⟩⟩
  · have hread := opNonallocRead_stack hup hbank hline .ok
    have hwrite := opNonallocWrite_stack hup hbank hline mask data
    rw [if_pos hfree] at hread hwrite
    exact ⟨⟨_, congrArg Host.Outcome.next hread, State.homeRead_ok s line⟩, fun hp => ⟨_, congrArg Host.Outcome.next hwrite, State.homeWrite_line hp⟩⟩
  · have hread := opNonallocRead_stack hup hbank hline .ok
    have hwrite := opNonallocWrite_stack hup hbank hline mask data
    have hwaits : ¬ s.mem.free line = true := by rw [hbusy]; exact Bool.false_ne_true
    rw [if_neg hwaits] at hread hwrite
    exact ⟨⟨_, congrArg Host.Outcome.next hread, State.defer_joins rfl⟩, _, congrArg Host.Outcome.next hwrite, (State.defer_joins rfl).1⟩
  · exact ⟨_, congrArg Host.Outcome.next (opNonallocRead_bank hup hbank), rfl, rfl⟩
  · obtain ⟨hgranule, hrest⟩ := State.bankByte_writeMasked (s := s) (k := k) (g := g) (mask := mask) (data := data)
      (x := { (s.bank k).clearResv (64 * g) 64 none with data := (s.bank k).data.writeMasked (64 * g) mask.toNat data.toNat }) rfl
    exact ⟨_, congrArg Host.Outcome.next (opNonallocWrite_bank hup hbank mask data hp), hgranule, hrest, rfl⟩
  · obtain ⟨t, hop, hline, hpoison⟩ := opCacheUncorrectableError_modified hc hst
    exact ⟨t, congrArg Host.Outcome.next hop, hline, hpoison⟩
  · obtain ⟨t, hop, hnone⟩ := opCacheUncorrectableError_clean hc hst hearly hqueue hheld
    obtain ⟨d, hline, -, hfree, -, halone, hshared⟩ := State.readSharedOp_miss hnone
    refine ⟨_, d, congrArg Host.Outcome.next hop, hline, ?_, hfree⟩
    by_cases hothers : t.mem.others agent line = []
    · exact .inr (halone hothers).1
    · exact .inl (hshared hothers).1
  · obtain ⟨hcur, hdata, hinv, hkeeps⟩ := opHostSnoop_line hlink hl
    refine ⟨opHostSnoop line kind s, rfl, opHostSnoop_reply hlink hl kind, ?_, ?_, ?_, ?_⟩
    · rintro rfl
      exact hcur
    · rintro rfl
      exact hdata
    · rintro rfl
      exact hinv
    · rintro rfl
      exact hkeeps
  · exact ⟨opHostLineOwnershipGrant line data s, rfl, opHostLineOwnershipGrant_granted hlink hl data hnot⟩
  · rw [opHostOrderedAck_outbound f f hlink, if_pos rfl, hout, ackWrite_append hports hport]
  · rw [opHostOrderedAck_outbound f g hlink, if_neg hg]

end Sys2Proof.Machine
end

section
/-! SUPPORT. Performed writes of the synchronisation page, and what a discard of barrier rounds leaves of the unit (08 R241, R264, R566; 16 R488). -/

namespace Sys2Proof.Machine

/-! ## A performed triggering write (00 R8, 16 R488) -/

/-- The state in which a triggering write takes effect: the write is recorded in the Patina log, and its register has taken its RW fields. -/
def State.written (s : State) (src page : Nat) (r : Reg) (v : Word) : State :=
  (s.logWrite src page r.off v (s.reg (pageKey (srcFunc src) page) r) true).writeReg (pageKey (srcFunc src) page) r v

section
variable {s : State} {src page core : Nat} {r : Reg} {v : Word}

theorem State.offer_perform {off size : Nat} (h : s.verdict src page off size = .perform) (act : State → State) : s.offer src page off size act = act s := by
  rw [State.offer, h]

theorem State.trigger_perform (h : s.verdict src page r.off 8 = .perform) (act : State → State) :
    s.trigger src page r v act = act (s.written src page r v) :=
  State.offer_perform h _

theorem State.triggerIf_perform (h : s.verdict src page r.off 8 = .perform) {ok : State → Bool} (hok : ok s = true) (act : State → State) :
    s.triggerIf src page r v ok act = act (s.written src page r v) :=
  (State.offer_perform h _).trans (if_pos hok)

theorem State.written_logged (s : State) (src page : Nat) (r : Reg) (v : Word) : Logged s (s.written src page r v) where
  cores_eq := by rw [State.written, State.writeReg_cores, State.logWrite_cores]
  cells_eq := by rw [State.written, State.writeReg_cells, State.logWrite_cells]
  mem_eq := by rw [State.written, State.writeReg_mem, State.logWrite_mem]
  time_eq := by rw [State.written, State.writeReg_time, State.logWrite_time]
  objects_eq := (State.objects_of_pl (State.writeReg_pl ..)).trans (State.logWrite_objects ..)
  sec_eq := by rw [State.written, State.writeReg_sec, State.logWrite_sec]

/-- Every function sees the one synchronisation page of a core. -/
theorem pageKey_syncPage (f core : Nat) : pageKey f (0x1003 + 0x100 * core) = syncPage core := by
  have hone : copiedPage (0x1003 + 0x100 * core) = false := by
    rw [copiedPage, decide_eq_false (show ¬ 0x1003 + 0x100 * core ≤ 0x403 by omega), Bool.and_false]
  rw [pageKey, hone]
  simp only [syncPage, corePage, regKey, Bool.false_and, Bool.false_eq_true, if_false]
  omega

/-- A write of a synchronisation page leaves the page's other registers, but the header's PAGE_LOGSEQ. -/
theorem State.reg_written_syncPage {q : Reg} (hq : q.off ≠ r.off) (hlog : q.off ≠ 0x30) :
    (s.written src (0x1003 + 0x100 * core) r v).reg (syncPage core) q = s.reg (syncPage core) q := by
  have hpage : syncPage core = 0x1003000 + 0x100000 * core := by simp only [syncPage, corePage, regKey]; omega
  have hseq : patPage + Reg.patMseq.off < 0x1003000 := by decide
  have hlost : patPage + Reg.patLost.off < 0x1003000 := by decide
  rw [State.written, pageKey_syncPage]
  refine (State.rd_wr_of_ne _ _ (by omega)).trans (State.rd_logWrite (by omega) (by omega) ?_ ..)
  rw [pageKey_syncPage]
  omega

end

/-! ## Units whose rounds are discarded (08 R264, R566) -/

/-- A unit as BAR_CTL.RESET leaves it, before its stalled entries arrive. -/
def BarUnit.restarted (x : BarUnit) : BarUnit := { x with rounds := [], next := 0, done := 0, lost := [] }

/-- A unit as its watchdog leaves it: the newest discarded round has the number `newest`. -/
def BarUnit.discarded (x : BarUnit) (newest : Nat) : BarUnit :=
  { x with rounds := [], next := (newest + 1) % 2 ^ 32, stalled := [], lost := x.lost ++ x.rounds.map Prod.fst, lostLow := newest % 65536 }

/-- A restarted unit without stalled entries has nothing to drain. -/
theorem BarUnit.drain_restarted {x : BarUnit} (h : x.stalled = []) (n : Nat) (out : List (Nat × Nat × Nat × Nat)) :
    BarUnit.drain (n + 1) x.restarted.settle out = (x.restarted, out) := by
  have hsettle : x.restarted.settle = x.restarted := rfl
  have hnone : x.restarted.stalled = [] := h
  rw [hsettle, BarUnit.drain, hnone]
  rfl

theorem State.bar_bumpCore (s : State) (core u c pk : Nat) (r : Reg) (f : Fld) (n : Nat) : (s.bumpCore c pk r f n).bar core u = s.bar core u :=
  State.bar_of_barSide (State.barSide_of_cores (State.bumpCore_cores ..)) core u

/-- Traps of cells leave every unit as it is. -/
theorem State.bar_foldl_trapCell {β : Type} {f : State → β → State} (hf : ∀ t b, f t b = t ∨ ∃ c code info pc, f t b = t.trapCell c code info pc)
    (l : List β) (s : State) (core u : Nat) : (l.foldl f s).bar core u = s.bar core u := by
  refine State.bar_of_standing (State.standing_foldl (fun t b => ?_) l s) core u
  obtain h | ⟨c, code, info, pc, h⟩ := hf t b
  · rw [h]
  · rw [h, State.standing_trapCell]

end Sys2Proof.Machine
end

section
/-! Synchronisation registers and watchdogs: the obligation, from the rules above. -/

namespace Sys2Proof.Machine

section
variable {s : State} {src core : Nat} {v : Word}

/-- SYNC_MAPINV of the physical function, or of another than a partition's, drops the entries of its context. -/
theorem opSyncMapinv_perform (h : s.verdict src (0x1003 + 0x100 * core) Reg.syncMapinv.off 8 = .perform) (hf : s.funcPart src = none) :
    let u := s.written src (0x1003 + 0x100 * core) .syncMapinv v
    opSyncMapinv src core v s = if v.bit 63 then
        u.setCore core { u.core core with mapCache := (u.core core).mapCache.filter fun e => e.1 / 2 ^ 20 != Fld.syncMapinv_context.get v }
      else u := by
  unfold opSyncMapinv
  exact State.triggerIf_perform h (by rw [hf]) _

theorem opSigDataWrite_perform (h : s.verdict src (0x1003 + 0x100 * core) Reg.sigData.off 8 = .perform) :
    let phys := s.fld (syncPage core) .sigIdx Fld.sigIdx_counter
    opSigDataWrite src core v s = (s.logWrite src (0x1003 + 0x100 * core) Reg.sigData.off v (s.counter core phys) true).setCounter core phys v := by
  unfold opSigDataWrite
  exact State.offer_perform h _

/-- BAR_CTL.RESET restarts the unit that BAR_IDX named before the write. -/
theorem opBarCtlReset_bar (h : s.verdict src (0x1003 + 0x100 * core) Reg.barCtl.off 8 = .perform) (hreset : v.bit 0 = true) {u : Nat}
    (hu : s.fld (syncPage core) .barIdx Fld.barIdx_unit = u) (hstalled : (s.bar core u).stalled = []) :
    (opBarCtlReset src core v s).bar core u = (s.bar core u).restarted := by
  let t := s.written src (0x1003 + 0x100 * core) .barCtl v
  have hidx : t.fld (syncPage core) .barIdx Fld.barIdx_unit = u :=
    (congrArg Fld.barIdx_unit.get (State.reg_written_syncPage (by decide) (by decide))).trans hu
  have hbar : t.bar core u = s.bar core u := State.bar_of_barSide (State.barSide_of_cores (State.written_logged ..).cores_eq) core u
  have hop : opBarCtlReset src core v s = (t.setBar core u (t.bar core u).restarted).barDrain core u := by
    rw [← hidx]
    exact (State.trigger_perform h _).trans (if_pos hreset)
  rw [hop, State.barDrain_bar, State.bar_setBar, hbar, BarUnit.drain_restarted hstalled]

end

/-- A cell blocked too long in one wait traps with WATCHDOG at that instruction (08 R263). -/
theorem opEngineWatchdog_fires {s : State} {c : CellRef} {b : Block} (hphase : (s.cellAt c).phase = .blocked b) (hwatched : b.watched = true)
    (hblocked : s.cellBlocked c = true) (hon : s.fld (syncPage c.core) .syncWd Fld.syncWd_engMs ≠ 0) (hthr : s.board.thrReq.testBit (c.core / 4) = false) :
    opEngineWatchdog c s = (s.bumpCore c.core (syncPage c.core) .syncCnt Fld.syncCnt_engWd 1).trapCell c 4 0 (s.cellAt c).pc := by
  have hphase' : (s.at c).cell.phase = .blocked b := hphase
  have hfires : (s.fld (syncPage c.core) .syncWd Fld.syncWd_engMs != 0 && s.cellBlocked c && !s.board.thrReq.testBit (c.core / 4)) = true := by
    rw [hblocked, hthr, bne_iff_ne.mpr hon]
    rfl
  unfold opEngineWatchdog
  dsimp only
  rw [hphase']
  dsimp only
  rw [if_pos hwatched]
  exact if_pos hfires

/-- The barrier watchdog of a unit whose context is resident discards the unit's rounds (08 R264). -/
theorem opBarrierWatchdog_bar {s : State} {core unit n : Nat} (hctx : (s.bar core unit).ctx = some n) (hres : n ∈ (s.core core).residents)
    (hrounds : (s.bar core unit).rounds ≠ []) (hon : s.fld (syncPage core) .syncWd Fld.syncWd_barMs ≠ 0) (hserve : s.serving = true)
    (hthr : s.board.thrReq.testBit (core / 4) = false) :
    ∃ newest, (opBarrierWatchdog core unit s).bar core unit = (s.bar core unit).discarded newest := by
  obtain ⟨r, hr⟩ := Option.ne_none_iff_exists'.mp (mt List.getLast?_eq_none_iff.mp hrounds)
  refine ⟨r.1, ?_⟩
  have hfires : (s.fld (syncPage core) .syncWd Fld.syncWd_barMs != 0 && s.serving && !s.board.thrReq.testBit (core / 4)
      && (s.core core).residents.contains n) = true := by
    rw [hserve, hthr, bne_iff_ne.mpr hon, List.contains_iff_mem.mpr hres]
    rfl
  unfold opBarrierWatchdog
  dsimp only
  rw [hr]
  dsimp only
  rw [hctx]
  dsimp only
  rw [if_pos hfires, State.bar_foldl_trapCell (hf := ?stalled), State.bar_foldl_trapCell (hf := ?blocked), State.bar_bumpCore, State.bar_setBar]
  · rw [BarUnit.discarded, hctx]
  case stalled =>
    intro t e
    split
    · exact .inr ⟨_, _, _, _, rfl⟩
    · exact .inl rfl
  case blocked =>
    intro t k
    split
    · split
      · exact .inr ⟨_, _, _, _, rfl⟩
      · exact .inl rfl
    · exact .inl rfl

/-- Settles O25: each register's write leaves its counter, map cache or unit as its rule says, and each watchdog traps its cell or discards its unit's rounds. -/
theorem synchronisationRegisters : Obligations.SynchronisationRegisters := by
  unfold Obligations.SynchronisationRegisters
  intro src core v s page phys u
  refine ⟨fun hv hf => ?_, fun hv => ?_, fun hv hreset hstalled => ?_, fun c b hphase hwatched hblocked hon hthr => ?_,
    fun unit n hctx hres hrounds hon hserve hthr => ?_⟩
  · have hlog := State.written_logged s src page .syncMapinv v
    refine ⟨_, congrArg Host.Outcome.next (opSyncMapinv_perform hv hf), ?_⟩
    split
    · exact ⟨hlog.mem_eq, hlog.cells_eq, by rw [State.core_setCore_self, State.core_of_cores hlog.cores_eq]⟩
    · exact ⟨hlog.mem_eq, hlog.cells_eq, by rw [State.core_of_cores hlog.cores_eq]⟩
  · have hkept : ∀ w p, (s.logWrite src page Reg.sigData.off v w true).counter core p = s.counter core p := fun w p =>
      congrArg (fun k : Core => k.counters.at 0 p) (State.core_of_cores (State.logWrite_cores ..) core)
    refine ⟨_, congrArg Host.Outcome.next (opSigDataWrite_perform hv), ?_, fun p hp => ?_, State.logWrite_mem .., State.logWrite_cells ..⟩
    · rw [State.counter_setCounter, if_pos rfl]
    · rw [State.counter_setCounter, if_neg hp, hkept]
  · refine ⟨_, rfl, ?_⟩
    rw [opBarCtlReset_bar hv hreset rfl hstalled]
    exact ⟨rfl, rfl, rfl⟩
  · exact ⟨_, congrArg Host.Outcome.next (opEngineWatchdog_fires hphase hwatched hblocked hon hthr),
      State.cellTrapped_trapCell (State.engine_of_cellSide (State.bumpCore_cellSide ..)) ..⟩
  · obtain ⟨newest, hbar⟩ := opBarrierWatchdog_bar hctx hres hrounds hon hserve hthr
    refine ⟨_, rfl, ?_⟩
    rw [hbar]
    exact ⟨rfl, rfl, rfl⟩

end Sys2Proof.Machine
end

section
/-! SUPPORT. Owners of doorbell pages and frames (09 R274, R276, R279, 14 R441): what an assignment, a change of owner and the end of a scrub leave. -/

namespace Sys2Proof.Machine

/-- A fold whose every step leaves its state is idle. -/
theorem foldl_idle {α β : Type} {f : α → β → α} {a : α} {l : List β} (h : ∀ b ∈ l, f a b = a) : l.foldl f a = a :=
  List.foldlRecOn l f (motive := fun x => x = a) rfl fun x hx b hb => by rw [hx, h b hb]

/-- A map kept to the keys that pass reads there as before, and nothing elsewhere. -/
theorem SMap.find?_filter_key {α : Type} (m : SMap α) (p : Nat → Bool) (k : Nat) :
    SMap.find? (m.filter fun e => p e.1) k = if p k = true then m.find? k else none := by
  induction m with
  | nil => simp [SMap.find?]
  | cons e m ih =>
    obtain ⟨j, v⟩ := e
    rw [List.filter_cons]
    by_cases hk : k = j
    · subst hk
      by_cases hp : p k = true
      · simp [hp, SMap.find?]
      · simp [hp, ih]
    · by_cases hp : p j = true
      · simp [hp, SMap.find?, hk, ih]
      · simp [hp, SMap.find?, hk, ih]

theorem Mem.read_filter_key (m : Mem) (p : Nat → Bool) (a : Nat) : Mem.read (m.filter fun e => p e.1) a = if p a = true then m.read a else 0 := by
  unfold Mem.read SMap.get
  rw [SMap.find?_filter_key]
  split <;> rfl

section
variable {s : State} {v : Word}

/-! ## Doorbell pages (09 R279, R296) -/

/-- Nothing is taken from a partition that keeps what it had. -/
theorem State.takenFrom_nothing (s : State) (src p : Nat) : s.takenFrom src p false = s := if_neg fun h => Bool.false_ne_true h.2

/-- A doorbell page read in a state with the same objects. -/
theorem State.db_of_objects {s t : State} (h : t.objects = s.objects) (i : Nat) : t.db i = s.db i := by
  have hdbs : t.objects.dbs = s.objects.dbs := congrArg Plinth.dbs h
  exact congrArg (fun m : SMap DbPage => m.at {} i) hdbs

/-- An allowed write of the physical function gives the page what it asks for, and is logged. -/
theorem opDbOwnerWrite_allowed (hv : s.verdict 0 0x400 Reg.dbOwner.off 8 = .perform) {p : Nat} (hp : s.fld (objPage 0) .objIdx Fld.objIdx_dbpage = p)
    (hok : s.dbAllowed p (s.dbAsked 0 p v) = true)
    (hown : (s.db p).assigned = false ∨ ((s.dbAsked 0 p v).assigned = true ∧ (s.dbAsked 0 p v).part = (s.db p).part)) :
    opDbOwnerWrite 0 v s = (s.logWrite 0 0x400 Reg.dbOwner.off v (s.db p).word (decide (s.dbAsked 0 p v ≠ s.db p))).setDb p (s.dbAsked 0 p v) := by
  have htaken : ((s.db p).assigned && !((s.dbAsked 0 p v).assigned && (s.dbAsked 0 p v).part == (s.db p).part)) = false := by
    rcases hown with hfree | ⟨hassigned, hpart⟩
    · rw [hfree, Bool.false_and]
    · rw [hassigned, hpart, beq_self_eq_true, Bool.and_self, Bool.not_true, Bool.and_false]
  have hsrc : srcFunc 0 = 0 := rfl
  have hreach : s.reachesDb 0 p = true := rfl
  unfold opDbOwnerWrite
  dsimp only
  rw [State.offer_perform hv, hsrc, hp, if_neg (not_not_intro hreach), if_pos hok, htaken, State.takenFrom_nothing]

/-- A refused write changes no page and sets the access-error bit. -/
theorem opDbOwnerWrite_refused (hv : s.verdict 0 0x400 Reg.dbOwner.off 8 = .perform) {p : Nat} (hp : s.fld (objPage 0) .objIdx Fld.objIdx_dbpage = p)
    (hno : s.dbAllowed p (s.dbAsked 0 p v) = false) :
    opDbOwnerWrite 0 v s = (s.logWrite 0 0x400 Reg.dbOwner.off v (s.db p).word false).accessErr (objPage 0) := by
  have hsrc : srcFunc 0 = 0 := rfl
  have hreach : s.reachesDb 0 p = true := rfl
  unfold opDbOwnerWrite
  dsimp only
  rw [State.offer_perform hv, hsrc, hp, if_neg (not_not_intro hreach), if_neg (ne_true_of_eq_false hno)]

/-! ## Frames (09 R274, R276) -/

/-- A frame read in a state with the same memory. -/
theorem State.frame_of_mem {s t : State} (h : t.mem = s.mem) (i : Nat) : t.frame i = s.frame i := congrArg (fun m : MemSys => m.frames.at {} i) h

/-- Dropping cached translations changes the cores and the device TLB. -/
theorem State.filterTlbs_eq (s : State) (p : TlbEntry → Bool) (q : WalkEntry → Bool) :
    ∃ cores dtlb, s.filterTlbs p q = { s with cores := cores, pl := { s.pl with dtlb := dtlb } } := by
  unfold State.filterTlbs
  dsimp only
  generalize List.range 16 = l
  obtain ⟨cores, h⟩ : ∃ cores, l.foldl (fun t c => t.setCore c { t.core c with tlb := (t.core c).tlb.filter p, walks := (t.core c).walks.filter q }) s
      = { s with cores := cores } :=
    foldl_keeps (P := fun t : State => ∃ cores, t = { s with cores := cores }) (fun t c ht => by obtain ⟨_, rfl⟩ := ht; exact ⟨_, rfl⟩) ⟨_, rfl⟩ l
  rw [h]
  exact ⟨_, _, rfl⟩

/-- A frame that enters SCRUBBING changes its own record of the frames. -/
theorem State.startScrub_mem (s : State) (f next part : Nat) : (s.startScrub f next part).mem = (s.setFrame f { state := 2, part := part, next := next }).mem := by
  unfold State.startScrub State.dropFrame
  obtain ⟨cores, dtlb, h⟩ := State.filterTlbs_eq (s.setFrame f { state := 2, part := part, next := next }) _ _
  rw [h]

theorem State.startScrub_dev (s : State) (f next part : Nat) : (s.startScrub f next part).mem.dev = s.mem.dev := by
  rw [State.startScrub_mem]
  rfl

theorem State.frame_startScrub (s : State) (f next part i : Nat) :
    (s.startScrub f next part).frame i = if i = f then { state := 2, part := part, next := next } else s.frame i := by
  rw [State.frame_of_mem (State.startScrub_mem ..), State.frame_setFrame]

theorem State.startScrub_scrubs (s : State) (f next part : Nat) : (s.startScrub f next part).pl.scrubs = s.pl.scrubs ++ [f] := by
  unfold State.startScrub State.dropFrame
  obtain ⟨cores, dtlb, h⟩ := State.filterTlbs_eq (s.setFrame f { state := 2, part := part, next := next }) _ _
  rw [h]
  rfl

/-- The physical function's assignment of a FREE frame to a partition starts its scrub. -/
theorem opFrameDataWrite_assign (hv : s.verdict 0 0x400 Reg.frameData.off 8 = .perform) {n : Nat} (hn : s.fld (objPage 0) .objIdx Fld.objIdx_frame = n)
    (hdev : n < devFrames) (hfree : (s.frame n).state = 0) (howned : Fld.frameData_owned.get v = 1) :
    opFrameDataWrite 0 v s = (s.logWrite 0 0x400 Reg.frameData.off v (s.frame n).word true).startScrub n 1 (Fld.frameData_partition.get v) := by
  have hnow : (s.frame n).owned = false := by simp [Frame.owned, hfree]
  have hsrc : srcFunc 0 = 0 := rfl
  unfold opFrameDataWrite
  dsimp only
  rw [State.offer_perform hv, hsrc, hn, hnow, howned, hfree, State.takenFrom_nothing]
  simp [hdev, b2n]

/-! ## The end of a scrub (14 R441, R443) -/

/-- Memory once a frame has been scrubbed and has taken its next state. -/
def MemSys.scrubbed (m : MemSys) (f : Nat) (x : Frame) : MemSys := { (m.forget f).zeroFrame f with frames := m.frames.put {} f x }

/-- The frame after its scrub. -/
def Frame.afterScrub (x : Frame) : Frame := if x.next = 0 then {} else { state := x.next, part := x.part }

/-- A scrub ends with its frame's lines zero and its frame in the next state; only registers, free values and the log differ besides. -/
theorem opScrubDone_done {n : Nat} (hserve : s.serving = true) (hstate : (s.frame n).state = 2) (hin : s.pl.scrubs.contains n = true)
    (hquiet : s.frameQuiet n = true) (hcasts : ∀ i, i < 15 → (s.cast i).state ≠ 3) :
    (opScrubDone n s).mem = s.mem.scrubbed n (s.frame n).afterScrub ∧ (opScrubDone n s).pl.scrubs = s.pl.scrubs.erase n := by
  have hgo : ¬ (¬ s.serving = true ∨ (s.frame n).state ≠ 2 ∨ ¬ s.pl.scrubs.contains n = true ∨ ¬ s.frameQuiet n = true) := by
    rw [hserve, hstate, hin, hquiet]
    decide
  unfold opScrubDone
  extract_lets x s1 s2 p s3 pk s4 s5
  have hmem : s5.mem = s3.mem := by rw [State.logEvent_mem, State.drew_mem, State.setFld_mem, State.bump_mem]
  have hsec : s5.sec = s3.sec := by rw [State.logEvent_sec, State.drew_sec, State.setFld_sec, State.bump_sec]
  have hscrubs : s5.objects.scrubs = s3.objects.scrubs := by
    rw [State.logEvent_objects, State.objects, State.drew_pl, State.setFld_pl, State.bump_pl, State.objects]
  clear_value s5
  have hfold : (List.range 15).foldl State.castFreed s5 = s5 := foldl_idle fun i hi => by
    have hcast : s5.cast i = s.cast i := congrArg (fun x : Security => x.casts.at {} i) hsec
    unfold State.castFreed
    dsimp only
    rw [hcast, if_neg fun h => hcasts i (List.mem_range.mp hi) h.1]
  rw [if_neg hgo, hfold]
  exact ⟨hmem, hscrubs⟩

end

end Sys2Proof.Machine
end

section
/-! Ownership: the obligation, from the rules above. -/

namespace Sys2Proof.Machine

/-- Settles O41: a write of DB_OWNER by its rule, a FREE frame's assignment, and the end of a scrub. -/
theorem ownership : Obligations.Ownership := by
  unfold Obligations.Ownership
  intro s
  refine ⟨fun v hv => ?_, fun v hv => ?_, fun n hserve hstate hin hquiet hcasts => ?_⟩
  · intro p n
    refine ⟨fun hok hown => ?_, fun hno => ?_⟩
    · refine ⟨_, congrArg Host.Outcome.next (opDbOwnerWrite_allowed hv rfl hok hown), State.db_setDb_self .., fun i hi => ?_, State.logWrite_mem ..⟩
      rw [State.db_setDb, if_neg hi, State.db_of_objects (State.logWrite_objects ..)]
    · have hobj : (s.logWrite 0 0x400 Reg.dbOwner.off v (s.db p).word false).objects.dbs = s.objects.dbs := congrArg Plinth.dbs (State.logWrite_objects ..)
      exact ⟨_, congrArg Host.Outcome.next (opDbOwnerWrite_refused hv rfl hno), (congrArg Plinth.dbs (State.accessErr_pl ..)).trans hobj,
        State.accessErr_bit ..⟩
  · intro n hdev hfree howned
    have hframe : ∀ i, ((s.logWrite 0 0x400 Reg.frameData.off v (s.frame n).word true).startScrub n 1 (Fld.frameData_partition.get v)).frame i
        = if i = n then ⟨2, Fld.frameData_partition.get v, 1⟩ else s.frame i := fun i => by
      rw [State.frame_startScrub, State.frame_of_mem (State.logWrite_mem ..)]
    refine ⟨_, congrArg Host.Outcome.next (opFrameDataWrite_assign hv rfl hdev hfree howned), (hframe n).trans (if_pos rfl), ?_,
      fun i hi => (hframe i).trans (if_neg hi), ?_⟩
    · rw [State.startScrub_scrubs]
      exact List.mem_append_right _ (List.mem_singleton_self n)
    · rw [State.startScrub_dev, State.logWrite_mem]
  · obtain ⟨hmem, hscrubs⟩ := opScrubDone_done hserve hstate hin hquiet hcasts
    have hbyte : ∀ a, (opScrubDone n s).devByte a = if frameOf a != n then s.devByte a else 0 := fun a =>
      (congrArg (fun m : MemSys => m.dev.read a) hmem).trans (Mem.read_filter_key s.mem.dev (fun k => frameOf k != n) a)
    refine ⟨_, rfl, fun a ha => (hbyte a).trans (if_neg (by simp [ha])), fun a ha => (hbyte a).trans (if_pos (by simp [ha])), ?_, hscrubs⟩
    exact (State.frame_of_mem (s := { s with mem := s.mem.scrubbed n (s.frame n).afterScrub }) hmem n).trans (State.frame_setFrame_self s n _)

end Sys2Proof.Machine
end

section
/-! SUPPORT. Requests of the object and abort pages (09 R295, R567): how one waits, what settling leaves, and how one ends. -/

namespace Sys2Proof.Machine

/-! ## Settling when nothing can go on (09 R567, 10 R320) -/

/-- A state that differs by host invalidations that completed, and by their messages (10 R320). -/
def State.Sent (s t : State) : Prop := ∃ invs out, t = { s with pl := { s.pl with atsInvs := invs, outbound := out } }

theorem State.Sent.refl (s : State) : s.Sent s := ⟨_, _, rfl⟩

theorem State.Sent.trans {s t u : State} (h : s.Sent t) (k : t.Sent u) : s.Sent u := by
  obtain ⟨_, _, rfl⟩ := h
  obtain ⟨_, _, rfl⟩ := k
  exact ⟨_, _, rfl⟩

/-- No abort of the state can complete: its error writes are not issued, or not yet all made. -/
def State.AbortsStay (s : State) : Prop := ∀ b ∈ s.pl.aborts, b.step ≠ 3 ∨ s.abortPaid b = false

theorem State.AbortsStay.of_none {s : State} (h : s.pl.aborts = []) : s.AbortsStay := fun b hb => by
  rw [h] at hb
  exact nomatch hb

theorem State.AbortsStay.of_one {s : State} {b : Abort} (h : s.pl.aborts = [b]) (hb : b.step ≠ 3 ∨ s.abortPaid b = false) : s.AbortsStay := fun c hc => by
  rw [h] at hc
  rwa [List.mem_singleton.mp hc]

theorem State.Sent.abortsStay {s t : State} (h : s.Sent t) (ha : s.AbortsStay) : t.AbortsStay := by
  obtain ⟨_, _, rfl⟩ := h
  exact ha

theorem State.settleInvs_sent (s : State) : s.Sent s.settleInvs := by
  refine foldl_keeps (P := fun t => s.Sent t) (fun t v ht => ?_) (State.Sent.refl s) s.pl.atsInvs
  split
  · exact ht.trans ⟨_, _, rfl⟩
  · exact ht

theorem State.settleAborts_stay {s : State} (h : s.AbortsStay) : s.settleAborts = s := foldl_idle fun b hb => by
  refine if_neg fun hgo => ?_
  obtain ⟨hstep, -, hpaid⟩ := hgo
  obtain hb | hb := h b hb
  · exact hb hstep
  · exact Bool.false_ne_true (hb.symm.trans hpaid)

/-- With no request and no abort that can complete, a pass completes held invalidations only. -/
theorem State.settlePass_idle {s : State} (hreqs : s.pl.reqs = []) (ha : s.AbortsStay) : s.Sent s.settlePass := by
  have horder : s.reqOrder = [] := by
    unfold State.reqOrder
    rw [hreqs]
    rfl
  unfold State.settlePass
  rw [horder, List.foldl_nil, State.settleAborts_stay ha]
  exact State.settleInvs_sent s

theorem State.settle_idle_sent {s : State} (hreqs : s.pl.reqs = []) (ha : s.AbortsStay) : s.Sent s.settle := by
  have hfirst := State.settlePass_idle hreqs ha
  have hreqs' : s.settlePass.pl.reqs = [] := by
    obtain ⟨_, _, h⟩ := hfirst
    rw [h]
    exact hreqs
  exact hfirst.trans (State.settlePass_idle hreqs' (hfirst.abortsStay ha))

/-! ## One request of OBJ_CMD (09 R295, R567) -/

section
variable {s t : State} {r : ObjReq}

/-- The physical function's one request is the request that its pages show. -/
theorem State.freq_of_one (hreqs : s.pl.reqs = [(0, { obj := some r })]) : s.freq 0 = { obj := some r } := by
  unfold State.freq
  rw [hreqs]
  rfl

/-- A request waits for no other when it is the only one. -/
theorem State.objBehind_alone (hreqs : s.objReqs = [r]) : s.objBehind r = false := by
  have hbefore : (s.objReqs.any fun x => x.key == r.key && decide (x.order < r.order)) = false := by
    rw [hreqs, List.any_cons, List.any_nil, decide_eq_false (Nat.lt_irrefl _), Bool.and_false, Bool.or_false]
  rw [State.objBehind, hbefore, Bool.and_false]

theorem State.objReqs_of_one (hreqs : s.pl.reqs = [(0, { obj := some r })]) (ha : s.pl.aborts = []) : s.objReqs = [r] := by
  unfold State.objReqs
  rw [hreqs, ha]
  rfl

theorem State.reqOrder_of_one (hreqs : s.pl.reqs = [(0, { obj := some r })]) : s.reqOrder = [(r.order, 0, 0)] := by
  unfold State.reqOrder
  rw [hreqs]
  rfl

/-- A creation waits for its staging record: settling leaves it. -/
theorem State.settle_creation (hreqs : s.pl.reqs = [(0, { obj := some r })]) (ha : s.pl.aborts = []) (hop : r.op = 0 ∨ r.op = 2) : s.Sent s.settle := by
  have hpass : ∀ t : State, t.pl.reqs = [(0, { obj := some r })] → t.pl.aborts = [] → t.Sent t.settlePass := fun t ht hta => by
    have hreq : t.settleReq 0 0 = t := by
      unfold State.settleReq
      rw [State.freq_of_one ht]
      dsimp only
      rw [if_pos rfl, if_neg]
      exact fun hgo => hop.elim hgo.1 hgo.2.1
    unfold State.settlePass
    rw [State.reqOrder_of_one ht, List.foldl_cons, List.foldl_nil, hreq, State.settleAborts_stay (.of_none hta)]
    exact State.settleInvs_sent t
  have hfirst := hpass s hreqs ha
  refine hfirst.trans (hpass _ ?_ ?_) <;> obtain ⟨_, _, h⟩ := hfirst <;> rw [h]
  · exact hreqs
  · exact ha

/-- Any other request is performed, and what it leaves settles. -/
theorem State.settle_performs (hreqs : s.pl.reqs = [(0, { obj := some r })]) (ha : s.pl.aborts = []) (h0 : r.op ≠ 0) (h2 : r.op ≠ 2)
    (hdone : (s.objRun 0 r).pl.reqs = []) (hstay : (s.objRun 0 r).AbortsStay) : (s.objRun 0 r).Sent s.settle := by
  have hreq : s.settleReq 0 0 = s.objRun 0 r := by
    unfold State.settleReq
    rw [State.freq_of_one hreqs]
    have hturn : ¬ s.objBehind r = true := by
      rw [State.objBehind_alone (State.objReqs_of_one hreqs ha)]
      exact Bool.false_ne_true
    exact if_pos (And.intro h0 (And.intro h2 hturn))
  have hfirst : (s.objRun 0 r).Sent s.settlePass := by
    unfold State.settlePass
    rw [State.reqOrder_of_one hreqs, List.foldl_cons, List.foldl_nil, hreq, State.settleAborts_stay hstay]
    exact State.settleInvs_sent _
  refine hfirst.trans (State.settlePass_idle ?_ (hfirst.abortsStay hstay))
  obtain ⟨_, _, h⟩ := hfirst
  rw [h]
  exact hdone

/-! ## The end of a request (09 R295, R296) -/

/-- The object page of a function shows that its request has ended with a status. -/
structure ObjEnded (t : State) (status : Nat) : Prop where
  status_eq : t.fld (objPage 0) .objStat Fld.objStat_status = status
  busy_eq : t.fld (objPage 0) .objStat Fld.objStat_busy = 0
  done_eq : t.fld (objPage 0) .objStat Fld.objStat_done = 1

theorem ObjEnded.sent {status : Nat} (h : ObjEnded s status) (hs : s.Sent t) : ObjEnded t status := by
  obtain ⟨_, _, rfl⟩ := hs
  exact ⟨h.status_eq, h.busy_eq, h.done_eq⟩

theorem State.objEnd_ended (s : State) {status : Nat} (h : status < 16) : ObjEnded (s.objEnd 0 status) status where
  status_eq := by
    refine (State.fld_setFld_apart _ _ _ _ (by decide) (by decide)).trans ?_
    refine (State.fld_setFld_apart _ _ _ _ (by decide) (by decide)).trans ?_
    exact State.fld_setFld_self _ _ _ (by decide) (lt_of_lt_of_le h (by decide))
  busy_eq := by
    refine (State.fld_setFld_apart _ _ _ _ (by decide) (by decide)).trans ?_
    exact State.fld_setFld_self _ _ _ (by decide) (by decide)
  done_eq := State.fld_setFld_self _ _ _ (by decide) (by decide)

/-- The end of the only request leaves none. -/
theorem State.objEnd_reqs (hreqs : s.pl.reqs = [(0, { obj := some r })]) (status : Nat) : (s.objEnd 0 status).pl.reqs = [] := by
  have hfreq : s.freq 0 = { obj := some r } := State.freq_of_one hreqs
  have hput : (s.objEnd 0 status).pl.reqs = s.pl.reqs.put {} 0 { s.freq 0 with obj := none } := rfl
  rw [hput, hfreq, hreqs]
  rfl

end

end Sys2Proof.Machine
end

section
/-! Creation and arenas: staging records, allocations, and the obligation, from the rules above. -/

namespace Sys2Proof.Machine

/-! ## Staging records (09 R272, R281, R295) -/

theorem firstStatus_pass {c : Nat} {l : List (Bool × Nat)} : firstStatus ((true, c) :: l) = firstStatus l := if_pos rfl

section
variable {s : State} {r : ObjReq} {h : HostAnswer} {rec : Option (List Byte)}

/-- The creation that a staging record asks for: the status, and the state with the object. -/
def State.created (s : State) (r : ObjReq) (rec : Option (List Byte)) : Nat × State :=
  if r.op = 0 then s.createCtx 0 r.id rec else s.createQueueOp 0 r.id rec

/-- The only request, a creation whose record has been read or could not be, ends with its status, and leaves the objects as the creation does. -/
theorem exec_stagingRecordReadDone (hserve : s.serving = true) (hreqs : s.pl.reqs = [(0, { obj := some r })]) (ha : s.pl.aborts = [])
    (hop : r.op = 0 ∨ r.op = 2) (hrec : s.hostRead h r.arg (if r.op = 0 then 384 else 64) = some rec)
    (hstatus : (s.created r rec).1 < 16) (hkeeps : (s.created r rec).2.pl.reqs = s.pl.reqs ∧ (s.created r rec).2.pl.aborts = s.pl.aborts) :
    ∃ t, exec (.stagingRecordReadDone 0 h) s = .next t ∧ ObjEnded t (s.created r rec).1 ∧ (t.freq 0).obj = none
      ∧ t.pl.ctxs = (s.created r rec).2.pl.ctxs ∧ t.pl.queues = (s.created r rec).2.pl.queues := by
  have hgo : ¬ (¬ s.serving = true ∨ s.objBehind r = true ∨ (r.op ≠ 0 ∧ r.op ≠ 2)) := by
    rw [hserve, State.objBehind_alone (State.objReqs_of_one hreqs ha)]
    simp only [not_true_eq_false, Bool.false_eq_true, false_or]
    exact fun ⟨h0, h2⟩ => hop.elim h0 h2
  have hstep : opStagingRecordReadDone 0 h s = (State.objGive 0 (s.created r rec)).settle := by
    unfold opStagingRecordReadDone
    rw [State.freq_of_one hreqs]
    dsimp only
    rw [if_neg hgo, hrec]
    rfl
  have hended : ObjEnded (State.objGive 0 (s.created r rec)) (s.created r rec).1 := State.objEnd_ended _ hstatus
  have hdone : (State.objGive 0 (s.created r rec)).pl.reqs = [] := State.objEnd_reqs (hkeeps.1.trans hreqs) _
  have hsent := State.settle_idle_sent hdone (.of_none (hkeeps.2.trans ha))
  refine ⟨_, congrArg Host.Outcome.next hstep, hended.sent hsent, ?_⟩
  obtain ⟨_, _, hsettle⟩ := hsent
  rw [hsettle]
  refine ⟨?_, rfl, rfl⟩
  unfold State.freq
  dsimp only
  rw [hdone]
  rfl

end

section
variable {s : State} {n : Nat} {rec : List Byte}

/-- A context record that keeps the rules, of a FREE context, makes it LIVE (09 R271, R272). -/
theorem State.createCtx_live (hfree : (s.ctx n).state = 0) (hpart : s.partExists (ctxOf rec).part = true) (hrule : s.ctxRule rec = true)
    (hpasid : ∀ e ∈ s.pl.ctxs, e.2.state ≠ 0 → e.2.part = (ctxOf rec).part → e.2.pasid ≠ (ctxOf rec).pasid) :
    s.createCtx 0 n (some rec) = (0, s.setCtx n (ctxOf rec)) := by
  have hunique : (s.pl.ctxs.any fun e => e.2.state != 0 && e.2.part == (ctxOf rec).part && e.2.pasid == (ctxOf rec).pasid) = false :=
    List.any_eq_false.mpr fun e he => by
      simp only [Bool.and_eq_true, bne_iff_ne, beq_iff_eq, not_and]
      exact fun ⟨hstate, hp⟩ => hpasid e he hstate hp
  have hreach : s.reaches 0 (ctxOf rec).part = true := rfl
  unfold State.createCtx
  simp only [hfree, hpart, hrule, hunique, hreach, bne_self_eq_false, Bool.false_and, Bool.not_false, Bool.and_self, beq_self_eq_true, firstStatus_pass]
  rfl

/-- A record that could not be read ends the creation with NO_STAGING, or NOT_FREE where the context is not FREE (09 R295). -/
theorem State.createCtx_unread : s.createCtx 0 n none = (if (s.ctx n).state = 0 then 4 else 2, s) := by
  have hforeign : (0 != 0 && (s.ctx n).state != 0 && !s.reaches 0 (s.ctx n).part) = false := rfl
  unfold State.createCtx
  dsimp only
  rw [hforeign, ite_not]
  rfl

/-- A queue record that keeps the rules, of a FREE queue on a page bound to its LIVE context, makes it LIVE (09 R280, R281). -/
theorem State.createQueueOp_live (hfree : (s.queue n).state = 0) (hctx : (s.ctx (queueOf rec).ctx).state = 1) (hrule : queueRule rec = true)
    (hbound : (s.db (n / 64)).bound = true) (hdb : (s.db (n / 64)).ctx = (queueOf rec).ctx)
    (hroom : s.ringTotal (queueOf rec).ctx + 2 ^ (queueOf rec).log2 ≤ 262144) : s.createQueueOp 0 n (some rec) = (0, s.setQueue n (queueOf rec)) := by
  have hreach : s.reachesCtx 0 (queueOf rec).ctx = true := rfl
  unfold State.createQueueOp
  simp only [hfree, hctx, hrule, hbound, hdb, hroom, hreach, bne_self_eq_false, Bool.false_and, Bool.not_false, Bool.and_self, beq_self_eq_true,
    decide_true, firstStatus_pass]
  rfl

end

/-! ## Arenas (09 R277, R278) -/

section
variable {s : State} {c : CellRef} {i ctx j : Nat} {load : Bool} {e : LoadEntry} {x : Arena}

/-- An access to an arena that is ready: an outstanding one of the cell, to an arena of the context. -/
theorem State.arenaAccess_some (h : s.arenaAccess c i load = some (e, ctx, j, x)) :
    (s.flight (s.cellKey c)).access i = some e ∧ (s.ctx ctx).arenas[j]? = some x := by
  unfold State.arenaAccess at h
  dsimp only at h
  cases he : (s.at c).fl.access i with
  | none =>
    rw [he] at h
    exact nomatch h
  | some e' =>
    rw [he] at h
    dsimp only at h
    cases hplace : e'.place with
    | arena ctx' j' =>
      rw [hplace] at h
      dsimp only at h
      cases hx : (s.ctx ctx').arenas[j']? with
      | none =>
        rw [hx] at h
        exact nomatch h
      | some x' =>
        rw [hx] at h
        obtain ⟨rfl, rfl, rfl, rfl⟩ := (Option.ite_none_right_eq_some.mp h).2
        exact ⟨he, hx⟩
    | _ =>
      rw [hplace] at h
      exact nomatch h

/-- An access that has returned a value is found with it. -/
theorem Flight.access_done {f : Flight} (h : f.access i = some e) (v : Nat) :
    (f.setAccess i (some { e with done := some v })).access i = some { e with done := some v } :=
  Flight.access_setAccess_some h (by simpa using List.find?_some h)

/-- An arena replaced is read back. -/
theorem State.arenas_setArena (h : (s.ctx ctx).arenas[j]? = some x) (y : Arena) : ((s.setArena ctx j y).ctx ctx).arenas[j]? = some y := by
  obtain ⟨hlt, -⟩ := List.getElem?_eq_some_iff.mp h
  unfold State.setArena
  rw [State.ctx_setCtx_self]
  exact List.getElem?_set_self hlt

/-- A raise leaves the contexts. -/
theorem State.irqRaise_ctx (s : State) (n : Nat) (p : Option Nat) (k : Nat) : (s.irqRaise n p).ctx k = s.ctx k := by
  have hctxs : (s.irqRaise n p).objects.ctxs = s.objects.ctxs := congrArg Plinth.ctxs (State.irqRaise_objects s n p)
  exact congrArg (fun m : SMap Context => m.at {} k) hctxs

/-- An allocation reaches LOW for the first time since it was armed (09 R278). -/
def Arena.reachesLow (x : Arena) (b : Nat) : Bool :=
  decide (x.low ≠ 0) && decide (x.low ≤ (x.alloc b).1.cursor) && x.lowArmed && (x.alloc b).2 != 0

/-- The arena that an allocation leaves. -/
def Arena.allocated (x : Arena) (b : Nat) : Arena := if x.reachesLow b then { (x.alloc b).1 with lowHit := true, lowArmed := false } else (x.alloc b).1

/-- An allocation leaves its arena, the value that its access returns, and memory. -/
theorem exec_arenaAlloc {fn b : Nat} (h : s.arenaAccess c i false = some (e, ctx, j, x)) (hkind : e.kind = .amo fn b) :
    ∃ t, exec (.arenaAlloc c i) s = .next t ∧ (t.ctx ctx).arenas[j]? = some (x.allocated b)
      ∧ (t.flight (s.cellKey c)).access i = some { e with done := some (x.alloc b).2 } ∧ t.mem = s.mem := by
  obtain ⟨haccess, harena⟩ := State.arenaAccess_some h
  let u := (s.setArena ctx j (x.allocated b)).setFlight (s.cellKey c) ((s.flight (s.cellKey c)).setAccess i (some { e with done := some (x.alloc b).2 }))
  have hstep : opArenaAlloc c i s = if x.reachesLow b then u.irqRaise x.source (some (s.ctx ctx).part) else u := by
    unfold opArenaAlloc
    rw [h]
    dsimp only
    split
    · next fn' b' hk =>
      obtain ⟨rfl, rfl⟩ := LoadKind.amo.inj (hkind.symm.trans hk)
      rfl
    · next hno => exact absurd hkind (hno _ _)
  have huarena : (u.ctx ctx).arenas[j]? = some (x.allocated b) := State.arenas_setArena harena _
  have huflight : (u.flight (s.cellKey c)).access i = some { e with done := some (x.alloc b).2 } := by
    rw [State.flight_setFlight_self]
    exact Flight.access_done haccess _
  refine ⟨_, congrArg Host.Outcome.next hstep, ?_⟩
  split
  · refine ⟨by rw [State.irqRaise_ctx]; exact huarena, ?_, State.irqRaise_mem ..⟩
    have hflights : (u.irqRaise x.source (some (s.ctx ctx).part)).flight (s.cellKey c) = u.flight (s.cellKey c) :=
      congrArg (fun m : SMap Flight => m.at {} (s.cellKey c)) (State.irqRaise_flights ..)
    rw [hflights]
    exact huflight
  · exact ⟨huarena, huflight, rfl⟩

end

/-- What an allocation does to its arena, and what it returns (09 R277, R278). -/
theorem Arena.allocated_spec (x : Arena) (b : Nat) :
    let g := 2 ^ x.alignLog2
    let r := (b + g - 1) / g * g
    (x.allocated b).base = x.base ∧ (x.allocated b).limit = x.limit
      ∧ (if r ≠ 0 ∧ x.cursor + r ≤ x.limit then
          (x.allocated b).cursor = x.cursor + r ∧ (x.allocated b).full = x.full ∧ (x.alloc b).2 = x.cursor + x.base
            ∧ (x.low ≠ 0 → x.low ≤ (x.allocated b).cursor → x.lowArmed = true → x.cursor + x.base ≠ 0 →
                (x.allocated b).lowHit = true ∧ (x.allocated b).lowArmed = false)
         else (x.allocated b).cursor = x.cursor ∧ (x.allocated b).full = true ∧ (x.alloc b).2 = 0) := by
  intro g r
  by_cases hfits : r ≠ 0 ∧ x.cursor + r ≤ x.limit
  · have halloc : x.alloc b = ({ x with cursor := x.cursor + r }, x.cursor + x.base) := if_pos hfits
    rw [if_pos hfits]
    unfold Arena.allocated Arena.reachesLow
    rw [halloc]
    dsimp only
    split
    · exact ⟨rfl, rfl, rfl, rfl, rfl, fun _ _ _ _ => ⟨rfl, rfl⟩⟩
    · next hlow =>
      refine ⟨rfl, rfl, rfl, rfl, rfl, fun hset hle harmed hbase => absurd ?_ hlow⟩
      rw [decide_eq_true hset, decide_eq_true (p := x.low ≤ x.cursor + r) hle, harmed, bne_iff_ne.mpr hbase]
      rfl
  · have halloc : x.alloc b = ({ x with full := true }, 0) := if_neg hfits
    have hlow : x.reachesLow b = false := by
      unfold Arena.reachesLow
      rw [halloc, bne_self_eq_false, Bool.and_false]
    rw [if_neg hfits]
    unfold Arena.allocated
    rw [hlow, halloc]
    exact ⟨rfl, rfl, rfl, rfl, rfl⟩

/-- Settles O39: the only request ends as its record's checks say, and an access to an arena reads or moves its cursor. -/
theorem creationAndArenas : Obligations.CreationAndArenas := by
  unfold Obligations.CreationAndArenas
  refine ⟨fun h s r hserve hreqs ha => ?_, fun c i s e ctx j x => ?_⟩
  · intro ended
    refine ⟨fun hop => ⟨fun rec hrec hfree hpart hrule hpasid => ?_, fun hrec => ?_⟩, fun hop rec hrec hfree hctx hrule hbound hdb hroom => ?_⟩
    · have hmade : s.created r (some rec) = (0, s.setCtx r.id (ctxOf rec)) := (if_pos hop).trans (State.createCtx_live hfree hpart hrule hpasid)
      obtain ⟨t, ht, hend, hfreq, hctxs, -⟩ := exec_stagingRecordReadDone (rec := some rec) hserve hreqs ha (.inl hop) (by rw [if_pos hop, hrec])
        (by rw [hmade]; exact Nat.zero_lt_succ 15) (by rw [hmade]; exact ⟨rfl, rfl⟩)
      rw [hmade] at hend hctxs
      refine ⟨t, ht, ⟨hend.status_eq, hend.busy_eq, hend.done_eq, hfreq⟩, ?_⟩
      exact (congrArg (fun m : SMap Context => m.at {} r.id) hctxs).trans (State.ctx_setCtx_self s r.id (ctxOf rec))
    · have hmade : s.created r none = (if (s.ctx r.id).state = 0 then 4 else 2, s) := (if_pos hop).trans State.createCtx_unread
      obtain ⟨t, ht, hend, hfreq, hctxs, -⟩ := exec_stagingRecordReadDone (rec := none) hserve hreqs ha (.inl hop) (by rw [if_pos hop, hrec])
        (by rw [hmade]; dsimp only; split <;> decide) (by rw [hmade]; exact ⟨rfl, rfl⟩)
      rw [hmade] at hend hctxs
      exact ⟨t, ht, ⟨hend.status_eq, hend.busy_eq, hend.done_eq, hfreq⟩, hctxs⟩
    · have hne : r.op ≠ 0 := by omega
      have hmade : s.created r (some rec) = (0, s.setQueue r.id (queueOf rec)) :=
        (if_neg hne).trans (State.createQueueOp_live hfree hctx hrule hbound hdb hroom)
      obtain ⟨t, ht, hend, hfreq, -, hqueues⟩ := exec_stagingRecordReadDone (rec := some rec) hserve hreqs ha (.inr hop) (by rw [if_neg hne, hrec])
        (by rw [hmade]; exact Nat.zero_lt_succ 15) (by rw [hmade]; exact ⟨rfl, rfl⟩)
      rw [hmade] at hend hqueues
      refine ⟨t, ht, ⟨hend.status_eq, hend.busy_eq, hend.done_eq, hfreq⟩, ?_⟩
      exact (congrArg (fun m : SMap Queue => m.at {} r.id) hqueues).trans (State.queue_setQueue_self s r.id (queueOf rec))
  · intro k
    refine ⟨fun h => ?_, fun fn b h hkind => ?_⟩
    · have hstep : opArenaCursorRead c i s = s.setFlight k ((s.flight k).setAccess i (some { e with done := some x.cursor })) := by
        unfold opArenaCursorRead
        rw [h]
        rfl
      refine ⟨_, congrArg Host.Outcome.next hstep, ?_, rfl, rfl⟩
      rw [State.flight_setFlight_self]
      exact Flight.access_done (State.arenaAccess_some h).1 _
    · obtain ⟨t, ht, harena, haccess, hmem⟩ := exec_arenaAlloc h hkind
      obtain ⟨hbase, hlimit, hcursor⟩ := x.allocated_spec b
      refine ⟨t, x.allocated b, ht, harena, hbase, hlimit, ?_, hmem⟩
      split
      · next hfits =>
        obtain ⟨hmoved, hfull, hvalue, hlow⟩ := (if_pos hfits).mp hcursor
        exact ⟨hmoved, hfull, haccess.trans (by rw [hvalue]), hlow⟩
      · next hfits =>
        obtain ⟨hmoved, hfull, hvalue⟩ := (if_neg hfits).mp hcursor
        exact ⟨hmoved, hfull, haccess.trans (by rw [hvalue])⟩

end Sys2Proof.Machine
end

section
/-! SUPPORT. Commands that leave their queue (09 R283, R284, R288 step 1): what the end of one leaves of the queues, the registers and the requests, and what the start of an abort leaves. -/

namespace Sys2Proof.Machine

/-! ## Maps without an entry -/

theorem SMap.eq_nil_of_find? {α : Type} {m : SMap α} (h : ∀ k, m.find? k = none) : m = [] := by
  cases m with
  | nil => rfl
  | cons e m => exact absurd (h e.1) (SMap.find?_of_mem List.mem_cons_self)

/-! ## What the end of a command leaves (09 R284) -/

/-- A queue but for its commands and what the end of one changes. -/
def Queue.bare (x : Queue) : Queue := { x with cmds := [], ended := [], head := 0 }

theorem Queue.state_of_bare {x y : Queue} (h : x.bare = y.bare) : x.state = y.state := by
  have hstate : x.bare.state = y.bare.state := congrArg Queue.state h
  exact hstate

theorem Queue.restart_of_bare {x y : Queue} (h : x.bare = y.bare) : x.restart = y.restart := by
  have hrestart : x.bare.restart = y.bare.restart := congrArg Queue.restart h
  exact hrestart

/-- The contexts, the requests, the aborts and the registers below those of the cores. -/
def State.registry (s : State) : SMap Context × SMap FuncReqs × List Abort × (Nat → Word) :=
  (s.pl.ctxs, s.pl.reqs, s.pl.aborts, fun a => if a < 0x1000000 then s.rd a else 0)

section
variable {s t : State}

theorem State.ctxs_of_registry (h : t.registry = s.registry) : t.pl.ctxs = s.pl.ctxs := congrArg (·.1) h
theorem State.reqs_of_registry (h : t.registry = s.registry) : t.pl.reqs = s.pl.reqs := congrArg (·.2.1) h
theorem State.aborts_of_registry (h : t.registry = s.registry) : t.pl.aborts = s.pl.aborts := congrArg (·.2.2.1) h

theorem State.rd_of_registry (h : t.registry = s.registry) {a : Nat} (ha : a < 0x1000000) : t.rd a = s.rd a := by
  have hrd := congrFun (congrArg (·.2.2.2) h) a
  dsimp only [State.registry] at hrd
  rwa [if_pos ha, if_pos ha] at hrd

theorem State.registry_of_pl (hpl : t.pl = s.pl) (hrd : ∀ a, a < 0x1000000 → t.rd a = s.rd a) : t.registry = s.registry := by
  have hlow : (fun a => if a < 0x1000000 then t.rd a else 0) = fun a => if a < 0x1000000 then s.rd a else 0 := by
    funext a
    split
    · next ha => exact hrd a ha
    · rfl
  rw [State.registry, hpl, hlow, State.registry]

end

section
variable (s : State) (q seq : Nat)

@[simp] theorem State.setQueue_registry (x : Queue) : (s.setQueue q x).registry = s.registry := rfl
@[simp] theorem State.setCmd_registry (c : Cmd) : (s.setCmd q seq c).registry = s.registry := rfl
@[simp] theorem State.relock_registry : s.relock.registry = s.registry := rfl
@[simp] theorem State.setCore_registry (x : Core) : (s.setCore q x).registry = s.registry := rfl
@[simp] theorem State.pushFence_registry (op : FenceOp) : (s.pushFence op).registry = s.registry := rfl
@[simp] theorem State.endCmd_registry (how : Nat) : (s.endCmd q seq how).registry = s.registry := rfl

/-- BUSY of a core's Armature is a register of the core. -/
@[simp] theorem State.armBusy_registry (core : Nat) : (s.armBusy core).registry = s.registry := by
  refine State.registry_of_pl (State.setFld_pl ..) fun a ha => State.rd_wr_of_ne _ _ ?_
  simp only [armPage, corePage, regKey]
  omega

/-- A fold leaves the registry where each of its steps does. -/
theorem State.registry_foldl {β : Type} {f : State → β → State} (hf : ∀ t b, (f t b).registry = t.registry) (l : List β) : (l.foldl f s).registry = s.registry :=
  foldl_keeps (P := fun t : State => t.registry = s.registry) (fun t b h => (hf t b).trans h) rfl l

/-- The state in which a retired command holds no ATC locks (10 R328). -/
def State.unlockCmd (s : State) (q seq : Nat) (c : Cmd) : State :=
  if c.locks.isEmpty then s else (s.setCmd q seq { c with resv := 0, locks := [] }).relock

/-- What a retired command leaves besides its locks is the cores' and the page requests'. -/
theorem State.releaseCmd_eq (c : Cmd) : ∃ cores groups, s.releaseCmd q seq c =
    { s.unlockCmd q seq c with cores := cores, pl := { (s.unlockCmd q seq c).pl with groups := groups } } := by
  unfold State.releaseCmd
  dsimp only
  generalize List.range 16 = l
  generalize hu : s.unlockCmd q seq c = u
  rw [State.unlockCmd] at hu
  rw [hu]
  obtain ⟨cores, h⟩ : ∃ cores, l.foldl (fun t k => if (t.core k).waiting.contains (q, seq) then
      t.setCore k { t.core k with waiting := (t.core k).waiting.erase (q, seq) } else t) u = { u with cores := cores } :=
    foldl_keeps (P := fun t : State => ∃ cores, t = { u with cores := cores }) (fun t k ht => by
      obtain ⟨_, rfl⟩ := ht
      split
      · exact ⟨_, rfl⟩
      · exact ⟨_, rfl⟩) ⟨_, rfl⟩ l
  rw [h]
  exact ⟨_, _, rfl⟩

theorem State.releaseCmd_registry (c : Cmd) : (s.releaseCmd q seq c).registry = s.registry := by
  obtain ⟨cores, groups, h⟩ := s.releaseCmd_eq q seq c
  have hunlock : (s.unlockCmd q seq c).registry = s.registry := by
    unfold State.unlockCmd
    split
    · rfl
    · rw [State.relock_registry, State.setCmd_registry]
  rw [h]
  exact hunlock

/-- Withdrawing a command's Armature requests changes the cores and their registers. -/
theorem State.withdrawArm_keeps : (s.withdrawArm q seq).registry = s.registry ∧ (s.withdrawArm q seq).pl.queues = s.pl.queues := by
  unfold State.withdrawArm
  generalize List.range 16 = l
  refine foldl_keeps (P := fun t : State => t.registry = s.registry ∧ t.pl.queues = s.pl.queues) (fun t k ht => ?_) ⟨rfl, rfl⟩ l
  dsimp only
  split
  · exact ⟨by rw [State.armBusy_registry, State.setCore_registry, ht.1], ht.2⟩
  · exact ht

/-- What a retired command leaves of the queues: another command stays, with every other part of each queue. -/
theorem State.releaseCmd_queue (c : Cmd) (a : Nat) : ((s.releaseCmd q seq c).queue a).bare = (s.queue a).bare
    ∧ ((s.releaseCmd q seq c).queue a).ended = (s.queue a).ended ∧ ∀ n, (a, n) ≠ (q, seq) → (s.releaseCmd q seq c).cmd? a n = s.cmd? a n := by
  obtain ⟨cores, groups, h⟩ := s.releaseCmd_eq q seq c
  have hrelease : (s.releaseCmd q seq c).queue a = (s.unlockCmd q seq c).queue a := by
    rw [h]
    rfl
  unfold State.cmd?
  rw [hrelease, State.unlockCmd]
  split
  · exact ⟨rfl, rfl, fun _ _ => rfl⟩
  · have hlocks : ((s.setCmd q seq { c with resv := 0, locks := [] }).relock).queue a =
        if a = q then { s.queue q with cmds := (s.queue q).cmds.insert seq { c with resv := 0, locks := [] } } else s.queue a := State.queue_setQueue ..
    rw [hlocks]
    split
    · next ha =>
      subst ha
      refine ⟨rfl, rfl, fun n hn => ?_⟩
      dsimp only
      rw [SMap.find?_insert, if_neg fun h => hn (by rw [h])]
    · exact ⟨rfl, rfl, fun _ _ => rfl⟩

end

/-- The queues after a command left its queue with an ending. -/
structure CmdLeft (s t : State) (q seq how : Nat) : Prop where
  bare_eq : ∀ a, (t.queue a).bare = (s.queue a).bare
  ended_eq : ∀ a n, (t.queue a).ended.find? n = if (a, n) = (q, seq) then some how else (s.queue a).ended.find? n
  cmd_eq : ∀ a n, t.cmd? a n = if (a, n) = (q, seq) then none else s.cmd? a n

section
variable {s t : State} {q seq : Nat}

theorem CmdLeft.congr {u : State} {how : Nat} (h : CmdLeft s t q seq how) (hq : u.pl.queues = t.pl.queues) : CmdLeft s u q seq how := by
  have hqueue : ∀ a, u.queue a = t.queue a := State.queue_of_queues hq
  refine ⟨fun a => by rw [hqueue, h.bare_eq], fun a n => by rw [hqueue, h.ended_eq], fun a n => ?_⟩
  rw [State.cmd?_of_queues hq, h.cmd_eq]

/-- A command that ends leaves its queue, whatever was released of it before. -/
theorem CmdLeft.endCmd (hbare : ∀ a, (t.queue a).bare = (s.queue a).bare) (hended : ∀ a, (t.queue a).ended = (s.queue a).ended)
    (hcmd : ∀ a n, (a, n) ≠ (q, seq) → t.cmd? a n = s.cmd? a n) (how : Nat) : CmdLeft s (t.endCmd q seq how) q seq how := by
  have hqueue : ∀ a, (t.endCmd q seq how).queue a = if a = q then
      { t.queue q with cmds := (t.queue q).cmds.erase seq, ended := (t.queue q).ended.insert seq how
                       head := ({ t.queue q with cmds := (t.queue q).cmds.erase seq, ended := (t.queue q).ended.insert seq how } : Queue).headNow }
      else t.queue a := fun a => State.queue_setQueue ..
  refine ⟨fun a => ?_, fun a n => ?_, fun a n => ?_⟩
  · rw [hqueue, ← hbare a]
    split
    · next ha => rw [ha]; rfl
    · rfl
  · rw [hqueue, ← hended a]
    by_cases ha : a = q
    · subst ha
      rw [if_pos rfl]
      dsimp only
      rw [SMap.find?_insert]
      simp
    · rw [if_neg ha, if_neg fun h => ha (congrArg Prod.fst h)]
  · by_cases ha : (a, n) = (q, seq)
    · obtain ⟨rfl, rfl⟩ := Prod.mk.inj ha
      rw [if_pos rfl, State.cmd?, hqueue, if_pos rfl]
      dsimp only
      rw [SMap.find?_erase, if_pos rfl]
    · rw [if_neg ha, ← hcmd a n ha, State.cmd?, hqueue, State.cmd?]
      split
      · next haq =>
        subst haq
        dsimp only
        rw [SMap.find?_erase, if_neg fun h => ha (by rw [h])]
      · rfl

section
variable {c : Cmd} (hc : s.cmd? q seq = some c)
include hc

/-- A command retired by an abort leaves its queue, with the fence write it owes. -/
theorem State.abortCmd_some (code : Nat) : CmdLeft s (s.abortCmd q seq code).1 q seq 2 ∧ (s.abortCmd q seq code).2 = [c.fenceOp (s.queue q) q seq code] := by
  unfold State.abortCmd
  rw [hc]
  have hqueue : ∀ a, ((s.releaseCmd q seq c).withdrawArm q seq).queue a = (s.releaseCmd q seq c).queue a :=
    State.queue_of_queues ((State.withdrawArm_keeps ..).2)
  refine ⟨CmdLeft.endCmd (fun a => ?_) (fun a => ?_) (fun a n hn => ?_) 2, rfl⟩
  · rw [hqueue, (s.releaseCmd_queue q seq c a).1]
  · rw [hqueue, (s.releaseCmd_queue q seq c a).2.1]
  · rw [State.cmd?_of_queues ((State.withdrawArm_keeps ..).2), (s.releaseCmd_queue q seq c a).2.2 n hn]

theorem State.retireOne_some (code how : Nat) : CmdLeft s (s.retireOne q seq code how) q seq how := by
  let s1 := if code = 14 then s.bump rstPage .hlStat Fld.hlStat_lostCmds 1 else s
  have hs1 : s1.pl.queues = s.pl.queues := by
    dsimp only [s1]
    split
    · exact congrArg Plinth.queues (State.bump_pl ..)
    · rfl
  have hstep : s.retireOne q seq code how = ((s1.releaseCmd q seq c).endCmd q seq how).pushFence (c.fenceOp (s.queue q) q seq code) := by
    unfold State.retireOne
    rw [hc]
  have hend : CmdLeft s ((s1.releaseCmd q seq c).endCmd q seq how) q seq how := by
    refine CmdLeft.endCmd (fun a => ?_) (fun a => ?_) (fun a n hn => ?_) how
    · rw [(s1.releaseCmd_queue q seq c a).1, State.queue_of_queues hs1]
    · rw [(s1.releaseCmd_queue q seq c a).2.1, State.queue_of_queues hs1]
    · rw [(s1.releaseCmd_queue q seq c a).2.2 n hn, State.cmd?_of_queues hs1]
  have hpush : ∀ (u : State) op, (u.pushFence op).pl.queues = u.pl.queues := fun _ _ => rfl
  rw [hstep]
  exact hend.congr (hpush _ _)

end

/-! ## Commands retired by an abort (09 R288 step 1) -/

variable (s) (q seq)

theorem State.abortCmd_none (h : s.cmd? q seq = none) (code : Nat) : s.abortCmd q seq code = (s, []) := by
  unfold State.abortCmd
  rw [h]

theorem State.abortCmd_registry (code : Nat) : (s.abortCmd q seq code).1.registry = s.registry := by
  unfold State.abortCmd
  split
  · rfl
  · rw [State.endCmd_registry, (State.withdrawArm_keeps ..).1, State.releaseCmd_registry]

theorem State.abortCmd_bare (code a : Nat) : ((s.abortCmd q seq code).1.queue a).bare = (s.queue a).bare := by
  cases hc : s.cmd? q seq with
  | none => rw [State.abortCmd_none s q seq hc]
  | some c => exact (State.abortCmd_some hc code).1.bare_eq a

theorem State.cmd?_abortCmd (code a n : Nat) : (s.abortCmd q seq code).1.cmd? a n = if (a, n) = (q, seq) then none else s.cmd? a n := by
  cases hc : s.cmd? q seq with
  | none =>
    rw [State.abortCmd_none s q seq hc]
    split
    · next h => obtain ⟨rfl, rfl⟩ := Prod.mk.inj h; exact hc
    · rfl
  | some c => exact (State.abortCmd_some hc code).1.cmd_eq a n

/-- The state after an abort retired its commands, one after the other. -/
theorem State.abortCmds_fst (code : Nat) (cs : List (Nat × Nat)) :
    (s.abortCmds code cs).1 = cs.foldl (fun t c => (t.abortCmd c.1 c.2 code).1) s := by
  unfold State.abortCmds
  exact (List.foldl_hom (init := (s, ([] : List FenceOp))) Prod.fst fun _ _ => rfl).symm

theorem State.abortCmds_registry (code : Nat) (cs : List (Nat × Nat)) : (s.abortCmds code cs).1.registry = s.registry := by
  rw [State.abortCmds_fst]
  exact State.registry_foldl s (fun t c => State.abortCmd_registry t c.1 c.2 code) cs

theorem State.abortCmds_bare (code : Nat) (cs : List (Nat × Nat)) (a : Nat) : ((s.abortCmds code cs).1.queue a).bare = (s.queue a).bare := by
  rw [State.abortCmds_fst]
  exact foldl_keeps (P := fun t : State => (t.queue a).bare = (s.queue a).bare) (fun t c h => (State.abortCmd_bare t c.1 c.2 code a).trans h) rfl cs

/-- The commands of the list have left their queues, and every other stays. -/
theorem State.cmd?_abortCmds (code : Nat) (cs : List (Nat × Nat)) (a n : Nat) :
    (s.abortCmds code cs).1.cmd? a n = if (a, n) ∈ cs then none else s.cmd? a n := by
  rw [State.abortCmds_fst]
  induction cs generalizing s with
  | nil => simp
  | cons c cs ih =>
    rw [List.foldl_cons, ih, State.cmd?_abortCmd]
    by_cases hcs : (a, n) ∈ cs
    · simp [hcs]
    · by_cases hc : (a, n) = c <;> simp [hcs, hc]

end

/-! ## The queues that an abort stops (09 R287, R291) -/

/-- Queues take a state and record their tails. -/
def State.stopQueues (s : State) (qs : List (Nat × Nat)) (qstate : Nat) : State :=
  qs.foldl (fun t q => t.setQueue q.1 { t.queue q.1 with state := qstate, restart := q.2 }) s

section
variable (s : State) (qs : List (Nat × Nat)) (qstate : Nat)

theorem State.stopQueues_registry : (s.stopQueues qs qstate).registry = s.registry := by
  unfold State.stopQueues
  exact State.registry_foldl s (fun t q => State.setQueue_registry ..) qs

/-- The named queues are in the state, with their commands; the others are as they were. -/
theorem State.queue_stopQueues (a : Nat) : ((s.stopQueues qs qstate).queue a).cmds = (s.queue a).cmds
    ∧ ((s.stopQueues qs qstate).queue a).state = if a ∈ qs.map Prod.fst then qstate else (s.queue a).state := by
  unfold State.stopQueues
  induction qs generalizing s with
  | nil => simp
  | cons q qs ih =>
    obtain ⟨hcmds, hstate⟩ := ih (s.setQueue q.1 { s.queue q.1 with state := qstate, restart := q.2 })
    have hmem : a ∈ (q :: qs).map Prod.fst ↔ a = q.1 ∨ a ∈ qs.map Prod.fst := by rw [List.map_cons, List.mem_cons]
    rw [List.foldl_cons, hcmds, hstate, State.queue_setQueue]
    by_cases ha : a = q.1
    · rw [if_pos ha, if_pos (hmem.mpr (.inl ha)), ha]
      exact ⟨rfl, ite_self _⟩
    · rw [if_neg ha]
      refine ⟨rfl, ?_⟩
      by_cases hqs : a ∈ qs.map Prod.fst
      · rw [if_pos hqs, if_pos (hmem.mpr (.inr hqs))]
      · rw [if_neg hqs, if_neg fun h => (hmem.mp h).elim ha hqs]

/-- The commands that an abort of queues names are those below the tails. -/
theorem State.mem_unretired {qs : List (Nat × Nat)} {q tail n : Nat} {c : Cmd} (hq : (q, tail) ∈ qs) (hc : s.cmd? q n = some c) (hn : n < tail) :
    (q, n) ∈ s.unretired qs :=
  List.mem_flatMap.mpr ⟨(q, tail), hq, List.mem_map.mpr ⟨(n, c), List.mem_filter.mpr ⟨SMap.mem_of_find? hc, decide_eq_true hn⟩, rfl⟩⟩

/-- The abort of one queue names each of its commands, where all begin below the tail. -/
theorem State.length_unretired_one {q tail : Nat} (h : ∀ e ∈ (s.queue q).cmds, e.1 < tail) : (s.unretired [(q, tail)]).length = (s.queue q).cmds.length := by
  have hall : (s.queue q).cmds.filter (fun e => decide (e.1 < tail)) = (s.queue q).cmds :=
    List.filter_eq_self.mpr fun e he => decide_eq_true (h e he)
  unfold State.unretired
  rw [List.flatMap_cons, List.flatMap_nil, List.append_nil, List.length_map, hall]

/-! ## The rings of a context's jobs (13 R419) -/

/-- Stopping a context's rings changes the fabric alone. -/
theorem State.stopRings_eq (ctx code : Nat) : ∃ fab, (s.stopRings ctx code).1 = { s with fab := fab } := by
  unfold State.stopRings
  dsimp only
  generalize s.ringsOf ctx = rs
  have hrings : ∀ (l : List Nat) (acc : State × List FenceOp), (∃ fab, acc.1 = { s with fab := fab }) →
      ∃ fab, (l.foldl (fun (r : State × List FenceOp) n =>
        (r.1.setRing n { r.1.ring n with stopped := true, descs := [] }, r.2 ++ (r.1.ring n).descs.flatMap fun d => d.goneFence ctx code)) acc).1
          = { s with fab := fab } := fun l acc h =>
    foldl_keeps (P := fun acc : State × List FenceOp => ∃ fab, acc.1 = { s with fab := fab })
      (fun acc n h => by obtain ⟨fab, h⟩ := h; rw [h]; exact ⟨_, rfl⟩) h l
  obtain ⟨fab, h⟩ := hrings rs (s, []) ⟨_, rfl⟩
  rw [h]
  exact ⟨_, rfl⟩

end

/-! ## The start of an abort (09 R287, R288, R291) -/

/-- An abort of some queues has begun as `b`: its record joins the aborts, the queues are in their state, and its commands have left them. -/
structure AbortBegun (s t : State) (qs : List (Nat × Nat)) (qstate : Nat) (b : Abort) : Prop where
  aborts_eq : t.pl.aborts = s.pl.aborts ++ [b]
  ctxs_eq : t.pl.ctxs = s.pl.ctxs
  reqs_eq : t.pl.reqs = s.pl.reqs
  rd_eq : ∀ a, a < 0x1000000 → t.rd a = s.rd a
  bare_eq : ∀ a, (t.queue a).bare = ((s.stopQueues qs qstate).queue a).bare
  cmd_eq : ∀ a n, t.cmd? a n = if (a, n) ∈ (s.stopQueues qs qstate).unretired qs then none else s.cmd? a n
  count_eq : b.count = ((s.stopQueues qs qstate).unretired qs).length
  queues_eq : b.queues = qs.map Prod.fst
  step_eq : b.step = 1

section
variable {s t : State} {qs : List (Nat × Nat)} {qstate : Nat} {b : Abort}

theorem State.abortStart_begun (s : State) (kind f ctx : Nat) (qs : List (Nat × Nat)) (qstate code : Nat) (req : Option ObjReq) :
    ∃ b, AbortBegun s (s.abortStart kind f ctx qs qstate code req) qs qstate b ∧ b.kind = kind ∧ b.ctx = ctx ∧ b.code = code := by
  let s1 := s.stopQueues qs qstate
  let r := s1.abortCmds code (s1.unretired qs)
  let jobs := decide (3 ≤ kind) || (s1.queuesOf ctx).all fun q => (s1.queue q).state != 1
  let z := if jobs then r.1.stopRings ctx code else (r.1, [])
  have hz : ∃ fab, z.1 = { r.1 with fab := fab } := by
    dsimp only [z]
    split
    · exact State.stopRings_eq r.1 ctx code
    · exact ⟨_, rfl⟩
  have hstep : ∃ b : Abort, s.abortStart kind f ctx qs qstate code req = { z.1 with pl := { z.1.pl with aborts := z.1.pl.aborts ++ [b] } }
      ∧ b.kind = kind ∧ b.ctx = ctx ∧ b.code = code ∧ b.count = (s1.unretired qs).length ∧ b.queues = qs.map Prod.fst ∧ b.step = 1 :=
    ⟨_, rfl, rfl, rfl, rfl, rfl, rfl, rfl⟩
  obtain ⟨b, hb, hkind, hctx, hcode, hcount, hqueues, hstep1⟩ := hstep
  refine ⟨b, ?_, hkind, hctx, hcode⟩
  obtain ⟨fab, hfab⟩ := hz
  have hreg : r.1.registry = s.registry := (State.abortCmds_registry ..).trans (State.stopQueues_registry ..)
  have haborts := State.aborts_of_registry hreg
  have hctxs := State.ctxs_of_registry hreg
  have hreqs := State.reqs_of_registry hreg
  rw [hb, hfab]
  refine ⟨congrArg (· ++ [b]) haborts, hctxs, hreqs,
    fun a ha => State.rd_of_registry hreg ha, fun a => State.abortCmds_bare .., fun a n => ?_, hcount, hqueues, hstep1⟩
  have hsame : s1.cmd? a n = s.cmd? a n := congrArg (SMap.find? · n) (State.queue_stopQueues s qs qstate a).1
  exact (State.cmd?_abortCmds ..).trans (by rw [hsame])

/-- A queue of the abort is in its state. -/
theorem AbortBegun.state_eq (h : AbortBegun s t qs qstate b) {q : Nat} (hq : q ∈ qs.map Prod.fst) : (t.queue q).state = qstate :=
  (Queue.state_of_bare (h.bare_eq q)).trans ((State.queue_stopQueues s qs qstate q).2.trans (if_pos hq))

/-- A queue of the abort, all of whose commands begin below its tail, has none left. -/
theorem AbortBegun.cmds_eq (h : AbortBegun s t qs qstate b) {q tail : Nat} (hq : (q, tail) ∈ qs) (hall : ∀ e ∈ (s.queue q).cmds, e.1 < tail) :
    (t.queue q).cmds = [] := by
  refine SMap.eq_nil_of_find? fun n => (h.cmd_eq q n).trans ?_
  split
  · rfl
  · next hout =>
    cases hc : s.cmd? q n with
    | none => rfl
    | some c =>
      refine absurd (State.mem_unretired (c := c) _ hq ?_ (hall _ (SMap.mem_of_find? hc))) hout
      exact (congrArg (SMap.find? · n) (State.queue_stopQueues s qs qstate q).1).trans hc

end

section
variable {s t : State} {q tail qstate : Nat} {b : Abort} (h : AbortBegun s t [(q, tail)] qstate b)
include h

/-- The abort of one queue records the tail as the place of a restart. -/
theorem AbortBegun.restart_eq : (t.queue q).restart = tail := by
  refine (Queue.restart_of_bare (h.bare_eq q)).trans ?_
  rw [State.stopQueues, List.foldl_cons, List.foldl_nil, State.queue_setQueue_self]

/-- It retires every command that begins below the tail. -/
theorem AbortBegun.count_one (hall : ∀ e ∈ (s.queue q).cmds, e.1 < tail) : b.count = (s.queue q).cmds.length := by
  have hcmds := (State.queue_stopQueues s [(q, tail)] qstate q).1
  rw [h.count_eq, State.length_unretired_one _ (by rwa [hcmds]), hcmds]

end

end Sys2Proof.Machine
end

section
/-! SUPPORT. Requests of OBJ_CMD (09 R290, R295): how a GO write is accepted, and what each operation that reads no record does. -/

namespace Sys2Proof.Machine

/-! ## A GO write (09 R290, R295) -/

/-- A triggering write leaves every register but its own, the page's PAGE_LOGSEQ and those of the Patina page. -/
theorem State.rd_written {s : State} {page a : Nat} {r : Reg} {v : Word} (hreg : a ≠ pageKey 0 page + r.off) (hlog : a ≠ pageKey 0 page + 0x30)
    (hseq : a ≠ patPage + Reg.patMseq.off) (hlost : a ≠ patPage + Reg.patLost.off) : (s.written 0 page r v).rd a = s.rd a :=
  (State.rd_wr_of_ne _ _ hreg).trans (State.rd_logWrite hseq hlost hlog ..)

/-- Leaving standby writes PWR_CTL. -/
theorem State.resume_keeps (s : State) : s.resume.pl = s.pl ∧ s.resume.mem = s.mem := by
  unfold State.resume
  split
  · exact ⟨State.setFld_pl .., State.setFld_mem ..⟩
  · exact ⟨rfl, rfl⟩

section
variable {s : State} (hreqs : s.pl.reqs = [])
include hreqs

/-- Where no function has a request, none shows one. -/
theorem State.freq_of_none (f : Nat) : s.freq f = {} := by
  unfold State.freq
  rw [hreqs]
  rfl

/-- The first request is the only one. -/
theorem State.reqs_setFreq_first {x : FuncReqs} (hx : x ≠ {}) : (s.setFreq 0 x).pl.reqs = [(0, x)] := by
  have hput : (s.setFreq 0 x).pl.reqs = s.pl.reqs.put {} 0 x := rfl
  rw [hput, hreqs]
  exact (if_neg hx : SMap.set (fun _ => ({} : FuncReqs)) [] 0 x = _)

/-- It is the first in the order of acceptance. -/
theorem State.nextOrder_first (ha : s.pl.aborts = []) : s.nextOrder = 0 := by
  unfold State.nextOrder State.objReqs
  rw [hreqs, ha]
  rfl

end

/-- A request has been accepted as the only one: BUSY shows it, and the objects are as they were. -/
structure ObjAccepted (s u : State) (r : ObjReq) : Prop where
  reqs_eq : u.pl.reqs = [(0, { obj := some r })]
  aborts_eq : u.pl.aborts = []
  ctxs_eq : u.pl.ctxs = s.pl.ctxs
  queues_eq : u.pl.queues = s.pl.queues
  mem_eq : u.mem = s.mem
  busy_eq : u.fld (objPage 0) .objStat Fld.objStat_busy = 1

section
variable {s u : State} {r : ObjReq}

/-- The page's registers show a request that has just been accepted with nothing else in progress. -/
theorem ObjAccepted.of_logged {t : State} (hlog : Logged s t) (hreqs : s.pl.reqs = []) (ha : s.pl.aborts = []) (r : ObjReq) :
    ObjAccepted s ((t.resume.setFld (objPage 0) .objStat Fld.objStat_busy 1).setFreq 0 { t.freq 0 with obj := some r }) r := by
  obtain ⟨hpl, hmem⟩ := t.resume_keeps
  have hreqs' : t.objects.reqs = s.objects.reqs := congrArg Plinth.reqs hlog.objects_eq
  have haborts' : t.objects.aborts = s.objects.aborts := congrArg Plinth.aborts hlog.objects_eq
  have hctxs' : t.objects.ctxs = s.objects.ctxs := congrArg Plinth.ctxs hlog.objects_eq
  have hqueues' : t.objects.queues = s.objects.queues := congrArg Plinth.queues hlog.objects_eq
  have hfreq : t.freq 0 = {} := State.freq_of_none (hreqs'.trans hreqs) 0
  refine ⟨?_, ?_, ?_, ?_, ?_, ?_⟩
  · have hresume : t.resume.pl.reqs = [] := (congrArg Plinth.reqs hpl).trans (hreqs'.trans hreqs)
    rw [hfreq]
    refine State.reqs_setFreq_first hresume fun h => ?_
    have hobj : (some r : Option ObjReq) = none := congrArg FuncReqs.obj h
    exact Option.some_ne_none r hobj
  · exact (congrArg Plinth.aborts hpl).trans (haborts'.trans ha)
  · exact (congrArg Plinth.ctxs hpl).trans hctxs'
  · exact (congrArg Plinth.queues hpl).trans hqueues'
  · exact hmem.trans hlog.mem_eq
  · exact State.fld_setFld_self _ _ _ (by decide) (by decide)

/-- A GO write that is allowed, with nothing in progress, is accepted and settles. -/
theorem State.objGo_accepted {v : Word} {op : Nat} (hgo : v.bit 63 = true) (hop : Fld.objCmd_op.get v = op)
    (hv : s.verdict 0 0x400 Reg.objCmd.off 8 = .perform) (htakes : s.objTakes 0 v = true) (hreqs : s.pl.reqs = []) (ha : s.pl.aborts = []) :
    ∃ u, s.objGo 0 op v = u.settle
      ∧ ObjAccepted s u ⟨op, Fld.objCmd_id.get v, Fld.objCmd_arena.get v, (s.reg (objPage 0) .objArg).toNat, 0, 0⟩ := by
  let t := s.written 0 0x400 .objCmd v
  have hlog : Logged s t := State.written_logged ..
  have harg : t.reg (pageKey 0 0x400) .objArg = s.reg (objPage 0) .objArg := State.rd_written (by decide) (by decide) (by decide) (by decide)
  have horder : t.nextOrder = 0 := by
    have hreqs' : t.objects.reqs = s.objects.reqs := congrArg Plinth.reqs hlog.objects_eq
    have haborts' : t.objects.aborts = s.objects.aborts := congrArg Plinth.aborts hlog.objects_eq
    exact State.nextOrder_first (hreqs'.trans hreqs) (haborts'.trans ha)
  refine ⟨_, ?_, ObjAccepted.of_logged hlog hreqs ha _⟩
  have hsrc : srcFunc 0 = 0 := rfl
  unfold State.objGo
  dsimp only
  rw [if_neg (by rw [hgo, hop]; simp), hsrc, State.triggerIf_perform hv htakes]
  rw [show (s.written 0 0x400 .objCmd v) = t from rfl, show objPage 0 = pageKey 0 0x400 from rfl, harg, horder]
  rfl

/-! ## Operations that need no abort (09 R278, R281, R287) -/

/-- A request is performed: it ends with a status, and leaves the objects as its operation does. -/
theorem ObjAccepted.gives (h : ObjAccepted s u r) {status : Nat} {w : State} (hrun : u.objRun 0 r = State.objGive 0 (status, w)) (h0 : r.op ≠ 0)
    (h2 : r.op ≠ 2) (hstatus : status < 16) (hreqs : w.pl.reqs = u.pl.reqs) (ha : w.pl.aborts = u.pl.aborts) :
    ObjEnded u.settle status ∧ u.settle.pl.ctxs = w.pl.ctxs ∧ u.settle.pl.queues = w.pl.queues := by
  have hdone : (State.objGive 0 (status, w)).pl.reqs = [] := State.objEnd_reqs (hreqs.trans h.reqs_eq) _
  have hnone : (State.objGive 0 (status, w)).pl.aborts = [] := ha.trans h.aborts_eq
  have hsent := State.settle_performs h.reqs_eq h.aborts_eq h0 h2 (by rw [hrun]; exact hdone) (by rw [hrun]; exact .of_none hnone)
  rw [hrun] at hsent
  refine ⟨(State.objEnd_ended w hstatus).sent hsent, ?_⟩
  obtain ⟨_, _, hsettle⟩ := hsent
  rw [hsettle]
  exact ⟨rfl, rfl⟩

theorem State.restartOp_stopped {q : Nat} (h : (u.queue q).state = 2) :
    u.restartOp 0 q = (0, u.setQueue q { u.queue q with state := 1, fetched := max (u.queue q).fetched (u.queue q).restart }) := by
  have hreach : u.reachesQueue 0 q = true := rfl
  unfold State.restartOp
  simp only [hreach, h, beq_self_eq_true, firstStatus_pass]
  rfl

theorem State.restartOp_other {q : Nat} (h : (u.queue q).state ≠ 2) : u.restartOp 0 q = (3, u) := by
  have hreach : u.reachesQueue 0 q = true := rfl
  unfold State.restartOp
  simp only [hreach, beq_eq_false_iff_ne.mpr h, firstStatus_pass]
  rfl

section
variable {n a arg : Nat} {x : Arena} (hlive : (u.ctx n).state = 1) (harena : (u.ctx n).arenas[a]? = some x)
include hlive harena

/-- A limit that is a multiple of 32 MiB and not below the cursor is taken; another is refused (09 R278). -/
theorem State.arenaOp_limit : u.arenaOp 0 n a arg false = if arg % 0x2000000 = 0 ∧ x.cursor ≤ arg then
    (0, u.setCtx n { u.ctx n with arenas := (u.ctx n).arenas.set a { x with limit := arg, full := false, lowArmed := true } }) else (5, u) := by
  have hreach : u.reachesCtx 0 n = true := rfl
  unfold State.arenaOp
  simp only [harena, hlive, hreach, beq_self_eq_true, firstStatus_pass, Bool.false_or]
  by_cases hok : arg % 0x2000000 = 0 ∧ x.cursor ≤ arg
  · rw [if_pos hok, beq_iff_eq.mpr hok.1, decide_eq_true hok.2]
    rfl
  · have hno : (arg % 0x2000000 == 0 && decide (x.cursor ≤ arg)) = false := by
      rw [Bool.eq_false_iff, ne_eq, Bool.and_eq_true, beq_iff_eq, decide_eq_true_eq]
      exact hok
    rw [if_neg hok, hno]
    rfl

theorem State.arenaOp_reset : u.arenaOp 0 n a arg true =
    (0, u.setCtx n { u.ctx n with arenas := (u.ctx n).arenas.set a { x with cursor := 0, full := false, lowHit := false, lowArmed := true } }) := by
  have hreach : u.reachesCtx 0 n = true := rfl
  unfold State.arenaOp
  simp only [harena, hlive, hreach, beq_self_eq_true, firstStatus_pass, Bool.true_or]
  rfl

end

section
variable (h : ObjAccepted s u r)
include h

theorem ObjAccepted.ctx_eq (n : Nat) : u.ctx n = s.ctx n := congrArg (fun m : SMap Context => m.at {} n) h.ctxs_eq

theorem ObjAccepted.queue_eq (q : Nat) : u.queue q = s.queue q := State.queue_of_queues h.queues_eq q

/-- A STOPPED queue restarts from the tail that its stop recorded. -/
theorem ObjAccepted.restarts (hop : r.op = 4) (hstopped : (s.queue r.id).state = 2) : ObjEnded u.settle 0
    ∧ u.settle.queue r.id = { s.queue r.id with state := 1, fetched := max (s.queue r.id).fetched (s.queue r.id).restart } := by
  rw [← h.queue_eq] at hstopped ⊢
  have hrun : u.objRun 0 r = State.objGive 0 (u.restartOp 0 r.id) := by
    unfold State.objRun
    rw [hop]
    rfl
  rw [State.restartOp_stopped hstopped] at hrun
  obtain ⟨hended, -, hqueues⟩ := h.gives hrun (by rw [hop]; decide) (by rw [hop]; decide) (by decide) rfl rfl
  exact ⟨hended, (State.queue_of_queues hqueues r.id).trans (State.queue_setQueue_self ..)⟩

/-- Another queue does not. -/
theorem ObjAccepted.restarts_not (hop : r.op = 4) (hother : (s.queue r.id).state ≠ 2) : ObjEnded u.settle 3 ∧ u.settle.pl.queues = s.pl.queues := by
  rw [← h.queue_eq] at hother
  have hrun : u.objRun 0 r = State.objGive 0 (u.restartOp 0 r.id) := by
    unfold State.objRun
    rw [hop]
    rfl
  rw [State.restartOp_other hother] at hrun
  obtain ⟨hended, -, hqueues⟩ := h.gives hrun (by rw [hop]; decide) (by rw [hop]; decide) (by decide) rfl rfl
  exact ⟨hended, hqueues.trans h.queues_eq⟩

/-- The end of an arena's request shows the context that its operation leaves. -/
theorem ObjAccepted.givesCtx {status : Nat} {y : Context} (hrun : u.objRun 0 r = State.objGive 0 (status, u.setCtx r.id y)) (h0 : r.op ≠ 0)
    (h2 : r.op ≠ 2) (hstatus : status < 16) : ObjEnded u.settle status ∧ u.settle.ctx r.id = y := by
  obtain ⟨hended, hctxs, -⟩ := h.gives hrun h0 h2 hstatus rfl rfl
  exact ⟨hended, (congrArg (fun m : SMap Context => m.at {} r.id) hctxs).trans (State.ctx_setCtx_self ..)⟩

section
variable {x : Arena} (hlive : (s.ctx r.id).state = 1) (harena : (s.ctx r.id).arenas[r.arena]? = some x)
include hlive harena

theorem ObjAccepted.setsLimit (hop : r.op = 5) : if r.arg % 0x2000000 = 0 ∧ x.cursor ≤ r.arg then
      ObjEnded u.settle 0 ∧ u.settle.ctx r.id
        = { s.ctx r.id with arenas := (s.ctx r.id).arenas.set r.arena { x with limit := r.arg, full := false, lowArmed := true } }
    else ObjEnded u.settle 5 ∧ u.settle.ctx r.id = s.ctx r.id := by
  rw [← h.ctx_eq] at hlive harena ⊢
  have hrun : u.objRun 0 r = State.objGive 0 (u.arenaOp 0 r.id r.arena r.arg false) := by
    unfold State.objRun
    rw [hop]
    rfl
  rw [State.arenaOp_limit hlive harena] at hrun
  split
  · next hok =>
    rw [if_pos hok] at hrun
    exact h.givesCtx hrun (by rw [hop]; decide) (by rw [hop]; decide) (by decide)
  · next hno =>
    rw [if_neg hno] at hrun
    obtain ⟨hended, hctxs, -⟩ := h.gives hrun (by rw [hop]; decide) (by rw [hop]; decide) (by decide) rfl rfl
    exact ⟨hended, congrArg (fun m : SMap Context => m.at {} r.id) hctxs⟩

theorem ObjAccepted.resetsArena (hop : r.op = 6) : ObjEnded u.settle 0 ∧ u.settle.ctx r.id
    = { s.ctx r.id with arenas := (s.ctx r.id).arenas.set r.arena { x with cursor := 0, full := false, lowHit := false, lowArmed := true } } := by
  rw [← h.ctx_eq] at hlive harena ⊢
  have hrun : u.objRun 0 r = State.objGive 0 (u.arenaOp 0 r.id r.arena r.arg true) := by
    unfold State.objRun
    rw [hop]
    rfl
  rw [State.arenaOp_reset hlive harena] at hrun
  exact h.givesCtx hrun (by rw [hop]; decide) (by rw [hop]; decide) (by decide)

end

end

/-! ## Destructions (09 R281, R291) -/

/-- A request that begins an abort leaves it as the only one, and settling leaves it. -/
theorem ObjAccepted.destroys (h : ObjAccepted s u r) {w : State} {qs : List (Nat × Nat)} {qstate : Nat} {b : Abort}
    (hb : AbortBegun w (u.objRun 0 r) qs qstate b) (hw : w.pl.reqs = []) (hwa : w.pl.aborts = []) (h0 : r.op ≠ 0) (h2 : r.op ≠ 2) :
    (u.objRun 0 r).Sent u.settle ∧ u.settle.pl.aborts = [b] := by
  have haborts : (u.objRun 0 r).pl.aborts = [b] := by rw [hb.aborts_eq, hwa, List.nil_append]
  have hsent := State.settle_performs h.reqs_eq h.aborts_eq h0 h2 (hb.reqs_eq.trans hw) (.of_one haborts (.inl (by rw [hb.step_eq]; decide)))
  refine ⟨hsent, ?_⟩
  obtain ⟨_, _, hsettle⟩ := hsent
  rw [hsettle]
  exact haborts

/-- The request being performed is no longer one that waits. -/
theorem ObjAccepted.taken_reqs (h : ObjAccepted s u r) : (u.setFreq 0 { u.freq 0 with obj := none }).pl.reqs = [] := by
  have hput : (u.setFreq 0 { u.freq 0 with obj := none }).pl.reqs = u.pl.reqs.put {} 0 { u.freq 0 with obj := none } := rfl
  rw [hput, State.freq_of_one h.reqs_eq, h.reqs_eq]
  rfl

/-- A queue with a state is one of its context's queues. -/
theorem State.mem_queuesOf {q n : Nat} (hstate : (u.queue q).state ≠ 0) (hctx : (u.queue q).ctx = n) : q ∈ u.queuesOf n := by
  cases hq : u.pl.queues.find? q with
  | none =>
    have hdefault : u.queue q = {} := congrArg (Option.getD · ({} : Queue)) hq
    rw [hdefault] at hstate
    exact absurd rfl hstate
  | some x =>
    have hx : u.queue q = x := congrArg (Option.getD · ({} : Queue)) hq
    rw [hx] at hstate hctx
    refine List.mem_map.mpr ⟨(q, x), List.mem_filter.mpr ⟨SMap.mem_of_find? hq, ?_⟩, rfl⟩
    rw [hctx, beq_self_eq_true, Bool.and_true]
    exact bne_iff_ne.mpr hstate

/-- The state in which a context's destruction begins: it is DYING, and OBJ_STAT shows step 1. -/
def State.dying (u : State) (n : Nat) : State :=
  let t := (u.setFreq 0 { u.freq 0 with obj := none }).setFld (objPage 0) .objStat Fld.objStat_step 1
  t.setCtx n { t.ctx n with state := 2 }

theorem State.setCtx_fld (s : State) (n : Nat) (x : Context) (pk : Nat) (r : Reg) (f : Fld) : (s.setCtx n x).fld pk r f = s.fld pk r f := rfl

theorem State.dying_step (u : State) (n : Nat) : (u.dying n).fld (objPage 0) .objStat Fld.objStat_step = 1 := by
  unfold State.dying
  rw [State.setCtx_fld]
  exact State.fld_setFld_self _ _ _ (by decide) (by decide)

/-- The queues that a context's destruction stops, with their tails. -/
def State.dyingQueues (u : State) (n : Nat) : List (Nat × Nat) := (u.queuesOf n).map fun q => (q, (u.queue q).tail)

theorem State.destroyCtxOp_live {n : Nat} (h : (u.ctx n).state = 1) :
    u.destroyCtxOp 0 n = (u.dying n).abortStart 3 0 n ((u.dying n).dyingQueues n) 3 3 (u.freq 0).obj := by
  have hreach : u.reachesCtx 0 n = true := rfl
  have hpass : firstStatus [(u.reachesCtx 0 n, 1), ((u.ctx n).state == 1, 3)] = 0 := by
    rw [hreach, h]
    rfl
  unfold State.destroyCtxOp State.dieCtx State.dyingQueues State.dying
  dsimp only
  rw [hpass, if_neg (not_not_intro rfl)]

theorem State.destroyCtxOp_other {n : Nat} (h : (u.ctx n).state ≠ 1) : u.destroyCtxOp 0 n = State.objGive 0 (3, u) := by
  have hreach : u.reachesCtx 0 n = true := rfl
  unfold State.destroyCtxOp
  simp only [hreach, beq_eq_false_iff_ne.mpr h, firstStatus_pass]
  rfl

/-- The destruction of a context that is not LIVE changes nothing. -/
theorem ObjAccepted.destroysNothing (h : ObjAccepted s u r) (hop : r.op = 1) (hdead : (s.ctx r.id).state ≠ 1) :
    ObjEnded u.settle 3 ∧ u.settle.pl.ctxs = s.pl.ctxs := by
  rw [← h.ctx_eq] at hdead
  have hrun : u.objRun 0 r = u.destroyCtxOp 0 r.id := by
    unfold State.objRun
    rw [hop]
    rfl
  rw [State.destroyCtxOp_other hdead] at hrun
  obtain ⟨hended, hctxs, -⟩ := h.gives hrun (by rw [hop]; decide) (by rw [hop]; decide) (by decide) rfl rfl
  exact ⟨hended, hctxs.trans h.ctxs_eq⟩

theorem State.destroyQueueOp_live {q : Nat} (h : (u.queue q).state = 1 ∨ (u.queue q).state = 2) :
    u.destroyQueueOp 0 q = (u.setFreq 0 { u.freq 0 with obj := none }).abortStart 2 0 (u.queue q).ctx [(q, (u.queue q).tail)] 3 1 (u.freq 0).obj := by
  have hreach : u.reachesQueue 0 q = true := rfl
  have hlive : ((u.queue q).state == 1 || (u.queue q).state == 2) = true := by rwa [Bool.or_eq_true, beq_iff_eq, beq_iff_eq]
  unfold State.destroyQueueOp
  simp only [hreach, hlive, firstStatus_pass]
  rfl

/-- The destruction of a LIVE context: it is DYING, and its abort is the only one. -/
theorem ObjAccepted.destroysCtx (h : ObjAccepted s u r) (hop : r.op = 1) (hlive : (s.ctx r.id).state = 1) :
    ∃ b, (u.settle.ctx r.id).state = 2 ∧ u.settle.pl.aborts = [b] ∧ b.kind = 3 ∧ b.ctx = r.id ∧ b.code = 3 ∧ b.step = 1
      ∧ u.settle.fld (objPage 0) .objStat Fld.objStat_step = 1
      ∧ ∀ q, (s.queue q).state ≠ 0 → (s.queue q).ctx = r.id →
          (u.settle.queue q).state = 3 ∧ ((∀ e ∈ (s.queue q).cmds, e.1 < (s.queue q).tail) → (u.settle.queue q).cmds = []) := by
  let w := u.dying r.id
  have hqueue : ∀ q, w.queue q = s.queue q := State.queue_of_queues (h.queues_eq : w.pl.queues = s.pl.queues)
  have hrun : u.objRun 0 r = w.abortStart 3 0 r.id (w.dyingQueues r.id) 3 3 (u.freq 0).obj := by
    unfold State.objRun
    rw [hop]
    exact State.destroyCtxOp_live (by rw [h.ctx_eq, hlive])
  obtain ⟨b, hb, hkind, hbctx, hcode⟩ := w.abortStart_begun 3 0 r.id (w.dyingQueues r.id) 3 3 (u.freq 0).obj
  rw [← hrun] at hb
  obtain ⟨hsent, haborts⟩ := h.destroys hb h.taken_reqs h.aborts_eq (by rw [hop]; decide) (by rw [hop]; decide)
  refine ⟨b, ?_, haborts, hkind, hbctx, hcode, hb.step_eq, ?_, fun q hstate hqctx => ?_⟩ <;> obtain ⟨_, _, hsettle⟩ := hsent <;> rw [hsettle]
  · have hctx : (u.objRun 0 r).ctx r.id = w.ctx r.id := congrArg (fun m : SMap Context => m.at {} r.id) hb.ctxs_eq
    exact (congrArg Context.state hctx).trans (congrArg Context.state (State.ctx_setCtx_self ..))
  · exact (congrArg Fld.objStat_step.get (hb.rd_eq (objPage 0 + Reg.objStat.off) (by decide))).trans (u.dying_step r.id)
  · rw [← hqueue] at hstate hqctx ⊢
    have hmem : (q, (w.queue q).tail) ∈ w.dyingQueues r.id := List.mem_map.mpr ⟨q, State.mem_queuesOf hstate hqctx, rfl⟩
    exact ⟨hb.state_eq (List.mem_map.mpr ⟨_, hmem, rfl⟩), fun hall => hb.cmds_eq hmem hall⟩

/-- The destruction of a LIVE or STOPPED queue: it is DYING, and its abort is the only one. -/
theorem ObjAccepted.destroysQueue (h : ObjAccepted s u r) (hop : r.op = 3) (hlive : (s.queue r.id).state = 1 ∨ (s.queue r.id).state = 2) :
    ∃ b, (u.settle.queue r.id).state = 3 ∧ (u.settle.queue r.id).restart = (s.queue r.id).tail ∧ u.settle.pl.aborts = [b] ∧ b.kind = 2 ∧ b.code = 1
      ∧ b.queues = [r.id]
      ∧ ((∀ e ∈ (s.queue r.id).cmds, e.1 < (s.queue r.id).tail) → (u.settle.queue r.id).cmds = [] ∧ b.count = (s.queue r.id).cmds.length) := by
  have hqueue : u.queue r.id = s.queue r.id := h.queue_eq _
  let w := u.setFreq 0 { u.freq 0 with obj := none }
  have hrun : u.objRun 0 r = w.abortStart 2 0 (u.queue r.id).ctx [(r.id, (u.queue r.id).tail)] 3 1 (u.freq 0).obj := by
    unfold State.objRun
    rw [hop]
    exact State.destroyQueueOp_live (by rwa [hqueue])
  obtain ⟨b, hb, hkind, -, hcode⟩ := w.abortStart_begun 2 0 (u.queue r.id).ctx [(r.id, (u.queue r.id).tail)] 3 1 (u.freq 0).obj
  rw [← hrun] at hb
  obtain ⟨hsent, haborts⟩ := h.destroys hb h.taken_reqs h.aborts_eq (by rw [hop]; decide) (by rw [hop]; decide)
  rw [← hqueue]
  refine ⟨b, ?_, ?_, haborts, hkind, hcode, hb.queues_eq, fun hall => ⟨?_, hb.count_one hall⟩⟩ <;> obtain ⟨_, _, hsettle⟩ := hsent <;> rw [hsettle]
  · exact hb.state_eq (List.mem_singleton_self _)
  · exact hb.restart_eq
  · exact hb.cmds_eq (List.mem_singleton_self _) hall

end

end Sys2Proof.Machine
end

section
/-! Object requests: the obligation, from the rules above. -/

namespace Sys2Proof.Machine

/-- Settles O38: an allowed GO write is accepted as the only request, and settling performs it, but for a creation, which waits for its record. -/
theorem objectRequests : Obligations.ObjectRequests := by
  unfold Obligations.ObjectRequests
  intro v s hgo hv htakes hreqs ha n a arg op x y ended waits
  obtain ⟨u, hu, hacc⟩ := State.objGo_accepted hgo (rfl : Fld.objCmd_op.get v = op) hv htakes hreqs ha
  have hexec : ∀ {k : Nat} {i : Instr}, op = k → exec i s = .next (s.objGo 0 k v) → exec i s = .next u.settle := fun hop hi => by
    rw [hi, ← hop, hu]
  have hended : ∀ {status : Nat}, ObjEnded u.settle status → ended u.settle status := fun h => ⟨h.status_eq, h.busy_eq, h.done_eq⟩
  have hwaits : op = 0 ∨ op = 2 → waits u.settle := fun hop => by
    obtain ⟨_, _, hsettle⟩ := State.settle_creation hacc.reqs_eq hacc.aborts_eq hop
    rw [hsettle]
    exact ⟨congrArg FuncReqs.obj (State.freq_of_one hacc.reqs_eq), hacc.busy_eq, hacc.mem_eq⟩
  refine ⟨fun hop => ⟨_, hexec hop rfl, hwaits (.inl hop)⟩, fun hop => ⟨_, hexec hop rfl, hwaits (.inr hop)⟩, fun hop hlive => ?_, fun hop hdead => ?_,
    fun hop hlive => ?_, fun hop => ⟨_, hexec hop rfl, fun hstopped => ?_, fun hother => ?_⟩, fun r hlive harena => ⟨fun hop => ⟨_, hexec hop rfl, ?_⟩,
    fun hop => ⟨_, hexec hop rfl, ?_⟩⟩⟩
  · obtain ⟨b, hb⟩ := hacc.destroysCtx hop hlive
    exact ⟨_, b, hexec hop rfl, hb⟩
  · obtain ⟨hend, hctxs⟩ := hacc.destroysNothing hop hdead
    exact ⟨_, hexec hop rfl, hended hend, hctxs⟩
  · obtain ⟨b, hb⟩ := hacc.destroysQueue hop hlive
    exact ⟨_, b, hexec hop rfl, hb⟩
  · obtain ⟨hend, hqueue⟩ := hacc.restarts hop hstopped
    exact ⟨hended hend, hqueue⟩
  · obtain ⟨hend, hqueues⟩ := hacc.restarts_not hop hother
    exact ⟨hended hend, hqueues⟩
  · have hlimit := hacc.setsLimit hlive harena hop
    split
    · next hok =>
      obtain ⟨hend, hctx⟩ := (if_pos hok).mp hlimit
      exact ⟨hended hend, hctx⟩
    · next hno =>
      obtain ⟨hend, hctx⟩ := (if_neg hno).mp hlimit
      exact ⟨hended hend, hctx⟩
  · obtain ⟨hend, hctx⟩ := hacc.resetsArena hlive harena hop
    exact ⟨hended hend, hctx⟩

end Sys2Proof.Machine
end

section
/-! SUPPORT. Requests of ABT_REQ (09 R287, R290): how one is accepted, and what the abort of a command or of a queue leaves. -/

namespace Sys2Proof.Machine

/-! ## A GO write of ABT_REQ (09 R287, R290) -/

/-- An abort request has been accepted as the only request, and the queues are as they were. -/
structure AbtAccepted (s u : State) (r : ObjReq) : Prop where
  reqs_eq : u.pl.reqs = [(0, { abt := some r })]
  aborts_eq : u.pl.aborts = []
  queues_eq : u.pl.queues = s.pl.queues

/-- The request that a GO write of ABT_REQ makes in a state. -/
def State.abtAsked (s : State) (whole : Bool) (q : Nat) : ObjReq where
  op := if whole then 9 else 8
  id := q
  arena := 0
  arg := if whole then (s.queue q).tail else (s.reg (abtPage 0) .abtSeq).toNat
  order := 0
  base := (s.queue q).fetched

section
variable {s u : State} {r : ObjReq}

theorem AbtAccepted.of_logged {t : State} (hlog : Logged s t) (hreqs : s.pl.reqs = []) (ha : s.pl.aborts = []) (r : ObjReq) :
    AbtAccepted s ((t.setFld (abtPage 0) .abtStat Fld.abtStat_busy 1).setFreq 0 { t.freq 0 with abt := some r }) r := by
  have hreqs' : t.objects.reqs = s.objects.reqs := congrArg Plinth.reqs hlog.objects_eq
  have haborts' : t.objects.aborts = s.objects.aborts := congrArg Plinth.aborts hlog.objects_eq
  have hqueues' : t.objects.queues = s.objects.queues := congrArg Plinth.queues hlog.objects_eq
  have hfreq : t.freq 0 = {} := State.freq_of_none (hreqs'.trans hreqs) 0
  refine ⟨?_, haborts'.trans ha, hqueues'⟩
  rw [hfreq]
  refine State.reqs_setFreq_first (hreqs'.trans hreqs) fun h => ?_
  have habt : (some r : Option ObjReq) = none := congrArg FuncReqs.abt h
  exact Option.some_ne_none r habt

/-- Invalidations that complete leave the queues and the registers. -/
theorem State.Sent.queues_eq {t : State} (h : s.Sent t) : t.pl.queues = s.pl.queues := by
  obtain ⟨_, _, rfl⟩ := h
  rfl

theorem State.Sent.fld_eq {t : State} (h : s.Sent t) (pk : Nat) (r : Reg) (f : Fld) : t.fld pk r f = s.fld pk r f := by
  obtain ⟨_, _, rfl⟩ := h
  rfl

/-- The end of an abort request shows its result and DONE. -/
theorem State.abtEnd_result (s : State) {result : Nat} (hr : result < 8) : (s.abtEnd 0 result).fld (abtPage 0) .abtStat Fld.abtStat_result = result := by
  refine (State.fld_setFld_apart _ _ _ _ (by decide) (by decide)).trans ?_
  refine (State.fld_setFld_apart _ _ _ _ (by decide) (by decide)).trans ?_
  exact State.fld_setFld_self _ _ _ (by decide) (lt_of_lt_of_le hr (by decide))

theorem State.abtEnd_done (s : State) (result : Nat) : (s.abtEnd 0 result).fld (abtPage 0) .abtStat Fld.abtStat_done = 1 :=
  State.fld_setFld_self _ _ _ (by decide) (by decide)

/-- A GO write that is allowed, with nothing in progress, is accepted and goes as far as it can. -/
theorem State.abtGo_accepted {v : Word} {whole : Bool} {h : HostAnswer} (hgo : v.bit 63 = true) (hwhole : v.bit 14 = whole)
    (hv : s.verdict 0 0x401 Reg.abtReq.off 8 = .perform) (hobj : s.fld (objPage 0) .objStat Fld.objStat_busy = 0)
    (habt : s.fld (abtPage 0) .abtStat Fld.abtStat_busy = 0) (hreqs : s.pl.reqs = []) (ha : s.pl.aborts = []) :
    ∃ u, s.abtGo 0 whole v h = (u.abtRun 0 (s.abtAsked whole (Fld.abtReq_queue.get v)) h).settle
      ∧ AbtAccepted s u (s.abtAsked whole (Fld.abtReq_queue.get v)) := by
  let t := s.written 0 0x401 .abtReq v
  have hlog : Logged s t := State.written_logged ..
  have hseq : t.reg (pageKey 0 0x401) .abtSeq = s.reg (abtPage 0) .abtSeq := State.rd_written (by decide) (by decide) (by decide) (by decide)
  have hreqs' : t.objects.reqs = s.objects.reqs := congrArg Plinth.reqs hlog.objects_eq
  have haborts' : t.objects.aborts = s.objects.aborts := congrArg Plinth.aborts hlog.objects_eq
  have hqueues' : t.objects.queues = s.objects.queues := congrArg Plinth.queues hlog.objects_eq
  have horder : t.nextOrder = 0 := State.nextOrder_first (hreqs'.trans hreqs) (haborts'.trans ha)
  have hqueue : ∀ q, t.queue q = s.queue q := State.queue_of_queues hqueues'
  refine ⟨_, ?_, AbtAccepted.of_logged hlog hreqs ha _⟩
  have hsrc : srcFunc 0 = 0 := rfl
  unfold State.abtGo State.abtAsked
  dsimp only
  rw [if_neg (by rw [hgo, hwhole]; simp), hsrc, State.triggerIf_perform hv (by rw [hobj, habt]; rfl)]
  rw [show (s.written 0 0x401 .abtReq v) = t from rfl, show abtPage 0 = pageKey 0 0x401 from rfl, hseq, horder, hqueue]
  rfl

section
variable (h : AbtAccepted s u r)
include h

theorem AbtAccepted.queue_eq (q : Nat) : u.queue q = s.queue q := State.queue_of_queues h.queues_eq q

/-- It waits for no other request. -/
theorem AbtAccepted.turn : u.objBehind r = false := State.objBehind_alone (by
  unfold State.objReqs
  rw [h.reqs_eq, h.aborts_eq]
  rfl)

/-- The request being performed is no longer one that waits. -/
theorem AbtAccepted.taken_reqs {t : State} (ht : t.pl.reqs = u.pl.reqs) : (t.setFreq 0 { t.freq 0 with abt := none }).pl.reqs = [] := by
  have hfreq : t.freq 0 = { abt := some r } := by
    unfold State.freq
    rw [ht, h.reqs_eq]
    rfl
  have hput : (t.setFreq 0 { t.freq 0 with abt := none }).pl.reqs = t.pl.reqs.put {} 0 { t.freq 0 with abt := none } := rfl
  rw [hput, hfreq, ht, h.reqs_eq]
  rfl

section
variable {a : HostAnswer} (hstate : (s.queue r.id).state = 1 ∨ (s.queue r.id).state = 2)
include hstate

/-- The abort of a queue stops it at its tail. -/
theorem AbtAccepted.runs_queue (hop : r.op = 9) :
    u.abtRun 0 r a = (u.setFreq 0 { u.freq 0 with abt := none }).abortStart 1 0 (s.queue r.id).ctx [(r.id, r.arg)] 2 1 (some r) := by
  have hreach : u.reachesQueue 0 r.id = true := rfl
  unfold State.abtRun
  dsimp only
  rw [h.queue_eq, h.turn, if_neg Bool.false_ne_true, if_neg (by rw [hreach]; exact fun hno => hno.elim (· hstate) (· rfl)), if_pos hop]

/-- The abort of a command that has been fetched is decided at once. -/
theorem AbtAccepted.runs_cmd (hop : r.op = 8) (hfetched : r.arg < (s.queue r.id).fetched) (htail : r.arg < (s.queue r.id).tail) :
    u.abtRun 0 r a = u.abortDecide 0 r.id r.arg := by
  have hreach : u.reachesQueue 0 r.id = true := rfl
  have hall : r.arg + 1 - (s.queue r.id).fetched = 0 := by omega
  unfold State.abtRun
  dsimp only
  rw [h.queue_eq, h.turn, if_neg Bool.false_ne_true, if_neg (by rw [hreach]; exact fun hno => hno.elim (· hstate) (· rfl)),
    if_neg (by rw [hop]; decide), if_neg (by omega), if_neg fun hwait => absurd hwait.2 (by omega), hall, State.abortFetch]
  dsimp only
  rw [h.queue_eq, if_pos hfetched]
  rfl

end

end

/-! ## The abort of one command (09 R287) -/

/-- A retirement with a code that no fault of the heartbeat gives leaves the registry. -/
theorem State.retireOne_registry (s : State) (q seq how : Nat) : (s.retireOne q seq 1 how).registry = s.registry := by
  unfold State.retireOne
  split
  · rfl
  · rw [State.pushFence_registry, State.endCmd_registry, State.releaseCmd_registry, if_neg (by decide)]

/-- The command has left its queue by an abort: the queue is in the state it was in, and so are the requests and the aborts. -/
structure Retired (s t : State) (q seq : Nat) : Prop where
  cmd_eq : t.cmd? q seq = none
  ended_eq : (t.queue q).ended.find? seq = some 2
  bare_eq : (t.queue q).bare = (s.queue q).bare
  registry_eq : t.registry = s.registry

theorem State.abortCmd_retired {q seq : Nat} {c : Cmd} (hc : s.cmd? q seq = some c) (code : Nat) : Retired s (s.abortCmd q seq code).1 q seq := by
  obtain ⟨hleft, -⟩ := State.abortCmd_some hc code
  exact ⟨(hleft.cmd_eq ..).trans (if_pos rfl), (hleft.ended_eq ..).trans (if_pos rfl), hleft.bare_eq q, State.abortCmd_registry ..⟩

/-- It stays so while other commands of the queue retire. -/
theorem Retired.retireOne {t : State} {q seq : Nat} (h : Retired s t q seq) (n : Nat) : Retired s (t.retireOne q n 1 1) q seq := by
  have hreg : (t.retireOne q n 1 1).registry = s.registry := (State.retireOne_registry ..).trans h.registry_eq
  cases hc : t.cmd? q n with
  | none =>
    have hsame : t.retireOne q n 1 1 = t := by
      unfold State.retireOne
      rw [hc]
    rwa [hsame]
  | some c =>
    have hleft := State.retireOne_some hc 1 1
    have hother : (q, seq) ≠ (q, n) := fun heq => by
      rw [← (Prod.mk.inj heq).2, h.cmd_eq] at hc
      exact nomatch hc
    exact ⟨(hleft.cmd_eq ..).trans ((if_neg hother).trans h.cmd_eq), (hleft.ended_eq ..).trans ((if_neg hother).trans h.ended_eq),
      (hleft.bare_eq q).trans h.bare_eq, hreg⟩

section
variable {q seq : Nat}

/-- The record of a new abort joins the others. -/
def State.withAbort (s : State) (b : Abort) : State := { s with pl := { s.pl with aborts := s.pl.aborts ++ [b] } }

/-- The abort of a fetched command: the command has left by the abort, whose record is the only new one. -/
theorem State.abortDecide_some {c : Cmd} (hc : u.cmd? q seq = some c) : ∃ t b, Retired u t q seq ∧ b.kind = 0 ∧ b.cmds = [(q, seq)] ∧ b.step = 1
    ∧ b.fences = [c.fenceOp (u.queue q) q seq 1]
    ∧ u.abortDecide 0 q seq = (t.withAbort b).setFreq 0 { t.freq 0 with abt := none } := by
  have hretired : Retired u (((u.queue q).dependents seq).foldl (fun t n => t.retireOne q n 1 1) (u.abortCmd q seq 1).1) q seq :=
    foldl_keeps (P := fun t => Retired u t q seq) (fun t n ht => ht.retireOne n) (State.abortCmd_retired hc 1) _
  have hfind : (u.queue q).cmds.find? seq = some c := hc
  refine ⟨_, { kind := 0, f := 0, ctx := (u.queue q).ctx, queues := [q], code := 1, cmds := [(q, seq)], fences := (u.abortCmd q seq 1).2, count := 1
               req := (u.freq 0).abt }, hretired, rfl, rfl, rfl, (State.abortCmd_some hc 1).2, ?_⟩
  unfold State.abortDecide
  dsimp only
  rw [hfind]
  rfl

/-- One that has ended by its own outcome ends with result 1, and changes no queue. -/
theorem State.abortDecide_ended (hc : u.cmd? q seq = none) (hfetched : seq < (u.queue q).fetched) (hended : (u.queue q).ended.find? seq = some 1) :
    u.abortDecide 0 q seq = u.abtEnd 0 1 := by
  have hfind : (u.queue q).cmds.find? seq = none := hc
  unfold State.abortDecide
  dsimp only
  rw [hfind]
  dsimp only
  rw [if_pos hfetched, hended]
  rfl

end

end

/-! ## What settling leaves of an abort request -/

section
variable {s u : State} {r : ObjReq} {a : HostAnswer} {q seq : Nat} (h : AbtAccepted s u r)
include h

/-- The abort of a fetched command: it has left its queue, and the abort, with the fence write that it owes, is the only one. -/
theorem AbtAccepted.abortsCmd (hop : r.op = 8) (hid : r.id = q) (harg : r.arg = seq) (hstate : (s.queue q).state = 1 ∨ (s.queue q).state = 2)
    (hfetched : seq < (s.queue q).fetched) (htail : seq < (s.queue q).tail) {c : Cmd} (hc : s.cmd? q seq = some c) :
    ∃ b, (u.abtRun 0 r a).settle.cmd? q seq = none ∧ ((u.abtRun 0 r a).settle.queue q).ended.find? seq = some 2
      ∧ ((u.abtRun 0 r a).settle.queue q).state = (s.queue q).state ∧ (u.abtRun 0 r a).settle.pl.aborts = [b]
      ∧ b.kind = 0 ∧ b.cmds = [(q, seq)] ∧ b.step = 1 ∧ b.fences = [c.fenceOp (s.queue q) q seq 1] := by
  subst hid harg
  rw [← State.cmd?_of_queues h.queues_eq] at hc
  obtain ⟨t, b, hretired, hkind, hcmds, hstep, hfences, hdecide⟩ := State.abortDecide_some hc
  rw [← hdecide.symm.trans (h.runs_cmd hstate hop hfetched htail (a := a)).symm]
  have haborts : (t.withAbort b).pl.aborts = [b] := by
    rw [State.withAbort, State.aborts_of_registry hretired.registry_eq, h.aborts_eq, List.nil_append]
  have hreqs : t.pl.reqs = u.pl.reqs := State.reqs_of_registry hretired.registry_eq
  have hsent := State.settle_idle_sent (s := (t.withAbort b).setFreq 0 { t.freq 0 with abt := none })
    (h.taken_reqs (t := t.withAbort b) hreqs) (.of_one haborts (.inl (by rw [hstep]; decide)))
  rw [h.queue_eq] at hfences
  have hstate' : (t.queue r.id).state = (s.queue r.id).state := by rw [Queue.state_of_bare hretired.bare_eq, h.queue_eq]
  obtain ⟨_, _, hsettle⟩ := hsent
  rw [hsettle]
  exact ⟨b, hretired.cmd_eq, hretired.ended_eq, hstate', haborts, hkind, hcmds, hstep, hfences⟩

/-- The abort of a command that has ended by its own outcome ends with result 1. -/
theorem AbtAccepted.leavesEnded (hop : r.op = 8) (hid : r.id = q) (harg : r.arg = seq) (hstate : (s.queue q).state = 1 ∨ (s.queue q).state = 2)
    (hfetched : seq < (s.queue q).fetched) (htail : seq < (s.queue q).tail) (hc : s.cmd? q seq = none)
    (hended : (s.queue q).ended.find? seq = some 1) :
    (u.abtRun 0 r a).settle.pl.queues = s.pl.queues ∧ (u.abtRun 0 r a).settle.fld (abtPage 0) .abtStat Fld.abtStat_result = 1
      ∧ (u.abtRun 0 r a).settle.fld (abtPage 0) .abtStat Fld.abtStat_done = 1 := by
  subst hid harg
  have hrun : u.abtRun 0 r a = u.abtEnd 0 1 := by
    rw [h.runs_cmd hstate hop hfetched htail]
    rw [← State.cmd?_of_queues h.queues_eq] at hc
    rw [← h.queue_eq] at hfetched hended
    exact State.abortDecide_ended hc hfetched hended
  have hreqs : (u.abtEnd 0 1).pl.reqs = [] := by
    have hput : (u.abtEnd 0 1).pl.reqs = (u.setFreq 0 { u.freq 0 with abt := none }).pl.reqs := rfl
    rw [hput, h.taken_reqs rfl]
  have haborts : (u.abtEnd 0 1).pl.aborts = u.pl.aborts := rfl
  have hqueues : (u.abtEnd 0 1).pl.queues = u.pl.queues := rfl
  have hsent := State.settle_idle_sent hreqs (.of_none (haborts.trans h.aborts_eq))
  rw [hrun, hsent.queues_eq, hsent.fld_eq, hsent.fld_eq]
  exact ⟨hqueues.trans h.queues_eq, State.abtEnd_result u (by decide), State.abtEnd_done u 1⟩

/-- The abort of a queue: it is stopped at its tail, and the abort is the only one. -/
theorem AbtAccepted.abortsQueue (hop : r.op = 9) (hid : r.id = q) (harg : r.arg = (s.queue q).tail)
    (hstate : (s.queue q).state = 1 ∨ (s.queue q).state = 2) :
    ∃ b, ((u.abtRun 0 r a).settle.queue q).state = 2 ∧ ((u.abtRun 0 r a).settle.queue q).restart = (s.queue q).tail
      ∧ (u.abtRun 0 r a).settle.pl.aborts = [b] ∧ b.kind = 1 ∧ b.step = 1
      ∧ ((∀ e ∈ (s.queue q).cmds, e.1 < (s.queue q).tail) →
          ((u.abtRun 0 r a).settle.queue q).cmds = [] ∧ b.count = (s.queue q).cmds.length) := by
  subst hid
  have hrun := h.runs_queue hstate hop (a := a)
  let w := u.setFreq 0 { u.freq 0 with abt := none }
  have hqueue : w.queue r.id = s.queue r.id := h.queue_eq _
  obtain ⟨b, hb, hkind, -, -⟩ := w.abortStart_begun 1 0 (s.queue r.id).ctx [(r.id, r.arg)] 2 1 (some r)
  rw [← hrun] at hb
  have haborts : (u.abtRun 0 r a).pl.aborts = [b] := by rw [hb.aborts_eq, show w.pl.aborts = [] from h.aborts_eq, List.nil_append]
  have hsent := State.settle_idle_sent (hb.reqs_eq.trans (h.taken_reqs rfl)) (.of_one haborts (.inl (by rw [hb.step_eq]; decide)))
  rw [← harg, ← hqueue]
  obtain ⟨_, _, hsettle⟩ := hsent
  rw [hsettle]
  exact ⟨b, hb.state_eq (List.mem_singleton_self _), hb.restart_eq, haborts, hkind, hb.step_eq,
    fun hall => ⟨hb.cmds_eq (List.mem_singleton_self _) hall, hb.count_one hall⟩⟩

end

end Sys2Proof.Machine
end

section
/-! SUPPORT. The aborts and the Chisel streams while engines are stopped and cut for an abort (09 R288 step 2): no store, cut or stop of a cell changes them, nor the other cores. -/

namespace Sys2Proof.Machine

/-- The Chisel streams and the aborts. -/
def State.ledger (s : State) : SMap Stream × List Abort := (s.pl.streams, s.pl.aborts)

section
variable {s t : State}

theorem State.streams_of_ledger (h : t.ledger = s.ledger) : t.pl.streams = s.pl.streams := congrArg Prod.fst h
theorem State.aborts_of_ledger (h : t.ledger = s.ledger) : t.pl.aborts = s.pl.aborts := congrArg Prod.snd h

theorem State.ledger_of_pl (h : t.pl = s.pl) : t.ledger = s.ledger := by rw [State.ledger, h, State.ledger]

theorem State.ledger_of_objects (h : t.objects = s.objects) : t.ledger = s.ledger := by
  have hstreams : t.objects.streams = s.objects.streams := congrArg Plinth.streams h
  have haborts : t.objects.aborts = s.objects.aborts := congrArg Plinth.aborts h
  exact Prod.ext hstreams haborts

/-- A fold leaves them where each of its steps does. -/
theorem State.ledger_foldl {β : Type} {f : State → β → State} (hf : ∀ t b, (f t b).ledger = t.ledger) (l : List β) (s : State) :
    (l.foldl f s).ledger = s.ledger :=
  foldl_keeps (P := fun t : State => t.ledger = s.ledger) (fun t b h => (hf t b).trans h) rfl l

end

/-! ## Lines of device and host memory -/

section
variable (s : State) (agent line : Nat)

@[simp] theorem State.ledger_withMem (m : MemSys) : State.ledger { s with mem := m } = s.ledger := rfl
@[simp] theorem State.clearResv_ledger (core : Nat) : (s.clearResv core line).ledger = s.ledger := rfl
@[simp] theorem State.clearResvBut_ledger (core own : Nat) : (s.clearResvBut core line own).ledger = s.ledger := rfl
@[simp] theorem State.clearHostResv_ledger (own : Nat) : (s.clearHostResv line own).ledger = s.ledger := rfl
@[simp] theorem State.carveAccess_ledger (w : Bool) : (s.carveAccess line w).ledger = s.ledger := State.ledger_of_pl (State.carveAccess_pl ..)
@[simp] theorem State.recall_ledger (keep : Option Nat) : (s.recall line keep).ledger = s.ledger := State.ledger_of_pl (State.recall_pl ..)
@[simp] theorem State.poisonLine_ledger (cause : Nat) : (s.poisonLine line cause).ledger = s.ledger := State.ledger_of_objects (State.poisonLine_objects ..)
@[simp] theorem State.drew_ledger (n : Nat) : (s.drew n).ledger = s.ledger := rfl

@[simp] theorem State.setCell_ledger (k : Nat) (x : Cell) : (s.setCell k x).ledger = s.ledger := rfl
@[simp] theorem State.setFlight_ledger (k : Nat) (x : Flight) : (s.setFlight k x).ledger = s.ledger := rfl
@[simp] theorem State.setGather_ledger (k : Nat) (x : Gather) : (s.setGather k x).ledger = s.ledger := rfl
@[simp] theorem State.setEngine_ledger (core k : Nat) (x : Engine) : (s.setEngine core k x).ledger = s.ledger := rfl
@[simp] theorem State.setBank_ledger (k : Nat) (x : Bank) : (s.setBank k x).ledger = s.ledger := rfl
@[simp] theorem State.setHline_ledger (k : Nat) (x : HostLine) : (s.setHline k x).ledger = s.ledger := rfl
@[simp] theorem State.hostCount_ledger (hit : Bool) : (s.hostCount hit).ledger = s.ledger := rfl

@[simp] theorem State.evict_ledger : (s.evict agent line).ledger = s.ledger := by
  have hback : (s.writeBackOp agent line).ledger = s.ledger := by
    unfold State.writeBackOp
    dsimp only
    split
    · rfl
    · split
      · rw [State.poisonLine_ledger, State.clearResv_ledger, State.ledger_withMem, State.carveAccess_ledger]
      · rw [State.clearResv_ledger, State.ledger_withMem, State.carveAccess_ledger]
  unfold State.evict
  split
  · rfl
  · split
    · exact hback
    · rfl

@[simp] theorem State.ownOp_ledger : (s.ownOp agent line).ledger = s.ledger := by
  have hroom : (s.makeRoom agent line).ledger = s.ledger := by
    unfold State.makeRoom
    dsimp only
    split
    · rfl
    · split
      · rw [State.drew_ledger, State.evict_ledger]
      · rfl
  unfold State.ownOp
  extract_lets s0 own s1 m base c
  rw [State.ledger_withMem]
  have hs0 : s0.ledger = s.ledger := (State.recall_ledger ..).trans hroom
  dsimp only [s1]
  split
  · exact (State.carveAccess_ledger ..).trans hs0
  · exact hs0

@[simp] theorem State.homeWrite_ledger (mask : Nat) (data : Line) : (s.homeWrite line mask data).1.ledger = s.ledger :=
  State.ledger_of_pl (State.homeWrite_pl ..)

@[simp] theorem State.coreStore_ledger (core mask : Nat) (data : Line) : (s.coreStore core line mask data).1.ledger = s.ledger := by
  unfold State.coreStore
  dsimp only
  split
  · rfl
  · split <;> rfl

theorem State.noteHostWriter_ledger (ctx : Nat) : (s.noteHostWriter line ctx).ledger = s.ledger := by
  unfold State.noteHostWriter
  dsimp only
  split <;> rfl

theorem State.hostRoom_ledger {s t : State} {line : Nat} (h : s.hostRoom line = some t) : t.ledger = s.ledger := by
  have hevict : ∀ (k : Nat) (l : HostLine), (s.hostEvict k l).ledger = s.ledger := fun k l => by
    unfold State.hostEvict
    dsimp only
    split <;> rfl
  unfold State.hostRoom at h
  split at h
  · rw [Option.some.inj h]
  · obtain ⟨e, -, rfl⟩ := Option.map_eq_some_iff.mp h
    rw [State.drew_ledger, hevict]

theorem State.hostStore_ledger {s t : State} {line mask : Nat} {data : Line} {ctx : Nat} (h : s.hostStore line mask data ctx = some t) :
    t.ledger = s.ledger := by
  unfold State.hostStore at h
  split at h
  · dsimp only at h
    split at h
    · rw [← Option.some.inj h]
      rfl
    · rw [← Option.some.inj h, State.noteHostWriter_ledger]
      rfl
  · obtain ⟨u, hu, rfl⟩ := Option.map_eq_some_iff.mp h
    rw [State.noteHostWriter_ledger, State.setHline_ledger, State.hostCount_ledger, State.hostRoom_ledger hu]

end

/-- A cell's store that is done leaves them, wherever it went. -/
theorem State.storeAt_ledger {s t : State} {core ctx : Nat} {na : Bool} {own : Option Nat} {g : Place} {mask : Nat} {data : Line} {code : Option Nat}
    {early : Option (Nat × Bool)} (h : s.storeAt core ctx na own g mask data = .done t code early) : t.ledger = s.ledger := by
  have hput : ∀ (u : State) (line : Nat), ((u.coreStore core line mask data).1.clearResvBut core line (own.getD 0x10000)).ledger = u.ledger := fun u line => by
    rw [State.clearResvBut_ledger, State.coreStore_ledger]
  unfold State.storeAt at h
  split at h
  case h_1 a =>
    dsimp only at h
    split at h
    · split at h
      · cases h
      · rw [← (Stored.done.inj h).1]
        exact hput ..
    · split at h
      · cases h
      · split at h
        · rw [← (Stored.done.inj h).1]
          split
          · rw [State.setCell_ledger, State.homeWrite_ledger]
          · exact State.homeWrite_ledger ..
        · split at h
          · rw [← (Stored.done.inj h).1, hput, State.ownOp_ledger]
          · cases h
  case h_2 k off =>
    rw [← (Stored.done.inj h).1]
    rfl
  case h_3 a =>
    split at h
    · cases h
    · next u hu =>
      rw [← (Stored.done.inj h).1, State.clearHostResv_ledger, State.hostStore_ledger hu]
  case h_4 c a =>
    rw [← (Stored.done.inj h).1]

/-! ## Stopping and cutting one engine -/

/-- What stopping and cutting an engine leave: the streams and the aborts, the other cores, and why the engine itself stops. -/
def State.abroad (s : State) (core eng : Nat) : (SMap Stream × List Abort) × (Nat → Core) × Nat :=
  (s.ledger, (fun c => if c = core then {} else s.core c), (s.engine core eng).stopping)

section
variable {s t : State} {core eng : Nat}

theorem State.ledger_of_abroad (h : t.abroad core eng = s.abroad core eng) : t.ledger = s.ledger := congrArg Prod.fst h
theorem State.stopping_of_abroad (h : t.abroad core eng = s.abroad core eng) : (t.engine core eng).stopping = (s.engine core eng).stopping :=
  congrArg (·.2.2) h

theorem State.core_of_abroad (h : t.abroad core eng = s.abroad core eng) {c : Nat} (hc : c ≠ core) : t.core c = s.core c := by
  have hcore := congrFun (congrArg (·.2.1) h) c
  dsimp only [State.abroad] at hcore
  rwa [if_neg hc, if_neg hc] at hcore

theorem State.abroad_of_control (hl : t.ledger = s.ledger) (h : t.control = s.control) : t.abroad core eng = s.abroad core eng := by
  have hcores := State.cores_of_control h
  unfold State.abroad
  rw [hl, State.engine_of_cores hcores]
  refine congrArg (fun f => (s.ledger, f, (s.engine core eng).stopping)) (funext fun c => ?_)
  rw [State.core_of_cores hcores]

/-- A write of the core that leaves why the engine stops. -/
theorem State.setCore_abroad {x : Core} (h : (x.engines.at {} eng).stopping = ((s.core core).engines.at {} eng).stopping) :
    (s.setCore core x).abroad core eng = s.abroad core eng := by
  refine Prod.ext rfl (Prod.ext (funext fun c => ?_) ?_)
  · dsimp only [State.abroad]
    split
    · rfl
    · next hc => rw [State.core_setCore, if_neg hc]
  · dsimp only [State.abroad, State.engine]
    rw [State.core_setCore_self, h]

end

section
variable (s : State) (core eng : Nat)

theorem State.setEngine_abroad {x : Engine} (h : x.stopping = (s.engine core eng).stopping) : (s.setEngine core eng x).abroad core eng = s.abroad core eng :=
  State.setCore_abroad ((congrArg Engine.stopping ((SMap.at_put ..).trans (if_pos rfl))).trans h)

/-- A fold leaves what lies abroad where each of its steps does. -/
theorem State.abroad_foldl {β : Type} {f : State → β → State} (hf : ∀ t b, (f t b).abroad core eng = t.abroad core eng) (l : List β) :
    (l.foldl f s).abroad core eng = s.abroad core eng :=
  foldl_keeps (P := fun t : State => t.abroad core eng = s.abroad core eng) (fun t b h => (hf t b).trans h) rfl l

@[simp] theorem State.stopCell_abroad (k : Nat) : (s.stopCell core k).abroad core eng = s.abroad core eng := by
  have hunblock : (s.unblock core k).abroad core eng = s.abroad core eng := by
    unfold State.unblock
    split
    · exact State.setCore_abroad rfl
    · exact State.abroad_of_control rfl (State.setMon_control ..)
    · rfl
  unfold State.stopCell
  dsimp only
  split
  · exact (State.abroad_of_control (State.setCell_ledger ..) (State.setCell_control ..)).trans hunblock
  · exact (State.abroad_of_control (State.setCell_ledger ..) (State.setCell_control ..)).trans hunblock
  · exact hunblock

@[simp] theorem State.dropResv_abroad (k : Nat) : (s.dropResv k).abroad core eng = s.abroad core eng := by
  refine State.abroad_of_control ?_ (State.dropResv_control ..)
  unfold State.dropResv
  dsimp only
  rw [State.setCell_ledger]
  split
  · exact State.setBank_ledger ..
  · rfl

@[simp] theorem State.serveMvbc_abroad (k inst : Nat) : (s.serveMvbc core eng k inst).abroad core eng = s.abroad core eng := by
  unfold State.serveMvbc
  dsimp only
  split
  · rfl
  · exact State.setEngine_abroad s core eng rfl

@[simp] theorem State.cutMvbc_abroad (k : Nat) (o : AsyncOp) (t : Tile) (inst : Nat) : (s.cutMvbc core eng k o t inst).abroad core eng = s.abroad core eng := by
  unfold State.cutMvbc
  extract_lets f ws d c
  refine (State.abroad_of_control (State.drew_ledger ..) (State.drew_control ..)).trans ((State.serveMvbc_abroad ..).trans ?_)
  exact State.abroad_of_control rfl ((State.setFlight_control ..).trans (State.setCell_control ..))

@[simp] theorem State.cutCollectives_abroad : (s.cutCollectives core eng).abroad core eng = s.abroad core eng := by
  unfold State.cutCollectives
  dsimp only
  refine (State.abroad_foldl _ _ _ (fun t k => State.abroad_of_control (State.setGather_ledger ..) (State.setGather_control ..)) _).trans ?_
  refine State.abroad_foldl _ _ _ (fun t k => State.abroad_foldl _ _ _ (fun u o => ?_) _) _
  split
  · split
    · exact State.cutMvbc_abroad ..
    · rfl
  · rfl

@[simp] theorem State.withdrawBars_abroad : (s.withdrawBars core eng).abroad core eng = s.abroad core eng := by
  unfold State.withdrawBars
  dsimp only
  refine (State.abroad_foldl _ _ _ (fun t k => ?_) _).trans (State.setEngine_abroad s core eng rfl)
  exact State.abroad_of_control rfl ((State.setFlight_control ..).trans (State.setGather_control ..))

/-- An engine stops for a reason; nothing else abroad changes. -/
theorem State.stopEngine_abroad (why : Nat) : (s.stopEngine core eng why).ledger = s.ledger ∧ (∀ c, c ≠ core → (s.stopEngine core eng why).core c = s.core c)
    ∧ ((s.stopEngine core eng why).engine core eng).stopping = why := by
  obtain ⟨u, hu, hstep⟩ : ∃ u : State, u.abroad core eng = s.abroad core eng
      ∧ s.stopEngine core eng why = u.setEngine core eng { u.engine core eng with stopping := why } := by
    refine ⟨_, ?_, rfl⟩
    rw [State.withdrawBars_abroad, State.cutCollectives_abroad]
    exact State.abroad_foldl _ _ _ (fun t k => by rw [State.dropResv_abroad, State.stopCell_abroad]) _
  refine ⟨?_, fun c hc => ?_, State.engine_stopEngine_stopping ..⟩
  · rw [hstep, State.setEngine_ledger, State.ledger_of_abroad hu]
  · rw [hstep, State.setEngine, State.core_setCore, if_neg hc, State.core_of_abroad hu hc]

theorem State.cutMvdm_ledger (ctx k : Nat) (free : Nat → Nat) (dir : Bool) (op mem : Tile) (tag : Nat) (na : Bool) :
    (s.cutMvdm core ctx k free dir op mem tag na).ledger = s.ledger := by
  unfold State.cutMvdm
  dsimp only
  split
  · rfl
  · split
    · refine State.ledger_foldl (fun t e => ?_) _ _
      split
      · rfl
      · next hstore => rw [State.setFlight_ledger, State.storeAt_ledger hstore]
    · exact State.setCell_ledger ..

/-- What a cut operation leaves half done is memory's or its cell's. -/
@[simp] theorem State.cutOp_abroad (k : Nat) (o : AsyncOp) : (s.cutOp core eng k o).abroad core eng = s.abroad core eng := by
  unfold State.cutOp
  extract_lets e free c b part drop
  have hpart : part.abroad core eng = s.abroad core eng := by
    dsimp only [part]
    split
    · rfl
    · split
      · split
        · exact State.abroad_of_control rfl (State.cutBank_control ..)
        · exact State.abroad_of_control rfl (State.setCell_control ..)
      · exact State.abroad_of_control (State.cutMvdm_ledger ..) (State.cutMvdm_control ..)
      · split
        · rfl
        · exact State.abroad_of_control rfl ((State.setBank_control ..).trans (State.cutBank_control ..))
      · rfl
      · rfl
      · exact State.abroad_of_control rfl (State.setCell_control ..)
  have hdrop : ∀ t : State, (drop t).abroad core eng = t.abroad core eng := fun t =>
    State.abroad_of_control rfl ((State.setFlight_control ..).trans (State.setCell_control ..))
  split
  · split
    · exact State.cutMvbc_abroad ..
    · rw [State.serveMvbc_abroad, hdrop]
  · exact (State.abroad_of_control (State.drew_ledger ..) (State.drew_control ..)).trans ((hdrop part).trans hpart)

@[simp] theorem State.cutEngine_abroad : (s.cutEngine core eng).abroad core eng = s.abroad core eng :=
  State.abroad_foldl _ _ _ (fun t k => State.abroad_foldl t _ _ (fun u o => State.cutOp_abroad u core eng k o) _) _

/-- An engine that was not stopping stops for an abort; halting leaves the streams, the aborts and every other engine. -/
theorem State.haltEngine_keeps : (s.haltEngine core eng).ledger = s.ledger
    ∧ (∀ x, x ≠ (core, eng) → (s.haltEngine core eng).engine x.1 x.2 = s.engine x.1 x.2)
    ∧ ((s.engine core eng).stopping = 0 → ((s.haltEngine core eng).engine core eng).stopping = 2) := by
  have hhalt : (s.haltEngine core eng).ledger = s.ledger ∧ (∀ c, c ≠ core → (s.haltEngine core eng).core c = s.core c)
      ∧ ((s.engine core eng).stopping = 0 → ((s.haltEngine core eng).engine core eng).stopping = 2) := by
    obtain ⟨hledger, hcore, hstopping⟩ := s.stopEngine_abroad core eng 2
    have hstop := (s.stopEngine core eng 2).cutEngine_abroad core eng
    have hcut := s.cutEngine_abroad core eng
    unfold State.haltEngine
    dsimp only
    split
    · exact ⟨(State.ledger_of_abroad hstop).trans hledger, fun c hc => (State.core_of_abroad hstop hc).trans (hcore c hc),
        fun _ => (State.stopping_of_abroad hstop).trans hstopping⟩
    · next hnot =>
      split
      · exact ⟨rfl, fun _ _ => rfl, fun h => absurd h hnot⟩
      · exact ⟨State.ledger_of_abroad hcut, fun c hc => State.core_of_abroad hcut hc, fun h => absurd h hnot⟩
  obtain ⟨hledger, hcore, hstopping⟩ := hhalt
  refine ⟨hledger, fun x hx => ?_, hstopping⟩
  by_cases hc : x.1 = core
  · rw [hc]
    exact State.engine_of_beyond (s.haltEngine_beyond core eng) fun hn => hx (Prod.ext hc hn)
  · rw [State.engine, hcore _ hc, State.engine]

end

end Sys2Proof.Machine
end

section
/-! SUPPORT. The Chisel streams of aborted commands are cut (09 R288 step 3): what is left of the streams, and what stays. -/

namespace Sys2Proof.Machine

/-- Streams alone have gone: the aborts and the cores are as they were, and no stream is new. -/
structure StreamCut (s t : State) : Prop where
  aborts_eq : t.pl.aborts = s.pl.aborts
  cores_eq : t.cores = s.cores
  streams_mem : ∀ e ∈ t.pl.streams, e ∈ s.pl.streams

section
variable {s t u : State}

theorem StreamCut.refl (s : State) : StreamCut s s := ⟨rfl, rfl, fun _ he => he⟩

theorem StreamCut.trans (h : StreamCut s t) (k : StreamCut t u) : StreamCut s u :=
  ⟨k.aborts_eq.trans h.aborts_eq, k.cores_eq.trans h.cores_eq, fun e he => h.streams_mem e (k.streams_mem e he)⟩

theorem StreamCut.of_ledger (hl : t.ledger = s.ledger) (hcores : t.cores = s.cores) : StreamCut s t :=
  ⟨State.aborts_of_ledger hl, hcores, fun e he => by rwa [State.streams_of_ledger hl] at he⟩

/-- A fold cuts streams alone where each of its steps does. -/
theorem StreamCut.foldl {β : Type} {f : State → β → State} (hf : ∀ t b, StreamCut t (f t b)) (l : List β) (s : State) : StreamCut s (l.foldl f s) :=
  foldl_keeps (P := fun t : State => StreamCut s t) (fun t b h => h.trans (hf t b)) (.refl s) l

end

section
variable (s : State) (h : HostAnswer)

/-! ## Bytes that a stream writes (11 R366) -/

theorem State.homeWrite_keeps (line mask : Nat) (data : Line) : StreamCut s (s.homeWrite line mask data).1 :=
  .of_ledger (State.homeWrite_ledger ..) (State.cores_of_control (State.homeWrite_control ..))

theorem State.chStore_keeps (ctx : Nat) (g : Place) (mask : Nat) (data : Line) : StreamCut s (s.chStore ctx h g mask data).1 := by
  unfold State.chStore
  split
  · dsimp only
    exact State.homeWrite_keeps ..
  · exact ⟨rfl, rfl, fun _ he => he⟩
  · dsimp only
    split
    · exact ⟨rfl, rfl, fun _ he => he⟩
    · split <;> exact ⟨rfl, rfl, fun _ he => he⟩
  · exact .refl s

theorem State.chApply_keeps (ctx : Nat) (cut : Bool) (ws : List (Place × Byte)) : StreamCut s (s.chApply ctx h cut ws).1 := by
  unfold State.chApply
  dsimp only
  refine StreamCut.trans (foldl_keeps (P := fun r : State × Nat × Nat => StreamCut s r.1) (fun r x hr => ?_) (.refl s) _) ⟨rfl, rfl, fun _ he => he⟩
  split
  · exact hr
  · exact hr.trans (State.chStore_keeps ..)

theorem State.chBytes_keeps (n bytes : Nat) : StreamCut s (s.chBytes n bytes) := by
  unfold State.chBytes
  split
  · exact .refl s
  · exact ⟨rfl, rfl, fun _ he => he⟩

/-! ## Streams that are cut (09 R288 step 3) -/

/-- A stream that is cut is gone from its slot. -/
theorem State.cutStream_cut (k : Nat) (x : Stream) : StreamCut s (s.cutStream h k x) ∧ ∀ e ∈ (s.cutStream h k x).pl.streams, e.1 ≠ k := by
  have hgone : ∀ t : State, StreamCut s t → StreamCut s (t.setStream k none) ∧ ∀ e ∈ (t.setStream k none).pl.streams, e.1 ≠ k := fun t ht =>
    ⟨ht.trans ⟨rfl, rfl, fun e he => (List.mem_filter.mp he).1⟩, fun e he => of_decide_eq_true (List.mem_filter.mp he).2⟩
  unfold State.cutStream
  refine hgone _ ?_
  split
  · next d _ =>
    exact (s.chApply_keeps h x.ctx true (s.chPlan h x.ctx x.cls d (x.rest d)).writes).trans (State.chBytes_keeps ..)
  · exact .refl s

theorem State.cutStreams_slots (l : List (Nat × Stream)) : StreamCut s (l.foldl (fun t e => t.cutStream h e.1 e.2) s)
    ∧ ∀ e ∈ (l.foldl (fun t e => t.cutStream h e.1 e.2) s).pl.streams, e.1 ∉ l.map Prod.fst := by
  induction l generalizing s with
  | nil => exact ⟨.refl s, fun e _ => List.not_mem_nil⟩
  | cons x l ih =>
    obtain ⟨hcut, hslot⟩ := s.cutStream_cut h x.1 x.2
    obtain ⟨hrest, hslots⟩ := ih (s.cutStream h x.1 x.2)
    refine ⟨hcut.trans hrest, fun e he hmem => ?_⟩
    obtain hx | hl := List.mem_cons.mp hmem
    · exact hslot e (hrest.streams_mem e he) hx
    · exact hslots e he hl

theorem State.putRecord_keeps (x : Stream) (state tag : Nat) : StreamCut s (s.putRecord x state tag) := by
  unfold State.putRecord State.homeWriteBytes
  refine foldl_keeps (P := fun r : State × Bool => StreamCut s r.1) (fun r l hr => ?_) (.refl s) _
  dsimp only
  exact hr.trans (State.homeWrite_keeps ..)

/-- A command whose streams are cut has none left. -/
theorem State.cutStreams_cut (q seq : Nat) : StreamCut s (s.cutStreams h q seq) ∧ ∀ e ∈ (s.cutStreams h q seq).pl.streams, e.2.ofCmd q seq = false := by
  obtain ⟨hcut, hslots⟩ := s.cutStreams_slots h (s.pl.streams.filter fun e => e.2.ofCmd q seq)
  generalize hs1 : (s.pl.streams.filter fun e => e.2.ofCmd q seq).foldl (fun t e => t.cutStream h e.1 e.2) s = s1 at hcut hslots
  have hsaved : StreamCut s1 (s.cutStreams h q seq) := by
    unfold State.cutStreams
    dsimp only
    rw [hs1]
    exact (StreamCut.foldl (fun t x => State.putRecord_keeps t x 0 0) _ s1).trans ⟨rfl, rfl, fun _ he => he⟩
  refine ⟨hcut.trans hsaved, fun e he => Bool.eq_false_iff.mpr fun hof => ?_⟩
  have hmem := hsaved.streams_mem e he
  exact hslots e hmem (List.mem_map.mpr ⟨e, List.mem_filter.mpr ⟨hcut.streams_mem e hmem, hof⟩, rfl⟩)

/-- Nor has any command of a list. -/
theorem State.cutCmds_cut (l : List (Nat × Nat)) : StreamCut s (l.foldl (fun t c => t.cutStreams h c.1 c.2) s)
    ∧ ∀ e ∈ (l.foldl (fun t c => t.cutStreams h c.1 c.2) s).pl.streams, ∀ p ∈ l, e.2.ofCmd p.1 p.2 = false := by
  induction l generalizing s with
  | nil => exact ⟨.refl s, fun _ _ p hp => nomatch hp⟩
  | cons c l ih =>
    obtain ⟨hcut, hnone⟩ := s.cutStreams_cut h c.1 c.2
    obtain ⟨hrest, hnones⟩ := ih (s.cutStreams h c.1 c.2)
    refine ⟨hcut.trans hrest, fun e he p hp => ?_⟩
    obtain rfl | hl := List.mem_cons.mp hp
    · exact hnone e (hrest.streams_mem e he)
    · exact hnones e he p hl

end

/-! ## The engines of an abort stop (09 R288 step 2, R289) -/

/-- An element of a list without repetition ends with what its own step gives it, where the other steps leave its view. -/
theorem foldl_own {σ β τ : Type} (view : σ → β → τ) {f : σ → β → σ} (hother : ∀ t x y, y ≠ x → view (f t x) y = view t y) {l : List β} (hl : l.Nodup)
    {x : β} (hx : x ∈ l) (s : σ) : ∃ t, view t x = view s x ∧ view (l.foldl f s) x = view (f t x) x := by
  obtain ⟨l₁, l₂, rfl⟩ := List.append_of_mem hx
  obtain ⟨-, hright, hcross⟩ := List.nodup_append.mp hl
  have hkeep : ∀ (m : List β) (t : σ), x ∉ m → view (m.foldl f t) x = view t x := fun m t hm =>
    List.foldlRecOn (motive := fun u => view u x = view t x) m f rfl fun u hu y hy => (hother u y x fun hxy => hm (hxy ▸ hy)).trans hu
  refine ⟨l₁.foldl f s, hkeep l₁ s fun hm => hcross x hm x List.mem_cons_self rfl, ?_⟩
  rw [List.foldl_append, List.foldl_cons, hkeep l₂ _ (List.nodup_cons.mp hright).1]

/-- The engines of an abort are named once each. -/
theorem State.abortEngines_nodup (s : State) (b : Abort) : (s.abortEngines b).Nodup := by
  unfold State.abortEngines State.formedOn
  refine List.nodup_flatMap.mpr ⟨fun c _ => ?_, ?_⟩
  · exact ((List.nodup_range.filter _).filter _).map fun n m h => (Prod.mk.inj h).2
  · refine List.nodup_range.pairwise_of_forall_ne ?_
    rintro c - d - hcd ⟨c', n⟩ hc hd
    obtain ⟨_, -, hc⟩ := List.mem_map.mp hc
    obtain ⟨_, -, hd⟩ := List.mem_map.mp hd
    exact hcd ((Prod.mk.inj hc).1.trans (Prod.mk.inj hd).1.symm)

section
variable (s : State)

/-- What the end of step 2 shows of an engine. -/
def Engine.aborted (e y : Engine) : Prop := if e.state = 4 then y.state = 3 ∧ y.cmd = none else y.stopping = 2

/-- An engine of an aborted command stops, or loses its save; the aborts and every other engine stay. -/
theorem State.abortEngine_stops (x : Nat × Nat) : (s.abortEngine x).ledger = s.ledger
    ∧ (∀ y, y ≠ x → (s.abortEngine x).engine y.1 y.2 = s.engine y.1 y.2)
    ∧ ((s.engine x.1 x.2).stopping = 0 → (s.engine x.1 x.2).aborted ((s.abortEngine x).engine x.1 x.2)) := by
  unfold State.abortEngine Engine.aborted
  dsimp only
  split
  · refine ⟨State.setEngine_ledger .., fun y hy => ?_, fun _ => ?_⟩
    · rw [State.engine_setEngine, if_neg fun h => hy (Prod.ext h.1 h.2)]
    · rw [State.engine_setEngine, if_pos ⟨rfl, rfl⟩]
      exact ⟨rfl, rfl⟩
  · exact s.haltEngine_keeps x.1 x.2

/-- The engines of an abort stop, and the aborts stay. -/
theorem State.abortEngines_stop (b : Abort) : ((s.abortEngines b).foldl State.abortEngine s).ledger = s.ledger
    ∧ ∀ x ∈ s.abortEngines b, (s.engine x.1 x.2).stopping = 0 →
      (s.engine x.1 x.2).aborted (((s.abortEngines b).foldl State.abortEngine s).engine x.1 x.2) := by
  refine ⟨State.ledger_foldl (fun t x => (t.abortEngine_stops x).1) .., fun x hx hstopping => ?_⟩
  obtain ⟨t, ht, hfold⟩ := foldl_own (fun (t : State) (x : Nat × Nat) => t.engine x.1 x.2) (fun t x y hy => (t.abortEngine_stops x).2.1 y hy)
    (s.abortEngines_nodup b) hx s
  rw [hfold, ← ht]
  exact (t.abortEngine_stops x).2.2 (by rw [ht, hstopping])

/-! ## ABORT_STOP_DONE (09 R288 steps 2 and 3) -/

/-- An abort's record, when it is the only one, is changed alone. -/
theorem State.onAbort_one {b : Abort} (h : s.pl.aborts = [b]) (f : Abort → Abort) : (s.onAbort 0 f).pl.aborts = [f b] := by
  unfold State.onAbort
  rw [h]
  rfl

/-- Showing the step of a destruction writes a register alone. -/
theorem State.destroyStep_keeps (b : Abort) (n : Nat) : (s.destroyStep b n).pl = s.pl ∧ (s.destroyStep b n).cores = s.cores := by
  unfold State.destroyStep
  split
  · exact ⟨State.setFld_pl .., State.setFld_cores ..⟩
  · exact ⟨rfl, rfl⟩

/-- The only abort, at its step 1, stops its engines and cuts the streams of its commands. -/
theorem exec_abortStopDone {b : Abort} {h : HostAnswer} (hserve : s.serving = true) (ha : s.pl.aborts = [b]) (hstep : b.step = 1)
    (hreach : (s.abortEngines b).all s.abortReaches = true) :
    ∃ t acks, exec (.abortStopDone 0 h) s = .next t ∧ t.pl.aborts = [{ b with step := 2, acks := acks }]
      ∧ (∀ e ∈ t.pl.streams, ∀ p ∈ b.cmds, e.2.ofCmd p.1 p.2 = false)
      ∧ ∀ x ∈ s.abortEngines b, (s.engine x.1 x.2).stopping = 0 → (s.engine x.1 x.2).aborted (t.engine x.1 x.2) := by
  obtain ⟨hledger, hengines⟩ := s.abortEngines_stop b
  let s1 := (s.abortEngines b).foldl State.abortEngine s
  obtain ⟨hcut, hstreams⟩ := s1.cutCmds_cut h b.cmds
  let s2 := b.cmds.foldl (fun t c => t.cutStreams h c.1 c.2) s1
  let u := s2.onAbort 0 fun x => { x with step := 2, acks := s2.outWrites (s2.ctxFunc b.ctx) }
  have hop : opAbortStopDone 0 h s = u.destroyStep b 4 := by
    have hfirst : s.pl.aborts[0]? = some b := by rw [ha]; rfl
    unfold opAbortStopDone
    rw [hfirst]
    exact if_neg fun hno => hno.elim (fun h => h hserve) fun hno => hno.elim (fun h => h hstep) fun h => h hreach
  have haborts : s2.pl.aborts = [b] := by rw [hcut.aborts_eq, State.aborts_of_ledger hledger, ha]
  obtain ⟨hpl, hcores⟩ := u.destroyStep_keeps b 4
  refine ⟨_, s2.outWrites (s2.ctxFunc b.ctx), congrArg Host.Outcome.next hop, ?_, ?_, fun x hx hstopping => ?_⟩
  · rw [hpl]
    exact s2.onAbort_one haborts _
  · rw [hpl]
    exact hstreams
  · have hengine : (u.destroyStep b 4).engine x.1 x.2 = s1.engine x.1 x.2 := by
      rw [State.engine_of_cores hcores]
      exact congrFun (congrFun (State.engine_of_cores hcut.cores_eq) _) _
    rw [hengine]
    exact hengines x hx hstopping

end

end Sys2Proof.Machine
end

section
/-! SUPPORT. What was issued for an abort has been performed (09 R288 steps 4 and 5): its engines are free, and its error writes are issued. -/

namespace Sys2Proof.Machine

/-! ## Reads of a state whose engines become free -/

/-- A state that differs in the cores, but for their saved blocks, in what the cells have in flight, and in the aborts. -/
structure Freed (s t : State) : Prop where
  eq : ∃ cores flights aborts, t = { s with cores := cores, flights := flights, pl := { s.pl with aborts := aborts } }
  saved_eq : ∀ c, (t.core c).saved = (s.core c).saved

section
variable {s t u : State}

theorem Freed.refl (s : State) : Freed s s := ⟨⟨_, _, _, rfl⟩, fun _ => rfl⟩

theorem Freed.trans (h : Freed s t) (k : Freed t u) : Freed s u := by
  refine ⟨?_, fun c => (k.saved_eq c).trans (h.saved_eq c)⟩
  obtain ⟨_, _, _, rfl⟩ := h.eq
  obtain ⟨_, _, _, rfl⟩ := k.eq
  exact ⟨_, _, _, rfl⟩

section
variable (h : Freed s t)
include h

theorem Freed.reliefPlace_eq : t.reliefPlace = s.reliefPlace := by
  funext ctx core block o
  unfold State.reliefPlace
  rw [h.saved_eq]
  obtain ⟨_, _, _, rfl⟩ := h.eq
  rfl

theorem Freed.leafPlace_eq : t.leafPlace = s.leafPlace := by
  funext ctx va r e big
  unfold State.leafPlace
  rw [h.reliefPlace_eq]
  obtain ⟨_, _, _, rfl⟩ := h.eq
  rfl

/-- The Plinth translates as before. -/
theorem Freed.xlPlinth_eq : t.xlPlinth = s.xlPlinth := by
  funext ctx va r
  unfold State.xlPlinth State.xlDevice
  rw [h.leafPlace_eq]
  have htlb : t.tlbHit 16 = s.tlbHit 16 := by
    obtain ⟨_, _, _, rfl⟩ := h.eq
    rfl
  have hwalk : t.walk 16 = s.walk 16 := by
    obtain ⟨_, _, _, rfl⟩ := h.eq
    rfl
  rw [htlb, hwalk]

/-- Descriptors are read as before. -/
theorem Freed.fabRead_eq : t.fabRead = s.fabRead := by
  funext ctx va n
  have hplace : t.chPlace ctx false = s.chPlace ctx false := by
    funext va write
    unfold State.chPlace
    rw [h.xlPlinth_eq]
    rfl
  have hbyte : t.chByte = s.chByte := by
    obtain ⟨_, _, _, rfl⟩ := h.eq
    rfl
  unfold State.fabRead
  rw [hplace, hbyte]

/-- So are the fence writes of the descriptors not yet read. -/
theorem Freed.unreadRings_eq : t.unreadRings = s.unreadRings := by
  have hdescs : t.unreadDescs = s.unreadDescs := by
    funext ctx n code
    unfold State.unreadDescs
    rw [h.fabRead_eq]
    obtain ⟨_, _, _, rfl⟩ := h.eq
    rfl
  funext ctx code
  unfold State.unreadRings
  rw [hdescs]
  obtain ⟨_, _, _, rfl⟩ := h.eq
  rfl

theorem Freed.fenceList_eq : t.fenceList = s.fenceList := by
  obtain ⟨_, _, _, rfl⟩ := h.eq
  rfl

theorem Freed.queue_eq (q : Nat) : t.queue q = s.queue q := by
  obtain ⟨_, _, _, rfl⟩ := h.eq
  rfl

theorem Freed.fenceOps_eq : t.pl.fenceOps = s.pl.fenceOps := by
  obtain ⟨_, _, _, rfl⟩ := h.eq
  rfl

theorem Freed.reqs_eq : t.pl.reqs = s.pl.reqs := by
  obtain ⟨_, _, _, rfl⟩ := h.eq
  rfl

end

/-! ## Engines that become free (09 R289) -/

/-- A free engine: idle, with no command. -/
def Engine.freed (e : Engine) : Engine := { e with state := 0, stopping := 0, cmd := none }

theorem State.clearFlights_eq (s : State) (core eng : Nat) : ∃ flights, s.clearFlights core eng = { s with flights := flights } :=
  foldl_keeps (P := fun t : State => ∃ flights, t = { s with flights := flights }) (fun t k ht => by
    obtain ⟨_, rfl⟩ := ht
    exact ⟨_, rfl⟩) ⟨_, rfl⟩ _

theorem State.abortFree_frees (s : State) (x : Nat × Nat) : Freed s (s.abortFree x) ∧ (s.abortFree x).pl = s.pl
    ∧ ∀ y, (s.abortFree x).engine y.1 y.2 = if y = x then (s.engine x.1 x.2).freed else s.engine y.1 y.2 := by
  obtain ⟨_, hflights⟩ := s.clearFlights_eq x.1 x.2
  have hstep : s.abortFree x = (s.clearFlights x.1 x.2).setEngine x.1 x.2 ((s.clearFlights x.1 x.2).engine x.1 x.2).freed := rfl
  rw [hstep, hflights]
  refine ⟨⟨⟨_, _, _, rfl⟩, fun c => ?_⟩, rfl, fun y => ?_⟩
  · rw [State.setEngine, State.core_setCore]
    split
    · next hc => rw [hc]; rfl
    · rfl
  · rw [State.engine_setEngine]
    by_cases hy : y = x
    · rw [if_pos hy, if_pos ⟨congrArg Prod.fst hy, congrArg Prod.snd hy⟩]
      rfl
    · rw [if_neg hy, if_neg fun h => hy (Prod.ext h.1 h.2)]
      rfl

/-- The engines of an abort become free. -/
theorem State.abortEngines_free (s : State) (b : Abort) : Freed s ((s.abortEngines b).foldl State.abortFree s)
    ∧ ((s.abortEngines b).foldl State.abortFree s).pl = s.pl
    ∧ ∀ x ∈ s.abortEngines b, ((s.abortEngines b).foldl State.abortFree s).engine x.1 x.2 = (s.engine x.1 x.2).freed := by
  refine ⟨foldl_keeps (P := fun t => Freed s t) (fun t x ht => ht.trans (t.abortFree_frees x).1) (.refl s) _,
    foldl_keeps (P := fun t : State => t.pl = s.pl) (fun t x ht => (t.abortFree_frees x).2.1.trans ht) rfl _, fun x hx => ?_⟩
  obtain ⟨t, ht, hfold⟩ := foldl_own (fun (t : State) (x : Nat × Nat) => t.engine x.1 x.2)
    (fun t x y hy => ((t.abortFree_frees x).2.2 y).trans (if_neg hy)) (s.abortEngines_nodup b) hx s
  rw [hfold, ← ht, (t.abortFree_frees x).2.2 x, if_pos rfl]

end

/-! ## ABORT_QUIESCED (09 R288 steps 4 and 5) -/

section
variable {s : State} {b : Abort} {h : HostAnswer}

/-- Queues with no entry left to fetch below the abort's tails give no fence write. -/
theorem State.fetchFences_done {tails : List (Nat × Nat)} (hall : ∀ q ∈ tails, q.2 ≤ (s.queue q.1).fetched) :
    tails.foldl (fun (acc : State × List FenceOp × List (Nat × Nat) × Bool) q =>
      let y := State.fetchFences (q.2 - (acc.1.queue q.1).fetched) acc.1 h q.1 q.2 b.code
      (y.1, acc.2.1 ++ y.2.1, acc.2.2.1 ++ y.2.2.1, acc.2.2.2 && y.2.2.2)) (s, [], [], true) = (s, [], [], true) := by
  induction tails with
  | nil => rfl
  | cons q tails ih =>
    have hq := hall q List.mem_cons_self
    have hnone : State.fetchFences (q.2 - (s.queue q.1).fetched) s h q.1 q.2 b.code = (s, [], [], true) := by
      rw [Nat.sub_eq_zero_of_le hq, State.fetchFences, decide_eq_true hq]
    rw [List.foldl_cons]
    dsimp only
    rw [hnone]
    exact ih fun p hp => hall p (List.mem_cons_of_mem _ hp)

/-- The abort's record takes nothing from queues with no entry left to fetch. -/
def State.nothingRead (s : State) : State :=
  s.onAbort 0 fun x => { x with cmds := x.cmds ++ [], fences := x.fences ++ [], count := x.count + ([] : List FenceOp).length }

theorem State.nothingRead_keeps (s : State) (ha : s.pl.aborts = [b]) :
    Freed s s.nothingRead ∧ s.nothingRead.engine = s.engine ∧ s.nothingRead.pl.aborts = [b] := by
  refine ⟨⟨⟨_, _, _, rfl⟩, fun _ => rfl⟩, rfl, (s.onAbort_one ha _).trans ?_⟩
  rw [List.append_nil, List.append_nil]
  rfl

/-- The error writes that an abort issues: its own, those of its jobs' descriptors not yet read, and a dying context's fence list. -/
def State.abortOwed (s : State) (b : Abort) (unread : List FenceOp) : List FenceOp :=
  b.fences ++ (unread ++ if 3 ≤ b.kind then s.fenceList b.ctx b.code else [])

/-- An abort issues its error writes: its record is at step 3. -/
def State.issueFences (s : State) (ops : List FenceOp) : State :=
  let t := s.onAbort 0 fun x => { x with step := 3, fences := [] }
  { t with pl := { t.pl with fenceOps := t.pl.fenceOps ++ ops } }

theorem State.issueFences_keeps (s : State) (ha : s.pl.aborts = [b]) (ops : List FenceOp) :
    (s.issueFences ops).pl.aborts = [{ b with step := 3, fences := [] }] ∧ (s.issueFences ops).pl.reqs = s.pl.reqs
      ∧ (s.issueFences ops).pl.fenceOps = s.pl.fenceOps ++ ops ∧ (s.issueFences ops).cores = s.cores :=
  ⟨s.onAbort_one ha _, rfl, rfl, rfl⟩

/-- The only abort, at its step 2, with nothing left to perform or to fetch: the error writes are issued and the engines are free. -/
theorem opAbortQuiesced_issues {unread : List FenceOp} (hserve : s.serving = true) (ha : s.pl.aborts = [b]) (hstep : b.step = 2)
    (hfetched : b.kind = 0 ∨ ∀ q ∈ b.tails, q.2 ≤ (s.queue q.1).fetched) (hquiet : s.abortQuiet b = true)
    (hunread : (if b.jobs then s.unreadRings b.ctx b.code else some []) = some unread) :
    ∃ u : State, opAbortQuiesced 0 h s = u.settle ∧ u.pl.reqs = s.pl.reqs ∧ u.pl.aborts = [{ b with step := 3, fences := [] }]
      ∧ u.pl.fenceOps = s.pl.fenceOps ++ s.abortOwed b unread
      ∧ ∀ x ∈ s.abortEngines b, u.engine x.1 x.2 = (s.engine x.1 x.2).freed := by
  obtain ⟨hfreed, hpl, hengines⟩ := s.abortEngines_free b
  obtain ⟨s1, hs1⟩ : ∃ s1, (s.abortEngines b).foldl State.abortFree s = s1 := ⟨_, rfl⟩
  rw [hs1] at hfreed hpl hengines
  obtain ⟨hread, hengines2, haborts⟩ := s1.nothingRead_keeps ((congrArg Plinth.aborts hpl).trans ha)
  obtain ⟨s2, hs2⟩ : ∃ s2, s1.nothingRead = s2 := ⟨_, rfl⟩
  rw [hs2] at hread hengines2 haborts
  have hfreed2 := hfreed.trans hread
  have hop : opAbortQuiesced 0 h s = ((s2.issueFences (s.abortOwed b unread)).destroyStep b 5).settle := by
    have hfirst : s.pl.aborts[0]? = some b := by rw [ha]; rfl
    have hbehind : s.abortBehind 0 b = false := rfl
    have hnone := State.fetchFences_done (s := s1) (b := b) (h := h) (tails := if b.kind = 0 then [] else b.tails) fun q hq => by
      rw [hfreed.queue_eq]
      split at hq
      · exact nomatch hq
      · next hkind => exact hfetched.resolve_left hkind q hq
    have hfences : ((s2.pl.aborts[0]?).map Abort.fences).getD [] = b.fences := by rw [haborts]; rfl
    unfold opAbortQuiesced
    rw [hfirst]
    dsimp only
    rw [if_neg (by rw [hserve, hquiet, hbehind, hstep]; simp), hs1, hnone]
    dsimp only
    rw [← State.nothingRead, hs2, hfreed2.unreadRings_eq, hunread]
    dsimp only
    rw [hfences, hfreed2.fenceList_eq]
    rfl
  obtain ⟨hissued, hreqs, hfences, hcores⟩ := s2.issueFences_keeps haborts (s.abortOwed b unread)
  obtain ⟨hpl5, hcores5⟩ := (s2.issueFences (s.abortOwed b unread)).destroyStep_keeps b 5
  refine ⟨_, hop, ?_, ?_, ?_, fun x hx => ?_⟩
  · rw [hpl5, hreqs, hfreed2.reqs_eq]
  · rw [hpl5, hissued]
  · rw [hpl5, hfences, hfreed2.fenceOps_eq]
  · rw [State.engine_of_cores (hcores5.trans hcores), hengines2, hengines x hx]

/-- With an error write of the abort issued, the abort waits for it. -/
theorem exec_abortQuiesced {unread : List FenceOp} (hreqs : s.pl.reqs = []) (hserve : s.serving = true) (ha : s.pl.aborts = [b]) (hstep : b.step = 2)
    (hfetched : b.kind = 0 ∨ ∀ q ∈ b.tails, q.2 ≤ (s.queue q.1).fetched) (howns : ∃ op ∈ b.fences, b.owns op = true) (hquiet : s.abortQuiet b = true)
    (hunread : (if b.jobs then s.unreadRings b.ctx b.code else some []) = some unread) :
    ∃ t, exec (.abortQuiesced 0 h) s = .next t ∧ t.pl.aborts = [{ b with step := 3, fences := [] }]
      ∧ t.pl.fenceOps = s.pl.fenceOps ++ s.abortOwed b unread ∧ ∀ x ∈ s.abortEngines b, t.engine x.1 x.2 = (s.engine x.1 x.2).freed := by
  obtain ⟨u, hop, hureqs, huaborts, hufences, huengines⟩ := opAbortQuiesced_issues (h := h) hserve ha hstep hfetched hquiet hunread
  have howed : u.abortPaid { b with step := 3, fences := [] } = false := by
    obtain ⟨op, hmem, hown⟩ := howns
    have hissued : op ∈ u.pl.fenceOps := by
      rw [hufences]
      exact List.mem_append_right _ (List.mem_append_left _ hmem)
    have hsame : Abort.owns { b with step := 3, fences := [] } op = b.owns op := rfl
    have hany : (u.pl.fenceOps.any (Abort.owns { b with step := 3, fences := [] })) = true := List.any_eq_true.mpr ⟨op, hissued, hsame.trans hown⟩
    rw [State.abortPaid, hany]
    rfl
  have hsent := State.settle_idle_sent (hureqs.trans hreqs) (.of_one huaborts (.inr howed))
  refine ⟨_, congrArg Host.Outcome.next hop, ?_⟩
  obtain ⟨_, _, hsettle⟩ := hsent
  rw [hsettle]
  exact ⟨huaborts, hufences, huengines⟩

end

end Sys2Proof.Machine
end

section
/-! Forced aborts: the obligation, from the rules above. -/

namespace Sys2Proof.Machine

/-- Settles O40: an abort of a command or of a queue is accepted as the only request and begins at once; its engines stop and its streams are cut; and its error writes are issued once nothing of it is left to perform. -/
theorem forcedAborts : Obligations.ForcedAborts := by
  unfold Obligations.ForcedAborts
  intro h s hreqs
  refine ⟨fun v hgo hv hobj habt ha => ?_, fun b hserve ha => ⟨fun hstep hreach => ?_, fun unread hstep hfetched howns hquiet hunread => ?_⟩⟩
  · intro q x seq hstate
    refine ⟨fun hone hfetched htail => ?_, fun hwhole => ?_⟩
    · obtain ⟨u, hu, hacc⟩ := State.abtGo_accepted (h := h) hgo hone hv hobj habt hreqs ha
      have hexec : exec (.abortCommand 0 v h) s = .next (u.abtRun 0 (s.abtAsked false (Fld.abtReq_queue.get v)) h).settle := congrArg Host.Outcome.next hu
      refine ⟨fun c hc => ?_, fun hc hended => ?_⟩
      · obtain ⟨b, hb⟩ := hacc.abortsCmd (a := h) (q := q) (seq := seq) rfl rfl rfl hstate hfetched htail hc
        exact ⟨_, b, hexec, hb⟩
      · exact ⟨_, hexec, hacc.leavesEnded (q := q) (seq := seq) rfl rfl rfl hstate hfetched htail hc hended⟩
    · obtain ⟨u, hu, hacc⟩ := State.abtGo_accepted (h := ⟨[], [], []⟩) hgo hwhole hv hobj habt hreqs ha
      obtain ⟨b, hb⟩ := hacc.abortsQueue (a := ⟨[], [], []⟩) (q := q) rfl rfl rfl hstate
      exact ⟨_, b, congrArg Host.Outcome.next hu, hb⟩
  · obtain ⟨t, acks, hexec, haborts, hstreams, hengines⟩ := exec_abortStopDone s (h := h) hserve ha hstep hreach
    exact ⟨t, _, hexec, haborts, rfl, hstreams, hengines⟩
  · obtain ⟨t, hexec, haborts, hfences, hengines⟩ := exec_abortQuiesced (h := h) hreqs hserve ha hstep hfetched howns hquiet hunread
    refine ⟨t, hexec, haborts, hfences, fun y hy => ?_⟩
    rw [hengines y hy]
    exact ⟨rfl, rfl⟩

end Sys2Proof.Machine
end

section
/-! Page requests: the obligation fails. A waiter that ends with FAULT_UNRESOLVED takes with it another group that only its command waited in and that was not sent (10 R324, R327). -/

namespace Sys2Proof.Machine

/-- A page request of the counterexample's command: its stream of a descriptor waits for a host address. -/
def twoFaultsWaiter (index : Nat) : AtsReq := ⟨0, 0, index * 2 ^ 21, false, .stream 0 0 index, false⟩

/-- The group of that request, with its tag once it has been sent. -/
def twoFaultsGroup (index : Nat) (tag : Option Nat) : PageGroup := ⟨0, 0, index, index * 2 ^ 21, tag, true, false, false, [twoFaultsWaiter index]⟩

/-- A COPY of host memory with two descriptors that runs on Chisel engine 0. -/
def twoFaultsCopy : Cmd where
  entries := 1
  op := 2
  fhost := false
  whost := false
  wait := false
  serial := false
  faddr := 0
  fval := 0
  waddr := 0
  wtarget := 0
  body := 2 * 2 ^ 64
  payload := []
  state := .running
  chisel := some 0
  nextDesc := 2

/-- A complex that serves, whose host allows one page request: two streams of a command have faulted in two regions, the first group is sent, and the second waits for a tag. -/
def twoFaults : State :=
  State.setFld { State.reset with
    board := { portsDown := 0 }
    pl := { Plinth.reset with
      ctxs := [(1, { state := 1 })]
      queues := [(0, { state := 1, ctx := 1, log2 := 6, tail := 1, fetched := 1, cmds := [(0, twoFaultsCopy)] })]
      streams := [(0, { q := 0, seq := 0, ctx := 1, cls := 0, index := 0, desc := none, faulted := true }),
                  (1, { q := 0, seq := 0, ctx := 1, cls := 0, index := 1, desc := none, faulted := true })]
      groups := [twoFaultsGroup 0 (some 0), twoFaultsGroup 1 none]
      cfgs := [(0, { atsEnable := true, priEnable := true, priAlloc := 1 })] } } rstPage .startStat Fld.startStat_ready 1

theorem twoFaults_waits : twoFaults.serving = true ∧ twoFaults.linkUp = true ∧ twoFaults.groupOf 0 0 = some (twoFaultsGroup 0 (some 0))
    ∧ (twoFaults.pl.groups.filter fun x => !(twoFaultsGroup 0 (some 0)).same x) = [twoFaultsGroup 1 none] := by decide +kernel

/-- The invalid response ends the command, and with it the group that was never sent. -/
theorem twoFaults_invalid : (opPrgResponse 0 0 .invalid twoFaults).pl.groups = [] := by decide +kernel

/-- Refutes O31: of two groups in which one command waits, the invalid response to the first leaves none, since the second was not sent and has no waiter left. -/
theorem not_pageRequestsAndPreparation : ¬ Obligations.PageRequestsAndPreparation := by
  unfold Obligations.PageRequestsAndPreparation
  intro h
  obtain ⟨hserve, hlink, hgroup, hothers⟩ := twoFaults_waits
  obtain ⟨hresponses, -⟩ := h.1 0 0 twoFaults hserve hlink
  obtain ⟨-, ⟨t, ht, hfewer, -⟩, -, -⟩ := hresponses _ hgroup
  have hop : opPrgResponse 0 0 .invalid twoFaults = t := Host.Outcome.next.inj ht
  rw [hothers, ← hop, twoFaults_invalid] at hfewer
  exact absurd hfewer (by decide)

end Sys2Proof.Machine
end

section
/-! SUPPORT. What is only recorded, raised or sent (16 R488, 15 R447, 07 R227, 14 R435): a state that differs in nothing else has the same objects, memory and cores. -/

namespace Sys2Proof.Machine

/-- A state that differs by its registers, tag caches, free values, Patina log, outbound messages and interrupts alone. -/
def State.Recorded (s t : State) : Prop := ∃ regs homes draws patina outbound irqs harts msix,
  t = { s with regs := regs, homes := homes, draws := draws
               pl := { s.pl with patina := patina, outbound := outbound, irqs := irqs, harts := harts, msix := msix } }

namespace State.Recorded
variable {s t u : State}

theorem refl (s : State) : s.Recorded s := ⟨_, _, _, _, _, _, _, _, rfl⟩

theorem trans (h : s.Recorded t) (k : t.Recorded u) : s.Recorded u := by
  obtain ⟨_, _, _, _, _, _, _, _, rfl⟩ := h
  obtain ⟨_, _, _, _, _, _, _, _, rfl⟩ := k
  exact ⟨_, _, _, _, _, _, _, _, rfl⟩

theorem freq_eq (h : s.Recorded t) (f : Nat) : t.freq f = s.freq f := by
  obtain ⟨_, _, _, _, _, _, _, _, rfl⟩ := h
  rfl

/-- A fold only records where each of its steps does. -/
theorem foldl {β : Type} {f : State → β → State} (hf : ∀ (t : State) b, t.Recorded (f t b)) (l : List β) (s : State) : s.Recorded (l.foldl f s) :=
  foldl_keeps (P := fun t : State => s.Recorded t) (fun t b h => h.trans (hf t b)) (refl s) l

end State.Recorded

section
variable (s : State)

theorem State.wr_recorded (a : Nat) (w : Word) : s.Recorded (s.wr a w) := ⟨_, _, _, _, _, _, _, _, rfl⟩
theorem State.setFld_recorded (a : Nat) (r : Reg) (f : Fld) (v : Nat) : s.Recorded (s.setFld a r f v) := ⟨_, _, _, _, _, _, _, _, rfl⟩
theorem State.bump_recorded (a : Nat) (r : Reg) (f : Fld) (n : Nat) : s.Recorded (s.bump a r f n) := ⟨_, _, _, _, _, _, _, _, rfl⟩
theorem State.drew_recorded (n : Nat) : s.Recorded (s.drew n) := ⟨_, _, _, _, _, _, _, _, rfl⟩
theorem State.send_recorded (f : Nat) (m : OutMsg) : s.Recorded (s.send f m) := ⟨_, _, _, _, _, _, _, _, rfl⟩
theorem State.setHome_recorded (h : Nat) (x : HomeUnit) : s.Recorded (s.setHome h x) := ⟨_, _, _, _, _, _, _, _, rfl⟩
theorem State.setIrq_recorded (n : Nat) (x : IrqSource) : s.Recorded (s.setIrq n x) := ⟨_, _, _, _, _, _, _, _, rfl⟩

/-! ## The Patina log (16 R488 to R491) -/

theorem State.mirrorMany_recorded (n : Nat) (s : State) : s.Recorded (State.mirrorMany n s) := by
  induction n generalizing s with
  | zero => exact .refl s
  | succ n ih => exact .trans ⟨_, _, _, _, _, _, _, _, rfl⟩ (ih s.mirrorOne)

theorem State.patina_recorded (a b c d e f g : Nat) : s.Recorded (s.patina a b c d e f g) := by
  have hplace : ∀ x, s.Recorded (s.placeEntry x) := fun x => by
    unfold State.placeEntry
    dsimp only
    split <;> exact ⟨_, _, _, _, _, _, _, _, rfl⟩
  unfold State.patina State.mirrorFlush
  dsimp only
  split
  · exact (hplace _).trans (State.mirrorMany_recorded ..)
  · exact hplace _

theorem State.logEvent_recorded (k : Nat) (p : Option Nat) (a b c d : Nat) : s.Recorded (s.logEvent k p a b c d) := State.patina_recorded ..

/-- A triggering write that takes effect is recorded, and changes its register. -/
theorem State.written_recorded (src page : Nat) (r : Reg) (v : Word) : s.Recorded (s.written src page r v) := by
  unfold State.written State.logWrite
  dsimp only
  refine .trans ?_ (State.wr_recorded ..)
  split
  · exact State.patina_recorded ..
  · exact (State.patina_recorded ..).trans (State.wr_recorded ..)

/-! ## Reads of device memory (07 R220, 14 R435) -/

theorem State.tagBring_recorded (h c : Nat) (dirty : Bool) : s.Recorded (s.tagBring h c dirty) := by
  unfold State.tagBring
  dsimp only
  split <;> exact ⟨_, _, _, _, _, _, _, _, rfl⟩

theorem State.carveAccess_recorded (line : Nat) (write : Bool) : s.Recorded (s.carveAccess line write) := by
  unfold State.carveAccess State.tagMiss
  dsimp only
  split
  · exact (State.setHome_recorded ..).trans (State.bump_recorded ..)
  · split
    · exact ((State.tagBring_recorded ..).trans (State.bump_recorded ..)).trans (State.tagBring_recorded ..)
    · exact (State.tagBring_recorded ..).trans (State.bump_recorded ..)

theorem State.bumpCore_recorded (c pk : Nat) (r : Reg) (f : Fld) (n : Nat) : s.Recorded (s.bumpCore c pk r f n) := by
  unfold State.bumpCore
  split
  · exact .refl s
  · exact State.bump_recorded ..

theorem State.countSnoop_recorded (agent line : Nat) : s.Recorded (s.countSnoop agent line) := by
  unfold State.countSnoop
  dsimp only
  split
  · split
    · exact State.bumpCore_recorded ..
    · exact (State.bumpCore_recorded ..).trans (State.bumpCore_recorded ..)
  · exact .refl s

theorem State.stackTouch_recorded (line : Nat) : s.Recorded (s.stackTouch line) := by
  unfold State.stackTouch
  split
  · exact .refl s
  · exact State.carveAccess_recorded ..

theorem State.snoopReads_recorded (l : List Nat) : s.Recorded (s.snoopReads l) := .foldl (fun t line => by
  unfold State.snoopRead
  dsimp only
  split
  · exact State.stackTouch_recorded ..
  · exact (State.stackTouch_recorded ..).trans (State.countSnoop_recorded ..)) l s

/-! ## Events that the ATU reports (10 R316, R335) -/

theorem State.irqTry_recorded (n : Nat) : s.Recorded (s.irqTry n) := by
  obtain h | ⟨x, h⟩ | ⟨x, m, h⟩ | ⟨x, f, v, h⟩ := s.irqTry_cases n <;> rw [h]
  · exact .refl s
  · exact (State.bump_recorded ..).trans (State.setIrq_recorded ..)
  · exact ⟨_, _, _, _, _, _, _, _, rfl⟩
  · unfold State.deliverVector
    dsimp only
    split <;> exact ⟨_, _, _, _, _, _, _, _, rfl⟩

theorem State.irqRaise_recorded (n : Nat) (p : Option Nat) : s.Recorded (s.irqRaise n p) := by
  have hevent : s.Recorded (s.irqEvent n) := by
    unfold State.irqEvent State.irqUpdate
    dsimp only
    split
    · exact ((State.setIrq_recorded ..).trans (State.setIrq_recorded ..)).trans (State.irqTry_recorded ..)
    · exact .refl s
  unfold State.irqRaise State.misroute
  split
  · exact State.bump_recorded ..
  · split
    · exact hevent
    · split
      · exact hevent
      · exact State.bump_recorded ..

theorem State.atuFault_recorded (addr ctx agent outcome : Nat) : s.Recorded (s.atuFault addr ctx agent outcome) := by
  unfold State.atuFault
  dsimp only
  refine .trans (.trans ?_ (State.wr_recorded ..)) (State.wr_recorded ..)
  split
  · exact .refl s
  · exact State.drew_recorded ..

theorem State.atuEvent_recorded (addr ctx agent outcome : Nat) : s.Recorded (s.atuEvent addr ctx agent outcome) := by
  unfold State.atuEvent State.atuRaise
  dsimp only
  refine ((s.atuFault_recorded addr ctx agent outcome).trans ?_).trans (State.logEvent_recorded ..)
  split
  · exact State.irqRaise_recorded ..
  · exact .refl _

end

end Sys2Proof.Machine
end

section
/-! SUPPORT. Page walks and device invalidations (10 R302, R308 to R310): what a walk caches, what a dropped context leaves, and the registers of a function's translation request page. -/

namespace Sys2Proof.Machine

/-! ## Page walks (10 R302, R308) -/

theorem mem_keepLast_append {α : Type} {n : Nat} (hn : 0 < n) (l : List α) (x : α) : x ∈ keepLast n (l ++ [x]) := by
  unfold keepLast
  rw [List.drop_append_of_le_length (by rw [List.length_append, List.length_singleton]; omega)]
  exact List.mem_append_right _ List.mem_cons_self

/-- The TLB entry that a leaf of a walk makes. -/
def walkEntry (ctx va : Nat) (e : Word) (big : Bool) : TlbEntry := ⟨ctx, if big then va / 0x40000000 else va / 0x2000000, big, e⟩

section
variable {s : State} {unit ctx va : Nat} {r : Right} {e : Word} {big : Bool} (hmiss : s.tlbHit unit ctx va = none)
  (hwalk : s.walk unit ctx va = .leaf e big) (hplace : (s.leafPlace ctx va r e big).isSome = true)
include hmiss hwalk hplace

/-- A walk that finds a usable leaf does the same whether or not it serves an access. -/
theorem State.xlFill_quiet (agent : Nat) : s.xlFill unit ctx va r agent true = s.xlFill unit ctx va r agent := by
  obtain ⟨p, hp⟩ := Option.isSome_iff_exists.mp hplace
  unfold State.xlFill
  simp only [hmiss, hwalk, hp]

/-- It caches the leaf, in the unit's TLB. -/
theorem State.mem_tlbOf_xlFill (agent : Nat) : walkEntry ctx va e big ∈ (s.xlFill unit ctx va r agent).tlbOf unit := by
  obtain ⟨p, hp⟩ := Option.isSome_iff_exists.mp hplace
  unfold State.xlFill
  simp only [hmiss, hwalk, hp, Bool.false_eq_true, if_false]
  by_cases hcore : unit < 16
  · simp only [decide_eq_true hcore, if_true, State.tlbOf, if_pos hcore, State.core_setCore_self]
    exact mem_keepLast_append (by decide) _ _
  · simp only [decide_eq_false hcore, Bool.false_eq_true, if_false, State.tlbOf, if_neg hcore]
    exact mem_keepLast_append (by decide) _ _

end

/-! ## Dropped translations (10 R310) -/

/-- A core whose TLB and walk cache have been filtered. -/
def Core.filterTlbs (k : Core) (p : TlbEntry → Bool) (q : WalkEntry → Bool) : Core := { k with tlb := k.tlb.filter p, walks := k.walks.filter q }

theorem State.core_filterTlbs (s : State) (p : TlbEntry → Bool) (q : WalkEntry → Bool) {core : Nat} (h : core < 16) :
    (s.filterTlbs p q).core core = (s.core core).filterTlbs p q := by
  have hpl : ∀ (t : State) (x : Plinth), State.core { t with pl := x } core = t.core core := fun _ _ => rfl
  unfold State.filterTlbs
  dsimp only
  rw [hpl]
  exact foldl_view (fun t : State => t.core core) (f := fun t c => t.setCore c ((t.core c).filterTlbs p q)) (g := fun k => k.filterTlbs p q)
    (apart := fun a b => a ≠ b) Ne.symm List.nodup_range (List.mem_range.mpr h) (fun t b hb => (State.core_setCore ..).trans (if_neg hb.symm))
    (fun _ => State.core_setCore_self ..) s

/-- Dropping all of a context's translations leaves the cores none. -/
theorem State.core_dropContext_all (s : State) (ctx first count : Nat) {core : Nat} (h : core < 16) :
    (∀ e ∈ ((s.dropContext ctx true first count).core core).tlb, e.ctx ≠ ctx) ∧ ∀ w ∈ ((s.dropContext ctx true first count).core core).walks, w.ctx ≠ ctx := by
  unfold State.dropContext
  rw [State.core_filterTlbs _ _ _ h]
  refine ⟨fun e he => ?_, fun w hw => ?_⟩
  · have hkept := (List.mem_filter.mp he).2
    simpa using hkept
  · have hkept := (List.mem_filter.mp hw).2
    simpa using hkept

/-- Dropping translations leaves memory, the Plinth but for the device TLB, and the registers. -/
theorem State.dropContext_eq (s : State) (ctx : Nat) (all : Bool) (first count : Nat) :
    ∃ cores dtlb, s.dropContext ctx all first count = { s with cores := cores, pl := { s.pl with dtlb := dtlb } } := State.filterTlbs_eq ..

/-! ## The translation request page (10 R334 to R336) -/

theorem srcFunc_le (src : Nat) : srcFunc src ≤ 16 := by
  unfold srcFunc
  split
  · assumption
  · exact Nat.zero_le _

/-- Each function's copy of the page lies 32 MiB after the one before. -/
theorem xlPage_eq (f : Nat) : ∃ k, xlPage f = 0x402000 + k * 0x2000000 := by
  have hcopied : copiedPage 0x402 = true := rfl
  unfold xlPage pageKey
  rw [hcopied]
  split
  · exact ⟨f, rfl⟩
  · exact ⟨0, rfl⟩

/-- A triggering write of the page leaves its other registers, but the header's. -/
theorem State.rd_written_xlPage (s : State) {src : Nat} {r : Reg} {v : Word} {q : Reg} (hq : q.off ≠ r.off) (hlow : 0x100 ≤ q.off) (hhigh : q.off < 0x1000) :
    (s.written src 0x402 r v).reg (xlPage (srcFunc src)) q = s.reg (xlPage (srcFunc src)) q := by
  obtain ⟨k, hk⟩ := xlPage_eq (srcFunc src)
  have hzero : pageKey 0 0x402 = 0x402000 := rfl
  have hseq : patPage + Reg.patMseq.off = 0x602118 := rfl
  have hlost : patPage + Reg.patLost.off = 0x602120 := rfl
  have hpage : pageKey (srcFunc src) 0x402 = xlPage (srcFunc src) := rfl
  unfold State.written
  refine (State.rd_wr_of_ne _ _ ?_).trans (State.rd_logWrite ?_ ?_ ?_ ..)
  · omega
  · omega
  · omega
  · omega

@[simp] theorem State.fld_setFreq (s : State) (n : Nat) (x : FuncReqs) (pk : Nat) (r : Reg) (f : Fld) : (s.setFreq n x).fld pk r f = s.fld pk r f := rfl

/-- A counter of the ATU's page is none of its registers. -/
theorem State.fld_xlPage_bump_atu (s : State) {f : Nat} {q r : Reg} {g h : Fld} {n : Nat} (hq : q.off < 0x1000) (hr : r.off < 0x1000) :
    (s.bump (regKey 0x200 0) r h n).fld (xlPage f) q g = s.fld (xlPage f) q g := by
  obtain ⟨k, hk⟩ := xlPage_eq f
  have hne : xlPage f + q.off ≠ regKey 0x200 0 + r.off := by
    have hpage : regKey 0x200 0 = 0x200000 := rfl
    omega
  have hreg : (s.bump (regKey 0x200 0) r h n).reg (xlPage f) q = s.reg (xlPage f) q := State.rd_wr_of_ne _ _ hne
  rw [State.fld, hreg, State.fld]

end Sys2Proof.Machine
end

section
/-! Page walks and device invalidations: the commands, from the rules above (10 R302, R308 to R310). -/

namespace Sys2Proof.Machine

section
variable {s : State}

/-- A walk of a LIVE context's address that finds a usable leaf caches it, and leaves memory and the cells. -/
theorem exec_pageWalk {unit ctx va : Nat} {e : Word} {big : Bool} (hserve : s.serving = true) (hlive : (s.ctx ctx).state = 1) (hva : va < 2 ^ 51)
    (hunit : 16 ≤ unit ∨ (s.ctx ctx).cores.testBit unit = true) (hmiss : s.tlbHit (min unit 16) ctx va = none)
    (hwalk : s.walk (min unit 16) ctx va = .leaf e big) (hplace : (s.leafPlace ctx va .read e big).isSome = true) :
    ∃ t, exec (.pageWalk unit ctx va) s = .next t ∧ t.mem = s.mem ∧ t.cells = s.cells ∧ walkEntry ctx va e big ∈ t.tlbOf (min unit 16) := by
  have hreach : min unit 16 = 16 ∨ (s.ctx ctx).cores.testBit (min unit 16) = true := by
    by_cases h : 16 ≤ unit
    · exact .inl (Nat.min_eq_right h)
    · exact .inr (by rw [Nat.min_eq_left (by omega)]; exact hunit.resolve_left h)
  have hop : opPageWalk unit ctx va s = s.xlFill (min unit 16) ctx va .read 0xFF := by
    unfold opPageWalk
    dsimp only
    rw [if_pos ⟨hserve, hlive, hva, hreach⟩, State.xlFill_quiet hmiss hwalk hplace]
  have hside := s.xlFill_cellSide (min unit 16) ctx va .read 0xFF
  exact ⟨_, congrArg Host.Outcome.next hop, State.mem_of_cellSide hside, State.cells_of_cellSide hside, State.mem_tlbOf_xlFill hmiss hwalk hplace _⟩

/-- A GO write of XL_INV_CTL that is allowed drops the context's translations of its range, and BUSY shows the wait. -/
theorem exec_deviceInvalidate {src n first : Nat} {v : Word} {all : Bool} (hgo : v.bit 63 = true) (hverdict : s.verdict src 0x402 Reg.xlInvCtl.off 8 = .perform)
    (hbusy : s.xlBusy (srcFunc src) = false) (hrule : invRule (s.reg (xlPage (srcFunc src)) .xlInvAddr).toNat v = true)
    (hn : Fld.xlInvCtl_context.get v = n) (hall : (Fld.xlInvCtl_all.get v == 1) = all)
    (hfirst : (s.reg (xlPage (srcFunc src)) .xlInvAddr).toNat / 0x2000000 = first) (hreach : s.reachesCtx (srcFunc src) n = true) :
    ∃ t, exec (.deviceInvalidate src v) s = .next t ∧ t.fld (xlPage (srcFunc src)) .xlInvStat Fld.xlInvStat_busy = 1 ∧ t.mem = s.mem
      ∧ (t.freq (srcFunc src)).inval = some (n, all, first, Fld.xlInvCtl_countM1.get v + 1)
      ∧ (all = true → ∀ core, core < 16 → (∀ e ∈ (t.core core).tlb, e.ctx ≠ n) ∧ ∀ w ∈ (t.core core).walks, w.ctx ≠ n) := by
  let t := s.written src 0x402 .xlInvCtl v
  let u := (t.setFld (xlPage (srcFunc src)) .xlInvStat Fld.xlInvStat_busy 1).setFreq (srcFunc src)
    { t.freq (srcFunc src) with inval := some (n, all, first, Fld.xlInvCtl_countM1.get v + 1) }
  have haddr : t.reg (xlPage (srcFunc src)) .xlInvAddr = s.reg (xlPage (srcFunc src)) .xlInvAddr := s.rd_written_xlPage (by decide) (by decide) (by decide)
  obtain ⟨hmem, hreached⟩ : t.mem = s.mem ∧ t.reachesCtx (srcFunc src) n = s.reachesCtx (srcFunc src) n := by
    obtain ⟨_, _, _, _, _, _, _, _, h⟩ : s.Recorded t := State.written_recorded ..
    rw [h]
    exact ⟨rfl, rfl⟩
  have hop : opDeviceInvalidate src v s = u.dropContext n all first (Fld.xlInvCtl_countM1.get v + 1) := by
    unfold opDeviceInvalidate
    dsimp only
    rw [if_neg (not_not_intro hgo), State.triggerIf_perform hverdict (by rw [hbusy, hrule]; rfl)]
    rw [show s.written src 0x402 .xlInvCtl v = t from rfl, haddr, hn, hall, hfirst, hreached, if_pos hreach]
  obtain ⟨cores, dtlb, hdrop⟩ := u.dropContext_eq n all first (Fld.xlInvCtl_countM1.get v + 1)
  have hbusy' : u.fld (xlPage (srcFunc src)) .xlInvStat Fld.xlInvStat_busy = 1 := by
    rw [State.fld_setFreq, State.fld_setFld_self _ _ _ (by decide) (by decide)]
  have hmem' : u.mem = s.mem := by rw [State.setFreq_mem, State.setFld_mem, hmem]
  have hinval : (u.freq (srcFunc src)).inval = some (n, all, first, Fld.xlInvCtl_countM1.get v + 1) := by rw [State.freq_setFreq_self]
  clear_value u
  refine ⟨_, congrArg Host.Outcome.next hop, ?_, ?_, ?_, fun h core hcore => ?_⟩
  · rw [hdrop]
    exact hbusy'
  · rw [hdrop]
    exact hmem'
  · rw [hdrop]
    exact hinval
  · subst h
    exact u.core_dropContext_all n first _ hcore

/-- The invalidation is done once the context's cells are quiet. -/
theorem exec_deviceInvalidateDone {f n first count : Nat} {all : Bool} (hserve : s.serving = true) (hinval : (s.freq f).inval = some (n, all, first, count))
    (hquiet : s.reachesCtx f n = true → s.deviceQuiet n all first count = true) :
    ∃ t, exec (.deviceInvalidateDone f) s = .next t ∧ (t.freq f).inval = none ∧ t.fld (xlPage f) .xlInvStat Fld.xlInvStat_busy = 0
      ∧ t.fld (xlPage f) .xlInvStat Fld.xlInvStat_done = 1 := by
  let u := ((s.setFld (xlPage f) .xlInvStat Fld.xlInvStat_busy 0).setFld (xlPage f) .xlInvStat Fld.xlInvStat_done 1).setFreq f { s.freq f with inval := none }
  have hu : (u.freq f).inval = none ∧ u.fld (xlPage f) .xlInvStat Fld.xlInvStat_busy = 0 ∧ u.fld (xlPage f) .xlInvStat Fld.xlInvStat_done = 1 := by
    refine ⟨by rw [State.freq_setFreq_self], ?_, ?_⟩
    · rw [State.fld_setFreq, State.fld_setFld_apart _ _ _ _ (by decide) (by decide), State.fld_setFld_self _ _ _ (by decide) (by decide)]
    · rw [State.fld_setFreq, State.fld_setFld_self _ _ _ (by decide) (by decide)]
  have hop : opDeviceInvalidateDone f s = if s.reachesCtx f n then u.bump (regKey 0x200 0) .atuCntInv Fld.atuCntInv_device 1 else u := by
    unfold opDeviceInvalidateDone
    have hgo : ¬ (¬ s.serving = true ∨ (s.reachesCtx f n = true ∧ ¬ s.deviceQuiet n all first count = true)) := fun h =>
      h.elim (fun hno => hno hserve) fun hno => hno.2 (hquiet hno.1)
    rw [hinval]
    dsimp only
    rw [if_neg hgo]
  clear_value u
  refine ⟨_, congrArg Host.Outcome.next hop, ?_⟩
  split
  · rw [State.fld_xlPage_bump_atu _ (by decide) (by decide), State.fld_xlPage_bump_atu _ (by decide) (by decide)]
    exact ⟨(congrArg FuncReqs.inval ((u.bump_recorded ..).freq_eq f)).trans hu.1, hu.2⟩
  · exact hu

end

end Sys2Proof.Machine
end

section
/-! SUPPORT. Requests of XL_APT_CTL (09 R567, 10 R313): how one is accepted, what settling does with the only one, and how one ends. -/

namespace Sys2Proof.Machine

section
variable {s t : State} {f ctx i : Nat} {r : AptReq}

/-- Invalidations that complete leave the apertures and the translation requests. -/
theorem State.Sent.apts_eq (h : s.Sent t) : t.pl.apts = s.pl.apts ∧ t.pl.atsReqs = s.pl.atsReqs ∧ t.apt ctx i = s.apt ctx i := by
  obtain ⟨_, _, rfl⟩ := h
  exact ⟨rfl, rfl, rfl⟩

/-! ## The only request (09 R567) -/

theorem State.reqs_setFreq_alone {x : FuncReqs} (hreqs : s.pl.reqs = []) (hx : x ≠ {}) : (s.setFreq f x).pl.reqs = [(f, x)] := by
  have hput : (s.setFreq f x).pl.reqs = s.pl.reqs.put {} f x := rfl
  rw [hput, hreqs]
  exact (if_neg hx : SMap.set (fun _ => ({} : FuncReqs)) [] f x = _)

theorem State.reqs_setFreq_again {x y : FuncReqs} (hreqs : s.pl.reqs = [(f, y)]) : (s.setFreq f x).pl.reqs = if x = {} then [] else [(f, x)] := by
  have hput : (s.setFreq f x).pl.reqs = SMap.set (fun _ => {}) s.pl.reqs f x := rfl
  rw [hput, hreqs, SMap.set]
  split
  · simp [SMap.erase]
  · simp [SMap.insert]

theorem AptReq.shown_ne (r : AptReq) : ({ apt := some r } : FuncReqs) ≠ {} := fun h => Option.some_ne_none r (congrArg FuncReqs.apt h)

section
variable (hreqs : s.pl.reqs = [(f, { apt := some r })])
include hreqs

theorem State.freq_of_apt : s.freq f = { apt := some r } := by
  unfold State.freq SMap.at SMap.get
  rw [hreqs]
  simp [SMap.find?]

theorem State.reqOrder_of_apt : s.reqOrder = [(r.order, f, 2)] := by
  unfold State.reqOrder
  rw [hreqs]
  rfl

/-- The only request waits for no other. -/
theorem State.apt_turn (ha : s.pl.aborts = []) : s.objBehind r.obj = false := State.objBehind_alone (by
  unfold State.objReqs
  rw [hreqs, ha]
  rfl)

/-! ## Settling with that request alone (09 R567) -/

/-- A request that has not begun is performed in its turn. -/
theorem State.settlePass_runs (ha : s.pl.aborts = []) (hwaits : r.going = false) (hstay : (s.aptRun f r).pl.aborts = []) : (s.aptRun f r).Sent s.settlePass := by
  have hreq : s.settleReq f 2 = s.aptRun f r := by
    unfold State.settleReq
    rw [State.freq_of_apt hreqs]
    simp [hwaits, State.apt_turn hreqs ha]
  unfold State.settlePass
  rw [State.reqOrder_of_apt hreqs, List.foldl_cons, List.foldl_nil, hreq, State.settleAborts_stay (.of_none hstay)]
  exact State.settleInvs_sent _

/-- A request that has begun and cannot end yet stays. -/
theorem State.settlePass_stays (ha : s.pl.aborts = []) (hgoing : r.going = true) (hleave : s.aptLeave f r = s) : s.Sent s.settlePass := by
  have hreq : s.settleReq f 2 = s := by
    unfold State.settleReq
    rw [State.freq_of_apt hreqs]
    simp [hgoing, hleave]
  unfold State.settlePass
  rw [State.reqOrder_of_apt hreqs, List.foldl_cons, List.foldl_nil, hreq, State.settleAborts_stay (.of_none ha)]
  exact State.settleInvs_sent _

theorem State.settle_ends (ha : s.pl.aborts = []) (hwaits : r.going = false) (hdone : (s.aptRun f r).pl.reqs = []) (hstay : (s.aptRun f r).pl.aborts = []) :
    (s.aptRun f r).Sent s.settle := by
  have hfirst := State.settlePass_runs hreqs ha hwaits hstay
  refine hfirst.trans (State.settlePass_idle ?_ (hfirst.abortsStay (.of_none hstay)))
  obtain ⟨_, _, h⟩ := hfirst
  rw [h]
  exact hdone

theorem State.settle_goes {r' : AptReq} (ha : s.pl.aborts = []) (hwaits : r.going = false) (hleft : (s.aptRun f r).pl.reqs = [(f, { apt := some r' })])
    (hstay : (s.aptRun f r).pl.aborts = []) (hgoing : r'.going = true)
    (hheld : r'.op ≠ 1 ∨ (s.aptRun f r).aptQuiet r'.ctx ((s.aptRun f r).apt r'.ctx r'.index) = false) : (s.aptRun f r).Sent s.settle := by
  have hfirst := State.settlePass_runs hreqs ha hwaits hstay
  refine hfirst.trans ?_
  obtain ⟨invs, out, h⟩ := hfirst
  refine State.settlePass_stays (f := f) (r := r') ?_ ?_ hgoing (if_neg fun hgo => ?_)
  · rw [h]
    exact hleft
  · rw [h]
    exact hstay
  · obtain ⟨hop, hquiet⟩ := hgo
    obtain hheld | hheld := hheld
    · exact hheld hop
    · rw [h] at hquiet
      exact Bool.false_ne_true (hheld.symm.trans hquiet)

/-! ## The end of a request (10 R336) -/

/-- The end of the only request leaves none. -/
theorem State.aptEnd_reqs (status : Nat) : (s.aptEnd f status).pl.reqs = [] := by
  unfold State.aptEnd
  dsimp only
  refine (State.reqs_setFreq_again (y := { apt := some r }) hreqs).trans (if_pos ?_)
  rw [State.freq_of_apt hreqs]

end

/-- The request page of a function shows that its aperture request has ended with a status. -/
structure AptEnded (t : State) (f status : Nat) : Prop where
  status_eq : t.fld (xlPage f) .xlAptStat Fld.xlAptStat_status = status
  done_eq : t.fld (xlPage f) .xlAptStat Fld.xlAptStat_done = 1
  busy_eq : t.fld (xlPage f) .xlAptStat Fld.xlAptStat_busy = 0

theorem AptEnded.sent {status : Nat} (h : AptEnded s f status) (hs : s.Sent t) : AptEnded t f status := by
  obtain ⟨_, _, rfl⟩ := hs
  exact ⟨h.status_eq, h.done_eq, h.busy_eq⟩

theorem State.aptEnd_ended (s : State) (f : Nat) {status : Nat} (h : status < 256) : AptEnded (s.aptEnd f status) f status := by
  unfold State.aptEnd
  dsimp only
  refine ⟨?_, ?_, ?_⟩
  · rw [State.fld_setFreq, State.fld_setFld_apart _ _ _ _ (by decide) (by decide), State.fld_setFld_apart _ _ _ _ (by decide) (by decide),
      State.fld_setFld_self _ _ _ (by decide) h]
  · rw [State.fld_setFreq, State.fld_setFld_self _ _ _ (by decide) (by decide)]
  · rw [State.fld_setFreq, State.fld_setFld_apart _ _ _ _ (by decide) (by decide), State.fld_setFld_self _ _ _ (by decide) (by decide)]

/-- It leaves the Plinth but for the requests. -/
theorem State.aptEnd_pl (s : State) (f status : Nat) : ∃ reqs, (s.aptEnd f status).pl = { s.pl with reqs := reqs } := ⟨_, rfl⟩

/-! ## A GO write (10 R313, R334) -/

/-- The state that has accepted a request of a function as the only one. -/
def State.showApt (s : State) (f : Nat) (r : AptReq) : State := s.setFreq f { apt := some r }

theorem State.showApt_reqs (hreqs : s.pl.reqs = []) : (s.showApt f r).pl.reqs = [(f, { apt := some r })] := State.reqs_setFreq_alone hreqs r.shown_ne

/-- A GO write that is allowed, with nothing in progress, is accepted as the only request, and settles. -/
theorem State.aptGo_accepted {src op ctx i : Nat} {v : Word} (hgo : v.bit 63 = true) (hop : Fld.xlAptCtl_op.get v = op)
    (hctx : Fld.xlAptCtl_context.get v = ctx) (hi : Fld.xlAptCtl_index.get v = i)
    (hverdict : s.verdict src 0x402 Reg.xlAptCtl.off 8 = .perform) (hbusy : s.xlBusy (srcFunc src) = false) (hreqs : s.pl.reqs = []) (ha : s.pl.aborts = []) :
    ∃ w, s.Recorded w ∧ w.fld (xlPage (srcFunc src)) .xlAptStat Fld.xlAptStat_busy = 1
      ∧ (w.showApt (srcFunc src) ⟨op, ctx, i, 0, false⟩).pl.reqs = [(srcFunc src, { apt := some ⟨op, ctx, i, 0, false⟩ })]
      ∧ (w.showApt (srcFunc src) ⟨op, ctx, i, 0, false⟩).pl.aborts = []
      ∧ s.aptGo src op v = (w.showApt (srcFunc src) ⟨op, ctx, i, 0, false⟩).settle := by
  let t := s.written src 0x402 .xlAptCtl v
  have hrec : s.Recorded t := State.written_recorded ..
  obtain ⟨hreqs', haborts'⟩ : t.pl.reqs = [] ∧ t.pl.aborts = [] := by
    obtain ⟨_, _, _, _, _, _, _, _, h⟩ := hrec
    rw [h]
    exact ⟨hreqs, ha⟩
  refine ⟨t.setFld (xlPage (srcFunc src)) .xlAptStat Fld.xlAptStat_busy 1, hrec.trans (State.setFld_recorded ..),
    State.fld_setFld_self _ _ _ (by decide) (by decide), State.showApt_reqs hreqs', haborts', ?_⟩
  unfold State.aptGo State.showApt
  dsimp only
  rw [if_neg (by rw [hgo, hop]; simp), State.triggerIf_perform hverdict (by rw [hbusy]; rfl)]
  rw [show s.written src 0x402 .xlAptCtl v = t from rfl, State.nextOrder_first hreqs' haborts', State.freq_of_none hreqs' (srcFunc src), hctx, hi]

end

end Sys2Proof.Machine
end

section
/-! SUPPORT. Loading an aperture (10 R312 to R314): its checks, the steps of its range, and what the steps leave. -/

namespace Sys2Proof.Machine

/-! ## The ATC but for its locks (10 R319) -/

/-- An ATC entry without its lock count. -/
def AtcEntry.unlocked (e : AtcEntry) : AtcEntry := { e with locks := 0 }

/-- The ATC but for lock counts. -/
def State.atcBare (s : State) : List AtcEntry := s.pl.atc.map AtcEntry.unlocked

theorem State.relock_atcBare (s : State) : s.relock.atcBare = s.atcBare := by
  unfold State.atcBare State.relock
  dsimp only
  rw [List.map_map]
  rfl

theorem State.atcFind_bare (s : State) (f pasid va : Nat) :
    (s.atcFind f pasid va).map AtcEntry.unlocked = s.atcBare.find? fun e => e.f == f && e.pasid == pasid && e.va == va / 2 ^ e.log2 * 2 ^ e.log2 := by
  rw [State.atcBare, List.find?_map]
  rfl

/-- The ATC holds an address of a context with the rights that an aperture's flags ask of the host (10 R313). -/
def State.aptHas (s : State) (ctx flags va : Nat) : Bool :=
  (s.atcFind (s.ctxFunc ctx) (s.ctx ctx).pasid va).any fun e => (!(aptNeeds flags).1 || e.r) && (!(aptNeeds flags).2 || e.w)

section
variable {s t : State}

theorem State.ctx_of_ctxs (h : t.pl.ctxs = s.pl.ctxs) (n : Nat) : t.ctx n = s.ctx n := congrArg (fun m : SMap Context => m.at {} n) h

theorem State.ctxFunc_of_ctxs (h : t.pl.ctxs = s.pl.ctxs) (hsriov : t.pl.sriov = s.pl.sriov) (n : Nat) : t.ctxFunc n = s.ctxFunc n := by
  rw [State.ctxFunc, hsriov, State.ctx_of_ctxs h, State.ctxFunc]

/-- Locks do not bear on what the ATC holds. -/
theorem State.aptHas_of_bare (hctxs : t.pl.ctxs = s.pl.ctxs) (hsriov : t.pl.sriov = s.pl.sriov) (hatc : t.atcBare = s.atcBare) (ctx flags va : Nat) :
    t.aptHas ctx flags va = s.aptHas ctx flags va := by
  have hany : ∀ u : State, u.aptHas ctx flags va = ((u.atcFind (u.ctxFunc ctx) (u.ctx ctx).pasid va).map AtcEntry.unlocked).any
      fun e => (!(aptNeeds flags).1 || e.r) && (!(aptNeeds flags).2 || e.w) := fun u => by
    rw [Option.any_map]
    rfl
  rw [hany, hany, State.atcFind_bare, State.atcFind_bare, hatc, State.ctx_of_ctxs hctxs, State.ctxFunc_of_ctxs hctxs hsriov]

end

/-! ## The steps of a range (10 R313) -/

theorem State.apt_setApt (s : State) (ctx i : Nat) (x : Aperture) : (s.setApt ctx i x).apt ctx i = x := (SMap.at_put ..).trans (if_pos rfl)

/-- The request that a step makes which the ATC does not hold. -/
def State.aptAsk (s : State) (f ctx i flags va : Nat) : AtsReq := ⟨s.ctxFunc ctx, (s.ctx ctx).pasid, va, (aptNeeds flags).2, .aperture f ctx i, false⟩

/-- A load of an aperture has come past some steps of its range: those that the ATC holds are locked, and the others asked for. -/
structure AptLoading (s t : State) (f ctx i : Nat) (x : Aperture) (l : List Nat) : Prop where
  reqs_eq : t.pl.reqs = s.pl.reqs
  aborts_eq : t.pl.aborts = s.pl.aborts
  ctxs_eq : t.pl.ctxs = s.pl.ctxs
  sriov_eq : t.pl.sriov = s.pl.sriov
  bare_eq : t.atcBare = s.atcBare
  apt_eq : t.apt ctx i = { x with locked := x.locked ++ l.filter (s.aptHas ctx x.flags) }
  asked_eq : t.pl.atsReqs = s.pl.atsReqs ++ (l.filter fun va => !s.aptHas ctx x.flags va).map (s.aptAsk f ctx i x.flags)
  busy_eq : t.fld (xlPage f) .xlAptStat Fld.xlAptStat_busy = s.fld (xlPage f) .xlAptStat Fld.xlAptStat_busy

section
variable {s t : State} {f ctx i va : Nat} {x : Aperture} {l : List Nat}

theorem AptLoading.refl (hx : s.apt ctx i = x) : AptLoading s s f ctx i x [] where
  reqs_eq := rfl
  aborts_eq := rfl
  ctxs_eq := rfl
  sriov_eq := rfl
  bare_eq := rfl
  apt_eq := by rw [hx, List.filter_nil, List.append_nil]
  asked_eq := by rw [List.filter_nil, List.map_nil, List.append_nil]
  busy_eq := rfl

/-- Within the limit, a step is locked. -/
theorem State.lockStep_eq (h : t.pl.atc.length ≤ 8192) :
    t.lockStep ctx i va = (t.setApt ctx i { t.apt ctx i with locked := (t.apt ctx i).locked ++ [va] }).relock := by
  have hfew : ∀ u : State, u.pl.atc.length ≤ 8192 → u.aptLocked.length ≤ 8192 := fun u hu => (List.length_filter_le ..).trans hu
  unfold State.lockStep
  dsimp only
  rw [if_pos]
  refine hfew _ ?_
  have hlength : ∀ u : State, u.relock.pl.atc.length = u.pl.atc.length := fun u => List.length_map ..
  rw [hlength]
  exact h

theorem State.aptStep_eq (t : State) (f ctx i va : Nat) : t.aptStep f ctx i va = if t.aptHas ctx (t.apt ctx i).flags va then t.lockStep ctx i va
    else t.atsSend (t.ctxFunc ctx) (t.ctx ctx).pasid va (aptNeeds (t.apt ctx i).flags).2 (.aperture f ctx i) := by
  unfold State.aptStep State.aptHas
  dsimp only
  cases t.atcFind (t.ctxFunc ctx) (t.ctx ctx).pasid va <;> rfl

/-- One step more. -/
theorem AptLoading.step (h : AptLoading s t f ctx i x l) (hfew : s.pl.atc.length ≤ 8192) (va : Nat) :
    AptLoading s (t.aptStep f ctx i va) f ctx i x (l ++ [va]) := by
  have hhas := State.aptHas_of_bare h.ctxs_eq h.sriov_eq h.bare_eq ctx x.flags va
  have hflags : (t.apt ctx i).flags = x.flags := by rw [h.apt_eq]
  have hlength : t.pl.atc.length = s.pl.atc.length := by
    have hbare := congrArg List.length h.bare_eq
    rwa [State.atcBare, List.length_map, State.atcBare, List.length_map] at hbare
  rw [State.aptStep_eq, hflags, hhas]
  split
  · next hheld =>
    rw [State.lockStep_eq (by omega), h.apt_eq]
    refine ⟨h.reqs_eq, h.aborts_eq, h.ctxs_eq, h.sriov_eq, ?_, ?_, ?_, h.busy_eq⟩
    · rw [State.relock_atcBare]
      exact h.bare_eq
    · refine (State.apt_setApt ..).trans ?_
      rw [List.filter_append, List.filter_singleton, hheld, ← List.append_assoc]
      rfl
    · rw [List.filter_append, List.filter_singleton, hheld]
      exact h.asked_eq.trans (by simp)
  · next hlacks =>
    have hlacks' : s.aptHas ctx x.flags va = false := Bool.eq_false_iff.mpr hlacks
    refine ⟨h.reqs_eq, h.aborts_eq, h.ctxs_eq, h.sriov_eq, h.bare_eq, ?_, ?_, ?_⟩
    · rw [List.filter_append, List.filter_singleton, hlacks']
      exact h.apt_eq.trans (by simp)
    · have hasked : s.aptAsk f ctx i x.flags va = ⟨t.ctxFunc ctx, (t.ctx ctx).pasid, va, (aptNeeds x.flags).2, .aperture f ctx i, false⟩ := by
        rw [State.aptAsk, State.ctxFunc_of_ctxs h.ctxs_eq h.sriov_eq, State.ctx_of_ctxs h.ctxs_eq]
      rw [List.filter_append, List.filter_singleton, hlacks', List.map_append, ← List.append_assoc, ← h.asked_eq]
      exact congrArg (fun r => t.pl.atsReqs ++ [r]) hasked.symm
    · refine Eq.trans ?_ h.busy_eq
      exact State.fld_xlPage_bump_atu (t.send (t.ctxFunc ctx) (.atsReq (t.ctx ctx).pasid va)) (by decide) (by decide)

/-- Every step of a range. -/
theorem AptLoading.steps (h : AptLoading s t f ctx i x l) (hfew : s.pl.atc.length ≤ 8192) (m : List Nat) :
    AptLoading s (m.foldl (fun u va => u.aptStep f ctx i va) t) f ctx i x (l ++ m) := by
  induction m generalizing t l with
  | nil => rwa [List.append_nil]
  | cons va m ih =>
    rw [List.foldl_cons, List.append_cons]
    exact ih (h.step hfew va)

end

end Sys2Proof.Machine
end

section
/-! SUPPORT. Aperture requests performed (10 R313, R314): a load that ends at a failed check, one that waits for the host or is LOADED at once, and an unload. -/

namespace Sys2Proof.Machine

/-! ## Reads of the table leave the request page's status (07 R220, 14 R435) -/

/-- The key of a function's XL_APT_STAT. -/
def aptStatKey (f : Nat) : Nat := xlPage f + Reg.xlAptStat.off

theorem aptStatKey_eq (f : Nat) : ∃ k, aptStatKey f = 0x402120 + k * 0x2000000 := by
  obtain ⟨k, hk⟩ := xlPage_eq f
  have hoff : Reg.xlAptStat.off = 0x120 := rfl
  exact ⟨k, by rw [aptStatKey, hk, hoff]; omega⟩

section
variable (s : State) (f : Nat)

theorem State.rd_carveAccess_aptStat (line : Nat) (write : Bool) : (s.carveAccess line write).rd (aptStatKey f) = s.rd (aptStatKey f) := by
  have hbump : ∀ (t : State) (h : Nat) (g : Fld), (t.bump (homePage h) .hmTcCnt g 1).rd (aptStatKey f) = t.rd (aptStatKey f) := fun t h g => by
    obtain ⟨k, hk⟩ := aptStatKey_eq f
    have hoff : Reg.hmTcCnt.off = 0x128 := rfl
    have hpage : homePage h = (0x901 + h) * 0x1000 + 0 := rfl
    exact State.rd_wr_of_ne _ _ (by omega)
  have hbring : ∀ (t : State) (h c : Nat) (d : Bool), (t.tagBring h c d).rd (aptStatKey f) = t.rd (aptStatKey f) := fun t h c d =>
    State.rd_of_regs (State.tagBring_regs ..) _
  unfold State.carveAccess State.tagMiss State.tagHit
  dsimp only
  split
  · exact hbump ..
  · split
    · rw [hbring, hbump, hbring]
    · rw [hbump, hbring]

theorem State.rd_countSnoop_aptStat (agent line : Nat) : (s.countSnoop agent line).rd (aptStatKey f) = s.rd (aptStatKey f) := by
  have hbump : agent < 16 → ∀ (t : State) (r : Reg) (g : Fld), r.off < 0x1000 →
      (t.bumpCore agent (corePage agent 2) r g 1).rd (aptStatKey f) = t.rd (aptStatKey f) := fun hagent t r g hr => by
    obtain ⟨k, hk⟩ := aptStatKey_eq f
    have hpage : corePage agent 2 = (0x1000 + 0x100 * agent + 2) * 0x1000 + 0 := rfl
    unfold State.bumpCore
    split
    · rfl
    · exact State.rd_wr_of_ne _ _ (by omega)
  unfold State.countSnoop
  dsimp only
  split
  · next hagent =>
    split
    · exact hbump hagent _ _ _ (by decide)
    · rw [hbump hagent _ _ _ (by decide), hbump hagent _ _ _ (by decide)]
  · rfl

theorem State.rd_snoopReads_aptStat (l : List Nat) : (s.snoopReads l).rd (aptStatKey f) = s.rd (aptStatKey f) := by
  refine foldl_keeps (P := fun t : State => t.rd (aptStatKey f) = s.rd (aptStatKey f)) (fun t line ht => ?_) rfl l
  have htouch : (t.stackTouch line).rd (aptStatKey f) = t.rd (aptStatKey f) := by
    unfold State.stackTouch
    split
    · rfl
    · exact State.rd_carveAccess_aptStat ..
  unfold State.snoopRead
  dsimp only
  split
  · rw [htouch, ht]
  · rw [State.rd_countSnoop_aptStat, htouch, ht]

end

/-! ## A load (10 R313, R314) -/

section
variable {s t w : State} {f ctx i : Nat}

/-- A request that has been accepted reads and checks what the state before it does. -/
theorem State.Recorded.showApt_reads (h : s.Recorded w) (r : AptReq) : (w.showApt f r).aptChecks f ctx i = s.aptChecks f ctx i
    ∧ (w.showApt f r).aptRead ctx i = s.aptRead ctx i ∧ (w.showApt f r).pl.apts = s.pl.apts := by
  obtain ⟨_, _, _, _, _, _, _, _, rfl⟩ := h
  exact ⟨rfl, rfl, rfl⟩

theorem State.Recorded.showApt_reqs (h : s.Recorded w) (hreqs : s.pl.reqs = []) (r : AptReq) : (w.showApt f r).pl.reqs = [(f, { apt := some r })] := by
  refine State.showApt_reqs ?_
  obtain ⟨_, _, _, _, _, _, _, _, rfl⟩ := h
  exact hreqs

/-- The state in which the steps of a load begin: its table entry has been read, and it is loading. -/
def State.loadBegun (s : State) (f ctx i order : Nat) (x : Aperture) : State :=
  let a := (s.ctx ctx).aptBase + 32 * i
  ((s.snoopReads [a / 64, (a + 31) / 64].eraseDups).setApt ctx i x).setFreq f { s.freq f with apt := some ⟨0, ctx, i, order, true⟩ }

theorem State.aptLoad_refused (h : s.aptChecks f ctx i ≠ 0) (order : Nat) : s.aptLoad f ctx i order = s.aptEnd f (s.aptChecks f ctx i) := by
  unfold State.aptLoad
  exact if_pos h

theorem State.aptLoad_goes (h : s.aptChecks f ctx i = 0) {x : Aperture} (hx : aptEntry ((s.aptRead ctx i).getD []) = x) (order : Nat) :
    s.aptLoad f ctx i order = (x.steps.foldl (fun t va => t.aptStep f ctx i va) (s.loadBegun f ctx i order { x with state := 3 })).aptFinish f ctx i := by
  subst hx
  unfold State.aptLoad
  exact if_neg (not_not_intro h)

/-- The status of a failed check fits its field (10 R314). -/
theorem State.aptChecks_lt (s : State) (f ctx i : Nat) : s.aptChecks f ctx i < 256 := by
  unfold State.aptChecks
  dsimp only [firstStatus]
  split_ifs <;> decide

/-- The beginning of a load marks its request and its aperture, and leaves the contexts, the ATC and the status shown. -/
theorem State.loadBegun_keeps {r : AptReq} {order : Nat} {x : Aperture} (hreqs : s.pl.reqs = [(f, { apt := some r })]) :
    (s.loadBegun f ctx i order x).pl.reqs = [(f, { apt := some ⟨0, ctx, i, order, true⟩ })] ∧ (s.loadBegun f ctx i order x).apt ctx i = x
      ∧ (s.loadBegun f ctx i order x).fld (xlPage f) .xlAptStat Fld.xlAptStat_busy = s.fld (xlPage f) .xlAptStat Fld.xlAptStat_busy
      ∧ ∃ patina outbound irqs harts msix apts reqs, (s.loadBegun f ctx i order x).pl =
          { s.pl with patina := patina, outbound := outbound, irqs := irqs, harts := harts, msix := msix, apts := apts, reqs := reqs } := by
  have hfreq := State.freq_of_apt hreqs
  unfold State.loadBegun
  dsimp only
  generalize [((s.ctx ctx).aptBase + 32 * i) / 64, ((s.ctx ctx).aptBase + 32 * i + 31) / 64].eraseDups = l
  have hstat := s.rd_snoopReads_aptStat f l
  have hrec := s.snoopReads_recorded l
  generalize s.snoopReads l = v at hstat hrec
  have hvreqs : (v.setApt ctx i x).pl.reqs = [(f, { apt := some r })] := by
    obtain ⟨_, _, _, _, _, _, _, _, h⟩ := hrec
    rw [h]
    exact hreqs
  refine ⟨?_, State.apt_setApt .., congrArg Fld.xlAptStat_busy.get hstat, ?_⟩
  · rw [State.reqs_setFreq_again hvreqs, hfreq]
    exact if_neg (AptReq.shown_ne _)
  · obtain ⟨_, _, _, _, _, _, _, _, h⟩ := hrec
    rw [h]
    exact ⟨_, _, _, _, _, _, _, rfl⟩

/-- A load has come past every step of its range. -/
structure AptStepped (s t : State) (f ctx i : Nat) (x : Aperture) : Prop where
  reqs_eq : t.pl.reqs = [(f, { apt := some ⟨0, ctx, i, 0, true⟩ })]
  aborts_eq : t.pl.aborts = []
  apt_eq : t.apt ctx i = { x with state := 3, locked := x.steps.filter (s.aptHas ctx x.flags) }
  asked_eq : t.pl.atsReqs = s.pl.atsReqs ++ (x.steps.filter fun va => !s.aptHas ctx x.flags va).map (s.aptAsk f ctx i x.flags)
  busy_eq : t.fld (xlPage f) .xlAptStat Fld.xlAptStat_busy = 1

/-- An accepted load whose checks pass goes through the steps of its range. -/
theorem State.Recorded.loads (h : s.Recorded w) (hreqs : s.pl.reqs = []) (ha : s.pl.aborts = []) (hbusy : w.fld (xlPage f) .xlAptStat Fld.xlAptStat_busy = 1)
    (hchecks : s.aptChecks f ctx i = 0) (hfew : s.pl.atc.length ≤ 8192) {x : Aperture} (hx : aptEntry ((s.aptRead ctx i).getD []) = x) :
    ∃ t, AptStepped s t f ctx i x ∧ (w.showApt f ⟨0, ctx, i, 0, false⟩).aptRun f ⟨0, ctx, i, 0, false⟩ = t.aptFinish f ctx i := by
  obtain ⟨hchecks', hread, -⟩ := h.showApt_reads (f := f) (ctx := ctx) (i := i) ⟨0, ctx, i, 0, false⟩
  have hlocked : x.locked = [] := by rw [← hx]; rfl
  obtain ⟨hbreqs, hbapt, hbfld, _, _, _, _, _, _, _, hbpl⟩ := State.loadBegun_keeps (ctx := ctx) (i := i) (order := 0) (x := { x with state := 3 })
    (h.showApt_reqs hreqs (f := f) ⟨0, ctx, i, 0, false⟩)
  have hrun := State.aptLoad_goes (hchecks'.trans hchecks) (by rw [hread, hx]) 0
  generalize hb : (w.showApt f ⟨0, ctx, i, 0, false⟩).loadBegun f ctx i 0 { x with state := 3 } = b at *
  have hkept : b.pl.ctxs = s.pl.ctxs ∧ b.pl.sriov = s.pl.sriov ∧ b.pl.atc = s.pl.atc ∧ b.pl.atsReqs = s.pl.atsReqs ∧ b.pl.aborts = s.pl.aborts := by
    obtain ⟨_, _, _, _, _, _, _, _, rfl⟩ := h
    rw [hbpl]
    exact ⟨rfl, rfl, rfl, rfl, rfl⟩
  obtain ⟨hctxs, hsriov, hatc, hasked, haborts⟩ := hkept
  have hsteps := (AptLoading.refl hbapt).steps (f := f) (by rw [hatc]; exact hfew) x.steps
  have hhas : b.aptHas ctx x.flags = s.aptHas ctx x.flags := funext fun va =>
    State.aptHas_of_bare hctxs hsriov (by rw [State.atcBare, hatc, State.atcBare]) ctx x.flags va
  have hask : b.aptAsk f ctx i x.flags = s.aptAsk f ctx i x.flags := funext fun va => by
    rw [State.aptAsk, State.ctxFunc_of_ctxs hctxs hsriov, State.ctx_of_ctxs hctxs, State.aptAsk]
  refine ⟨_, ⟨hsteps.reqs_eq.trans hbreqs, hsteps.aborts_eq.trans (haborts.trans ha), ?_, ?_, hsteps.busy_eq.trans (hbfld.trans hbusy)⟩, hrun⟩
  · rw [hsteps.apt_eq, hhas, hlocked, List.nil_append, List.nil_append]
  · rw [hsteps.asked_eq, hhas, hask, hasked, List.nil_append]

/-- A load with a translation awaited goes on. -/
theorem State.aptFinish_waits (h : ∃ r ∈ s.pl.atsReqs, r.user = .aperture f ctx i) : s.aptFinish f ctx i = s := by
  obtain ⟨r, hr, huser⟩ := h
  have hany : (s.pl.atsReqs.any fun r => r.user == .aperture f ctx i) = true := List.any_eq_true.mpr ⟨r, hr, beq_iff_eq.mpr huser⟩
  unfold State.aptFinish
  dsimp only
  rw [if_pos hany]

/-- A load with none awaited, and no failure, ends LOADED. -/
theorem State.aptFinish_loaded (h : ∀ r ∈ s.pl.atsReqs, r.user ≠ .aperture f ctx i) (hstate : (s.apt ctx i).state = 3) (hfail : (s.apt ctx i).fail = 0) :
    s.aptFinish f ctx i = (s.setApt ctx i { s.apt ctx i with state := 1 }).aptEnd f 0 := by
  have hnone : ¬ (s.pl.atsReqs.any fun r => r.user == .aperture f ctx i) = true := fun hany => by
    obtain ⟨r, hr, huser⟩ := List.any_eq_true.mp hany
    exact h r hr (beq_iff_eq.mp huser)
  unfold State.aptFinish
  dsimp only
  rw [if_neg hnone, if_neg (not_not_intro hstate), if_pos hfail]

/-! ## An unload (10 R313) -/

/-- The state in which an unload waits: the range has left the copies. -/
def State.unloadBegun (s : State) (f ctx i order : Nat) : State :=
  (s.setApt ctx i { s.apt ctx i with leaving := true }).setFreq f { s.freq f with apt := some ⟨1, ctx, i, order, true⟩ }

theorem State.aptUnload_goes (hreach : s.reachesCtx f ctx = true) (hlive : (s.ctx ctx).state = 1) (hindex : i < (s.ctx ctx).aptCount)
    (hloaded : (s.apt ctx i).state = 1 ∨ (s.apt ctx i).state = 2) (order : Nat) :
    s.aptUnload f ctx i order = (s.unloadBegun f ctx i order).aptLeave f ⟨1, ctx, i, order, true⟩ := by
  have hstate : ((s.apt ctx i).state == 1 || (s.apt ctx i).state == 2) = true := by
    rw [Bool.or_eq_true, beq_iff_eq, beq_iff_eq]
    exact hloaded
  unfold State.aptUnload
  simp only [hreach, hlive, beq_self_eq_true, decide_eq_true hindex, hstate, firstStatus_pass]
  rfl

/-- An unload that has begun waits for the accesses issued through its aperture. -/
theorem State.unloadBegun_keeps {r : AptReq} (hreqs : s.pl.reqs = [(f, { apt := some r })]) (order : Nat) :
    (s.unloadBegun f ctx i order).pl.reqs = [(f, { apt := some ⟨1, ctx, i, order, true⟩ })] ∧ (s.unloadBegun f ctx i order).pl.aborts = s.pl.aborts
      ∧ (s.unloadBegun f ctx i order).apt ctx i = { s.apt ctx i with leaving := true }
      ∧ (s.unloadBegun f ctx i order).aptQuiet ctx ((s.unloadBegun f ctx i order).apt ctx i) = s.aptQuiet ctx (s.apt ctx i)
      ∧ (s.unloadBegun f ctx i order).fld (xlPage f) = s.fld (xlPage f) := by
  have hfreq := State.freq_of_apt hreqs
  have hapt : (s.unloadBegun f ctx i order).apt ctx i = { s.apt ctx i with leaving := true } := State.apt_setApt ..
  have hquiet : (s.unloadBegun f ctx i order).aptQuiet = s.aptQuiet := rfl
  refine ⟨?_, rfl, hapt, ?_, rfl⟩
  · unfold State.unloadBegun
    rw [hfreq, State.reqs_setFreq_again (s := s.setApt ctx i _) hreqs]
    exact if_neg (AptReq.shown_ne _)
  · rw [hapt, hquiet]
    rfl

/-- An accepted unload begins, and waits. -/
theorem State.Recorded.unloads (h : s.Recorded w) (hreqs : s.pl.reqs = []) (hreach : s.reachesCtx f ctx = true) (hlive : (s.ctx ctx).state = 1)
    (hindex : i < (s.ctx ctx).aptCount) (hloaded : (s.apt ctx i).state = 1 ∨ (s.apt ctx i).state = 2) :
    ∃ u : State, (w.showApt f ⟨1, ctx, i, 0, false⟩).aptRun f ⟨1, ctx, i, 0, false⟩ = u.aptLeave f ⟨1, ctx, i, 0, true⟩
      ∧ u.pl.reqs = [(f, { apt := some ⟨1, ctx, i, 0, true⟩ })] ∧ u.pl.aborts = s.pl.aborts ∧ u.apt ctx i = { s.apt ctx i with leaving := true }
      ∧ u.aptQuiet ctx (u.apt ctx i) = s.aptQuiet ctx (s.apt ctx i) ∧ u.fld (xlPage f) = w.fld (xlPage f) := by
  have hone := h.showApt_reqs hreqs (f := f) ⟨1, ctx, i, 0, false⟩
  have hsame : (w.showApt f ⟨1, ctx, i, 0, false⟩).reachesCtx = s.reachesCtx ∧ (w.showApt f ⟨1, ctx, i, 0, false⟩).ctx = s.ctx
      ∧ (w.showApt f ⟨1, ctx, i, 0, false⟩).apt = s.apt ∧ (w.showApt f ⟨1, ctx, i, 0, false⟩).aptQuiet = s.aptQuiet
      ∧ (w.showApt f ⟨1, ctx, i, 0, false⟩).pl.aborts = s.pl.aborts := by
    obtain ⟨_, _, _, _, _, _, _, _, rfl⟩ := h
    exact ⟨rfl, rfl, rfl, rfl, rfl⟩
  have hfld : (w.showApt f ⟨1, ctx, i, 0, false⟩).fld (xlPage f) = w.fld (xlPage f) := rfl
  generalize w.showApt f ⟨1, ctx, i, 0, false⟩ = v at *
  obtain ⟨hreach', hctx', hapt', hquiet', haborts'⟩ := hsame
  obtain ⟨hureqs, huaborts, huapt, huquiet, hufld⟩ := State.unloadBegun_keeps (ctx := ctx) (i := i) hone 0
  refine ⟨v.unloadBegun f ctx i 0, ?_, hureqs, huaborts.trans haborts', ?_, ?_, hufld.trans hfld⟩
  · exact State.aptUnload_goes (by rwa [hreach']) (by rwa [hctx']) (by rwa [hctx']) (by rwa [hapt']) 0
  · rw [huapt, hapt']
  · rw [huquiet, hapt', hquiet']

end

/-! ## LOAD_APERTURE and UNLOAD_APERTURE (10 R313) -/

section
variable {s : State} {src : Nat} {v : Word} (hgo : v.bit 63 = true) (hverdict : s.verdict src 0x402 Reg.xlAptCtl.off 8 = .perform)
  (hbusy : s.xlBusy (srcFunc src) = false) (hreqs : s.pl.reqs = []) (ha : s.pl.aborts = []) {ctx i : Nat} (hctx : Fld.xlAptCtl_context.get v = ctx)
  (hi : Fld.xlAptCtl_index.get v = i)
include hgo hverdict hbusy hreqs ha hctx hi

/-- A load that fails a check ends with its status, and the apertures are as they were. -/
theorem exec_loadAperture_refused (hop : Fld.xlAptCtl_op.get v = 0) (hchecks : s.aptChecks (srcFunc src) ctx i ≠ 0) :
    ∃ t, exec (.loadAperture src v) s = .next t ∧ t.pl.apts = s.pl.apts ∧ AptEnded t (srcFunc src) (s.aptChecks (srcFunc src) ctx i) := by
  obtain ⟨w, hrec, -, hone, haborts, hop⟩ := State.aptGo_accepted hgo hop hctx hi hverdict hbusy hreqs ha
  obtain ⟨hchecks', -, hapts⟩ := hrec.showApt_reads (f := srcFunc src) (ctx := ctx) (i := i) ⟨0, ctx, i, 0, false⟩
  generalize w.showApt (srcFunc src) ⟨0, ctx, i, 0, false⟩ = u at *
  have hrun : u.aptRun (srcFunc src) ⟨0, ctx, i, 0, false⟩ = u.aptEnd (srcFunc src) (s.aptChecks (srcFunc src) ctx i) :=
    (State.aptLoad_refused (by rwa [hchecks']) 0).trans (by rw [hchecks'])
  have hdone : (u.aptRun (srcFunc src) ⟨0, ctx, i, 0, false⟩).pl.reqs = [] := by rw [hrun, State.aptEnd_reqs hone]
  have hstay : (u.aptRun (srcFunc src) ⟨0, ctx, i, 0, false⟩).pl.aborts = [] := by rw [hrun]; exact haborts
  have hsent := State.settle_ends hone haborts rfl hdone hstay
  rw [hrun] at hsent
  refine ⟨_, congrArg Host.Outcome.next hop, ?_, (State.aptEnd_ended u _ (s.aptChecks_lt ..)).sent hsent⟩
  exact hsent.apts_eq (ctx := ctx) (i := i) |>.1.trans hapts

section
variable (hop : Fld.xlAptCtl_op.get v = 0) (hchecks : s.aptChecks (srcFunc src) ctx i = 0) (hfew : s.pl.atc.length ≤ 8192)
  (hfree : ∀ r ∈ s.pl.atsReqs, r.user ≠ .aperture (srcFunc src) ctx i) {x : Aperture} (hx : aptEntry ((s.aptRead ctx i).getD []) = x)
include hop hchecks hfew hx

/-- A load asks for the steps that the ATC does not hold, and waits. -/
theorem exec_loadAperture_asks (hlacks : (x.steps.filter fun va => !s.aptHas ctx x.flags va) ≠ []) :
    ∃ t, exec (.loadAperture src v) s = .next t ∧ (t.apt ctx i).state = 3 ∧ (t.apt ctx i).hbase = x.hbase ∧ (t.apt ctx i).length = x.length
      ∧ t.fld (xlPage (srcFunc src)) .xlAptStat Fld.xlAptStat_busy = 1
      ∧ t.pl.atsReqs = s.pl.atsReqs ++ (x.steps.filter fun va => !s.aptHas ctx x.flags va).map (s.aptAsk (srcFunc src) ctx i x.flags) := by
  obtain ⟨w, hrec, hshown, hone, haborts, hop⟩ := State.aptGo_accepted hgo hop hctx hi hverdict hbusy hreqs ha
  obtain ⟨t, ht, hrun⟩ := hrec.loads hreqs ha hshown hchecks hfew hx
  generalize w.showApt (srcFunc src) ⟨0, ctx, i, 0, false⟩ = u at *
  have hawaited : ∃ r ∈ t.pl.atsReqs, r.user = .aperture (srcFunc src) ctx i := by
    obtain ⟨va, hva⟩ := List.exists_mem_of_ne_nil _ hlacks
    refine ⟨s.aptAsk (srcFunc src) ctx i x.flags va, ?_, rfl⟩
    rw [ht.asked_eq]
    exact List.mem_append_right _ (List.mem_map.mpr ⟨va, hva, rfl⟩)
  rw [State.aptFinish_waits hawaited] at hrun
  have hsent := State.settle_goes (r' := ⟨0, ctx, i, 0, true⟩) hone haborts rfl (by rw [hrun]; exact ht.reqs_eq) (by rw [hrun]; exact ht.aborts_eq) rfl
    (.inl Nat.zero_ne_one)
  rw [hrun] at hsent
  obtain ⟨-, hasked, hapt⟩ := hsent.apts_eq (ctx := ctx) (i := i)
  rw [ht.apt_eq] at hapt
  exact ⟨_, congrArg Host.Outcome.next hop, by rw [hapt], by rw [hapt], by rw [hapt], (hsent.fld_eq ..).trans ht.busy_eq, hasked.trans ht.asked_eq⟩

include hfree

/-- A load whose steps the ATC holds is LOADED at once. -/
theorem exec_loadAperture_loaded (hlacks : (x.steps.filter fun va => !s.aptHas ctx x.flags va) = []) :
    ∃ t, exec (.loadAperture src v) s = .next t ∧ t.apt ctx i = { x with state := 1, locked := x.steps } ∧ AptEnded t (srcFunc src) 0
      ∧ t.pl.atsReqs = s.pl.atsReqs := by
  obtain ⟨w, hrec, hshown, hone, haborts, hop⟩ := State.aptGo_accepted hgo hop hctx hi hverdict hbusy hreqs ha
  obtain ⟨t, ht, hrun⟩ := hrec.loads hreqs ha hshown hchecks hfew hx
  generalize w.showApt (srcFunc src) ⟨0, ctx, i, 0, false⟩ = u at *
  have hasked : t.pl.atsReqs = s.pl.atsReqs := by rw [ht.asked_eq, hlacks, List.map_nil, List.append_nil]
  have hall : x.steps.filter (s.aptHas ctx x.flags) = x.steps := List.filter_eq_self.mpr fun va hva => by
    have hnot := List.filter_eq_nil_iff.mp hlacks va hva
    simpa using hnot
  have hfail : (t.apt ctx i).fail = 0 := by rw [ht.apt_eq, ← hx]; rfl
  rw [State.aptFinish_loaded (by rw [hasked]; exact hfree) (by rw [ht.apt_eq]) hfail] at hrun
  have hdone : (u.aptRun (srcFunc src) ⟨0, ctx, i, 0, false⟩).pl.reqs = [] := by
    rw [hrun]
    exact State.aptEnd_reqs (s := t.setApt ctx i _) ht.reqs_eq 0
  have hsent := State.settle_ends hone haborts rfl hdone (by rw [hrun]; exact ht.aborts_eq)
  rw [hrun] at hsent
  obtain ⟨-, hasked', hapt⟩ := hsent.apts_eq (ctx := ctx) (i := i)
  refine ⟨_, congrArg Host.Outcome.next hop, hapt.trans ?_, (State.aptEnd_ended _ _ (by decide)).sent hsent, hasked'.trans hasked⟩
  refine (State.apt_setApt t ctx i { t.apt ctx i with state := 1 }).trans ?_
  rw [ht.apt_eq, hall]

end

section
variable (hop : Fld.xlAptCtl_op.get v = 1) (hreach : s.reachesCtx (srcFunc src) ctx = true) (hlive : (s.ctx ctx).state = 1)
  (hindex : i < (s.ctx ctx).aptCount) (hloaded : (s.apt ctx i).state = 1 ∨ (s.apt ctx i).state = 2)
include hop hreach hlive hindex hloaded

/-- An unload of an aperture whose accesses have all been performed ends at once. -/
theorem exec_unloadAperture_done (hquiet : s.aptQuiet ctx (s.apt ctx i) = true) :
    ∃ t, exec (.unloadAperture src v) s = .next t ∧ t.apt ctx i = {} ∧ AptEnded t (srcFunc src) 0 := by
  obtain ⟨w, hrec, -, hone, haborts, hop⟩ := State.aptGo_accepted hgo hop hctx hi hverdict hbusy hreqs ha
  obtain ⟨u, hrun, hureqs, huaborts, -, huquiet, -⟩ := hrec.unloads (f := srcFunc src) hreqs hreach hlive hindex hloaded
  generalize w.showApt (srcFunc src) ⟨1, ctx, i, 0, false⟩ = z at *
  have hleave : u.aptLeave (srcFunc src) ⟨1, ctx, i, 0, true⟩ = ((u.setApt ctx i {}).relock).aptEnd (srcFunc src) 0 :=
    if_pos ⟨rfl, huquiet.trans hquiet⟩
  rw [hleave] at hrun
  have hdone : (z.aptRun (srcFunc src) ⟨1, ctx, i, 0, false⟩).pl.reqs = [] := by
    rw [hrun]
    exact State.aptEnd_reqs (s := (u.setApt ctx i {}).relock) hureqs 0
  have hsent := State.settle_ends hone haborts rfl hdone (by rw [hrun]; exact huaborts.trans ha)
  rw [hrun] at hsent
  obtain ⟨-, -, hapt⟩ := hsent.apts_eq (ctx := ctx) (i := i)
  exact ⟨_, congrArg Host.Outcome.next hop, hapt.trans (State.apt_setApt u ctx i {}), (State.aptEnd_ended _ _ (by decide)).sent hsent⟩

/-- An unload with accesses outstanding takes the range out of use, and waits. -/
theorem exec_unloadAperture_waits (hquiet : s.aptQuiet ctx (s.apt ctx i) = false) :
    ∃ t, exec (.unloadAperture src v) s = .next t ∧ t.apt ctx i = { s.apt ctx i with leaving := true }
      ∧ t.fld (xlPage (srcFunc src)) .xlAptStat Fld.xlAptStat_busy = 1 := by
  obtain ⟨w, hrec, hshown, hone, haborts, hop⟩ := State.aptGo_accepted hgo hop hctx hi hverdict hbusy hreqs ha
  obtain ⟨u, hrun, hureqs, huaborts, huapt, huquiet, hufld⟩ := hrec.unloads (f := srcFunc src) hreqs hreach hlive hindex hloaded
  generalize w.showApt (srcFunc src) ⟨1, ctx, i, 0, false⟩ = z at *
  have hleave : u.aptLeave (srcFunc src) ⟨1, ctx, i, 0, true⟩ = u := if_neg fun h => Bool.false_ne_true (hquiet.symm.trans (huquiet.symm.trans h.2))
  rw [hleave] at hrun
  have hsent := State.settle_goes (r' := ⟨1, ctx, i, 0, true⟩) hone haborts rfl (by rw [hrun]; exact hureqs) (by rw [hrun]; exact huaborts.trans ha) rfl
    (.inr (by rw [hrun]; exact huquiet.trans hquiet))
  rw [hrun] at hsent
  obtain ⟨-, -, hapt⟩ := hsent.apts_eq (ctx := ctx) (i := i)
  exact ⟨_, congrArg Host.Outcome.next hop, hapt.trans huapt, by rw [hsent.fld_eq, hufld, hshown]⟩

end

end

end Sys2Proof.Machine
end

section
/-! Page walks, device invalidations and apertures: the obligation, from the rules above. -/

namespace Sys2Proof.Machine

/-- Settles O32: a walk fills the unit's TLB, an invalidation drops and then waits, and the only aperture request of a function is performed as it settles. -/
theorem deviceTranslationsAndApertures : Obligations.DeviceTranslationsAndApertures := by
  unfold Obligations.DeviceTranslationsAndApertures
  refine ⟨fun s hserve => ⟨?_, ?_, ?_⟩, ?_⟩
  · intro unit ctx va e big hlive hva hunit hmiss hwalk hplace
    exact exec_pageWalk hserve hlive hva hunit hmiss hwalk hplace
  · intro src v hgo hverdict f n hbusy hrule hreach
    obtain ⟨t, ht, hshown, hmem, hinval, hdropped⟩ := exec_deviceInvalidate hgo hverdict hbusy hrule rfl rfl rfl hreach
    exact ⟨t, ht, hshown, hmem, hinval, fun hall => hdropped (beq_iff_eq.mpr hall)⟩
  · intro f n all first count hinval hquiet
    exact exec_deviceInvalidateDone hserve hinval hquiet
  · intro src v s _ hgo hverdict hreqs ha _ f pk ctx i x fn pasid has lacks done hbusy
    have hlacks : lacks = x.steps.filter fun va => !s.aptHas ctx x.flags va := by
      refine List.filter_congr fun va _ => congrArg not ?_
      dsimp only [has]
      rw [State.aptHas]
      cases s.atcFind fn pasid va <;> rfl
    have hdone : ∀ t status, AptEnded t f status → done t status := fun t status h => ⟨h.status_eq, h.done_eq, h.busy_eq⟩
    refine ⟨fun hop => ⟨fun hchecks hfew hfree => ⟨fun hsome => ?_, fun hnone => ?_⟩, fun hchecks => ?_⟩,
      fun hop hreach hlive hindex hloaded => ⟨fun hquiet => ?_, fun hquiet => ?_⟩⟩
    · rw [hlacks] at hsome ⊢
      exact exec_loadAperture_asks hgo hverdict hbusy hreqs ha rfl rfl hop hchecks hfew rfl hsome
    · rw [hlacks] at hnone
      obtain ⟨t, ht, hapt, hended, hasked⟩ := exec_loadAperture_loaded hgo hverdict hbusy hreqs ha rfl rfl hop hchecks hfew hfree rfl hnone
      exact ⟨t, ht, hapt, hdone t 0 hended, hasked⟩
    · obtain ⟨t, ht, hapts, hended⟩ := exec_loadAperture_refused hgo hverdict hbusy hreqs ha rfl rfl hop hchecks
      exact ⟨t, ht, hapts, hdone t _ hended⟩
    · obtain ⟨t, ht, hapt, hended⟩ := exec_unloadAperture_done hgo hverdict hbusy hreqs ha rfl rfl hop hreach hlive hindex hloaded hquiet
      exact ⟨t, ht, hapt, hdone t 0 hended⟩
    · exact exec_unloadAperture_waits hgo hverdict hbusy hreqs ha rfl rfl hop hreach hlive hindex hloaded hquiet

end Sys2Proof.Machine
end

section
/-! SUPPORT. Host translations (10 R316 to R320): what dropping ATC entries, asking for them again and sending the completions that can be sent leave. -/

namespace Sys2Proof.Machine

section
variable {s t : State}

/-! ## Held invalidations (10 R320) -/

/-- A message joins its function's stream, and no other. -/
theorem State.outbound_send (s : State) (g : Nat) (m : OutMsg) (f : Nat) : (s.send g m).pl.outbound.at [] f =
    if f = g then s.pl.outbound.at [] g ++ [⟨m, m.target.map s.portOf⟩] else s.pl.outbound.at [] f := SMap.at_put ..

/-- Messages that have joined an outbound stream stay while invalidations complete. -/
theorem State.mem_outbound_settleInvs {f : Nat} {m : OutReq} (h : m ∈ s.pl.outbound.at [] f) : m ∈ s.settleInvs.pl.outbound.at [] f := by
  refine foldl_keeps (P := fun t : State => m ∈ t.pl.outbound.at [] f) (fun t v ht => ?_) h s.pl.atsInvs
  split
  · rw [State.outbound_send]
    split
    · next hf => exact List.mem_append_left _ (hf ▸ ht)
    · exact ht
  · exact ht

/-- With no request and no abort, settling is two passes over the held invalidations. -/
theorem State.settle_idle_eq (hreqs : s.pl.reqs = []) (ha : s.pl.aborts = []) : s.settle = s.settleInvs.settleInvs := by
  have hpass : ∀ u : State, u.pl.reqs = [] → u.pl.aborts = [] → u.settlePass = u.settleInvs := fun u hu hua => by
    have horder : u.reqOrder = [] := by
      unfold State.reqOrder
      rw [hu]
      rfl
    unfold State.settlePass
    rw [horder, List.foldl_nil, State.settleAborts_stay (.of_none hua)]
  have hkept : s.settleInvs.pl.reqs = [] ∧ s.settleInvs.pl.aborts = [] := by
    obtain ⟨_, _, h⟩ := s.settleInvs_sent
    rw [h]
    exact ⟨hreqs, ha⟩
  rw [State.settle, hpass s hreqs ha, hpass _ hkept.1 hkept.2]

/-- The last message of a stream is the one that has just joined it. -/
theorem State.getLast?_send (s : State) (f : Nat) (m : OutMsg) : ((s.send f m).pl.outbound.at [] f).getLast?.map OutReq.msg = some m := by
  rw [State.outbound_send, if_pos rfl, List.getLast?_concat]
  rfl

/-- One held invalidation completes where nothing issued with what it dropped is outstanding. -/
theorem State.settleInvs_one {v : AtsInv} (h : s.pl.atsInvs = [v]) :
    s.settleInvs = if s.invQuiet v.drops then ({ s with pl := { s.pl with atsInvs := [] } }).send v.f (.atsInvDone v.pasid v.va) else s := by
  unfold State.settleInvs
  rw [h, List.foldl_cons, List.foldl_nil, h, List.erase_cons_head]

/-! ## Entries that are dropped (10 R316, R320, R328) -/

/-- Pre-translated commands that lose steps change their queues. -/
theorem State.cmdRefetch_eq (s : State) : ∃ queues, s.cmdRefetch = { s with pl := { s.pl with queues := queues } } := by
  unfold State.cmdRefetch
  refine foldl_keeps (P := fun t : State => ∃ queues, t = { s with pl := { s.pl with queues := queues } }) (fun t e ht => ?_) ⟨_, rfl⟩ s.pl.queues
  refine foldl_keeps (P := fun t : State => ∃ queues, t = { s with pl := { s.pl with queues := queues } }) (fun u c hu => ?_) ht e.2.cmds
  obtain ⟨_, rfl⟩ := hu
  dsimp only
  split
  · exact ⟨_, rfl⟩
  · exact ⟨_, rfl⟩

/-- Dropping entries changes the ATC and the queues; the entries that are left did not pass. -/
theorem State.atcDrop_eq (s : State) (p : AtcEntry → Bool) : ∃ queues atc, s.atcDrop p = { s with pl := { s.pl with queues := queues, atc := atc } }
    ∧ atc.map AtcEntry.unlocked = (s.pl.atc.filter fun e => !p e).map AtcEntry.unlocked := by
  obtain ⟨queues, h⟩ := State.cmdRefetch_eq { s with pl := { s.pl with atc := s.pl.atc.filter fun e => !p e } }
  have hbare : (s.atcDrop p).atcBare = (s.pl.atc.filter fun e => !p e).map AtcEntry.unlocked := by
    unfold State.atcDrop
    rw [State.relock_atcBare, h]
    rfl
  refine ⟨queues, (s.atcDrop p).pl.atc, ?_, hbare⟩
  unfold State.atcDrop
  rw [h]
  rfl

/-- Entries that are as others but for their locks pass what those pass. -/
theorem forall_of_unlocked {l m : List AtcEntry} (h : l.map AtcEntry.unlocked = m.map AtcEntry.unlocked) {P : AtcEntry → Prop}
    (hP : ∀ a b : AtcEntry, a.unlocked = b.unlocked → P a → P b) (hm : ∀ e ∈ m, P e) : ∀ e ∈ l, P e := fun e he => by
  obtain ⟨d, hd, heq⟩ := List.mem_map.mp (h ▸ List.mem_map_of_mem he : e.unlocked ∈ m.map AtcEntry.unlocked)
  exact hP d e heq (hm d hd)

/-- A state that differs by its apertures and translation requests, by its registers and by what has been sent. -/
def State.Asked (s t : State) : Prop := ∃ regs outbound apts reqs,
  t = { s with regs := regs, pl := { s.pl with outbound := outbound, apts := apts, atsReqs := reqs } }

theorem State.Asked.trans {u : State} (h : s.Asked t) (k : t.Asked u) : s.Asked u := by
  obtain ⟨_, _, _, _, rfl⟩ := h
  obtain ⟨_, _, _, _, rfl⟩ := k
  exact ⟨_, _, _, _, rfl⟩

theorem State.Asked.ite {u : State} {c : Prop} [Decidable c] (h : s.Asked t) (k : s.Asked u) : s.Asked (if c then t else u) := by
  split
  · exact h
  · exact k

theorem State.setApt_asked (s : State) (ctx i : Nat) (x : Aperture) : s.Asked (s.setApt ctx i x) := ⟨_, _, _, _, rfl⟩

theorem State.atsSend_asked (s : State) (f pasid va : Nat) (write : Bool) (user : AtsUser) : s.Asked (s.atsSend f pasid va write user) := ⟨_, _, _, _, rfl⟩

/-- Asking again for the steps that apertures have lost changes no more than that. -/
theorem State.aptRefetch_asked (s : State) : s.Asked s.aptRefetch := by
  unfold State.aptRefetch
  refine foldl_keeps (P := fun t : State => s.Asked t) (fun t e ht => .ite ?_ ht) ⟨_, _, _, _, rfl⟩ s.pl.apts
  exact foldl_keeps (P := fun t : State => s.Asked t)
    (fun u va hu => .ite hu (.trans (.ite (hu.trans (State.setApt_asked ..)) hu) (State.atsSend_asked ..))) ht e.2.locked

end

/-! ## ATS_INVALIDATION (10 R320) -/

/-- Whether an entry meets a range does not hang on its locks. -/
theorem AtcEntry.meets_of_unlocked {a b : AtcEntry} (h : a.unlocked = b.unlocked) (f pasid va len : Nat) : a.meets f pasid va len = b.meets f pasid va len := by
  have hmeets : ∀ e : AtcEntry, e.meets f pasid va len = e.unlocked.meets f pasid va len := fun _ => rfl
  rw [hmeets, h, ← hmeets]

/-- An invalidation drops every entry that it meets, and completes or is held. -/
theorem exec_atsInvalidation {s : State} (hserve : s.serving = true) (hlink : s.linkUp = true) (hinvs : s.pl.atsInvs = []) (f pasid va len : Nat)
    {v : AtsInv} (hv : v = ⟨f, pasid, va, (s.pl.atc.filter fun e => e.meets f pasid va len).map fun e => (e.hpa, e.log2)⟩) :
    ∃ t, exec (.atsInvalidation f pasid va len) s = .next t ∧ (∀ e ∈ t.pl.atc, e.meets f pasid va len = false)
      ∧ (if s.invQuiet v.drops then t.pl.atsInvs = [] ∧ ((t.pl.outbound.at [] f).getLast?.map OutReq.msg) = some (.atsInvDone pasid va)
         else t.pl.atsInvs = [v]) := by
  obtain ⟨queues, atc, hdrop, hatc⟩ := (s.bump (regKey 0x200 0) .atuCntInv Fld.atuCntInv_host 1).atcDrop_eq fun e => e.meets f pasid va len
  obtain ⟨regs, outbound, apts, reqs, hrefetch⟩ := State.aptRefetch_asked
    ((s.bump (regKey 0x200 0) .atuCntInv Fld.atuCntInv_host 1).atcDrop fun e => e.meets f pasid va len)
  rw [hdrop] at hrefetch
  obtain ⟨u, hu⟩ : ∃ u : State, u = { s with regs := regs, pl := { s.pl with
      outbound := outbound, apts := apts, atsReqs := reqs, queues := queues, atc := atc, atsInvs := [v] } } := ⟨_, rfl⟩
  have hop : opAtsInvalidation f pasid va len s = u.settleInvs := by
    have hgo : ¬ (¬ (s.serving = true ∧ s.linkUp = true) ∨ 32 ≤ s.pl.atsInvs.length) := by
      rw [hinvs]
      exact fun h => h.elim (fun hno => hno ⟨hserve, hlink⟩) fun hfull => absurd hfull (by decide)
    unfold opAtsInvalidation
    dsimp only
    rw [if_neg hgo, ← hv, hdrop, hrefetch, hu]
    refine congrArg State.settleInvs ?_
    dsimp only
    rw [State.bump_pl, hinvs, List.nil_append]
    rfl
  have hnone : ∀ e ∈ atc, e.meets f pasid va len = false := by
    refine forall_of_unlocked hatc (fun a b hab ha => (AtcEntry.meets_of_unlocked hab ..).symm.trans ha) fun e he => ?_
    simpa using (List.mem_filter.mp he).2
  have hquiet : u.invQuiet v.drops = s.invQuiet v.drops := by rw [hu]; rfl
  have hheld : u.pl.atsInvs = [v] := by rw [hu]
  have hleft : u.pl.atc = atc := by rw [hu]
  clear hu
  have hsettled := State.settleInvs_one hheld
  have hvf : v.f = f ∧ v.pasid = pasid ∧ v.va = va := by rw [hv]; exact ⟨rfl, rfl, rfl⟩
  obtain ⟨hf, hpasid, hva⟩ := hvf
  rw [hquiet, hf, hpasid, hva] at hsettled
  refine ⟨_, congrArg Host.Outcome.next hop, fun e he => ?_, ?_⟩
  · obtain ⟨_, _, hsent⟩ := u.settleInvs_sent
    rw [hsent] at he
    exact hnone e (hleft ▸ he)
  · rw [hsettled]
    split
    · exact ⟨rfl, State.getLast?_send ..⟩
    · exact hheld

end Sys2Proof.Machine
end

section
/-! SUPPORT. Host translations (10 R318): a completion that brings a usable translation. -/

namespace Sys2Proof.Machine

/-- The value listed for a key, of a map whose values have been changed. -/
theorem SMap.find?_map {α : Type} (m : SMap α) (g : α → α) (k : Nat) : SMap.find? (m.map fun e => (e.1, g e.2)) k = (m.find? k).map g := by
  induction m with
  | nil => rfl
  | cons e m ih =>
    rw [List.map_cons, SMap.find?, SMap.find?, ih]
    split
    · rfl
    · rfl

/-- An entry that is cached changes the ATC alone, and stands in it with its locks counted. -/
theorem State.atcInsert_eq (s : State) (e : AtcEntry) : ∃ uses atc, s.atcInsert e = { s with pl := { s.pl with atcUses := uses, atc := atc } }
    ∧ ∃ d ∈ atc, d.f = e.f ∧ d.pasid = e.pasid ∧ d.va = e.va ∧ d.hpa = e.hpa :=
  ⟨_, _, rfl, _, List.mem_map_of_mem List.mem_cons_self, rfl, rfl, rfl, rfl⟩

/-- The completion of a stream's request with the right, of 2 MiB or more, is cached, and the stream goes on. -/
theorem exec_atsCompletion_usable {s : State} (hserve : s.serving = true) (hreqs : s.pl.reqs = []) (ha : s.pl.aborts = []) (hlink : s.linkUp = true)
    {f pasid va q n i : Nat} {r : AtsReply} {r0 : AtsReq} (hr : (s.pl.atsReqs.find? fun x => x.f == f && x.pasid == pasid && x.va == va) = some r0)
    (huser : r0.user = .stream q n i) (hwaits : s.atsWaits r0.user = true) (hpresent : r.present = true) (hsize : 21 ≤ r.log2)
    (hright : (if r0.write then r.w else r.r) = true) :
    ∃ t, exec (.atsCompletion f pasid va r) s = .next t ∧ t.pl.atsReqs = s.pl.atsReqs.erase r0
      ∧ (∃ e ∈ t.pl.atc, e.f = f ∧ e.pasid = pasid ∧ e.va = va / 2 ^ r.log2 * 2 ^ r.log2 ∧ e.hpa = r.hpa / 2 ^ r.log2 * 2 ^ r.log2)
      ∧ ∀ k x, s.pl.streams.find? k = some x → x.ofCmd q n = true → x.index = i → t.pl.streams.find? k = some { x with asked := false } := by
  obtain ⟨e, he⟩ : ∃ e : AtcEntry, e = { f := f, pasid := pasid, va := va / 2 ^ r.log2 * 2 ^ r.log2, log2 := r.log2
                                         hpa := r.hpa / 2 ^ r.log2 * 2 ^ r.log2, r := r.r, w := r.w, locks := 0, used := 0 } := ⟨_, rfl⟩
  obtain ⟨uses, atc, hinsert, hmem⟩ := State.atcInsert_eq { s with pl := { s.pl with atsReqs := s.pl.atsReqs.erase r0 } } e
  obtain ⟨u, hu⟩ : ∃ u : State, u = { s with pl := { s.pl with atsReqs := s.pl.atsReqs.erase r0, atcUses := uses, atc := atc } } := ⟨_, rfl⟩
  have hneed : s.atsNeeds r0 = (!r0.write, r0.write) := by
    unfold State.atsNeeds
    rw [huser]
  have hallowed : ¬ ((!r0.write) = true ∧ ¬ r.r = true ∨ r0.write = true ∧ ¬ r.w = true) := by
    cases hw : r0.write
    · rw [hw] at hright
      exact fun h => h.elim (fun h => h.2 hright) fun h => Bool.noConfusion h.1
    · rw [hw] at hright
      exact fun h => h.elim (fun h => Bool.noConfusion h.1) fun h => h.2 hright
  have hop : opAtsCompletion f pasid va r s = (u.atsAnswer r0 0).settle := by
    unfold opAtsCompletion
    rw [hr]
    dsimp only
    rw [hneed, if_neg (not_not_intro ⟨hserve, hlink⟩), if_neg (not_not_intro hpresent), if_neg (Nat.not_lt.mpr hsize), if_neg hallowed,
      if_pos rfl, ← he, if_neg (by decide : ¬ 0 = 9), hinsert, hu]
  have hanswer : u.atsAnswer r0 0 = u.onStream (.stream q n i) fun x => { x with asked := false } := by
    have hstill : u.atsWaits (.stream q n i) = true := by
      rw [hu, ← huser]
      exact (by rw [huser]; rfl : _ = s.atsWaits r0.user).trans hwaits
    unfold State.atsAnswer
    rw [huser]
    dsimp only
    rw [if_neg (not_not_intro hstill), if_pos rfl]
  have hsame : u.pl.reqs = [] ∧ u.pl.aborts = [] ∧ u.pl.atsReqs = s.pl.atsReqs.erase r0 ∧ u.pl.atc = atc ∧ u.pl.streams = s.pl.streams := by
    rw [hu]
    exact ⟨hreqs, ha, rfl, rfl, rfl⟩
  clear hu
  obtain ⟨hureqs, hua, hasked, hleft, hstreams⟩ := hsame
  obtain ⟨_, _, hsent⟩ := State.settle_idle_sent (s := u.onStream (.stream q n i) fun x => { x with asked := false }) hureqs (.of_none hua)
  rw [hanswer, hsent] at hop
  refine ⟨_, congrArg Host.Outcome.next hop, hasked, ?_, fun k x hk hof hi => ?_⟩
  · obtain ⟨d, hd, hdata⟩ := hmem
    rw [he] at hdata
    exact ⟨d, (hleft.symm ▸ hd : d ∈ u.pl.atc), hdata⟩
  · refine (SMap.find?_map u.pl.streams (fun x => if x.ofCmd q n && x.index == i then { x with asked := false } else x) k).trans ?_
    rw [hstreams, hk, Option.map_some, hof, hi, beq_self_eq_true, Bool.and_true, if_pos rfl]

end Sys2Proof.Machine
end

section
/-! SUPPORT. Host translations (10 R323, R326): a completion without a translation, and the page request that it sends. -/

namespace Sys2Proof.Machine

section
variable {s : State}

/-- Bytes written at their homes leave what Plinth holds. -/
theorem State.homeWriteBytes_pl (s : State) (a : Nat) (bytes : List Byte) : (s.homeWriteBytes a bytes).1.pl = s.pl := by
  unfold State.homeWriteBytes
  refine foldl_keeps (P := fun r : State × Bool => r.1.pl = s.pl) (fun r l hr => ?_) rfl _
  dsimp only
  rw [State.homeWrite_pl, hr]

/-- A saved stream's record leaves what Plinth holds. -/
theorem State.putRecord_pl (s : State) (x : Stream) (state tag : Nat) : (s.putRecord x state tag).pl = s.pl := State.homeWriteBytes_pl ..

theorem State.tagRecords_pl (s : State) (g : PageGroup) (tag : Nat) : (s.tagRecords g tag).pl = s.pl :=
  foldl_keeps (P := fun t : State => t.pl = s.pl) (fun _ _ ht => (State.putRecord_pl ..).trans ht) rfl _

/-- The first group that waits is sent with the lowest free tag, within the host's allocation. -/
theorem State.sendGroups_next {f tag : Nat} {g : PageGroup} (n : Nat) (hg : (s.pl.groups.find? fun x => x.f == f && s.mayPage x) = some g)
    (htag : ((List.range 512).find? fun t => !(s.tagsOf f).contains t) = some tag) (hroom : s.pageRoom f = true) :
    State.sendGroups (n + 1) f s =
      let u := (s.send f (.pageReq tag g.pasid (g.va / 4096 * 4096) g.read g.write)).bump (regKey 0x200 0) .atuCntPri Fld.atuCntPri_groups 1
      State.sendGroups n f (State.tagRecords { u with pl := { u.pl with
        groups := u.pl.groups.map fun x => if x = g then { g with tag := some tag, sentWrite := g.write } else x } } g tag) := by
  conv_lhs => unfold State.sendGroups
  rw [hg, htag]
  exact if_neg (not_not_intro hroom)

/-- The one group of a function with room for it is sent, with the lowest tag. -/
theorem State.pageSend_one {g : PageGroup} (hg : s.pl.groups = [g]) (htag : g.tag = none) (hlate : s.pl.lateTags = [])
    (halloc : 0 < (s.cfg g.f).priAlloc) :
    (s.pageSend g.f).pl = { (s.send g.f (.pageReq 0 g.pasid (g.va / 4096 * 4096) g.read g.write)).pl with
      groups := [{ g with tag := some 0, sentWrite := g.write }] } := by
  have hfree : s.tagsOf g.f = [] := by
    unfold State.tagsOf
    rw [hg, hlate]
    simp [htag]
  have hmay : s.mayPage g = true := by
    unfold State.mayPage
    rw [hg]
    simp [htag]
  have hfind : (s.pl.groups.find? fun x => x.f == g.f && s.mayPage x) = some g := by
    rw [hg]
    exact List.find?_cons_of_pos (by rw [hmay, beq_self_eq_true]; rfl)
  have hlowest : ((List.range 512).find? fun t => !(s.tagsOf g.f).contains t) = some 0 := by
    rw [hfree, List.range_succ_eq_map]
    exact List.find?_cons_of_pos rfl
  have hroom : s.pageRoom g.f = true := by
    unfold State.pageRoom
    rw [hfree]
    exact decide_eq_true halloc
  unfold State.pageSend
  rw [hg, List.length_singleton, State.sendGroups_next 0 hfind hlowest hroom]
  unfold State.sendGroups
  rw [State.tagRecords_pl]
  refine congrArg (fun groups => { (s.send g.f (.pageReq 0 g.pasid (g.va / 4096 * 4096) g.read g.write)).pl with groups := groups }) ?_
  have hsent : ((s.send g.f (.pageReq 0 g.pasid (g.va / 4096 * 4096) g.read g.write)).bump (regKey 0x200 0) .atuCntPri Fld.atuCntPri_groups 1).pl.groups = [g] := hg
  rw [hsent, List.map_singleton, if_pos rfl]

/-- The message of the stream it joins. -/
theorem State.mem_outbound_send (s : State) (f : Nat) (m : OutMsg) : ∃ o ∈ (s.send f m).pl.outbound.at [] f, o.msg = m := by
  rw [State.outbound_send, if_pos rfl]
  exact ⟨_, List.mem_append_right _ (List.mem_singleton_self _), rfl⟩

end

/-- The completion of a stream's first request without a translation sends the page request, within the host's allocation. -/
theorem exec_atsCompletion_absent {s : State} (hserve : s.serving = true) (hreqs : s.pl.reqs = []) (ha : s.pl.aborts = []) (hlink : s.linkUp = true)
    {f pasid va q n i : Nat} {r : AtsReply} {r0 : AtsReq} (hr : (s.pl.atsReqs.find? fun x => x.f == f && x.pasid == pasid && x.va == va) = some r0)
    (huser : r0.user = .stream q n i) (hwaits : s.atsWaits r0.user = true) (habsent : r.present = false) (hfirst : r0.again = false)
    (hpri : (s.cfg f).priEnable = true) (hnofail : (s.cfg f).priFailure = false) (hgroups : s.pl.groups = []) (hlate : s.pl.lateTags = [])
    (halloc : 0 < (s.cfg f).priAlloc) :
    ∃ t g, exec (.atsCompletion f pasid va r) s = .next t ∧ t.pl.groups = [g] ∧ g.tag = some 0 ∧ g.waiters = [r0] ∧ g.region = va / 2 ^ 21
      ∧ ∃ m ∈ t.pl.outbound.at [] f, m.msg = .pageReq 0 pasid (va / 4096 * 4096) (!r0.write) r0.write := by
  obtain ⟨hf, hpasid, hva⟩ : r0.f = f ∧ r0.pasid = pasid ∧ r0.va = va := by simpa [and_assoc] using List.find?_some hr
  obtain ⟨g, hg⟩ : ∃ g : PageGroup, g = ⟨r0.f, r0.pasid, r0.va / 2 ^ 21, r0.va, none, !r0.write, r0.write, false, [r0]⟩ := ⟨_, rfl⟩
  obtain ⟨u, hu⟩ : ∃ u : State, u = { s with pl := { s.pl with atsReqs := s.pl.atsReqs.erase r0 } } := ⟨_, rfl⟩
  have hnone : ¬ r.present = true := Bool.eq_false_iff.mp habsent
  have hop : opAtsCompletion f pasid va r s = (u.atsAnswer r0 8).settle := by
    unfold opAtsCompletion
    rw [hr]
    dsimp only
    rw [if_neg (not_not_intro ⟨hserve, hlink⟩), if_pos hnone, if_neg (by decide : ¬ 8 = 0), if_neg (by decide : ¬ 8 = 9), ← hu]
  have hanswer : u.atsAnswer r0 8 = u.pageFault r0 := by
    have hstill : u.atsWaits (.stream q n i) = true := by
      rw [hu, ← huser]
      exact (by rw [huser]; rfl : _ = s.atsWaits r0.user).trans hwaits
    unfold State.atsAnswer
    rw [huser]
    dsimp only
    rw [if_neg (not_not_intro hstill), if_neg (by decide), hfirst, if_neg Bool.false_ne_true]
  obtain ⟨w, hw⟩ : ∃ w : State, w = u.onStream (.stream q n i) fun x => { x with asked := false, faulted := true } := ⟨_, rfl⟩
  obtain ⟨x, hx⟩ : ∃ x : State, x = { w with pl := { w.pl with groups := [g] } } := ⟨_, rfl⟩
  have hfault : u.pageFault r0 = x.pageSend g.f := by
    have hon : ¬ ((u.cfg r0.f).priFailure = true ∨ ¬ (u.cfg r0.f).priEnable = true) := by
      rw [hf, hu]
      exact fun h => h.elim (fun h => Bool.false_ne_true (hnofail.symm.trans h)) fun h => h hpri
    have hnogroups : w.pl.groups = [] := by
      rw [hw, hu]
      exact hgroups
    unfold State.pageFault
    dsimp only
    rw [if_neg hon, huser, ← hw, hnogroups, ← hg, hx, hg]
    rfl
  have hxs : x.pl.groups = [g] ∧ x.pl.lateTags = [] ∧ 0 < (x.cfg g.f).priAlloc ∧ x.pl.reqs = [] ∧ x.pl.aborts = [] := by
    rw [hx, hw, hu, hg, hf]
    exact ⟨rfl, hlate, halloc, hreqs, ha⟩
  have hgs : g.tag = none ∧ g.waiters = [r0] ∧ g.region = va / 2 ^ 21 ∧ g.f = f ∧ g.pasid = pasid ∧ g.va = va ∧ g.read = !r0.write ∧ g.write = r0.write := by
    rw [hg, hf, hpasid, hva]
    exact ⟨rfl, rfl, rfl, rfl, rfl, rfl, rfl, rfl⟩
  clear hx hw hu hg
  obtain ⟨hxgroups, hxlate, hxalloc, hxreqs, hxa⟩ := hxs
  obtain ⟨htag, hwaiters, hregion, hgf, hgpasid, hgva, hread, hwrite⟩ := hgs
  have hsend := State.pageSend_one hxgroups htag hxlate hxalloc
  generalize hy : x.pageSend g.f = y at hsend hfault
  rw [hanswer, hfault] at hop
  have hyreqs : y.pl.reqs = [] := by rw [hsend]; exact hxreqs
  have hya : y.pl.aborts = [] := by rw [hsend]; exact hxa
  have hygroups : y.pl.groups = [{ g with tag := some 0, sentWrite := g.write }] := by rw [hsend]
  have hyout : y.pl.outbound = (x.send g.f (.pageReq 0 g.pasid (g.va / 4096 * 4096) g.read g.write)).pl.outbound := by rw [hsend]
  obtain ⟨m, hm, hmsg⟩ := State.mem_outbound_send x g.f (.pageReq 0 g.pasid (g.va / 4096 * 4096) g.read g.write)
  rw [← hyout] at hm
  refine ⟨_, { g with tag := some 0, sentWrite := g.write }, congrArg Host.Outcome.next hop, ?_, rfl, hwaiters, hregion, m, ?_, ?_⟩
  · obtain ⟨_, _, hsent⟩ := State.settle_idle_sent hyreqs (.of_none hya)
    rw [hsent]
    exact hygroups
  · rw [State.settle_idle_eq hyreqs hya, ← hgf]
    exact State.mem_outbound_settleInvs (State.mem_outbound_settleInvs hm)
  · rw [hmsg, hgpasid, hgva, hread, hwrite]

end Sys2Proof.Machine
end

section
/-! SUPPORT. A command that ends for want of a translation (10 R324, R333, 11 R363): what its end leaves of the translation state. -/

namespace Sys2Proof.Machine

/-- The apertures, the contexts and their functions, the requests and aborts, and what the ATC holds, locks aside. -/
def State.bindings (s : State) : SMap Aperture × SMap Context × Bool × SMap FuncReqs × List Abort × List AtcEntry :=
  (s.pl.apts, s.pl.ctxs, s.pl.sriov, s.pl.reqs, s.pl.aborts, s.atcBare)

section
variable {s t : State}

theorem State.bindings_of_pl (h : t.pl = s.pl) : t.bindings = s.bindings := by
  unfold State.bindings State.atcBare
  rw [h]

theorem State.bindings_foldl {β : Type} {f : State → β → State} (hf : ∀ t b, (f t b).bindings = t.bindings) (l : List β) (s : State) :
    (l.foldl f s).bindings = s.bindings :=
  foldl_keeps (P := fun t : State => t.bindings = s.bindings) (fun t b h => (hf t b).trans h) rfl l

@[simp] theorem State.setQueue_bindings (s : State) (q : Nat) (x : Queue) : (s.setQueue q x).bindings = s.bindings := rfl
@[simp] theorem State.setCmd_bindings (s : State) (q seq : Nat) (c : Cmd) : (s.setCmd q seq c).bindings = s.bindings := rfl
@[simp] theorem State.endCmd_bindings (s : State) (q seq how : Nat) : (s.endCmd q seq how).bindings = s.bindings := rfl
@[simp] theorem State.pushFence_bindings (s : State) (op : FenceOp) : (s.pushFence op).bindings = s.bindings := rfl
@[simp] theorem State.bump_bindings (s : State) (a : Nat) (r : Reg) (f : Fld) (v : Nat) : (s.bump a r f v).bindings = s.bindings := rfl
@[simp] theorem State.drew_bindings (s : State) (n : Nat) : (s.drew n).bindings = s.bindings := rfl
@[simp] theorem State.setBank_bindings (s : State) (k : Nat) (x : Bank) : (s.setBank k x).bindings = s.bindings := rfl
@[simp] theorem State.send_bindings (s : State) (f : Nat) (m : OutMsg) : (s.send f m).bindings = s.bindings := rfl
@[simp] theorem State.clearHostResv_bindings (s : State) (line own : Nat) : (s.clearHostResv line own).bindings = s.bindings := rfl
@[simp] theorem State.cleared_bindings (s : State) (k : Nat) : (s.setStream k none).bindings = s.bindings := rfl
@[simp] theorem State.abandonGroups_bindings (s : State) (q seq : Nat) : (s.abandonGroups q seq).bindings = s.bindings := rfl

theorem State.relock_bindings (s : State) : s.relock.bindings = s.bindings :=
  congrArg (fun b => (s.pl.apts, s.pl.ctxs, s.pl.sriov, s.pl.reqs, s.pl.aborts, b)) (State.relock_atcBare s)

/-! ## Retirement (09 R284) -/

theorem State.unlockCmd_bindings (s : State) (q seq : Nat) (c : Cmd) : (s.unlockCmd q seq c).bindings = s.bindings := by
  unfold State.unlockCmd
  split
  · rfl
  · rw [State.relock_bindings, State.setCmd_bindings]

theorem State.releaseCmd_bindings (s : State) (q seq : Nat) (c : Cmd) : (s.releaseCmd q seq c).bindings = s.bindings := by
  obtain ⟨_, _, h⟩ := State.releaseCmd_eq (s := s) (q := q) (seq := seq) c
  rw [h]
  exact State.unlockCmd_bindings ..

theorem State.retireOne_bindings (s : State) (q seq code how : Nat) : (s.retireOne q seq code how).bindings = s.bindings := by
  unfold State.retireOne
  split
  · rfl
  · dsimp only
    rw [State.pushFence_bindings, State.endCmd_bindings, State.releaseCmd_bindings]
    split
    · exact State.bump_bindings ..
    · rfl

theorem State.retire_bindings (s : State) (q seq code : Nat) : (s.retire q seq code).bindings = s.bindings := by
  unfold State.retire
  dsimp only
  split
  · exact State.retireOne_bindings ..
  · exact (State.bindings_foldl (fun _ _ => State.retireOne_bindings ..) _ _).trans (State.retireOne_bindings ..)

theorem State.report_bindings (s : State) (q seq code : Nat) : (s.report q seq code).bindings = s.bindings := by
  unfold State.report
  split
  · split
    · exact State.setCmd_bindings ..
    · rfl
  · rfl

/-! ## Streams that are cut (09 R288 step 3) -/

theorem State.hostLineDropped_bindings (s : State) (line : Nat) (hlc : SMap HostLine) (writers : SMap (List Nat)) :
    (State.clearHostResv { s with mem := { s.mem with hlc := hlc }, pl := { s.pl with hostWriters := writers } } line 0x10000).bindings = s.bindings := rfl

theorem State.chStore_bindings (s : State) (ctx : Nat) (h : HostAnswer) (g : Place) (mask : Nat) (data : Line) :
    (s.chStore ctx h g mask data).1.bindings = s.bindings := by
  unfold State.chStore
  split
  · dsimp only
    exact State.bindings_of_pl (State.homeWrite_pl ..)
  · exact State.setBank_bindings ..
  · dsimp only
    split
    · rw [State.send_bindings, State.hostLineDropped_bindings]
    · split
      · rw [State.send_bindings, State.hostLineDropped_bindings]
      · rfl
      · rfl
  · rfl

theorem State.chApply_bindings (s : State) (ctx : Nat) (h : HostAnswer) (cut : Bool) (ws : List (Place × Byte)) :
    (s.chApply ctx h cut ws).1.bindings = s.bindings := by
  unfold State.chApply
  dsimp only
  rw [State.drew_bindings]
  refine foldl_keeps (P := fun r : State × Nat × Nat => r.1.bindings = s.bindings) (fun r x hr => ?_) rfl _
  split
  · exact hr
  · dsimp only
    rw [State.chStore_bindings, hr]

theorem State.cutStream_bindings (s : State) (h : HostAnswer) (k : Nat) (x : Stream) : (s.cutStream h k x).bindings = s.bindings := by
  have hbytes : ∀ (u : State) (n bytes : Nat), (u.chBytes n bytes).bindings = u.bindings := fun u n bytes => by
    unfold State.chBytes
    split
    · rfl
    · exact State.bump_bindings ..
  unfold State.cutStream
  dsimp only
  rw [State.cleared_bindings]
  split
  · rw [hbytes, State.chApply_bindings]
  · rfl

theorem State.cutStreams_bindings (s : State) (h : HostAnswer) (q seq : Nat) : (s.cutStreams h q seq).bindings = s.bindings := by
  have hsaved : ∀ (u : State) (saved : List Stream), State.bindings { u with pl := { u.pl with saved := saved } } = u.bindings := fun _ _ => rfl
  unfold State.cutStreams
  dsimp only
  rw [State.abandonGroups_bindings, hsaved, State.bindings_foldl fun _ _ => State.bindings_of_pl (State.putRecord_pl ..),
    State.bindings_foldl fun _ _ => State.cutStream_bindings ..]

/-! ## Waiters and groups that end (10 R324, R325) -/

theorem State.chCount_bindings (s : State) (n code : Nat) : (s.chCount n code).bindings = s.bindings := by
  unfold State.chCount
  dsimp only
  split
  · exact State.bump_bindings ..
  · rfl

theorem State.endWaiter_bindings (s : State) (u : AtsUser) (code : Nat) : (s.endWaiter u code).bindings = s.bindings := by
  have hcut : ∀ (h : HostAnswer) (q seq n : Nat), ((s.chCount n code).cutStreams h q seq).bindings = s.bindings := fun h q seq n =>
    (State.cutStreams_bindings ..).trans (State.chCount_bindings ..)
  unfold State.endWaiter
  split
  · rfl
  · split
    · rfl
    · split
      · split
        · rfl
        · split
          · exact (State.retire_bindings ..).trans (hcut ..)
          · exact (State.report_bindings ..).trans (hcut ..)
      · exact State.retire_bindings ..

theorem State.endGroup_bindings (s : State) (g : PageGroup) : (s.endGroup g false).bindings = s.bindings :=
  State.bindings_foldl (fun _ _ => State.endWaiter_bindings ..) _ _

end

end Sys2Proof.Machine
end

section
/-! SUPPORT. A host that disables ATS or PRI (10 R333): the loaded apertures of the function's contexts break. -/

namespace Sys2Proof.Machine

section
variable {s t : State} {ctx i : Nat}

theorem State.Recorded.bindings_eq (h : s.Recorded t) : t.bindings = s.bindings := by
  obtain ⟨_, _, _, _, _, _, _, _, rfl⟩ := h
  rfl

/-- What is kept besides the apertures: the contexts, the requests and the ATC. -/
theorem State.aptBreak_bindings (s : State) (ctx i va : Nat) : (s.aptBreak ctx i va).bindings.2 = s.bindings.2 := by
  unfold State.aptBreak
  dsimp only
  split
  · rw [(State.atuEvent_recorded ..).bindings_eq]
    rfl
  · rfl

theorem State.apt_setApt_of_key (s : State) (c j : Nat) (x : Aperture) (ctx i : Nat) :
    (s.setApt c j x).apt ctx i = if aptKey ctx i = aptKey c j then x else s.apt ctx i := SMap.at_put ..

/-- A loaded aperture that breaks is BROKEN, and every other is as it was. -/
theorem State.aptBreak_state (s : State) (c j va ctx i : Nat) :
    ((s.aptBreak c j va).apt ctx i).state = if aptKey ctx i = aptKey c j ∧ (s.apt ctx i).state = 1 then 2 else (s.apt ctx i).state := by
  have hread : ∀ u v : State, u.bindings = v.bindings → u.apt ctx i = v.apt ctx i := fun u v h => congrArg (fun b => b.1.at {} (aptKey ctx i)) h
  unfold State.aptBreak
  dsimp only
  split
  · next hloaded =>
    rw [hread _ _ (State.atuEvent_recorded ..).bindings_eq]
    rw [State.apt_setApt_of_key]
    split
    · next hkey =>
      have hsame : s.apt ctx i = s.apt c j := congrArg (fun k => s.pl.apts.at {} k) hkey
      rw [if_pos ⟨hkey, hsame ▸ hloaded⟩]
    · next hkey => rw [if_neg fun h => hkey h.1]
  · next hidle =>
    refine (if_neg fun ⟨hkey, hloaded⟩ => hidle ?_).symm
    exact (congrArg (fun k => (s.pl.apts.at {} k).state) hkey).symm.trans hloaded

/-- One listed aperture of a function whose translations go. -/
def State.breakStep (f : Nat) (t : State) (e : Nat × Aperture) : State :=
  if t.ctxFunc (e.1 / 64) = f then t.aptBreak (e.1 / 64) (e.1 % 64) e.2.hbase else t

theorem State.breakStep_bindings (f : Nat) (t : State) (e : Nat × Aperture) : (t.breakStep f e).bindings.2 = t.bindings.2 := by
  unfold State.breakStep
  split
  · exact State.aptBreak_bindings ..
  · rfl

theorem State.breakSteps_bindings (f : Nat) (l : List (Nat × Aperture)) (t : State) : (l.foldl (State.breakStep f) t).bindings.2 = t.bindings.2 :=
  foldl_keeps (P := fun u : State => u.bindings.2 = t.bindings.2) (fun _ _ hu => (State.breakStep_bindings ..).trans hu) rfl l

theorem State.ctxFunc_of_bindings (h : t.bindings.2 = s.bindings.2) (ctx : Nat) : t.ctxFunc ctx = s.ctxFunc ctx :=
  State.ctxFunc_of_ctxs (congrArg Prod.fst h) (congrArg (fun b => b.2.1) h) ctx

/-- A step leaves a broken aperture broken, and a loaded one loaded or broken. -/
theorem State.breakStep_state (f : Nat) (t : State) (e : Nat × Aperture) (ctx i : Nat) :
    ((t.breakStep f e).apt ctx i).state = (t.apt ctx i).state ∨ ((t.breakStep f e).apt ctx i).state = 2 := by
  unfold State.breakStep
  split
  · rw [State.aptBreak_state]
    split
    · exact .inr rfl
    · exact .inl rfl
  · exact .inl rfl

/-- The step of an aperture's own entry breaks it, in a context of the function. -/
theorem State.breakStep_own {f : Nat} {e : Nat × Aperture} (hkey : e.1 = aptKey ctx i) (hi : i < 64) (hf : t.ctxFunc ctx = f)
    (h : (t.apt ctx i).state = 1 ∨ (t.apt ctx i).state = 2) : ((t.breakStep f e).apt ctx i).state = 2 := by
  have hctx : e.1 / 64 = ctx := by rw [hkey, aptKey]; omega
  have hindex : e.1 % 64 = i := by rw [hkey, aptKey]; omega
  unfold State.breakStep
  rw [hctx, hindex, if_pos hf, State.aptBreak_state]
  split
  · rfl
  · next hno => exact h.resolve_left fun hloaded => hno ⟨rfl, hloaded⟩

/-- A loaded aperture of a context of the function is broken once every listed aperture has had its step. -/
theorem State.breakSteps_own {f : Nat} {l : List (Nat × Aperture)} (hf : t.ctxFunc ctx = f) (hi : i < 64) (hloaded : (t.apt ctx i).state = 1)
    {x : Aperture} (hx : (aptKey ctx i, x) ∈ l) : ((l.foldl (State.breakStep f) t).apt ctx i).state = 2 := by
  obtain ⟨before, after, rfl⟩ := List.append_of_mem hx
  rw [List.foldl_append, List.foldl_cons]
  have hbefore : ((before.foldl (State.breakStep f) t).apt ctx i).state = 1 ∨ ((before.foldl (State.breakStep f) t).apt ctx i).state = 2 :=
    foldl_keeps (P := fun u : State => (u.apt ctx i).state = 1 ∨ (u.apt ctx i).state = 2)
      (fun u e hu => (State.breakStep_state f u e ctx i).elim (fun h => h.symm ▸ hu) .inr) (.inl hloaded) before
  have hown := State.breakStep_own (e := (aptKey ctx i, x)) rfl hi
    ((State.ctxFunc_of_bindings (State.breakSteps_bindings f before t) ctx).trans hf) hbefore
  exact foldl_keeps (P := fun u : State => (u.apt ctx i).state = 2) (fun u e hu => (State.breakStep_state f u e ctx i).elim (·.trans hu) id) hown after

/-- A function's ATC entries and groups go before its apertures break, and nothing else of the bindings does. -/
theorem State.dropAts_eq (s : State) (f : Nat) : ∃ u : State, s.dropAts f = s.pl.apts.foldl (State.breakStep f) u
    ∧ u.bindings = (s.pl.apts, s.pl.ctxs, s.pl.sriov, s.pl.reqs, s.pl.aborts, (s.pl.atc.filter fun e => !(e.f == f)).map AtcEntry.unlocked) := by
  obtain ⟨queues, atc, hdrop, hatc⟩ := s.atcDrop_eq fun e => e.f == f
  have hkept : (s.atcDrop fun e => e.f == f).bindings
      = (s.pl.apts, s.pl.ctxs, s.pl.sriov, s.pl.reqs, s.pl.aborts, (s.pl.atc.filter fun e => !(e.f == f)).map AtcEntry.unlocked) := by
    rw [hdrop, ← hatc]
    rfl
  have hlate : ∀ (v : State) (late : List (Nat × Nat)), State.bindings { v with pl := { v.pl with lateTags := late } } = v.bindings := fun _ _ => rfl
  unfold State.dropAts
  generalize (s.atcDrop fun e => e.f == f) = v at hkept
  dsimp only
  generalize hu : (v.pl.groups.filter fun g => g.f == f).foldl (fun t g => t.endGroup g false)
    { v with pl := { v.pl with lateTags := v.pl.lateTags.filter fun t => t.1 != f } } = u
  have hu' : u.bindings = v.bindings := by
    rw [← hu, State.bindings_foldl fun _ _ => State.endGroup_bindings .., hlate]
  have hapts : u.pl.apts = s.pl.apts := congrArg Prod.fst (hu'.trans hkept)
  exact ⟨u, by rw [hapts]; rfl, hu'.trans hkept⟩

end

/-- A host that disables ATS or PRI leaves a function no entry, and its loaded apertures BROKEN. -/
theorem exec_hostDisablesAtsPri {s : State} (f : Nat) (hserve : s.serving = true) (hreqs : s.pl.reqs = []) (ha : s.pl.aborts = []) :
    ∃ t, exec (.hostDisablesAtsPri f) s = .next t ∧ (∀ e ∈ t.pl.atc, e.f ≠ f)
      ∧ ∀ ctx i, s.ctxFunc ctx = f → i < 64 → (s.apt ctx i).state = 1 → (t.apt ctx i).state = 2 := by
  obtain ⟨u, hdrop, hu⟩ := s.dropAts_eq f
  have hrest : (s.dropAts f).bindings.2 = u.bindings.2 := hdrop ▸ State.breakSteps_bindings f s.pl.apts u
  have hop : opHostDisablesAtsPri f s = (s.dropAts f).settle := if_pos hserve
  have hrest' := hrest.trans (congrArg Prod.snd hu)
  have hidle : (s.dropAts f).pl.reqs = [] := (congrArg (fun b => b.2.2.1) hrest').trans hreqs
  have hnone : (s.dropAts f).pl.aborts = [] := (congrArg (fun b => b.2.2.2.1) hrest').trans ha
  have hatc : (s.dropAts f).pl.atc.map AtcEntry.unlocked = (s.pl.atc.filter fun e => !(e.f == f)).map AtcEntry.unlocked :=
    congrArg (fun b => b.2.2.2.2) hrest'
  have hsent := State.settle_idle_sent hidle (.of_none hnone)
  refine ⟨_, congrArg Host.Outcome.next hop, fun e he => ?_, fun ctx i hf hi hloaded => ?_⟩
  · have hleft : e ∈ (s.dropAts f).pl.atc := by
      obtain ⟨_, _, h⟩ := hsent
      rwa [h] at he
    refine forall_of_unlocked hatc (P := fun e => e.f ≠ f) (fun a b hab ha => ?_) (fun d hd => ?_) e hleft
    · exact fun hb => ha ((congrArg AtcEntry.f hab).trans hb)
    · simpa using (List.mem_filter.mp hd).2
  · have hctx : u.ctxFunc ctx = s.ctxFunc ctx :=
      State.ctxFunc_of_ctxs (congrArg (fun b => b.2.1) hu) (congrArg (fun b => b.2.2.1) hu) ctx
    have happ : u.apt ctx i = s.apt ctx i := congrArg (fun b => b.1.at {} (aptKey ctx i)) hu
    obtain ⟨x, hx⟩ : ∃ x, s.pl.apts.find? (aptKey ctx i) = some x := by
      cases h : s.pl.apts.find? (aptKey ctx i) with
      | some x => exact ⟨x, rfl⟩
      | none =>
        rw [State.apt, SMap.at, SMap.get, h] at hloaded
        exact absurd hloaded (by decide)
    have hbroken := State.breakSteps_own (hctx.trans hf) hi (happ.symm ▸ hloaded) (SMap.mem_of_find? hx)
    rw [← hdrop] at hbroken
    obtain ⟨-, -, happs⟩ := hsent.apts_eq (ctx := ctx) (i := i)
    exact (congrArg Aperture.state happs).trans hbroken

end Sys2Proof.Machine
end
section
/-! Settles O33. -/

namespace Sys2Proof.Machine

/-- Settles O33: one lemma for each kind of completion, for the invalidation and for the host that disables ATS. -/
theorem hostTranslations : Obligations.HostTranslations := by
  unfold Obligations.HostTranslations
  intro f s hserve hreqs ha
  refine ⟨fun hlink pasid va r r0 q n i hr huser hwaits => ⟨?_, ?_⟩, fun hlink hinvs pasid va len => ?_, exec_hostDisablesAtsPri f hserve hreqs ha⟩
  · exact exec_atsCompletion_usable hserve hreqs ha hlink hr huser hwaits
  · exact exec_atsCompletion_absent hserve hreqs ha hlink hr huser hwaits
  · exact exec_atsInvalidation hserve hlink hinvs f pasid va len rfl

end Sys2Proof.Machine
end
